-- ==== Sys2Proof/Word.lean ====
section
/-! DEFINITION. The unit of stored data: the byte. The manual's multi-byte fields are little-endian sequences of
bytes (R10); counts, indexes and device-time values are natural numbers, reduced where the manual wraps them. -/

namespace Sys2Proof

/-- One byte of memory, of a message or of a link packet. -/
abbrev Byte := BitVec 8

end Sys2Proof
end

