-- ==== Sys2Proof/Syntax.lean ====
section
/-! DEFINITION. The commands the block takes: one constructor of `Instr` per row of the manual's table of operations
and events, with the operands the row needs. What arrives from outside (a packet, a sample, a sensor code, a host
request) is carried by the command; everything else is in the state. -/

namespace Sys2Proof

/-- The value of a dictionary entry: a number (two's complement code for I32 and I64, IEEE code for F32) or the bytes
of a STR or BLOB (Table 17.1). -/
inductive Val where
  | num (n : Nat)
  | bytes (b : List Byte)
deriving DecidableEq, Repr

/-- The transports of the dictionary (R21). -/
inductive Transport where
  | udp
  | mailbox
  | twm
deriving DecidableEq, Repr

/-- Who makes a write: Seusk's firmware, or a client named by CLIENT_ID over one transport. -/
inductive Writer where
  | firmware
  | client (id : Nat) (tr : Transport)
deriving DecidableEq, Repr

/-- The units with a shut-down sequence that an enable entry governs (R27). -/
inductive UnitId where
  | port (p : Fin 4)
  | cluster (c : Fin 8)
  | view (v : Fin 4)
  | mag (p : Fin 4)
  | hevc (s : Fin 8)
  | out (n : Fin 8)
  | eth (p : Fin 2)
  | bank (k : Fin 8)
deriving DecidableEq, Repr

/-- A receive lane: of a sensor port or of a magazine port. -/
inductive LaneRef where
  | sensor (p : Fin 4) (k : Fin 64)
  | mag (p : Fin 4) (k : Fin 8)
deriving DecidableEq, Repr

/-- A port with lanes to deskew. -/
inductive LinkRef where
  | sensor (p : Fin 4)
  | mag (p : Fin 4)
deriving DecidableEq, Repr

/-- What PRBS_SEL selects a pattern for: a sensor lane, a port's sidebands (SB_PRBS_SEL) or a magazine lane. -/
inductive PrbsRef where
  | sensor (p : Fin 4) (k : Fin 64)
  | side (p : Fin 4)
  | mag (p : Fin 4) (k : Fin 8)
deriving DecidableEq, Repr

/-- The lanes that wake together: a port's receive lanes, or one sideband. -/
inductive SideOrRx where
  | rx
  | sb (i : Fin 2)
deriving DecidableEq, Repr

/-- What a dwell's adaptation reports (R69): CTLE code, five DFE taps, inner eye height. -/
structure Equaliser where
  ctle : Nat
  dfe : List Byte
  eyeMv : Nat
deriving DecidableEq, Repr

/-- What the engine reports of a coded HEVC picture (Table 9.7, step 5): the slice data of each slice with its trailing
bits and before emulation prevention, the slice data bits, BITS and FLAGS[1:0] of each CTU, the reconstruction in the
target's layout, whether a read returned POISON, and the buffers accessed outside their bounds. -/
structure EncResult where
  slices : List (List Byte)
  bits : Nat
  ctus : List (Nat × Nat)
  recon : List Byte
  poison : Bool
  bounds : List Nat
deriving DecidableEq, Repr

/-- How the samples of an H.265 picture are coded: chroma format (0 mono, 1 4:2:0, 2 4:2:2, 3 4:4:4), bit depth, full
range, and coded as G, B, R. -/
structure Coding where
  chroma : Nat
  depth : Nat
  full : Bool
  gbr : Bool
deriving DecidableEq, Repr, Inhabited

/-- A picture that firmware finds in delivered H.265 data: POC as an I32 code, whether it is an IDR picture and is
output, its size, CTU size and coding, and its reference picture set: POC and whether long-term (R241, R244). -/
structure AuPicture where
  poc : Nat
  idr : Bool
  shown : Bool
  w : Nat
  h : Nat
  ctu : Nat
  coding : Coding
  rps : List (Nat × Bool)
deriving DecidableEq, Repr

/-- What firmware's parse of an access unit finds: discarded parameter sets (NAL unit type, reason), discarded slices
(POC, reason), and the picture to decode (Table 9.12). -/
structure AccessUnit where
  sets : List (Nat × Nat)
  slices : List (Nat × Nat)
  picture : Option AuPicture
deriving DecidableEq, Repr

/-- A CTU of a decode picture: its place and size, the POC of the first entry of list 0 where it lies in a P or B slice,
its samples plane after plane when decoded, and whether a reference read returned POISON. -/
structure DecCtu where
  x : Nat
  y : Nat
  size : Nat
  list0 : Option Nat
  samples : Option (List (List Nat))
  grey : Bool
deriving DecidableEq, Repr

/-- What the engine reports of a decode picture: slice errors it found (Table 9.14 reasons), its CTUs, the buffers
accessed outside their bounds, and POISON. -/
structure DecResult where
  errs : List Nat
  ctus : List DecCtu
  bounds : List Nat
  poison : Bool
deriving DecidableEq, Repr

/-- A read that DRAM completes: the rank-local line, who asked (0 a requester of the pound, 1 firmware's own region,
2 the migrator), and whether the data were good (0), corrected by the code, in the second read at the latest (1), or
uncorrectable twice (2). -/
structure DramRead where
  line : Nat
  reader : Nat
  result : Nat
deriving DecidableEq, Repr

/-- The training of one rank: the step of Table 11.5 and the lane at which it failed, if a step failed, and its 80
bytes of TRAIN_RESULT. -/
structure RankTrain where
  channel : Nat
  rank : Nat
  fail : Option (Nat × Nat)
  lanes : List Byte
deriving DecidableEq, Repr

/-- A stretch of what the receive lanes of a magazine port take in: stripes, each the block of MA_RX0 to MA_RX7 with its sync
header and its payload as sent (R296), or, with RS-FEC, one codeword of each lane in ten-bit symbols, first sent first
(R297). -/
inductive MagRx where
  | stripes (l : List (List (Nat × Nat)))
  | words (l : List (List Nat))
deriving DecidableEq, Repr

/-- An ACK block with its ACK_SEQ and limits, or a NAK block with its NAK_SEQ (Table 12.2). -/
structure MagAck where
  seq : Nat
  data : Nat
  ctrl : Nat
deriving DecidableEq, Repr

/-- An Ethernet frame received: its bytes without the FCS, whether FCS and coding were good, and the residence time in the
switch, the egress timestamp less the ingress timestamp in TB units (R407). -/
structure EthFrame where
  data : List Byte
  good : Bool
  residence : Nat
deriving DecidableEq, Repr
/-- A Turad message as it reaches the dictionary service: its transport, on UDP the source address and port, the requests of
its session that wait already (R430), and its bytes. -/
structure TuradMsg where
  tr : Transport
  ip : Nat
  port : Nat
  waiting : Nat
  data : List Byte
deriving DecidableEq, Repr
/-- The identity of a session (R437): transport, CLIENT_ID, and on UDP the source address (0 otherwise). -/
structure SessionRef where
  tr : Transport
  client : Nat
  ip : Nat
deriving DecidableEq, Repr
/-- One part of a transaction on the management target's wires (R440, R490): the address with its direction, the bytes
written or the number read, and whether the START that follows comes in the acknowledge slot of the last byte. -/
structure TwmXfer where
  addr : Nat
  read : Bool
  data : List Byte
  count : Nat
  misplaced : Bool
deriving DecidableEq, Repr

/-- The lines as the engine finds them before a START, and its samples of SDA after each falling edge of SCL when it
clears the bus (R485). -/
structure TwLines where
  sclLow : Bool
  sdaLow : Bool
  samples : List Bool
deriving DecidableEq, Repr

/-- What the engine saw of a running two-wire transaction until it ended: 0 it made its STOP, 1 it lost arbitration in an address
or data bit (R486), 2 it lost the line while making a STOP or repeated START (R487), 3 a START came in an acknowledge slot
(R488); the acknowledgements of addresses and write bytes in order; the bytes read. -/
structure TwEnd where
  cut : Fin 4
  acks : List Bool
  data : List Byte
deriving DecidableEq, Repr

/-- The commands (spec/opcode_table.json, one constructor per row). -/
inductive Instr where
  /-- EVENT_ARBITRATION (R23). In each CLK_FAB cycle the event arbiter accepts up to four waiting events from the source queues, numbers them and logs them in the defined order. -/
  | eventArbitration
  /-- EVT_SOURCE_LOST (R26). When a source queue that lost events has drained empty, the arbiter logs EVT_SOURCE_LOST with the loss count. -/
  | evtSourceLost (hi inst : Nat)
  /-- UNIT_ENABLE (R28). An enable of a unit starts it, is held as deferred while the unit shuts down, or has no effect. -/
  | unitEnable (w : Writer) (u : UnitId)
  /-- UNIT_DISABLE (R29). A disable of a unit begins its shut-down sequence, is held as pending while the unit starts, or cancels a deferred enable. -/
  | unitDisable (w : Writer) (u : UnitId)
  /-- UNIT_STARTUP_COMPLETE (R29). A unit's start-up completes, and a pending disable then begins its shut-down at once. -/
  | unitStartupComplete (u : UnitId)
  /-- UNIT_SHUTDOWN_COMPLETE (R27). A unit's shut-down sequence completes, and a deferred enable then restarts the unit from reset. -/
  | unitShutdownComplete (u : UnitId)
  /-- MODE_REQUEST (R36). A write to MODE_REQUEST is checked and either refused or accepted as a mode transition. -/
  | modeRequest (w : Writer) (v : Nat)
  /-- MODE_TRANSITION_COMPLETE (R37). Once every waited-for condition is met, MODE_CURRENT, MODE_TARGET and MODE_EXIT_CAUSE are set together. -/
  | modeTransitionComplete
  /-- MODE_TIMEOUT (R40). A transition still incomplete after MODE_TIMEOUT_S logs MODE_TIMEOUT, and the Etulaiq enters CONFIGURE with cause TRANSITION_TIMEOUT. -/
  | modeTimeout
  /-- FORCED_TRANSITION (R38). A forced exit for RANK_LOST or SCAN_ABORT that waited for a transition in progress starts its own transition. -/
  | forcedTransition
  /-- RECORD_FLUSH_DONE (R42). A FLUSH issued on leaving RECORD completes, and RECORD_FLUSH_DONE is logged with its status. -/
  | recordFlushDone (ns : Fin 4) (status : Nat)
  /-- RAW_SYNC_SOF (R49). A raw-coded SOF sync sequence received on a lane begins a frame. -/
  | rawSyncSof (p : Fin 4) (k : Fin 64) (words : List Nat)
  /-- RAW_SYNC_SOL (R49). A raw-coded SOL sync sequence received on a lane opens a segment. -/
  | rawSyncSol (p : Fin 4) (k : Fin 64) (words : List Nat)
  /-- RAW_SYNC_EOL (R49). A raw-coded EOL sync sequence received on a lane closes a segment, and the row may complete. -/
  | rawSyncEol (p : Fin 4) (k : Fin 64) (words : List Nat) (full : Bool)
  /-- RAW_SYNC_EOF (R49). A raw-coded EOF sync sequence received on a lane, the last one of the port, ends the frame. -/
  | rawSyncEof (p : Fin 4) (k : Fin 64) (words : List Nat)
  /-- STRIPE_PACKET (R57). A stripe-link packet, with the results of both CRC checks, is passed whole to row assembly. -/
  | stripePacket (p : Fin 4) (blocks : List (Nat × Nat)) (full : Bool)
  /-- STRIPE_ALIGN_STRIPE (R54). An ALIGN stripe is received and removed before packets are reassembled. -/
  | stripeAlignStripe (p : Fin 4) (blocks : List (Nat × Nat))
  /-- FRAME_TRIGGER (R61). A trigger issued to a port queues a FRAME_TRIGGER frame on SB0 or is lost. -/
  | frameTrigger (p : Fin 4)
  /-- SIDEBAND_FRAME_SENT (R62). A sideband frame's K29.7 has been sent, which completes a WRITE, and the next queued frame starts. -/
  | sidebandFrameSent (p : Fin 4) (sb : Fin 2)
  /-- SB_SEND (R76). A write of SB_SEND queues a frame of the given type and payload on SB1. -/
  | sbSend (w : Writer) (p : Fin 4) (frame : List Byte)
  /-- CK_FREQ_CHANGE (R63). A write of CK_FREQ holds the reference clock output low before it restarts at the new frequency. -/
  | ckFreqChange (w : Writer) (p : Fin 4) (v : Nat)
  /-- CK_RESTART (R63). After at least 1 µs low, the reference clock output restarts at the new frequency with no shortened pulse. -/
  | ckRestart (p : Fin 4)
  /-- SLIP (R64). A write of SLIP moves the lane's word boundary one bit later. -/
  | slip (w : Writer) (l : LaneRef)
  /-- DWELL (R64). A write of DWELL starts a dwell count over ALIGN_DWELL words or blocks. -/
  | dwell (w : Writer) (l : LaneRef)
  /-- DWELL_DONE (R64). A dwell completes and MATCH_COUNT holds its result. -/
  | dwellDone (l : LaneRef) (matched : Nat) (eq : Equaliser)
  /-- DESKEW_ARM (R65). A write of DESKEW_ARM opens a deskew measurement on the port. -/
  | deskewArm (w : Writer) (p : Fin 4)
  /-- DESKEW_LANDING (R65). A lane shows its deskew event, which opens the window or records the lane's LANDING. -/
  | deskewLanding (l : LaneRef) (pos : Nat)
  /-- DESKEW_WINDOW_END (R65). The 128-word deskew window closes, and lanes with no event fail NO_LANDING. -/
  | deskewWindowEnd (p : LinkRef)
  /-- LANE_LOCK_LOST (R67). A watched lane loses lock, LANE_ALIGN becomes LOST and the port is marked DEGRADED. -/
  | laneLockLost (p : Fin 4) (k : Fin 64)
  /-- PORT_REALIGNED (R68). With REALIGN_AUTO, a port that has been realigned restarts, and PORT_REALIGNED is logged with the interruption. -/
  | portRealigned (p : Fin 4)
  /-- RX_POWER_REQ (R71). A write of RX_POWER_REQ requests a power state for the receive lanes. -/
  | rxPowerReq (w : Writer) (p : Fin 4) (v : Nat)
  /-- SB_POWER_REQ (R70). A write of SB_POWER_REQ requests power states for the sideband lanes. -/
  | sbPowerReq (w : Writer) (p : Fin 4) (v : Nat)
  /-- LANE_WAKE_DONE (R70). A lane's exit latency has elapsed and the lane is ACTIVE, with its alignment verified or searched again. -/
  | laneWakeDone (p : Fin 4) (which : SideOrRx)
  /-- PRBS_SEL (R74). A write of PRBS_SEL selects the test pattern and clears PRBS_BITS and PRBS_ERRORS. -/
  | prbsSel (w : Writer) (l : PrbsRef) (v : Nat)
  /-- LOOP (R73). A write of LOOP sets a lane's near-end serial, near-end parallel or far-end loop. -/
  | loop (w : Writer) (l : LaneRef) (v : Nat)
  /-- PRBS_LOCK (R74). A lane's PRBS checker locks after 64 error-free bits, or unlocks after 64 errors within 1,024 bits. -/
  | prbsLock (l : LaneRef) (bits : List Bool)
  /-- LATE_ROW (R83). The row timeout expires with rows still to come, and the frame ends with LATE. -/
  | lateRow (p : Fin 4)
  /-- STATS_FINAL_WRITE (R124). After the frame's end, the final statistics block is written and STATS_READY is posted. -/
  | statsFinalWrite (p : Fin 4)
  /-- TRIG_PIN_EDGE (R103). An edge on the TRIG_PIN pin fires the burst trigger source 0x01. -/
  | trigPinEdge (tp : Bool) (pin : Fin 64) (falling : Bool)
  /-- TRIG_TIME_REACHED (R103). Device time reaches TRIG_TIME and fires the burst trigger source 0x02. -/
  | trigTimeReached (p : Fin 4)
  /-- TRIG_NOW (R103). A write of TRUE to TRIG_NOW fires the burst trigger source 0x03. -/
  | trigNow (w : Writer) (p : Fin 4)
  /-- SUBMIT (R112). A settings record written to SUBMIT is checked, and then accepted with its landing frame or rejected. -/
  | submit (w : Writer) (p : Fin 4) (rec : List Byte)
  /-- FRAME_TAKE_UP (R135). The dispatcher takes up an ended frame and posts its jobs route by route to the basins or the backlog. -/
  | frameTakeUp
  /-- BACKLOG_POST (R136). When basin room returns, jobs waiting in the backlog are posted, highest class first. -/
  | backlogPost
  /-- BARGE_TAKE_HEAD (R139). An idle barge asks for the head of its own basin and takes it if the weir admits it. -/
  | bargeTakeHead (barge : Fin 64)
  /-- STEAL_GRANT (R140). The steal arbiter grants one victim basin's head to a waiting barge, subject to the weir. -/
  | stealGrant
  /-- JOB_COMPLETE (R133). A barge completes a job, credits the weir, updates the energy estimate and decrements the frame's completion counter. -/
  | jobComplete (barge : Fin 64) (energy : Nat)
  /-- WEIR_TICK (R145). Every 10 µs the weir bucket is refilled at the budget power, scaled by headroom, less the base energy. -/
  | weirTick (base : Nat)
  /-- DEADLINE_MISS (R149). The deadline of a waiting C1 or C2 DEVELOP or DECODE job passes, and the frame's such jobs are discarded. -/
  | deadlineMiss
  /-- C0_LATE (R149). A C0 job still waiting at its deadline logs C0_LATE once for its frame. -/
  | c0Late
  /-- CLOCK_REVIEW (R151). With CLOCK_AUTO, each 1 ms the weir moves the cluster clocks one step slower or faster. -/
  | clockReview
  /-- CLOCK_RAISE_CONFIRMED (R150). After the regulator has confirmed the raised VDD_ENG, the cluster clock is raised. -/
  | clockRaiseConfirmed (c : Fin 8)
  /-- CEILING_CHECK (R152). Every 100 µs the power monitor compares the 1 ms average with WEIR_CEILING_W and stops or restarts clusters. -/
  | ceilingCheck (avg : Nat)
  /-- FB_PHASE_DARK (R158). FB_PHASE 0x01 accumulates the next FB_FRAMES non-dropped frames into the DARK accumulator. -/
  | fbPhaseDark (w : Writer)
  /-- FB_PHASE_FLAT (R158). FB_PHASE 0x02 accumulates the next FB_FRAMES non-dropped frames into the FLAT accumulator. -/
  | fbPhaseFlat (w : Writer)
  /-- FB_PHASE_BUILD (R159). FB_PHASE 0x03 builds the per-pixel table from both accumulators in two passes. -/
  | fbPhaseBuild (w : Writer)
  /-- FB_PHASE_CLEAR (R158). FB_PHASE 0x04 returns both accumulators and both frame counts to zero. -/
  | fbPhaseClear (w : Writer)
  /-- STAGED_WRITE (R182). A write to a staged view entry changes only its staging copy. -/
  | stagedWrite (w : Writer) (key : Nat) (v : Val)
  /-- COMMIT_FRAME (R183). COMMIT_FRAME copies the staging set into the free bank, to govern from frame F. -/
  | commitFrame (w : Writer) (v : Fin 4) (frame : Nat)
  /-- COMMIT_RECORD (R183). COMMIT_RECORD copies the staging set into the free bank, to govern from the first frame that names the settings record. -/
  | commitRecord (w : Writer) (v : Fin 4) (id : Nat)
  /-- COMMIT_CANCEL (R183). COMMIT_CANCEL withdraws a commit that is not yet in effect. -/
  | commitCancel (w : Writer) (v : Fin 4)
  /-- VIEW_BANK_LOADED (R184). Firmware finishes loading a committed set into its bank, which decides whether the set takes effect late. -/
  | viewBankLoaded (v : Fin 4)
  /-- FORCE_I (R204). A write of FORCE_I makes the stream's next picture an I picture. -/
  | forceI (w : Writer) (s : Fin 8)
  /-- AMTAN_PICTURE_OFFERED (R213). The playback service offers an Amtan picture, and firmware checks its header and directory before posting DECODE jobs. -/
  | amtanPictureOffered (s : Fin 8) (pic : List Byte)
  /-- POOL_CMD_MARK (R224). A MARK pool command clears and then sets marks and the TAG of a buffer. -/
  | poolCmdMark (w : Writer) (k : Fin 8) (buf clear set tag : Nat)
  /-- POOL_CMD_GENERATE (R224). A GENERATE pool command fills a FREE buffer with mid-grey and sets GENERATED. -/
  | poolCmdGenerate (w : Writer) (k : Fin 8) (buf set tag : Nat)
  /-- POOL_CMD_RESET_POOL (R224). A RESET_POOL pool command clears every mark of a pool that holds no pin. -/
  | poolCmdResetPool (w : Writer) (k : Fin 8)
  /-- POOL_CMD_ALLOCATE (R224). An ALLOCATE pool command registers a pool's geometry. -/
  | poolCmdAllocate (w : Writer) (k : Fin 8) (geometry base count : Nat)
  /-- ENC_INPUT_DELAY_EXPIRY (R230). INPUT_DELAY_NS after a frame's EOF, an encode stream takes the view's latest buffer as a REPEAT input. -/
  | encInputDelayExpiry (s : Fin 8)
  /-- HEVC_PICTURE_START (R233). The engine starts the next queued picture command after checking, marking and pinning its buffers. -/
  | hevcPictureStart
  /-- PICTURE_CODED (R233). Hardware finishes coding a picture, sets its status and releases the input and the pins. -/
  | pictureCoded (s : Fin 8) (r : EncResult)
  /-- HEVC_ACCESS_UNIT (R241). Firmware parses delivered H.265 data and issues slice commands for a decode picture. -/
  | hevcAccessUnit (s : Fin 8) (au : AccessUnit)
  /-- PICTURE_DECODED (R241). Hardware finishes decoding a picture, and PICTURE_DECODED is logged with the CTUs concealed. -/
  | pictureDecoded (s : Fin 8) (r : DecResult)
  /-- DEC_WATCHDOG (R242). A decode picture's watchdog budget expires, and its undecoded CTUs are concealed. -/
  | decWatchdog (s : Fin 8) (r : DecResult)
  /-- HEVC_OUTPUT_PUBLISH (R245). At its output time, a decoded picture is published to the views bound to the stream. -/
  | hevcOutputPublish (s : Fin 8)
  /-- OUT_RELEASE (R246). The host releases an HEVC output buffer, which returns to the ring once every consumer has released it. -/
  | outRelease (w : Writer) (s : Fin 8) (buf : Nat)
  /-- OUTPUT_FRAME_START (R254). At T_k, a video output latches the view's latest published buffer and begins sending the frame. -/
  | outputFrameStart (n : Fin 8)
  /-- FINDER_MSG (R261). A back-channel message from the finder is received, then stored or discarded as an error. -/
  | finderMsg (n : Fin 8) (bytes : List Byte) (framing : Bool)
  /-- FINDER_PRESENT (R261). A change of the finder presence pin logs FINDER_PRESENT. -/
  | finderPresent (n : Fin 8) (present : Bool)
  /-- DRAM_READ_COMPLETE (R270). A DRAM read completes with good, corrected or, after one retry, uncorrectable data. -/
  | dramReadComplete (c : Fin 12) (r : Fin 4) (read : DramRead)
  /-- SCRUB_READ (R273). The scrubber reads a mapped line in unused command slots and handles it as a read. -/
  | scrubRead (c : Fin 12) (r : Fin 4) (read : DramRead)
  /-- DRAM_TRAINING_COMPLETE (R277). Training of the fitted ranks ends in success or failure. -/
  | dramTrainingComplete (results : List RankTrain)
  /-- RETRAIN (R279). A write of RETRAIN in SERVICE retrains every fitted rank that is not retired. -/
  | retrain (w : Writer)
  /-- REFRESH_TICK (R280). A rank's tREFI tick increments OWED and issues urgent refreshes when OWED exceeds the limit. -/
  | refreshTick (c : Fin 12) (r : Fin 4) (idle : Nat)
  /-- DRFM_ISSUE (R284). A DRFM for a latched row is issued when its bank is idle, or at the rank's next refresh. -/
  | drfmIssue (c : Fin 12) (r : Fin 4) (bank : Fin 32) (rows : List Nat)
  /-- RFM_ISSUE (R285). An RFM command is issued when the activation count of a bank requires it. -/
  | rfmIssue (c : Fin 12) (r : Fin 4) (bank : Fin 32)
  /-- CA_PARITY_ERROR (R286). A device reports a command/address parity error, and its rank fails. -/
  | caParityError (c : Fin 12) (r : Fin 4)
  /-- MIGRATE_DONE (R289). The migration watermark reaches the end of the rank, the spare takes the failed rank's place, and MIGRATE_DONE is logged. -/
  | migrateDone (c : Fin 12)
  /-- MAG_LINK_UP (R298). After 16 consecutive TRAIN blocks with STATE 0x03 on every lane, the magazine link is UP. -/
  | magLinkUp (p : Fin 4) (rx : MagRx)
  /-- MAG_RETRAIN (R299). Lane lock loss, the replay limit or TRAIN after UP takes the magazine link DOWN to retrain. -/
  | magRetrain (p : Fin 4) (cause : Nat)
  /-- MAG_RETRAIN_FAIL (R299). A retrain that has not completed within 50 ms fails, and the third consecutive failure makes the port FAILED. -/
  | magRetrainFail (p : Fin 4)
  /-- MAG_PACKET_DISCARD (R301). A link packet with a CRC failure, an invalid block or an unexpected SEQ is discarded, and the first such discard sends NAK. -/
  | magPacketDiscard (p : Fin 4) (rx : MagRx)
  /-- MAG_DATA_PACKET (R308). A DATA packet is accepted in sequence and delivers one sector of a READ command. -/
  | magDataPacket (p : Fin 4) (rx : MagRx)
  /-- MAG_COMPLETION (R309). A completion packet from the magazine completes the command with its tag. -/
  | magCompletion (p : Fin 4) (rx : MagRx)
  /-- ACK_RECEIVED (R303). An ACK releases the acknowledged packets from the replay buffer and updates the send limits. -/
  | ackReceived (p : Fin 4) (a : MagAck)
  /-- NAK_RECEIVED (R305). After a NAK, the sender completes the current packet and resends every unacknowledged packet in order. -/
  | nakReceived (p : Fin 4) (a : MagAck)
  /-- ACK_TIMER (R302). 500 ns after the oldest unacknowledged good packet, or at a limit advance or an UP, the receiver sends ACK. -/
  | ackTimer (p : Fin 4)
  /-- REPLAY_TIMEOUT (R305). REPLAY_TIMEOUT_NS without an advance of ACK_SEQ makes the sender replay the unacknowledged packets. -/
  | replayTimeout (p : Fin 4)
  /-- LANE_SLEEP_RECEIVED (R316). A LANE_SLEEP block reports that the sender's transmitter sleeps, or asks the receiver to put its transmitter to sleep. -/
  | laneSleepReceived (p : Fin 4) (mode : Nat)
  /-- TEMP_HOLD_TIMEOUT (R315). A WRITE or FLUSH held by the temperature gate for MAG_HOLD_TIMEOUT_S completes TEMP_HOLD_TIMEOUT and is never sent. -/
  | tempHoldTimeout (p : Fin 4)
  /-- MAG_REMOVED (R321). Removal of the magazine completes every outstanding and held command LINK_DOWN and closes the gate. -/
  | magRemoved (p : Fin 4)
  /-- MAG_INSERTED (R317). The presence pin reports insertion, and the port drives the magazine supply on. -/
  | magInserted (p : Fin 4)
  /-- MAG_POWER_UP_DONE (R317). POWER_UP_MS after the supply is switched on, the port starts training the link. -/
  | magPowerUpDone (p : Fin 4)
  /-- MAG_KEY (R319). A write of MAG_KEY stages a 64-byte AES-256-XTS key for the port. -/
  | magKey (w : Writer) (p : Fin 4) (key : List Byte)
  /-- MAG_KEY_CLEAR (R319). A write of TRUE to MAG_KEY_CLEAR stages erasure of the port's key. -/
  | magKeyClear (w : Writer) (p : Fin 4)
  /-- MAG_KEY_APPLY (R320). Once the port has no command outstanding, a held key write or clear takes effect and KEY_ID is checked. -/
  | magKeyApply (p : Fin 4)
  /-- SQ_TAIL_DB (R326). A write of an SQ tail doorbell makes new submission entries available for fetching. -/
  | sqTailDb (n : Fin 64) (v : Nat)
  /-- CQ_HEAD_DB (R326). A write of a CQ head doorbell frees completion entries that the host has consumed. -/
  | cqHeadDb (n : Fin 64) (v : Nat)
  /-- SQ_FETCH_DONE (R326). A fetch of submission entries from host memory completes or fails. -/
  | sqFetchDone (n : Fin 64) (entries : Option (List (List Byte)))
  /-- SQ_ENABLE (R325). A write of SQ_ENABLE starts or stops fetching from a submission queue. -/
  | sqEnable (w : Writer) (n : Fin 64) (v : Bool)
  /-- CQ_ENABLE (R325). A write of CQ_ENABLE enables or disables a completion queue. -/
  | cqEnable (w : Writer) (n : Fin 64) (v : Bool)
  /-- CMD_READ (R336). An admitted READ takes a shared range lock and reads sectors from a magazine or from the pound. -/
  | cmdRead (tag : Nat) (segs : List (Option (List Byte)))
  /-- CMD_WRITE (R339). An admitted WRITE takes an exclusive range lock and completes when its data is in the magazine's write cache. -/
  | cmdWrite (tag : Nat) (segs : List (Option (List Byte)))
  /-- CMD_FLUSH (R339). An admitted FLUSH waits for the earlier commands of its namespace, then flushes the magazine. -/
  | cmdFlush (tag : Nat)
  /-- CMD_TRIM (R339). An admitted TRIM takes an exclusive range lock and completes when its sectors read as zeros. -/
  | cmdTrim (tag : Nat)
  /-- CMD_ABORT (R343). An admitted ABORT stops its target according to the target's state, or completes NOT_FOUND. -/
  | cmdAbort (tag : Nat)
  /-- CMD_IDENTIFY (R349). An admitted IDENTIFY returns the namespace's 4,096-byte IDENTIFY data. -/
  | cmdIdentify (tag : Nat) (segs : List (Option (List Byte)))
  /-- CMD_GET_LOG (R331). An admitted GET_LOG returns the magazine's health or error-log page. -/
  | cmdGetLog (tag : Nat) (segs : List (Option (List Byte)))
  /-- COMPLETION_POST (R330). The completion arbiter takes a completion, writes the CQ entry, signals the vector and frees the tag and range lock. -/
  | completionPost
  /-- PS_TIMER (R345). An idle timer of a magazine port expires, and the port enters the next enabled power state. -/
  | psTimer (p : Fin 4)
  /-- PS_EXIT_DONE (R346). A port's exit to PS0 completes, and the commands that waited for it proceed. -/
  | psExitDone (p : Fin 4)
  /-- FRAME_UNIT_WRITE (R363). The recording service writes a recorded frame, or a gap entry, to its member magazine's clip. -/
  | frameUnitWrite (p : Fin 4)
  /-- CLIP_RECOVER (R366). A write of CLIP_RECOVER scans and rebuilds the OPEN clips of a port and closes them as RECOVERED. -/
  | clipRecover (w : Writer) (p : Nat)
  /-- CLIP_FORMAT (R367). A write of CLIP_FORMAT trims a magazine and initialises an empty clip store on it. -/
  | clipFormat (w : Writer) (p : Nat)
  /-- PCIE_LINK_UP (R370). The PCI Express link trains or changes rate or width, and LINK_UP is logged. -/
  | pcieLinkUp (speed width : Nat)
  /-- DEV_RESET (R386). A write of the key value to DEV_RESET starts a warm reset of the whole device. -/
  | devReset (v : Nat)
  /-- MBX_CTRL (R378). Setting ENABLE zeroes the mailbox offsets and opens the rings, and clearing it ends them. -/
  | mbxCtrl (v : Nat)
  /-- MBX_REQ_TAIL (R378). A write of the mailbox request tail rings the doorbell for new request records. -/
  | mbxReqTail (v : Nat) (records : List (List Byte))
  /-- MBX_RSP_HEAD (R378). A write of the mailbox response head frees response-ring space. -/
  | mbxRspHead (v : Nat)
  /-- EVT_SIZE (R379). A write of a non-zero EVT_SIZE zeroes EVT_HEAD and EVT_TAIL and starts the event log copy. -/
  | evtSize (v : Nat)
  /-- EVT_TAIL (R25). A write of EVT_TAIL frees host event-ring space. -/
  | evtTail (v : Nat)
  /-- EVT_VECTOR_SIGNAL (R379). After EVT_HEAD advances, vector 0 is signalled at most once per EVT_IRQ_HOLDOFF_US. -/
  | evtVectorSignal
  /-- BAR2_WINDOW (R382). A write of BAR2_WINDOW moves the pound window for every later BAR 2 request. -/
  | bar2Window (v : Nat)
  /-- BAR2_READ (R383). A BAR 2 read returns pound data, or completes as an Unsupported Request or a poisoned completion. -/
  | bar2Read (off len : Nat)
  /-- BAR2_WRITE (R383). A BAR 2 write is applied only in OFFLOAD and PLAYBACK with BAR2_WRITE_ENABLE, and is otherwise discarded and counted. -/
  | bar2Write (off : Nat) (data : List Byte)
  /-- TB_NOW_READ (R375). A read of TB_NOW latches the 64-bit value and TB_EPOCH_AT_READ. -/
  | tbNowRead
  /-- TB_RAW_READ (R375). A 32-bit read of the low half of TB_RAW latches the whole 64-bit value. -/
  | tbRawRead
  /-- D3HOT_ENTRY (R384). In D3hot, memory space, SQ fetches, host writes and MSI-X stop. -/
  | d3hotEntry
  /-- D0_RETURN (R384). On return to D0, host-facing work resumes where it stopped. -/
  | d0Return
  /-- HOST_RESET (R385). PERST#, a hot reset, an FLR or a link loss resets only the endpoint's host-facing state and aborts the host commands. -/
  | hostReset (kind : Nat)
  /-- MSIX_UNMASK (R380). Unmasking a vector with its pending bit set sends one message. -/
  | msixUnmask (v : Fin 128)
  /-- REGISTER_WRITE (R374). A write to a BAR 0 register with no row of its own is applied, or discarded by the access rules. -/
  | registerWrite (off : Nat) (width : Nat) (v : Nat)
  /-- TB_EPOCH_WRAP (R393). Device time wraps forward or back, and TB_EPOCH rises or falls by 1. -/
  | tbEpochWrap
  /-- STAGE_ARM (R395). A write of STAGE_ARM arms a staged time-base update, or withdraws it. -/
  | stageArm (w : Writer) (v : Bool)
  /-- STAGE_APPLY (R395). The staged OFFSET, RATE and ANCHOR are applied as a whole in the cycle at or after STAGE_AT. -/
  | stageApply
  /-- TPG_ARM (R399). A write of TPG_ARM arms a pulse generator with its settings, or stops it. -/
  | tpgArm (w : Writer) (n : Fin 16) (v : Bool)
  /-- TPG_FIRE (R399). A generator's next instant is due, and it fires one pulse to its routes. -/
  | tpgFire (n : Fin 16)
  /-- TPG_PULSE_END (R400). A pulse ends after its width in CLK_FAB cycles. -/
  | tpgPulseEnd (n : Fin 16)
  /-- TPG_INVERT (R402). A write of INVERT while the generator is disarmed sets the pin's inactive level at once. -/
  | tpgInvert (w : Writer) (n : Fin 16) (v : Bool)
  /-- ETH_FRAME_RECEIVED (R404). An Ethernet frame is received and switched, delivered to the internal port, or answered there. -/
  | ethFrameReceived (p : Fin 2) (frame : EthFrame)
  /-- ETH_LINK (R403). An Ethernet port's link comes up or goes down. -/
  | ethLink (p : Fin 2) (up : Bool)
  /-- PTP_LAUNCH (R408). A PTP message handed over by firmware is sent at its launch time with hardware-written timestamps. -/
  | ptpLaunch (p : Fin 2) (launch handed : Nat) (frame : List Byte)
  /-- MASTER_LOST (R409). When the master is lost, TB_STATE becomes HOLDOVER and the last RATE is kept. -/
  | masterLost
  /-- PROXY_SEND (R411). The RTP proxy service packetises a coded HEVC picture to PROXY_DEST and releases its buffer. -/
  | proxySend (k : Fin 8)
  /-- TURAD_READ (R425). A Turad READ returns each item's value in order. -/
  | turadRead (m : TuradMsg)
  /-- TURAD_WRITE (R426). A Turad WRITE checks all its items and applies all of them or none. -/
  | turadWrite (m : TuradMsg)
  /-- DICT_WRITE (R419). An accepted write to an entry with no row of its own takes effect and logs DICT_WRITE. -/
  | dictWrite (w : Writer) (key : Nat) (v : Val)
  /-- READ_BLOCK (R428). A READ_BLOCK returns one chunk of a large entry together with TOTAL and CHANGE. -/
  | readBlock (m : TuradMsg)
  /-- WRITE_BLOCK (R428). A WRITE_BLOCK adds one chunk, and the entry is applied when the chunks reach TOTAL. -/
  | writeBlock (m : TuradMsg)
  /-- BLOCK_WRITE_TIMEOUT (R428). A block write that has received no chunk for 10 s is abandoned. -/
  | blockWriteTimeout (r : SessionRef)
  /-- SUBSCRIBE (R431). A SUBSCRIBE sets or replaces the session's event subscription and states START_SEQ. -/
  | subscribe (m : TuradMsg)
  /-- UNSUBSCRIBE (R431). An UNSUBSCRIBE ends the session's subscription. -/
  | unsubscribe (m : TuradMsg)
  /-- EVENT_MESSAGE_SEND (R432). Within 1 ms of its first queued record, an EVENT message carries the queued records and the LOST count. -/
  | eventMessageSend (r : SessionRef)
  /-- AUTH_CHALLENGE (R434). A read of AUTH_CHALLENGE returns a fresh nonce Nd. -/
  | authChallenge (m : TuradMsg)
  /-- AUTH_RESPONSE (R434). A write of AUTH_RESPONSE checks the proof and opens a session with key KS, or records a failure. -/
  | authResponse (m : TuradMsg)
  /-- SESSION_TIMEOUT (R437). A session with no message from its client for SESSION_TIMEOUT_S ends. -/
  | sessionTimeout (r : SessionRef)
  /-- AUTH_LOCKOUT_END (R437). The 10 s lockout that followed 5 failed proofs for a CLIENT_ID ends. -/
  | authLockoutEnd (client : Nat)
  /-- STORE_SAVE (R444). A write of STORE_SAVE snapshots the persistent entries and starts a save, or is held as pending. -/
  | storeSave (w : Writer)
  /-- STORE_SAVE_COMPLETE (R444). The save's writes and read-back checks finish, and then STORE_SAVED or STORE_FAIL is logged. -/
  | storeSaveComplete (fail area : Nat)
  /-- TW_CONTROL_SUBMIT (R440). A write of 0x01 to TW_CONTROL submits the message in TW_BUF to the dictionary service. -/
  | twControlSubmit
  /-- TW_CONTROL_CLEAR (R440). A write of 0x02 to TW_CONTROL clears RSP_READY and ERROR. -/
  | twControlClear
  /-- TWM_TRANSACTION (R489). A transaction addressed to the management target writes the pointer and data, or reads bytes. -/
  | twmTransaction (t : List TwmXfer)
  /-- TWM_WAKE (R491). In STANDBY, a START wakes the management target, which does not acknowledge that transaction. -/
  | twmWake
  /-- TWM_SLEEP (R491). TWM_WAKE_WINDOW_MS after its latest addressed transaction, TWM sleeps again in STANDBY. -/
  | twmSleep
  /-- ENCODER_EDGE (R450). An accepted A or B level change updates the quadrature count. -/
  | encoderEdge (e : Fin 4) (a b : Bool) (held : Nat) (j : Fin 400)
  /-- ENCODER_INDEX (R451). A rising index edge resets or latches the count according to ENC_INDEX_MODE. -/
  | encoderIndex (e : Fin 4) (held : Nat)
  /-- TRACKING_TICK (R452). Every 1 µs the tracking loop updates its position and velocity. -/
  | trackingTick (e : Fin 4)
  /-- SCAN_START (R458). The first slot becomes current at the start source chosen, and SCAN_STARTED is logged. -/
  | scanStart (source : Nat)
  /-- SLOT_TRIGGER (R456). The position P reaches the current slot, which is fired or skipped. -/
  | slotTrigger (j : Fin 400)
  /-- PATTERN_FETCH (R469). A pattern table entry fetched ahead from the pound arrives on chip. -/
  | patternFetch (idx : Nat)
  /-- STROBE_SYNC_PULSE (R472). In CALIBRATE with STROBE_SOURCE 0x01, a strobe-sync pulse fires the next pattern entry. -/
  | strobeSyncPulse
  /-- TW_XFER (R483). A write of TW_XFER queues a client two-wire transaction, or is refused. -/
  | twXfer (w : Writer) (n : Fin 8) (blob : List Byte)
  /-- TW_TRANSACTION_START (R481). When the bus is free, the engine starts the oldest transaction of the highest class, clearing the bus first if needed. -/
  | twTransactionStart (n : Fin 8) (l : TwLines)
  /-- TW_RST_PULSE_END (R485). The TWn_RST_N pulse of TW_RST_TIME_US ends and the bus clear continues. -/
  | twRstPulseEnd (n : Fin 8) (l : TwLines)
  /-- TW_TRANSACTION_COMPLETE (R483). A two-wire transaction ends with its status, and its result is stored. -/
  | twTransactionComplete (n : Fin 8) (r : TwEnd)
  /-- BUS_BUSY_TIMEOUT (R482). A transaction that has waited TW_BUSY_TIMEOUT_US for a busy bus completes BUS_BUSY. -/
  | busBusyTimeout (n : Fin 8)
  /-- STRETCH_TIMEOUT (R480). Clock stretching beyond TW_STRETCH_TIMEOUT_US ends the transaction with TIMEOUT and pulses the reset line. -/
  | stretchTimeout (n : Fin 8)
  /-- BUS_IDLE (R482). SCL and SDA high for 50 µs make the bus no longer busy. -/
  | busIdle (n : Fin 8)
  /-- TW_RST_ASSERT (R479). A write of TW_RST_ASSERT holds TWn_RST_N low, or releases it. -/
  | twRstAssert (w : Writer) (n : Fin 8) (v : Bool)
  /-- HOUSEKEEPING_ROUND (R497). At the end of each round, every reading is converted and every temperature and rail decision is taken. -/
  | housekeepingRound (codes : List Nat) (zones : List Rat) (hot : List (Nat × Nat))
  /-- THERMAL_RESTART_TIMER (R509). The restart timer in THERMAL_HOLD reaches HOLD_TIME_S, and hardware performs a warm reset. -/
  | thermalRestartTimer
  /-- PWR_FAIL (R512). Power fail is posted from the pin or the comparator, the charger stops, the gates start, and hold-up begins. -/
  | pwrFail (source : Nat)
  /-- PWR_RESTORED (R516). The input stays clear for PWR_RESTORE_S, PWR_RESTORED is logged, and a warm reset follows hold-up. -/
  | pwrRestored (mv : Nat)
  /-- POWER_ON_RESET (R526). VDD_AON rising or SYS_RESET_N held low resets everything and senses the fuses again. -/
  | powerOnReset (straps : Nat)
  /-- WARM_RESET (R526). A warm reset resets every unit but keeps the time base and the kept counters, then enters BOOT. -/
  | warmReset (cause : Nat)
  /-- CLOCK_FAIL (R523). The root PLL out of lock, or REFCLK stopped, for 10 µs causes a warm reset with cause CLOCK_FAIL. -/
  | clockFail
  /-- RESET_REQUEST (R528). A write of the key value to RESET_REQUEST requests a warm reset, which may be held or refused. -/
  | resetRequest (w : Writer) (v : Nat)
  /-- BOOT_WATCHDOG_EXPIRY (R530). MODE_CHANGED into STANDBY or SERVICE not logged within BOOT_WDT_S causes a warm reset, cause WATCHDOG. -/
  | bootWatchdogExpiry
  /-- RUNTIME_WATCHDOG_EXPIRY (R530). A second without firmware service of the run-time watchdog causes a warm reset. -/
  | runtimeWatchdogExpiry
  /-- ROM_BOOT (R538). The boot ROM selects a slot, verifies the image and starts firmware, or waits for a push. -/
  | romBoot
  /-- VENG_CONFIRM_TIMEOUT (R541). A VDD_ENG regulator that does not confirm within 100 µs logs VENG_FAULT and keeps the clusters stopped. -/
  | vengConfirmTimeout (reported : Nat)
  /-- BOOT_PUSH_GO (R533). A write of GO to BOOT_PUSH_CTRL makes the ROM verify and run the pushed image, or report the reason for rejection. -/
  | bootPushGo
  /-- FW_UPDATE (R539). A complete FW_UPDATE image is written to the slot not running, verified, and set as TRIAL and preferred. -/
  | fwUpdate (w : Writer) (image : List Byte)
  /-- FW_COMMIT (R540). A commit marks the trial slot COMMITTED and raises ROLLBACK_FUSED to the image's value. -/
  | fwCommit (w : Writer)
  /-- SUBSYSTEM_IDS (R537). A write of SUBSYSTEM_IDS writes the new IDs into the other boot header copy. -/
  | subsystemIds (w : Writer) (v : Nat)
  /-- RAW_SYNC_ABSENT (R81). In raw coding, the word after WIDTH / m samples of a segment is not a sync sequence, so fault 3 of Table 4.2 ends the frame MALFORMED. -/
  | rawSyncAbsent (p : Fin 4) (k : Fin 64) (words : List Nat)
  /-- POWER_LOSS (R554). The supply falls and the device enters OFF, leaving the media and the persistent store as R341, R357 and R445 state. -/
  | powerLoss
  /-- HOST_DATA_TRANSFER (R335). A PCI Express read or write of a command's data buffers completes, or fails and ends the command at that sector with DATA_TRANSFER. -/
  | hostDataTransfer (tag : Nat) (ok : Bool) (data : List Byte)
  /-- LAST_ACTIVE_LINE_SENT (R254). A video output sends the last active line of a frame, and the latched view buffer is no longer being read by a consumer. -/
  | lastActiveLineSent (n : Fin 8)
  /-- SLEEPING_TRANSMITTER_WAKE (R316). The magazine wakes its sleeping transmitter by sending IDLE, and the Etulaiq's receive lanes verify alignment with one dwell. -/
  | sleepingTransmitterWake (p : Fin 4) (matched : List Nat)
  /-- MAC_AGEING (R404). An entry of the switch's learned MAC address table that has not been refreshed for 300 s ages out. -/
  | macAgeing (mac : Nat)
  /-- BUS_CONDITION_SEEN (R482). The engine sees a START, repeated START or STOP made on a two-wire bus by another controller, which makes the bus busy or free. -/
  | busConditionSeen (n : Fin 8) (stop : Bool)
  /-- SCL_LOW_TIMEOUT (R485). SCL has stayed low for TW_BUSY_TIMEOUT_US while the bus is not busy, so the engine pulses TWn_RST_N and clears with SCL in place of SDA. -/
  | sclLowTimeout (n : Fin 8)
deriving DecidableEq, Repr

end Sys2Proof
end

