-- ==== Sys2Proof/WellFormed.lean ====
section
/-! DEFINITION. Which operands a command of the table can carry: numbers within the width of the field, register or entry
that they travel in, and byte strings of the length the manual gives. `exec` is total and does not rest on this check. -/

namespace Sys2Proof

/-- A number that fits `w` bits. -/
def fits (w n : Nat) : Bool := decide (n < 2 ^ w)

/-- A CLIENT_ID is a U16 (Table 17.4). -/
def Writer.wf : Writer → Bool
  | .firmware => true
  | .client id _ => fits 16 id

/-- A numeric value has at most 64 bits; the bytes of a STR or BLOB are whatever they are (Table 17.1). -/
def Val.wf : Val → Bool
  | .num n => fits 64 n
  | .bytes _ => true

/-- A lane reports a CTLE code of 0 to 15, five DFE taps of them, and an eye height in 16 bits (R69). -/
def Equaliser.wf (e : Equaliser) : Bool := fits 4 e.ctle && decide (e.dfe.length = 5) && fits 16 e.eyeMv

/-- A block of the stripe link has a 2-bit sync header and 64 payload bits (R53). -/
def blockWf (b : Nat × Nat) : Bool := fits 2 b.1 && fits 64 b.2

/-- A word of raw coding has at most 16 bits (R49). -/
def wordsWf (l : List Nat) : Bool := l.all (fits 16)

/-- What the eight lanes of a magazine port take in: blocks, or codewords of 528 ten-bit symbols (R296, R297). -/
def MagRx.wf : MagRx → Bool
  | .stripes l => l.all (fun x => decide (x.length = 8) && x.all blockWf)
  | .words l => decide (l.length = 8) && l.all (fun w => decide (w.length = 528) && w.all (fits 10))

/-- An ACK block (Table 12.2): ACK_SEQ of 12 bits and two limits of 16. -/
def MagAck.wf (a : MagAck) : Bool := fits 12 a.seq && fits 16 a.data && fits 16 a.ctrl

/-- A DRAM read is of one of three readers and has one of three results. -/
def DramRead.wf (r : DramRead) : Bool := decide (r.reader < 3) && decide (r.result < 3)

/-- The training of a rank that exists (R266), failing if at all at a step of Table 11.5, with its 80 bytes. -/
def RankTrain.wf (r : RankTrain) : Bool :=
  decide (r.channel < 12) && decide (r.rank < 4) && decide (r.lanes.length = 80) &&
  (match r.fail with | none => true | some (st, lane) => decide (1 ≤ st) && decide (st ≤ 8) && fits 8 lane)

/-- An Ethernet frame has at least its two addresses and its type. -/
def EthFrame.wf (f : EthFrame) : Bool := decide (14 ≤ f.data.length)

/-- A Turad message from an IPv4 address and a UDP port. -/
def TuradMsg.wf (m : TuradMsg) : Bool := fits 32 m.ip && fits 16 m.port

/-- A session's CLIENT_ID and address. -/
def SessionRef.wf (r : SessionRef) : Bool := fits 16 r.client && fits 32 r.ip

/-- An I32 code for the POC, a picture of whole samples in CTUs, and one of the four chroma formats. -/
def AuPicture.wf (x : AuPicture) : Bool := fits 32 x.poc && decide (0 < x.w) && decide (0 < x.h) &&
  decide (0 < x.ctu) && decide (x.coding.chroma < 4) && x.rps.all (fun p => fits 32 p.1)

/-- An access unit whose picture, if any, is well formed. -/
def AccessUnit.wf (a : AccessUnit) : Bool := match a.picture with | none => true | some x => x.wf

/-- A two-wire part on the target's wires carries a 7-bit address. -/
def TwmXfer.wf (t : TwmXfer) : Bool := fits 7 t.addr

/-- A transaction acknowledges at most two addresses and its write bytes, and reads at most 64 bytes (Table 19.3). -/
def TwEnd.wf (r : TwEnd) : Bool := decide (r.acks.length ≤ 66) && decide (r.data.length ≤ 64)

/-- The operands of a command fit the fields they travel in. -/
def Instr.wf : Instr → Bool
  | .eventArbitration => true
  | .evtSourceLost hi inst => fits 8 hi && fits 16 inst
  | .unitEnable w _ => w.wf
  | .unitDisable w _ => w.wf
  | .unitStartupComplete _ => true
  | .unitShutdownComplete _ => true
  | .modeRequest w v => w.wf && fits 16 v
  | .modeTransitionComplete => true
  | .modeTimeout => true
  | .forcedTransition => true
  | .recordFlushDone _ status => fits 8 status
  | .rawSyncSof _ _ words => wordsWf words
  | .rawSyncSol _ _ words => wordsWf words
  | .rawSyncEol _ _ words _ => wordsWf words
  | .rawSyncEof _ _ words => wordsWf words
  | .stripePacket _ blocks _ => blocks.all blockWf
  | .stripeAlignStripe _ blocks => blocks.all blockWf
  | .frameTrigger _ => true
  | .sidebandFrameSent _ _ => true
  | .sbSend w _ _ => w.wf
  | .ckFreqChange w _ v => w.wf && fits 8 v
  | .ckRestart _ => true
  | .slip w _ => w.wf
  | .dwell w _ => w.wf
  | .dwellDone _ matched eq => fits 32 matched && eq.wf
  | .deskewArm w _ => w.wf
  | .deskewLanding _ pos => decide (pos < 128)
  | .deskewWindowEnd _ => true
  | .laneLockLost _ _ => true
  | .portRealigned _ => true
  | .rxPowerReq w _ v => w.wf && fits 8 v
  | .sbPowerReq w _ v => w.wf && fits 8 v
  | .laneWakeDone _ _ => true
  | .prbsSel w _ v => w.wf && fits 8 v
  | .loop w _ v => w.wf && fits 8 v
  | .prbsLock _ _ => true
  | .lateRow _ => true
  | .statsFinalWrite _ => true
  | .trigPinEdge tp pin _ => !tp || decide (pin.val < 16)
  | .trigTimeReached _ => true
  | .trigNow w _ => w.wf
  | .submit w _ _ => w.wf
  | .frameTakeUp => true
  | .backlogPost => true
  | .bargeTakeHead _ => true
  | .stealGrant => true
  | .jobComplete _ _ => true
  | .weirTick _ => true
  | .deadlineMiss => true
  | .c0Late => true
  | .clockReview => true
  | .clockRaiseConfirmed _ => true
  | .ceilingCheck _ => true
  | .fbPhaseDark w => w.wf
  | .fbPhaseFlat w => w.wf
  | .fbPhaseBuild w => w.wf
  | .fbPhaseClear w => w.wf
  | .stagedWrite w key v => w.wf && fits 24 key && v.wf
  | .commitFrame w _ frame => w.wf && fits 64 frame
  | .commitRecord w _ id => w.wf && fits 32 id
  | .commitCancel w _ => w.wf
  | .viewBankLoaded _ => true
  | .forceI w _ => w.wf
  | .amtanPictureOffered _ _ => true
  | .poolCmdMark w _ buf clear set tag => w.wf && fits 8 buf && fits 8 clear && fits 8 set && fits 32 tag
  | .poolCmdGenerate w _ buf set tag => w.wf && fits 8 buf && fits 8 set && fits 32 tag
  | .poolCmdResetPool w _ => w.wf
  | .poolCmdAllocate w _ geometry base count => w.wf && fits 64 geometry && fits 64 base && fits 32 count
  | .encInputDelayExpiry _ => true
  | .hevcPictureStart => true
  | .pictureCoded _ _ => true
  | .hevcAccessUnit _ au => au.wf
  | .pictureDecoded _ _ => true
  | .decWatchdog _ _ => true
  | .hevcOutputPublish _ => true
  | .outRelease w _ buf => w.wf && fits 8 buf
  | .outputFrameStart _ => true
  | .finderMsg _ _ _ => true
  | .finderPresent _ _ => true
  | .dramReadComplete _ _ read => read.wf
  | .scrubRead _ _ read => read.wf
  | .dramTrainingComplete results => results.all RankTrain.wf
  | .retrain w => w.wf
  | .refreshTick _ _ _ => true
  | .drfmIssue _ _ _ _ => true
  | .rfmIssue _ _ _ => true
  | .caParityError _ _ => true
  | .migrateDone _ => true
  | .magLinkUp _ rx => rx.wf
  | .magRetrain _ cause => fits 8 cause
  | .magRetrainFail _ => true
  | .magPacketDiscard _ rx => rx.wf
  | .magDataPacket _ rx => rx.wf
  | .magCompletion _ rx => rx.wf
  | .ackReceived _ a => a.wf
  | .nakReceived _ a => a.wf
  | .ackTimer _ => true
  | .replayTimeout _ => true
  | .laneSleepReceived _ mode => fits 8 mode
  | .tempHoldTimeout _ => true
  | .magRemoved _ => true
  | .magInserted _ => true
  | .magPowerUpDone _ => true
  | .magKey w _ key => w.wf && decide (key.length = 64)
  | .magKeyClear w _ => w.wf
  | .magKeyApply _ => true
  | .sqTailDb _ v => fits 64 v
  | .cqHeadDb _ v => fits 64 v
  | .sqFetchDone _ entries => (match entries with | none => true | some l => l.all (fun e => decide (e.length = 64)))
  | .sqEnable w _ _ => w.wf
  | .cqEnable w _ _ => w.wf
  | .cmdRead tag _ => fits 16 tag
  | .cmdWrite tag _ => fits 16 tag
  | .cmdFlush tag => fits 16 tag
  | .cmdTrim tag => fits 16 tag
  | .cmdAbort tag => fits 16 tag
  | .cmdIdentify tag _ => fits 16 tag
  | .cmdGetLog tag _ => fits 16 tag
  | .completionPost => true
  | .psTimer _ => true
  | .psExitDone _ => true
  | .frameUnitWrite _ => true
  | .clipRecover w p => w.wf && fits 8 p
  | .clipFormat w p => w.wf && fits 8 p
  | .pcieLinkUp speed width => decide (1 ≤ speed) && decide (speed ≤ 6) && [1, 2, 4, 8].contains width
  | .devReset v => fits 64 v
  | .mbxCtrl v => fits 64 v
  | .mbxReqTail v _ => fits 64 v
  | .mbxRspHead v => fits 64 v
  | .evtSize v => fits 64 v
  | .evtTail v => fits 64 v
  | .evtVectorSignal => true
  | .bar2Window v => fits 64 v
  | .bar2Read off len => fits 64 off && fits 13 len
  | .bar2Write off data => fits 64 off && decide (data.length ≤ 4096)
  | .tbNowRead => true
  | .tbRawRead => true
  | .d3hotEntry => true
  | .d0Return => true
  | .hostReset kind => decide (1 ≤ kind) && decide (kind ≤ 4)
  | .msixUnmask _ => true
  | .registerWrite off width v => decide (width = 4 ∨ width = 8) && decide (off % width = 0) && fits (8 * width) v
  | .tbEpochWrap => true
  | .stageArm w _ => w.wf
  | .stageApply => true
  | .tpgArm w _ _ => w.wf
  | .tpgFire _ => true
  | .tpgPulseEnd _ => true
  | .tpgInvert w _ _ => w.wf
  | .ethFrameReceived _ frame => frame.wf
  | .ethLink _ _ => true
  | .ptpLaunch _ launch handed _ => fits 64 launch && fits 64 handed
  | .masterLost => true
  | .proxySend _ => true
  | .turadRead m => m.wf
  | .turadWrite m => m.wf
  | .dictWrite w key v => w.wf && fits 24 key && v.wf
  | .readBlock m => m.wf
  | .writeBlock m => m.wf
  | .blockWriteTimeout r => r.wf
  | .subscribe m => m.wf
  | .unsubscribe m => m.wf
  | .eventMessageSend r => r.wf
  | .authChallenge m => m.wf
  | .authResponse m => m.wf
  | .sessionTimeout r => r.wf
  | .authLockoutEnd client => fits 16 client
  | .storeSave w => w.wf
  | .storeSaveComplete _ _ => true
  | .twControlSubmit => true
  | .twControlClear => true
  | .twmTransaction t => t.all TwmXfer.wf
  | .twmWake => true
  | .twmSleep => true
  | .encoderEdge _ _ _ _ _ => true
  | .encoderIndex _ _ => true
  | .trackingTick _ => true
  | .scanStart source => fits 8 source
  | .slotTrigger _ => true
  | .patternFetch idx => fits 16 idx
  | .strobeSyncPulse => true
  | .twXfer w _ _ => w.wf
  | .twTransactionStart _ _ => true
  | .twRstPulseEnd _ _ => true
  | .twTransactionComplete _ r => r.wf
  | .busBusyTimeout _ => true
  | .stretchTimeout _ => true
  | .busIdle _ => true
  | .twRstAssert w _ _ => w.wf
  | .housekeepingRound codes _ _ => decide (codes.length = 48) && codes.all (fits 16)
  | .thermalRestartTimer => true
  | .pwrFail source => fits 8 source
  | .pwrRestored mv => fits 16 mv
  | .powerOnReset straps => fits 5 straps
  | .warmReset cause => fits 8 cause
  | .clockFail => true
  | .resetRequest w v => w.wf && fits 32 v
  | .bootWatchdogExpiry => true
  | .runtimeWatchdogExpiry => true
  | .romBoot => true
  | .vengConfirmTimeout reported => fits 16 reported
  | .bootPushGo => true
  | .fwUpdate w _ => w.wf
  | .fwCommit w => w.wf
  | .subsystemIds w v => w.wf && fits 32 v
  | .rawSyncAbsent _ _ words => wordsWf words
  | .powerLoss => true
  | .hostDataTransfer tag _ _ => fits 16 tag
  | .lastActiveLineSent _ => true
  | .sleepingTransmitterWake _ matched => decide (matched.length = 8) && matched.all (fits 32)
  | .macAgeing mac => fits 48 mac
  | .busConditionSeen _ _ => true
  | .sclLowTimeout _ => true

end Sys2Proof
end

