-- ==== Sys2Proof/Decode.lean ====
section
/-! DEFINITION. What a word spells by the bits of the table: the table gives no row any bits, since its rows are operations
and events of the block and no instructions with an encoding (assumption 2). -/

namespace Sys2Proof

/-- The command that a word of `nbits` bits spells: none, for the table gives its rows no bits. -/
def decodeTableWord (_nbits _w : Nat) : Option Instr := none

end Sys2Proof
end

