-- ==== Sys2Proof/Machine/Bits.lean ====
section
/-! DEFINITION. Bit fields, byte order (R10), two's complement and the two cyclic checks the manual names. -/

namespace Sys2Proof.Machine

/-- The field NAME[hi:lo] of a value (R10). -/
def field (n hi lo : Nat) : Nat := (n >>> lo) % 2 ^ (hi + 1 - lo)

/-- `n` with the field [hi:lo] replaced by `v` (R10). -/
def setField (n hi lo v : Nat) : Nat :=
  n - (field n hi lo) * 2 ^ lo + (v % 2 ^ (hi + 1 - lo)) * 2 ^ lo

/-- Bit `i` as 0 or 1. -/
def bit (n i : Nat) : Nat := (n >>> i) % 2

/-- `n` with bit `i` set or cleared. -/
def setBit (n i : Nat) (b : Bool) : Nat := setField n i i (if b then 1 else 0)

/-- A Boolean as the BOOL values 0x00 and 0x01 (Table 17.1). -/
def b2n (b : Bool) : Nat := if b then 1 else 0

/-- `n` little-endian bytes of a value (R10). -/
def leBytes : Nat → Nat → List Byte
  | 0, _ => []
  | k + 1, v => BitVec.ofNat 8 v :: leBytes k (v / 256)

/-- The value of little-endian bytes (R10). -/
def leNat : List Byte → Nat
  | [] => 0
  | b :: bs => b.toNat + 256 * leNat bs

/-- Most significant byte first. -/
def beBytes (k v : Nat) : List Byte := (leBytes k v).reverse

/-- The value of bytes sent most significant first. -/
def beNat (bs : List Byte) : Nat := bs.foldl (fun a b => a * 256 + b.toNat) 0

/-- `k` zero bytes. -/
def zeros (k : Nat) : List Byte := List.replicate k 0

/-- The `n` bytes at offset `off`; bytes beyond the end are absent. -/
def sliceB (bs : List Byte) (off n : Nat) : List Byte := (bs.drop off).take n

/-- The little-endian field of `n` bytes at offset `off` of a structure (R10). -/
def rdLe (bs : List Byte) (off n : Nat) : Nat := leNat (sliceB bs off n)

/-- `bs` with the bytes of `v` put at offset `off` (the structure is long enough). -/
def putB (bs : List Byte) (off : Nat) (v : List Byte) : List Byte :=
  bs.take off ++ v ++ bs.drop (off + v.length)

/-- `bs` padded with zeros, or cut, to exactly `n` bytes. -/
def padTo (n : Nat) (bs : List Byte) : List Byte := bs.take n ++ zeros (n - bs.length)

/-- `bs` padded with zeros to a multiple of `m`. -/
def padMul (m : Nat) (bs : List Byte) : List Byte := bs ++ zeros ((m - bs.length % m) % m)

/-- The bytes of an ASCII label. -/
def ascii (s : String) : List Byte := s.toList.map (fun c => BitVec.ofNat 8 c.toNat)

/-- `v` rounded up to a multiple of `m`. -/
def roundUp (v m : Nat) : Nat := if m = 0 then v else (v + m - 1) / m * m

/-- ⌈a / b⌉. -/
def ceilDiv (a b : Nat) : Nat := if b = 0 then 0 else (a + b - 1) / b

/-- The two's complement reading of the low `w` bits (types I32 and I64 of Table 17.1). -/
def toInt (w n : Nat) : Int :=
  let m := n % 2 ^ w
  if m < 2 ^ (w - 1) then (m : Int) else (m : Int) - (2 ^ w : Nat)

/-- The two's complement code of an integer in `w` bits. -/
def ofInt (w : Nat) (i : Int) : Nat := (i % ((2 ^ w : Nat) : Int)).toNat

/-- `i` limited to lo … hi. -/
def clampI (lo hi i : Int) : Int := max lo (min hi i)

/-- A counter of `w` bits one higher, wrapping. -/
def incW (w n : Nat) : Nat := (n + 1) % 2 ^ w

/-- s1 is newer than s0 under the serial-number arithmetic of R429. -/
def newer32 (s1 s0 : Nat) : Bool :=
  let d := (s1 + 2 ^ 32 - s0 % 2 ^ 32) % 2 ^ 32
  decide (1 ≤ d) && decide (d < 2 ^ 31)

/-- One bit of a reflected CRC register. -/
def crcBitRefl (poly c : Nat) : Nat := if c % 2 = 1 then Nat.xor (c / 2) poly else c / 2

/-- One byte of the CRC-32C register (reflected polynomial 0x82F63B78). -/
def crc32cByte (c : Nat) (b : Byte) : Nat :=
  (List.range 8).foldl (fun a _ => crcBitRefl 0x82F63B78 a) (Nat.xor c b.toNat)

/-- CRC-32C of a byte sequence (R56). -/
def crc32c (bs : List Byte) : Nat := Nat.xor (bs.foldl crc32cByte 0xFFFFFFFF) 0xFFFFFFFF

/-- One bit of a CRC-16 register with polynomial 0x1021, most significant bit first. -/
def crc16Bit (c : Nat) : Nat :=
  if 32768 ≤ c then Nat.xor ((c * 2) % 65536) 0x1021 else (c * 2) % 65536

/-- One byte of the CRC-16 register. -/
def crc16Byte (c : Nat) (b : Byte) : Nat :=
  (List.range 8).foldl (fun a _ => crc16Bit a) (Nat.xor c (b.toNat * 256))

/-- CRC-16 with initial value 0xFFFF (R55). -/
def crc16 (bs : List Byte) : Nat := bs.foldl crc16Byte 0xFFFF

/-- The value at position `i` of a list of records, or the record type's default. -/
def nth {α : Type} [Inhabited α] (l : List α) (i : Nat) : α := l.getD i default

/-- The integer square root's companion: sum of a list of naturals. -/
def sumN (l : List Nat) : Nat := l.foldl (· + ·) 0

/-- Sum of a list of integers. -/
def sumI (l : List Int) : Int := l.foldl (· + ·) 0

/-- The least number of a list, if it has one. -/
def minN? (l : List Nat) : Option Nat :=
  l.foldl (fun a x => match a with | none => some x | some y => some (min x y)) none

end Sys2Proof.Machine
end

