-- ==== Sys2Proof/Machine/Float.lean ====
section
/-! DEFINITION. IEEE 754 binary formats as exact rationals with one rounding per operation, to nearest, ties to even.
Every F32 value of the dictionary and every binary32 stage of the pipeline goes through these definitions. The
series at the end give the elementary functions the manual names, to far more places than binary32 holds
(assumption 12). -/

namespace Sys2Proof.Machine

/-- What a floating-point code denotes: a NaN, an infinity, or a sign and an exact magnitude. -/
inductive FVal where
  | nan
  | inf (neg : Bool)
  | fin (neg : Bool) (mag : Rat)
deriving DecidableEq, Repr

/-- A binary interchange format: exponent and fraction widths. -/
structure FFmt where
  ebits : Nat
  mbits : Nat
deriving DecidableEq, Repr

/-- binary16. -/
def f16 : FFmt := { ebits := 5, mbits := 10 }
/-- binary32 (type F32, Table 17.1). -/
def f32 : FFmt := { ebits := 8, mbits := 23 }
/-- binary64. -/
def f64 : FFmt := { ebits := 11, mbits := 52 }

/-- 2 to an integer power. -/
def pow2 (e : Int) : Rat :=
  if 0 ≤ e then (((2 ^ e.toNat : Nat) : Int) : Rat) else 1 / (((2 ^ (-e).toNat : Nat) : Int) : Rat)

/-- The exponent bias. -/
def FFmt.bias (f : FFmt) : Nat := 2 ^ (f.ebits - 1) - 1

/-- What the code `n` denotes in format `f`. -/
def FFmt.decode (f : FFmt) (n : Nat) : FVal :=
  let m := n % 2 ^ f.mbits
  let e := (n / 2 ^ f.mbits) % 2 ^ f.ebits
  let neg := (n / 2 ^ (f.mbits + f.ebits)) % 2 = 1
  if e = 2 ^ f.ebits - 1 then
    (if m = 0 then .inf neg else .nan)
  else if e = 0 then
    .fin neg ((m : Int) * pow2 (1 - (f.bias : Int) - f.mbits))
  else
    .fin neg (((2 ^ f.mbits + m : Nat) : Int) * pow2 ((e : Int) - f.bias - f.mbits))

/-- The greatest e with 2^e ≤ q, for q > 0. -/
def floorLog2 (q : Rat) : Int :=
  let e : Int := (Nat.log2 q.num.natAbs : Int) - (Nat.log2 q.den : Int)
  if q < pow2 e then e - 1 else if pow2 (e + 1) ≤ q then e + 1 else e

/-- The nearest integer to q ≥ 0, ties to even. -/
def roundEven (q : Rat) : Nat :=
  let n := q.num.natAbs / q.den
  let r := 2 * (q.num.natAbs % q.den)
  if r < q.den then n else if q.den < r then n + 1 else if n % 2 = 0 then n else n + 1

/-- The code nearest to a sign and a magnitude, ties to even. -/
def FFmt.round (f : FFmt) (neg : Bool) (q : Rat) : Nat :=
  let s := if neg then 2 ^ (f.mbits + f.ebits) else 0
  if q ≤ 0 then s
  else
    let e := max (floorLog2 q) (1 - (f.bias : Int))
    let n := roundEven (q / pow2 (e - f.mbits))
    -- a carry of the rounding runs into the exponent field by itself
    let code := ((e + f.bias - 1).toNat) * 2 ^ f.mbits + n
    let maxc := (2 ^ f.ebits - 1) * 2 ^ f.mbits
    if maxc ≤ code then s + maxc else s + code

/-- The quiet NaN code. -/
def FFmt.nanCode (f : FFmt) : Nat := (2 ^ f.ebits - 1) * 2 ^ f.mbits + 2 ^ (f.mbits - 1)

/-- The code of a value. -/
def FFmt.encode (f : FFmt) : FVal → Nat
  | .nan => f.nanCode
  | .inf neg => (if neg then 2 ^ (f.mbits + f.ebits) else 0) + (2 ^ f.ebits - 1) * 2 ^ f.mbits
  | .fin neg q => f.round neg q

/-- A finite value of either sign from an exact rational; an exact zero is positive. -/
def FVal.ofRat (q : Rat) : FVal := if q < 0 then .fin true (-q) else .fin false q

/-- The exact rational of a finite value; NaN and infinities read as 0 (callers test first). -/
def FVal.toRat : FVal → Rat
  | .nan => 0
  | .inf _ => 0
  | .fin neg q => if neg then -q else q

/-- The value is a number. -/
def FVal.isFin : FVal → Bool
  | .fin _ _ => true
  | _ => false

/-- Sign bit. -/
def FVal.isNeg : FVal → Bool
  | .fin neg _ => neg
  | .inf neg => neg
  | .nan => false

/-- Sum of two values before rounding. -/
def FVal.add : FVal → FVal → FVal
  | .nan, _ => .nan
  | _, .nan => .nan
  | .inf a, .inf b => if a = b then .inf a else .nan
  | .inf a, .fin _ _ => .inf a
  | .fin _ _, .inf b => .inf b
  | .fin a p, .fin b q =>
    if a = b then .fin a (p + q)
    else
      let r := (if a then -p else p) + (if b then -q else q)
      if r = 0 then .fin false 0 else FVal.ofRat r

/-- Product of two values before rounding. -/
def FVal.mul : FVal → FVal → FVal
  | .nan, _ => .nan
  | _, .nan => .nan
  | .inf a, .inf b => .inf (a != b)
  | .inf a, .fin b q => if q = 0 then .nan else .inf (a != b)
  | .fin a p, .inf b => if p = 0 then .nan else .inf (a != b)
  | .fin a p, .fin b q => .fin (a != b) (p * q)

/-- Quotient of two values before rounding. -/
def FVal.div : FVal → FVal → FVal
  | .nan, _ => .nan
  | _, .nan => .nan
  | .inf _, .inf _ => .nan
  | .inf a, .fin b _ => .inf (a != b)
  | .fin a _, .inf b => .fin (a != b) 0
  | .fin a p, .fin b q =>
    if q = 0 then (if p = 0 then .nan else .inf (a != b)) else .fin (a != b) (p / q)

/-- Negation. -/
def FVal.neg : FVal → FVal
  | .nan => .nan
  | .inf a => .inf (!a)
  | .fin a p => .fin (!a) p

/-- The value rounded to binary32. -/
def FVal.r32 (v : FVal) : FVal := f32.decode (f32.encode v)

/-- Strictly less; false when either is a NaN. -/
def FVal.lt : FVal → FVal → Bool
  | .nan, _ => false
  | _, .nan => false
  | .inf a, .inf b => a && !b
  | .inf a, .fin _ _ => a
  | .fin _ _, .inf b => !b
  | .fin a p, .fin b q => decide ((if a then -p else p) < (if b then -q else q))

/-- Less or equal; false when either is a NaN. -/
def FVal.le : FVal → FVal → Bool
  | .nan, _ => false
  | _, .nan => false
  | x, y => !(FVal.lt y x)

/-- What an F32 code denotes. -/
abbrev f32v (n : Nat) : FVal := f32.decode n

/-- The F32 code of an exact rational. -/
def f32OfRat (q : Rat) : Nat := f32.encode (FVal.ofRat q)

/-- The exact rational of an F32 code (0 for a NaN or an infinity). -/
def f32Rat (n : Nat) : Rat := (f32v n).toRat

/-- The F32 code of a natural number. -/
def f32OfNat (n : Nat) : Nat := f32OfRat ((n : Int) : Rat)

/-- The F32 NaN code written where the manual says NaN. -/
def f32NaN : Nat := f32.nanCode

/-- binary32 sum, product, quotient and difference, each rounded once. -/
def fadd (a b : FVal) : FVal := (FVal.add a b).r32
/-- binary32 product. -/
def fmul (a b : FVal) : FVal := (FVal.mul a b).r32
/-- binary32 quotient. -/
def fdiv (a b : FVal) : FVal := (FVal.div a b).r32
/-- binary32 difference. -/
def fsub (a b : FVal) : FVal := fadd a b.neg

/-- A binary32 value of an exact rational. -/
def fr (q : Rat) : FVal := (FVal.ofRat q).r32

/-- The lesser of two values (the second when either is a NaN). -/
def fmin (a b : FVal) : FVal := if FVal.lt a b then a else b
/-- The greater of two values (the second when either is a NaN). -/
def fmax (a b : FVal) : FVal := if FVal.lt b a then a else b

/-- ⌊q⌋. -/
def ratFloor (q : Rat) : Int := q.num.fdiv (q.den : Int)

/-- The nearest integer, ties to even. -/
def ratRoundEven (q : Rat) : Int := if q < 0 then -((roundEven (-q) : Nat) : Int) else (roundEven q : Int)

/-- The nearest integer, ties away from zero. -/
def ratRoundAway (q : Rat) : Int :=
  if q < 0 then -(ratFloor (-q + 1 / 2)) else ratFloor (q + 1 / 2)

/-! Elementary functions, in fixed point with 96 fraction bits. -/

/-- The fixed-point one, 2^96. -/
def fxOne : Int := 2 ^ 96

/-- A rational in fixed point. -/
def toFx (q : Rat) : Int := ratFloor (q * (fxOne : Rat))

/-- A fixed-point number as a rational. -/
def ofFx (x : Int) : Rat := (x : Rat) / (fxOne : Rat)

/-- Fixed-point product. -/
def fxMul (a b : Int) : Int := (a * b) / fxOne

/-- 2·artanh z by its series, for |z| ≤ 1/3: ln((1+z)/(1−z)). -/
def fxAtanh2 (z : Int) : Int :=
  let z2 := fxMul z z
  let r := (List.range 64).foldl (fun (acc : Int × Int) k =>
    (fxMul acc.1 z2, acc.2 + acc.1 / ((2 * k + 1 : Nat) : Int))) (z, 0)
  2 * r.2

/-- ln 2. -/
def fxLn2 : Int := fxAtanh2 (fxOne / 3)

/-- Natural logarithm of a positive rational. -/
def ratLn (q : Rat) : Rat :=
  let e := floorLog2 q
  let m := q / pow2 e
  ofFx (e * fxLn2 + fxAtanh2 (toFx ((m - 1) / (m + 1))))

/-- e to a rational. -/
def ratExp (q : Rat) : Rat :=
  let x := toFx q
  let k := x.fdiv fxLn2
  let r := x - k * fxLn2
  let s := (List.range 64).foldl (fun (acc : Int × Int) n =>
    (fxMul acc.1 r / ((n + 1 : Nat) : Int), acc.2 + acc.1)) (fxOne, 0)
  ofFx s.2 * pow2 k

/-- A positive rational to a rational power. -/
def ratPow (b e : Rat) : Rat := if b ≤ 0 then 0 else ratExp (e * ratLn b)

/-- Base-2 and base-10 logarithms. -/
def ratLog2 (q : Rat) : Rat := ratLn q / ofFx fxLn2
/-- Base-10 logarithm. -/
def ratLog10 (q : Rat) : Rat := ratLn q / ratLn 10

/-- Square root of a rational, to 96 places. -/
def ratSqrt (q : Rat) : Rat :=
  if q ≤ 0 then 0 else ofFx ((Nat.sqrt ((toFx q).toNat * fxOne.toNat) : Nat) : Int)

/-- π to 96 places, by Machin's formula. -/
def ratPi : Rat :=
  let at' := fun (n : Nat) =>
    (List.range 80).foldl (fun (acc : Int × Int) k =>
      (-(acc.1 / ((n * n : Nat) : Int)), acc.2 + acc.1 / ((2 * k + 1 : Nat) : Int))) (fxOne / (n : Int), 0)
  ofFx (16 * (at' 5).2 - 4 * (at' 239).2)

end Sys2Proof.Machine
end

