-- ==== Sys2Proof/Machine/Regs.lean ====
section
/-! DEFINITION. The names of the parameter dictionary: every entry of the chapters' entry tables under the manual's
own name, as index × 256 + sub-index (R415). Record families take the instance numbers the tables name. -/

namespace Sys2Proof.Machine.Reg

/-! Record 0x0200 (02_operating_modes.md, Table 2.3) -/

/-- 0x0200.01 MODE_REQUEST, U16 RW (R35). -/
abbrev mode_MODE_REQUEST : Nat := (0x0200) * 256 + 0x01
/-- 0x0200.02 MODE_CURRENT, U8 RO (R35). -/
abbrev mode_MODE_CURRENT : Nat := (0x0200) * 256 + 0x02
/-- 0x0200.03 MODE_EXIT_CAUSE, U8 RO (R35). -/
abbrev mode_MODE_EXIT_CAUSE : Nat := (0x0200) * 256 + 0x03
/-- 0x0200.04 MODE_TARGET, U8 RO (R35). -/
abbrev mode_MODE_TARGET : Nat := (0x0200) * 256 + 0x04
/-- 0x0200.05 MODE_TIMEOUT_S, U32 RW+S (R35). -/
abbrev mode_MODE_TIMEOUT_S : Nat := (0x0200) * 256 + 0x05
/-- 0x0200.06 BURST_AUTO_OFFLOAD, BOOL RW+S (R35). -/
abbrev mode_BURST_AUTO_OFFLOAD : Nat := (0x0200) * 256 + 0x06
/-- 0x0200.07 MODE_REFUSE_REASON, U8 RO (R35). -/
abbrev mode_MODE_REFUSE_REASON : Nat := (0x0200) * 256 + 0x07

/-! Record 0x0800 + 0x100 * p (03_sensor_lanes.md, Table 3.7) -/

/-- P.01 PORT_ENABLE, BOOL RW (R76). -/
abbrev sen_PORT_ENABLE (p : Nat) : Nat := (0x0800 + 0x100 * p) * 256 + 0x01
/-- P.02 CODING, U8 RWC+S (R76). -/
abbrev sen_CODING (p : Nat) : Nat := (0x0800 + 0x100 * p) * 256 + 0x02
/-- P.03 LANE_COUNT, U8 RWC+S (R76). -/
abbrev sen_LANE_COUNT (p : Nat) : Nat := (0x0800 + 0x100 * p) * 256 + 0x03
/-- P.04 LANE_RATE_MBPS, U32 RWC+S (R76). -/
abbrev sen_LANE_RATE_MBPS (p : Nat) : Nat := (0x0800 + 0x100 * p) * 256 + 0x04
/-- P.05 WORD_WIDTH, U8 RWC+S (R76). -/
abbrev sen_WORD_WIDTH (p : Nat) : Nat := (0x0800 + 0x100 * p) * 256 + 0x05
/-- P.06 TRAINING_WORD, U16 RWC+S (R76). -/
abbrev sen_TRAINING_WORD (p : Nat) : Nat := (0x0800 + 0x100 * p) * 256 + 0x06
/-- P.07 SEGMENT_LANES, U8 RWC+S (R76). -/
abbrev sen_SEGMENT_LANES (p : Nat) : Nat := (0x0800 + 0x100 * p) * 256 + 0x07
/-- P.08 GANG, U8 RWC+S (R76). -/
abbrev sen_GANG (p : Nat) : Nat := (0x0800 + 0x100 * p) * 256 + 0x08
/-- P.09 PORT_STATUS, U32 RO (R76). -/
abbrev sen_PORT_STATUS (p : Nat) : Nat := (0x0800 + 0x100 * p) * 256 + 0x09
/-- P.0A ALIGN_DWELL, U32 RW+S (R76). -/
abbrev sen_ALIGN_DWELL (p : Nat) : Nat := (0x0800 + 0x100 * p) * 256 + 0x0A
/-- P.0B ALIGN_MIN, U32 RW+S (R76). -/
abbrev sen_ALIGN_MIN (p : Nat) : Nat := (0x0800 + 0x100 * p) * 256 + 0x0B
/-- P.0C CONT_ADAPT, BOOL RW+S (R76). -/
abbrev sen_CONT_ADAPT (p : Nat) : Nat := (0x0800 + 0x100 * p) * 256 + 0x0C
/-- P.0D REALIGN_AUTO, BOOL RW+S (R76). -/
abbrev sen_REALIGN_AUTO (p : Nat) : Nat := (0x0800 + 0x100 * p) * 256 + 0x0D
/-- P.0E RX_POWER_REQ, U8 RW (R76). -/
abbrev sen_RX_POWER_REQ (p : Nat) : Nat := (0x0800 + 0x100 * p) * 256 + 0x0E
/-- P.0F DESKEW_ARM, BOOL WO (R76). -/
abbrev sen_DESKEW_ARM (p : Nat) : Nat := (0x0800 + 0x100 * p) * 256 + 0x0F

/-! Record 0x0800 + 0x100 * p + 0x01 (03_sensor_lanes.md, Table 3.7) -/

/-- P+0x01.01 SB0_ENABLE, BOOL RW+S (R76). -/
abbrev sen_SB0_ENABLE (p : Nat) : Nat := (0x0800 + 0x100 * p + 0x01) * 256 + 0x01
/-- P+0x01.02 SB1_ENABLE, BOOL RW+S (R76). -/
abbrev sen_SB1_ENABLE (p : Nat) : Nat := (0x0800 + 0x100 * p + 0x01) * 256 + 0x02
/-- P+0x01.03 SB_RATE_MBPS, U16 RWC+S (R76). -/
abbrev sen_SB_RATE_MBPS (p : Nat) : Nat := (0x0800 + 0x100 * p + 0x01) * 256 + 0x03
/-- P+0x01.04 SB_POWER_REQ, U8 RW (R76). -/
abbrev sen_SB_POWER_REQ (p : Nat) : Nat := (0x0800 + 0x100 * p + 0x01) * 256 + 0x04
/-- P+0x01.05 TRIG_LAT_NS, U16 RO (R76). -/
abbrev sen_TRIG_LAT_NS (p : Nat) : Nat := (0x0800 + 0x100 * p + 0x01) * 256 + 0x05
/-- P+0x01.06 SB_SEND, BLOB WO (R76). -/
abbrev sen_SB_SEND (p : Nat) : Nat := (0x0800 + 0x100 * p + 0x01) * 256 + 0x06
/-- P+0x01.07 SB_PRBS_SEL, U8 RW (R76). -/
abbrev sen_SB_PRBS_SEL (p : Nat) : Nat := (0x0800 + 0x100 * p + 0x01) * 256 + 0x07
/-- P+0x01.08 CK_ENABLE, BOOL RW+S (R76). -/
abbrev sen_CK_ENABLE (p : Nat) : Nat := (0x0800 + 0x100 * p + 0x01) * 256 + 0x08
/-- P+0x01.09 CK_FREQ, U8 RW+S (R76). -/
abbrev sen_CK_FREQ (p : Nat) : Nat := (0x0800 + 0x100 * p + 0x01) * 256 + 0x09

/-! Record 0x0810 + 0x100 * p + k (03_sensor_lanes.md, Table 3.8) -/

/-- L.01 LANE_POWER, U8 RO (R76). -/
abbrev lan_LANE_POWER (p k : Nat) : Nat := (0x0810 + 0x100 * p + k) * 256 + 0x01
/-- L.02 LANE_ALIGN, U8 RO (R76). -/
abbrev lan_LANE_ALIGN (p k : Nat) : Nat := (0x0810 + 0x100 * p + k) * 256 + 0x02
/-- L.03 SLIP, BOOL WO (R76). -/
abbrev lan_SLIP (p k : Nat) : Nat := (0x0810 + 0x100 * p + k) * 256 + 0x03
/-- L.04 SLIP_POS, U8 RO (R76). -/
abbrev lan_SLIP_POS (p k : Nat) : Nat := (0x0810 + 0x100 * p + k) * 256 + 0x04
/-- L.05 DWELL, BOOL WO (R76). -/
abbrev lan_DWELL (p k : Nat) : Nat := (0x0810 + 0x100 * p + k) * 256 + 0x05
/-- L.06 MATCH_COUNT, U32 RO (R76). -/
abbrev lan_MATCH_COUNT (p k : Nat) : Nat := (0x0810 + 0x100 * p + k) * 256 + 0x06
/-- L.07 LANDING, U8 RO (R76). -/
abbrev lan_LANDING (p k : Nat) : Nat := (0x0810 + 0x100 * p + k) * 256 + 0x07
/-- L.08 DESKEW, U8 RW (R76). -/
abbrev lan_DESKEW (p k : Nat) : Nat := (0x0810 + 0x100 * p + k) * 256 + 0x08
/-- L.09 LOGICAL, U8 RWC+S (R76). -/
abbrev lan_LOGICAL (p k : Nat) : Nat := (0x0810 + 0x100 * p + k) * 256 + 0x09
/-- L.0A INVERT, BOOL RWC+S (R76). -/
abbrev lan_INVERT (p k : Nat) : Nat := (0x0810 + 0x100 * p + k) * 256 + 0x0A
/-- L.0B CTLE, U8 RO (R76). -/
abbrev lan_CTLE (p k : Nat) : Nat := (0x0810 + 0x100 * p + k) * 256 + 0x0B
/-- L.0C DFE, BLOB RO (R76). -/
abbrev lan_DFE (p k : Nat) : Nat := (0x0810 + 0x100 * p + k) * 256 + 0x0C
/-- L.0D EYE_MV, U16 RO (R76). -/
abbrev lan_EYE_MV (p k : Nat) : Nat := (0x0810 + 0x100 * p + k) * 256 + 0x0D
/-- L.0E PRBS_SEL, U8 RW (R76). -/
abbrev lan_PRBS_SEL (p k : Nat) : Nat := (0x0810 + 0x100 * p + k) * 256 + 0x0E
/-- L.0F LOOP, U8 RW (R76). -/
abbrev lan_LOOP (p k : Nat) : Nat := (0x0810 + 0x100 * p + k) * 256 + 0x0F
/-- L.10 PRBS_ERRORS, U32 RO (R76). -/
abbrev lan_PRBS_ERRORS (p k : Nat) : Nat := (0x0810 + 0x100 * p + k) * 256 + 0x10
/-- L.11 PRBS_BITS, U64 RO (R76). -/
abbrev lan_PRBS_BITS (p k : Nat) : Nat := (0x0810 + 0x100 * p + k) * 256 + 0x11
/-- L.12 PRBS_LOCK, BOOL RO (R76). -/
abbrev lan_PRBS_LOCK (p k : Nat) : Nat := (0x0810 + 0x100 * p + k) * 256 + 0x12

/-! Record 0x0C00 + 0x100 * p (04_intake_and_pound.md, Table 4.6) -/

/-- P.01 OUT_FORMAT, U8 RWC+S (R105). -/
abbrev itk_OUT_FORMAT (p : Nat) : Nat := (0x0C00 + 0x100 * p) * 256 + 0x01
/-- P.02 LIN_SHIFT, U8 RWC+S (R105). -/
abbrev itk_LIN_SHIFT (p : Nat) : Nat := (0x0C00 + 0x100 * p) * 256 + 0x02
/-- P.03 WIDTH, U16 RWC+S (R105). -/
abbrev itk_WIDTH (p : Nat) : Nat := (0x0C00 + 0x100 * p) * 256 + 0x03
/-- P.04 HEIGHT, U16 RWC+S (R105). -/
abbrev itk_HEIGHT (p : Nat) : Nat := (0x0C00 + 0x100 * p) * 256 + 0x04
/-- P.05 READOUT_COUNT, U8 RWC+S (R105). -/
abbrev itk_READOUT_COUNT (p : Nat) : Nat := (0x0C00 + 0x100 * p) * 256 + 0x05
/-- P.06 CFA, U8 RWC+S (R105). -/
abbrev itk_CFA (p : Nat) : Nat := (0x0C00 + 0x100 * p) * 256 + 0x06
/-- P.07 ROW_PERIOD_NS, U32 RW+S (R105). -/
abbrev itk_ROW_PERIOD_NS (p : Nat) : Nat := (0x0C00 + 0x100 * p) * 256 + 0x07
/-- P.08 ROW_TIMEOUT, U8 RW+S (R105). -/
abbrev itk_ROW_TIMEOUT (p : Nat) : Nat := (0x0C00 + 0x100 * p) * 256 + 0x08
/-- P.09 TRIGGERED, BOOL RW+S (R105). -/
abbrev itk_TRIGGERED (p : Nat) : Nat := (0x0C00 + 0x100 * p) * 256 + 0x09
/-- P.0A FRAME_NUMBER, U64 RO (R105). -/
abbrev itk_FRAME_NUMBER (p : Nat) : Nat := (0x0C00 + 0x100 * p) * 256 + 0x0A
/-- P.0B DROPPED_COUNT, U64 RO (R105). -/
abbrev itk_DROPPED_COUNT (p : Nat) : Nat := (0x0C00 + 0x100 * p) * 256 + 0x0B

/-! Record 0x0C00 + 0x100 * p + 0x01 (04_intake_and_pound.md, Table 4.6) -/

/-- P+0x01.01 ADC_GROUPS, U8 RWC+S (R105). -/
abbrev itk_ADC_GROUPS (p : Nat) : Nat := (0x0C00 + 0x100 * p + 0x01) * 256 + 0x01
/-- P+0x01.02 to .04 LIN_TABLE, BLOB RWC (R105). -/
abbrev itk_LIN_TABLE (p j : Nat) : Nat := (0x0C00 + 0x100 * p + 0x01) * 256 + 0x02 + j

/-! Record 0x0C00 + 0x100 * p + 0x02 (04_intake_and_pound.md, Table 4.6) -/

/-- P+0x02.01, .02 RATIO, F32 RWC+S (R105). -/
abbrev itk_RATIO (p j : Nat) : Nat := (0x0C00 + 0x100 * p + 0x02) * 256 + 0x01 + j
/-- P+0x02.03 to .05 SAT, U32 RWC+S (R105). -/
abbrev itk_SAT (p j : Nat) : Nat := (0x0C00 + 0x100 * p + 0x02) * 256 + 0x03 + j
/-- P+0x02.06, .07 BAND, U32 RWC+S (R105). -/
abbrev itk_BAND (p j : Nat) : Nat := (0x0C00 + 0x100 * p + 0x02) * 256 + 0x06 + j
/-- P+0x02.08 to .0A NW, F32 RWC+S (R105). -/
abbrev itk_NW (p j : Nat) : Nat := (0x0C00 + 0x100 * p + 0x02) * 256 + 0x08 + j

/-! Record 0x0C00 + 0x100 * p + 0x03 (04_intake_and_pound.md, Table 4.6) -/

/-- P+0x03.01 OB_FIRST, U16 RWC+S (R105). -/
abbrev itk_OB_FIRST (p : Nat) : Nat := (0x0C00 + 0x100 * p + 0x03) * 256 + 0x01
/-- P+0x03.02 OB_COUNT, U16 RWC+S (R105). -/
abbrev itk_OB_COUNT (p : Nat) : Nat := (0x0C00 + 0x100 * p + 0x03) * 256 + 0x02
/-- P+0x03.03 BLACK_FIXED, I32 RW+S (R105). -/
abbrev itk_BLACK_FIXED (p : Nat) : Nat := (0x0C00 + 0x100 * p + 0x03) * 256 + 0x03
/-- P+0x03.04 COL_BLACK, BLOB RWC (R105). -/
abbrev itk_COL_BLACK (p : Nat) : Nat := (0x0C00 + 0x100 * p + 0x03) * 256 + 0x04

/-! Record 0x0C00 + 0x100 * p + 0x04 (04_intake_and_pound.md, Table 4.6) -/

/-- P+0x04.01 DEFECT_LIST, BLOB RWC (R105). -/
abbrev itk_DEFECT_LIST (p : Nat) : Nat := (0x0C00 + 0x100 * p + 0x04) * 256 + 0x01
/-- P+0x04.02 DEFECT_COUNT, U32 RO (R105). -/
abbrev itk_DEFECT_COUNT (p : Nat) : Nat := (0x0C00 + 0x100 * p + 0x04) * 256 + 0x02
/-- P+0x04.03 DEFECT_STEP, U8 RWC+S (R105). -/
abbrev itk_DEFECT_STEP (p : Nat) : Nat := (0x0C00 + 0x100 * p + 0x04) * 256 + 0x03
/-- P+0x04.04 HOT_ENABLE, BOOL RW+S (R105). -/
abbrev itk_HOT_ENABLE (p : Nat) : Nat := (0x0C00 + 0x100 * p + 0x04) * 256 + 0x04
/-- P+0x04.05 HOT_THRESH, U32 RW+S (R105). -/
abbrev itk_HOT_THRESH (p : Nat) : Nat := (0x0C00 + 0x100 * p + 0x04) * 256 + 0x05
/-- P+0x04.06 HOT_COUNT, U64 RO (R105). -/
abbrev itk_HOT_COUNT (p : Nat) : Nat := (0x0C00 + 0x100 * p + 0x04) * 256 + 0x06

/-! Record 0x0C00 + 0x100 * p + 0x05 (04_intake_and_pound.md, Table 4.6) -/

/-- P+0x05.01 FLAT_MODE, U8 RWC+S (R105). -/
abbrev itk_FLAT_MODE (p : Nat) : Nat := (0x0C00 + 0x100 * p + 0x05) * 256 + 0x01
/-- P+0x05.02 FLAT_BLOCK, BLOB RWC (R105). -/
abbrev itk_FLAT_BLOCK (p : Nat) : Nat := (0x0C00 + 0x100 * p + 0x05) * 256 + 0x02
/-- P+0x05.03 FLAT_PIXEL_SOURCE, STR RWC+S (R105). -/
abbrev itk_FLAT_PIXEL_SOURCE (p : Nat) : Nat := (0x0C00 + 0x100 * p + 0x05) * 256 + 0x03

/-! Record 0x0C00 + 0x100 * p + 0x06 (04_intake_and_pound.md, Table 4.6) -/

/-- P+0x06.01 RING_SLOTS, U32 RWC+S (R105). -/
abbrev itk_RING_SLOTS (p : Nat) : Nat := (0x0C00 + 0x100 * p + 0x06) * 256 + 0x01
/-- P+0x06.02 SLOT_BYTES, U64 RO (R105). -/
abbrev itk_SLOT_BYTES (p : Nat) : Nat := (0x0C00 + 0x100 * p + 0x06) * 256 + 0x02
/-- P+0x06.03 RING_BASE, U64 RO (R105). -/
abbrev itk_RING_BASE (p : Nat) : Nat := (0x0C00 + 0x100 * p + 0x06) * 256 + 0x03
/-- P+0x06.04 SLOTS_FREE, U32 RO (R105). -/
abbrev itk_SLOTS_FREE (p : Nat) : Nat := (0x0C00 + 0x100 * p + 0x06) * 256 + 0x04
/-- P+0x06.05 INTAKE_RESERVE_GBPS, F32 RWC+S (R105). -/
abbrev itk_INTAKE_RESERVE_GBPS (p : Nat) : Nat := (0x0C00 + 0x100 * p + 0x06) * 256 + 0x05
/-- P+0x06.06 DROP_POLICY, U8 RW+S (R105). -/
abbrev itk_DROP_POLICY (p : Nat) : Nat := (0x0C00 + 0x100 * p + 0x06) * 256 + 0x06

/-! Record 0x0C00 + 0x100 * p + 0x07 (04_intake_and_pound.md, Table 4.6) -/

/-- P+0x07.01 PAIR_PORT, U8 RWC+S (R105). -/
abbrev itk_PAIR_PORT (p : Nat) : Nat := (0x0C00 + 0x100 * p + 0x07) * 256 + 0x01
/-- P+0x07.02 PAIR_WINDOW, TB RW+S (R105). -/
abbrev itk_PAIR_WINDOW (p : Nat) : Nat := (0x0C00 + 0x100 * p + 0x07) * 256 + 0x02

/-! Record 0x0C00 + 0x100 * p + 0x08 (04_intake_and_pound.md, Table 4.6) -/

/-- P+0x08.01 BURST_PRE, U32 RWC+S (R105). -/
abbrev itk_BURST_PRE (p : Nat) : Nat := (0x0C00 + 0x100 * p + 0x08) * 256 + 0x01
/-- P+0x08.02 BURST_POST, U32 RWC+S (R105). -/
abbrev itk_BURST_POST (p : Nat) : Nat := (0x0C00 + 0x100 * p + 0x08) * 256 + 0x02
/-- P+0x08.03 BURST_SLOTS, U32 RO (R105). -/
abbrev itk_BURST_SLOTS (p : Nat) : Nat := (0x0C00 + 0x100 * p + 0x08) * 256 + 0x03
/-- P+0x08.04 TRIG_SOURCE, U8 RWC+S (R105). -/
abbrev itk_TRIG_SOURCE (p : Nat) : Nat := (0x0C00 + 0x100 * p + 0x08) * 256 + 0x04
/-- P+0x08.05 TRIG_PIN, U8 RWC+S (R105). -/
abbrev itk_TRIG_PIN (p : Nat) : Nat := (0x0C00 + 0x100 * p + 0x08) * 256 + 0x05
/-- P+0x08.06 TRIG_TIME, TB RW (R105). -/
abbrev itk_TRIG_TIME (p : Nat) : Nat := (0x0C00 + 0x100 * p + 0x08) * 256 + 0x06
/-- P+0x08.07 TRIG_NOW, BOOL WO (R105). -/
abbrev itk_TRIG_NOW (p : Nat) : Nat := (0x0C00 + 0x100 * p + 0x08) * 256 + 0x07
/-- P+0x08.08 LEVEL_WINDOW, U64 RWC+S (R105). -/
abbrev itk_LEVEL_WINDOW (p : Nat) : Nat := (0x0C00 + 0x100 * p + 0x08) * 256 + 0x08
/-- P+0x08.09 LEVEL_THRESHOLD, U32 RW+S (R105). -/
abbrev itk_LEVEL_THRESHOLD (p : Nat) : Nat := (0x0C00 + 0x100 * p + 0x08) * 256 + 0x09
/-- P+0x08.0A LEVEL_FALLING, BOOL RW+S (R105). -/
abbrev itk_LEVEL_FALLING (p : Nat) : Nat := (0x0C00 + 0x100 * p + 0x08) * 256 + 0x0A
/-- P+0x08.0B TRIG_FRAME, U64 RO (R105). -/
abbrev itk_TRIG_FRAME (p : Nat) : Nat := (0x0C00 + 0x100 * p + 0x08) * 256 + 0x0B
/-- P+0x08.0C TRIG_PRE_HELD, U32 RO (R105). -/
abbrev itk_TRIG_PRE_HELD (p : Nat) : Nat := (0x0C00 + 0x100 * p + 0x08) * 256 + 0x0C
/-- P+0x08.0D TRIG_IGNORED, U32 RO (R105). -/
abbrev itk_TRIG_IGNORED (p : Nat) : Nat := (0x0C00 + 0x100 * p + 0x08) * 256 + 0x0D

/-! Record 0x1000 + 0x40 * p (05_settings_and_focus.md, Table 5.7) -/

/-- S.01 SUBMIT, BLOB WO (R126). -/
abbrev seq_SUBMIT (p : Nat) : Nat := (0x1000 + 0x40 * p) * 256 + 0x01
/-- S.02 PENDING, U8 RO (R126). -/
abbrev seq_PENDING (p : Nat) : Nat := (0x1000 + 0x40 * p) * 256 + 0x02
/-- S.03 LAST_LANDED, U32 RO (R126). -/
abbrev seq_LAST_LANDED (p : Nat) : Nat := (0x1000 + 0x40 * p) * 256 + 0x03
/-- S.04 RETRY_LIMIT, U8 RW+S (R126). -/
abbrev seq_RETRY_LIMIT (p : Nat) : Nat := (0x1000 + 0x40 * p) * 256 + 0x04
/-- S.05 TEMP_AIN, U8 RWC+S (R126). -/
abbrev seq_TEMP_AIN (p : Nat) : Nat := (0x1000 + 0x40 * p) * 256 + 0x05
/-- S.06 TEMP_GAIN, F32 RWC+S (R126). -/
abbrev seq_TEMP_GAIN (p : Nat) : Nat := (0x1000 + 0x40 * p) * 256 + 0x06
/-- S.07 TEMP_OFFSET, F32 RWC+S (R126). -/
abbrev seq_TEMP_OFFSET (p : Nat) : Nat := (0x1000 + 0x40 * p) * 256 + 0x07

/-! Record 0x1008 + 0x40 * p + g (05_settings_and_focus.md, Table 5.7) -/

/-- G.01 GROUP_NAME, STR RWC+S (R126). -/
abbrev grp_GROUP_NAME (p g : Nat) : Nat := (0x1008 + 0x40 * p + g) * 256 + 0x01
/-- G.02 LATENCY, U8 RWC+S (R126). -/
abbrev grp_LATENCY (p g : Nat) : Nat := (0x1008 + 0x40 * p + g) * 256 + 0x02
/-- G.03 WINDOW_FIRST, U16 RWC+S (R126). -/
abbrev grp_WINDOW_FIRST (p g : Nat) : Nat := (0x1008 + 0x40 * p + g) * 256 + 0x03
/-- G.04 WINDOW_LAST, U16 RWC+S (R126). -/
abbrev grp_WINDOW_LAST (p g : Nat) : Nat := (0x1008 + 0x40 * p + g) * 256 + 0x04
/-- G.05 CHANNEL, U8 RWC+S (R126). -/
abbrev grp_CHANNEL (p g : Nat) : Nat := (0x1008 + 0x40 * p + g) * 256 + 0x05
/-- G.06 BUS, U8 RWC+S (R126). -/
abbrev grp_BUS (p g : Nat) : Nat := (0x1008 + 0x40 * p + g) * 256 + 0x06
/-- G.07 TARGET, U8 RWC+S (R126). -/
abbrev grp_TARGET (p g : Nat) : Nat := (0x1008 + 0x40 * p + g) * 256 + 0x07
/-- G.08 TEMPLATE, BLOB RWC+S (R126). -/
abbrev grp_TEMPLATE (p g : Nat) : Nat := (0x1008 + 0x40 * p + g) * 256 + 0x08
/-- G.09 VALUE_OFFSET, U8 RWC+S (R126). -/
abbrev grp_VALUE_OFFSET (p g : Nat) : Nat := (0x1008 + 0x40 * p + g) * 256 + 0x09
/-- G.0A VALUE_LEN, U8 RWC+S (R126). -/
abbrev grp_VALUE_LEN (p g : Nat) : Nat := (0x1008 + 0x40 * p + g) * 256 + 0x0A
/-- G.0B VALUE_BIG_ENDIAN, BOOL RWC+S (R126). -/
abbrev grp_VALUE_BIG_ENDIAN (p g : Nat) : Nat := (0x1008 + 0x40 * p + g) * 256 + 0x0B
/-- G.0C STORED_VALUE, U64 RW+S (R126). -/
abbrev grp_STORED_VALUE (p g : Nat) : Nat := (0x1008 + 0x40 * p + g) * 256 + 0x0C
/-- G.0D GOVERNING, U32 RO (R126). -/
abbrev grp_GOVERNING (p g : Nat) : Nat := (0x1008 + 0x40 * p + g) * 256 + 0x0D
/-- G.0E MISSED, U32 RO (R126). -/
abbrev grp_MISSED (p g : Nat) : Nat := (0x1008 + 0x40 * p + g) * 256 + 0x0E

/-! Record 0x1100 + p (05_settings_and_focus.md, Table 5.7) -/

/-- 0x1100+p.01 LAST_FRAME_RECORD, BLOB RO (R126). -/
abbrev frm_LAST_FRAME_RECORD (p : Nat) : Nat := (0x1100 + p) * 256 + 0x01
/-- 0x1100+p.02 DROP_RECORD_BASE, U64 RO (R126). -/
abbrev frm_DROP_RECORD_BASE (p : Nat) : Nat := (0x1100 + p) * 256 + 0x02

/-! Record 0x1200 + 0x10 * p (05_settings_and_focus.md, Table 5.7) -/

/-- F.01 STATS_ENABLE, BOOL RW+S (R126). -/
abbrev foc_STATS_ENABLE (p : Nat) : Nat := (0x1200 + 0x10 * p) * 256 + 0x01
/-- F.02 MEASURE, U8 RW+S (R126). -/
abbrev foc_MEASURE (p : Nat) : Nat := (0x1200 + 0x10 * p) * 256 + 0x02
/-- F.03 WINDOW_COUNT, U8 RW+S (R126). -/
abbrev foc_WINDOW_COUNT (p : Nat) : Nat := (0x1200 + 0x10 * p) * 256 + 0x03
/-- F.04 WINDOWS, BLOB RW+S (R126). -/
abbrev foc_WINDOWS (p : Nat) : Nat := (0x1200 + 0x10 * p) * 256 + 0x04
/-- F.05 CORING, U16 RW+S (R126). -/
abbrev foc_CORING (p : Nat) : Nat := (0x1200 + 0x10 * p) * 256 + 0x05
/-- F.06 PARTIAL_ROW, U16 RW+S (R126). -/
abbrev foc_PARTIAL_ROW (p : Nat) : Nat := (0x1200 + 0x10 * p) * 256 + 0x06
/-- F.07 STATS_BASE, U64 RO (R126). -/
abbrev foc_STATS_BASE (p : Nat) : Nat := (0x1200 + 0x10 * p) * 256 + 0x07

/-! Record 0x1400 (06_barges_and_weir.md, Table 6.7) -/

/-- 0x1400.01 WEIR_BUDGET_W, F32 RW+S (R154). -/
abbrev weir_WEIR_BUDGET_W : Nat := (0x1400) * 256 + 0x01
/-- 0x1400.02 WEIR_CEILING_W, F32 RO (R154). -/
abbrev weir_WEIR_CEILING_W : Nat := (0x1400) * 256 + 0x02
/-- 0x1400.03 WEIR_DEPTH_J, F32 RW+S (R154). -/
abbrev weir_WEIR_DEPTH_J : Nat := (0x1400) * 256 + 0x03
/-- 0x1400.04 WEIR_OVERDRAFT_J, F32 RW+S (R154). -/
abbrev weir_WEIR_OVERDRAFT_J : Nat := (0x1400) * 256 + 0x04
/-- 0x1400.05 WEIR_LEVEL_J, F32 RO (R154). -/
abbrev weir_WEIR_LEVEL_J : Nat := (0x1400) * 256 + 0x05
/-- 0x1400.06 WEIR_HEADROOM, F32 RO (R154). -/
abbrev weir_WEIR_HEADROOM : Nat := (0x1400) * 256 + 0x06
/-- 0x1400.07 BASE_POWER_W, F32 RO (R154). -/
abbrev weir_BASE_POWER_W : Nat := (0x1400) * 256 + 0x07
/-- 0x1400.08 BARGE_POWER_W, F32 RO (R154). -/
abbrev weir_BARGE_POWER_W : Nat := (0x1400) * 256 + 0x08
/-- 0x1400.09 CLOCK_AUTO, BOOL RW+S (R154). -/
abbrev weir_CLOCK_AUTO : Nat := (0x1400) * 256 + 0x09
/-- 0x1400.0A CLOCK_STEP, U16 RO (R154). -/
abbrev weir_CLOCK_STEP : Nat := (0x1400) * 256 + 0x0A
/-- 0x1400.0B CLUSTER_CLOCK_MAX, U16 RW+S (R154). -/
abbrev weir_CLUSTER_CLOCK_MAX : Nat := (0x1400) * 256 + 0x0B
/-- 0x1400.0C CEILING_GATED, U8 RO (R154). -/
abbrev weir_CEILING_GATED : Nat := (0x1400) * 256 + 0x0C

/-! Record 0x1401 (06_barges_and_weir.md, Table 6.7) -/

/-- 0x1401.01 CLUSTER_ENABLE, U8 RW (R154). -/
abbrev job_CLUSTER_ENABLE : Nat := (0x1401) * 256 + 0x01
/-- 0x1401.02 DEADLINE_C0_NS, U32 RW+S (R154). -/
abbrev job_DEADLINE_C0_NS : Nat := (0x1401) * 256 + 0x02
/-- 0x1401.03 DEADLINE_C1_NS, U32 RW+S (R154). -/
abbrev job_DEADLINE_C1_NS : Nat := (0x1401) * 256 + 0x03
/-- 0x1401.04 DEADLINE_C2_NS, U32 RW+S (R154). -/
abbrev job_DEADLINE_C2_NS : Nat := (0x1401) * 256 + 0x04
/-- 0x1401.05 DEADLINE_C3_NS, U32 RW+S (R154). -/
abbrev job_DEADLINE_C3_NS : Nat := (0x1401) * 256 + 0x05
/-- 0x1401.06 DEVELOP_IN_FLIGHT, U8 RW+S (R154). -/
abbrev job_DEVELOP_IN_FLIGHT : Nat := (0x1401) * 256 + 0x06
/-- 0x1401.07 BASIN_C0_RESERVE, U16 RWC+S (R154). -/
abbrev job_BASIN_C0_RESERVE : Nat := (0x1401) * 256 + 0x07
/-- 0x1401.08 BASIN_LEVEL, BLOB RO (R154). -/
abbrev job_BASIN_LEVEL : Nat := (0x1401) * 256 + 0x08
/-- 0x1401.09 BACKLOG, U32 RO (R154). -/
abbrev job_BACKLOG : Nat := (0x1401) * 256 + 0x09
/-- 0x1401.0A STEALS, U64 RO (R154). -/
abbrev job_STEALS : Nat := (0x1401) * 256 + 0x0A
/-- 0x1401.0B BASIN_DUMP, BLOB RO (R154). -/
abbrev job_BASIN_DUMP : Nat := (0x1401) * 256 + 0x0B
/-- 0x1401.0C BASIN_SELECT, U8 RW (R154). -/
abbrev job_BASIN_SELECT : Nat := (0x1401) * 256 + 0x0C

/-! Record 0x1402 (06_barges_and_weir.md, Table 6.7) -/

/-- 0x1402.01 to .05 ENERGY_EST, F32 RO (R154). -/
abbrev nrg_ENERGY_EST (j : Nat) : Nat := (0x1402) * 256 + 0x01 + j

/-! Record 0x1403 (06_barges_and_weir.md, Table 6.7) -/

/-- 0x1403.01 ARB_MODE, U8 RWC (R154). -/
abbrev fab_ARB_MODE : Nat := (0x1403) * 256 + 0x01
/-- 0x1403.02 CHANNEL_SHARES, BLOB RWC+S (R154). -/
abbrev fab_CHANNEL_SHARES : Nat := (0x1403) * 256 + 0x02
/-- 0x1403.03 FABRIC_GRANTS, BLOB RO (R154). -/
abbrev fab_FABRIC_GRANTS : Nat := (0x1403) * 256 + 0x03
/-- 0x1403.04 MAX_GRANT_WAIT, U32 RO (R154). -/
abbrev fab_MAX_GRANT_WAIT : Nat := (0x1403) * 256 + 0x04

/-! Record 0x1404 (06_barges_and_weir.md, Table 6.10) -/

/-- 0x1404.01 FB_PORT, U8 RWC+S (R160). -/
abbrev fb_FB_PORT : Nat := (0x1404) * 256 + 0x01
/-- 0x1404.02 FB_PHASE, U8 RW (R160). -/
abbrev fb_FB_PHASE : Nat := (0x1404) * 256 + 0x02
/-- 0x1404.03 FB_FRAMES, U16 RW+S (R160). -/
abbrev fb_FB_FRAMES : Nat := (0x1404) * 256 + 0x03
/-- 0x1404.04 FB_DARK_FRAMES, U16 RO (R160). -/
abbrev fb_FB_DARK_FRAMES : Nat := (0x1404) * 256 + 0x04
/-- 0x1404.05 FB_FLAT_FRAMES, U16 RO (R160). -/
abbrev fb_FB_FLAT_FRAMES : Nat := (0x1404) * 256 + 0x05
/-- 0x1404.06 FB_MIN_SIGNAL, F32 RW+S (R160). -/
abbrev fb_FB_MIN_SIGNAL : Nat := (0x1404) * 256 + 0x06
/-- 0x1404.07 FB_PLANE_MEANS, BLOB RO (R160). -/
abbrev fb_FB_PLANE_MEANS : Nat := (0x1404) * 256 + 0x07
/-- 0x1404.08 FB_TABLE_BASE, U64 RO (R160). -/
abbrev fb_FB_TABLE_BASE : Nat := (0x1404) * 256 + 0x08
/-- 0x1404.09 FB_CANDIDATES, U32 RO (R160). -/
abbrev fb_FB_CANDIDATES : Nat := (0x1404) * 256 + 0x09
/-- 0x1404.0A FB_CANDIDATE_BASE, U64 RO (R160). -/
abbrev fb_FB_CANDIDATE_BASE : Nat := (0x1404) * 256 + 0x0A

/-! Record 0x1405 + p (06_barges_and_weir.md, Table 6.10) -/

/-- T.01 TSTATS_ENABLE, BOOL RW+S (R160). -/
abbrev tst_TSTATS_ENABLE (p : Nat) : Nat := (0x1405 + p) * 256 + 0x01
/-- T.02 HIST_BASE, I32 RW+S (R160). -/
abbrev tst_HIST_BASE (p : Nat) : Nat := (0x1405 + p) * 256 + 0x02
/-- T.03 HIST_SHIFT, U8 RW+S (R160). -/
abbrev tst_HIST_SHIFT (p : Nat) : Nat := (0x1405 + p) * 256 + 0x03
/-- T.04 DETECT_THRESH, U32 RW+S (R160). -/
abbrev tst_DETECT_THRESH (p : Nat) : Nat := (0x1405 + p) * 256 + 0x04
/-- T.05 TSTATS_BASE, U64 RO (R160). -/
abbrev tst_TSTATS_BASE (p : Nat) : Nat := (0x1405 + p) * 256 + 0x05
/-- T.06 TSTATS_BYTES, U64 RO (R160). -/
abbrev tst_TSTATS_BYTES (p : Nat) : Nat := (0x1405 + p) * 256 + 0x06

/-! Record 0x1800 + 0x100 * v (07_development_pipeline.md, Table 7.5) -/

/-- V.01 VIEW_ENABLE, BOOL RW (R185). -/
abbrev view_VIEW_ENABLE (v : Nat) : Nat := (0x1800 + 0x100 * v) * 256 + 0x01
/-- V.02 VIEW_SOURCE, U8 RWC+S (R185). -/
abbrev view_VIEW_SOURCE (v : Nat) : Nat := (0x1800 + 0x100 * v) * 256 + 0x02
/-- V.03 VIEW_STATUS, U32 RO (R185). -/
abbrev view_VIEW_STATUS (v : Nat) : Nat := (0x1800 + 0x100 * v) * 256 + 0x03
/-- V.04 ACTIVE_FRAME, U64 RO (R185). -/
abbrev view_ACTIVE_FRAME (v : Nat) : Nat := (0x1800 + 0x100 * v) * 256 + 0x04
/-- V.05 COMMIT_FRAME, U64 WO (R185). -/
abbrev view_COMMIT_FRAME (v : Nat) : Nat := (0x1800 + 0x100 * v) * 256 + 0x05
/-- V.06 COMMIT_RECORD, U32 WO (R185). -/
abbrev view_COMMIT_RECORD (v : Nat) : Nat := (0x1800 + 0x100 * v) * 256 + 0x06
/-- V.07 COMMIT_CANCEL, BOOL WO (R185). -/
abbrev view_COMMIT_CANCEL (v : Nat) : Nat := (0x1800 + 0x100 * v) * 256 + 0x07
/-- V.08 LAST_FRAME, U64 RO (R185). -/
abbrev view_LAST_FRAME (v : Nat) : Nat := (0x1800 + 0x100 * v) * 256 + 0x08
/-- V.09 REPEAT_COUNT, U64 RO (R185). -/
abbrev view_REPEAT_COUNT (v : Nat) : Nat := (0x1800 + 0x100 * v) * 256 + 0x09
/-- V.0A SUPERSEDED, U64 RO (R185). -/
abbrev view_SUPERSEDED (v : Nat) : Nat := (0x1800 + 0x100 * v) * 256 + 0x0A
/-- V.0B POISON_TILES, U64 RO (R185). -/
abbrev view_POISON_TILES (v : Nat) : Nat := (0x1800 + 0x100 * v) * 256 + 0x0B
/-- V.0C VIEW_BUFFERS, U8 RWC+S (R185). -/
abbrev view_VIEW_BUFFERS (v : Nat) : Nat := (0x1800 + 0x100 * v) * 256 + 0x0C
/-- V.0D BUFFER_BASE, U64 RO (R185). -/
abbrev view_BUFFER_BASE (v : Nat) : Nat := (0x1800 + 0x100 * v) * 256 + 0x0D
/-- V.0E BUFFER_BYTES, U64 RO (R185). -/
abbrev view_BUFFER_BYTES (v : Nat) : Nat := (0x1800 + 0x100 * v) * 256 + 0x0E

/-! Record 0x1800 + 0x100 * v + 0x01 (07_development_pipeline.md, Table 7.5) -/

/-- V+0x01.01 WB_GAINS, BLOB RW+S (R185). -/
abbrev view_WB_GAINS (v : Nat) : Nat := (0x1800 + 0x100 * v + 0x01) * 256 + 0x01
/-- V+0x01.02 PASS_BLACK, F32 RW+S (R185). -/
abbrev view_PASS_BLACK (v : Nat) : Nat := (0x1800 + 0x100 * v + 0x01) * 256 + 0x02
/-- V+0x01.03 UNPACK_SHIFT, U8 RW+S (R185). -/
abbrev view_UNPACK_SHIFT (v : Nat) : Nat := (0x1800 + 0x100 * v + 0x01) * 256 + 0x03

/-! Record 0x1800 + 0x100 * v + 0x02 (07_development_pipeline.md, Table 7.5) -/

/-- V+0x02.01 MATRIX, BLOB RW+S (R185). -/
abbrev view_MATRIX (v : Nat) : Nat := (0x1800 + 0x100 * v + 0x02) * 256 + 0x01
/-- V+0x02.02 OFFSET, BLOB RW+S (R185). -/
abbrev view_OFFSET (v : Nat) : Nat := (0x1800 + 0x100 * v + 0x02) * 256 + 0x02
/-- V+0x02.03 EXPOSURE_GAIN, F32 RW+S (R185). -/
abbrev view_EXPOSURE_GAIN (v : Nat) : Nat := (0x1800 + 0x100 * v + 0x02) * 256 + 0x03
/-- V+0x02.04 ROLLOFF_MODE, U8 RW+S (R185). -/
abbrev view_ROLLOFF_MODE (v : Nat) : Nat := (0x1800 + 0x100 * v + 0x02) * 256 + 0x04
/-- V+0x02.05 KNEE, F32 RW+S (R185). -/
abbrev view_KNEE (v : Nat) : Nat := (0x1800 + 0x100 * v + 0x02) * 256 + 0x05
/-- V+0x02.06 WHITE, F32 RW+S (R185). -/
abbrev view_WHITE (v : Nat) : Nat := (0x1800 + 0x100 * v + 0x02) * 256 + 0x06
/-- V+0x02.07 LUMA_WEIGHTS, BLOB RW+S (R185). -/
abbrev view_LUMA_WEIGHTS (v : Nat) : Nat := (0x1800 + 0x100 * v + 0x02) * 256 + 0x07

/-! Record 0x1800 + 0x100 * v + 0x03 (07_development_pipeline.md, Table 7.5) -/

/-- V+0x03.01 SHAPER_ENABLE, BOOL RW+S (R185). -/
abbrev view_SHAPER_ENABLE (v : Nat) : Nat := (0x1800 + 0x100 * v + 0x03) * 256 + 0x01
/-- V+0x03.02 SHAPER, BLOB RW+S (R185). -/
abbrev view_SHAPER (v : Nat) : Nat := (0x1800 + 0x100 * v + 0x03) * 256 + 0x02
/-- V+0x03.03 LUT_ENABLE, BOOL RW+S (R185). -/
abbrev view_LUT_ENABLE (v : Nat) : Nat := (0x1800 + 0x100 * v + 0x03) * 256 + 0x03
/-- V+0x03.04 LUT, BLOB RW+S (R185). -/
abbrev view_LUT (v : Nat) : Nat := (0x1800 + 0x100 * v + 0x03) * 256 + 0x04
/-- V+0x03.05 TRANSFER, U8 RW+S (R185). -/
abbrev view_TRANSFER (v : Nat) : Nat := (0x1800 + 0x100 * v + 0x03) * 256 + 0x05
/-- V+0x03.06 TRANSFER_TABLE, BLOB RW+S (R185). -/
abbrev view_TRANSFER_TABLE (v : Nat) : Nat := (0x1800 + 0x100 * v + 0x03) * 256 + 0x06
/-- V+0x03.07 PQ_REF_NITS, F32 RW+S (R185). -/
abbrev view_PQ_REF_NITS (v : Nat) : Nat := (0x1800 + 0x100 * v + 0x03) * 256 + 0x07
/-- V+0x03.08 HLG_SCALE, F32 RW+S (R185). -/
abbrev view_HLG_SCALE (v : Nat) : Nat := (0x1800 + 0x100 * v + 0x03) * 256 + 0x08

/-! Record 0x1800 + 0x100 * v + 0x04 (07_development_pipeline.md, Table 7.5) -/

/-- V+0x04.01 CROP, U64 RWC+S (R185). -/
abbrev view_CROP (v : Nat) : Nat := (0x1800 + 0x100 * v + 0x04) * 256 + 0x01
/-- V+0x04.02 OUT_HEIGHT, U16 RWC+S (R185). -/
abbrev view_OUT_HEIGHT (v : Nat) : Nat := (0x1800 + 0x100 * v + 0x04) * 256 + 0x02
/-- V+0x04.03 DESQUEEZE, F32 RWC+S (R185). -/
abbrev view_DESQUEEZE (v : Nat) : Nat := (0x1800 + 0x100 * v + 0x04) * 256 + 0x03
/-- V+0x04.04 OUT_WIDTH, U16 RO (R185). -/
abbrev view_OUT_WIDTH (v : Nat) : Nat := (0x1800 + 0x100 * v + 0x04) * 256 + 0x04
/-- V+0x04.05 STEP_X, U32 RO (R185). -/
abbrev view_STEP_X (v : Nat) : Nat := (0x1800 + 0x100 * v + 0x04) * 256 + 0x05
/-- V+0x04.06 STEP_Y, U32 RO (R185). -/
abbrev view_STEP_Y (v : Nat) : Nat := (0x1800 + 0x100 * v + 0x04) * 256 + 0x06
/-- V+0x04.07 COEFF, BLOB RWC+S (R185). -/
abbrev view_COEFF (v : Nat) : Nat := (0x1800 + 0x100 * v + 0x04) * 256 + 0x07
/-- V+0x04.08 PACKING, U8 RWC+S (R185). -/
abbrev view_PACKING (v : Nat) : Nat := (0x1800 + 0x100 * v + 0x04) * 256 + 0x08
/-- V+0x04.09 YCC_MATRIX, U8 RWC+S (R185). -/
abbrev view_YCC_MATRIX (v : Nat) : Nat := (0x1800 + 0x100 * v + 0x04) * 256 + 0x09
/-- V+0x04.0A RANGE, U8 RWC+S (R185). -/
abbrev view_RANGE (v : Nat) : Nat := (0x1800 + 0x100 * v + 0x04) * 256 + 0x0A

/-! Record 0x1800 + 0x100 * v + 0x05 (07_development_pipeline.md, Table 7.5) -/

/-- V+0x05.01 OVERLAY_MASK, U8 RW+S (R185). -/
abbrev view_OVERLAY_MASK (v : Nat) : Nat := (0x1800 + 0x100 * v + 0x05) * 256 + 0x01
/-- V+0x05.02 FRAME_LINES, BLOB RW+S (R185). -/
abbrev view_FRAME_LINES (v : Nat) : Nat := (0x1800 + 0x100 * v + 0x05) * 256 + 0x02
/-- V+0x05.03 PEAK_THRESH, F32 RW+S (R185). -/
abbrev view_PEAK_THRESH (v : Nat) : Nat := (0x1800 + 0x100 * v + 0x05) * 256 + 0x03
/-- V+0x05.04 PEAK_COLOUR, U64 RW+S (R185). -/
abbrev view_PEAK_COLOUR (v : Nat) : Nat := (0x1800 + 0x100 * v + 0x05) * 256 + 0x04
/-- V+0x05.05 FC_THRESH, BLOB RW+S (R185). -/
abbrev view_FC_THRESH (v : Nat) : Nat := (0x1800 + 0x100 * v + 0x05) * 256 + 0x05
/-- V+0x05.06 FC_COLOURS, BLOB RW+S (R185). -/
abbrev view_FC_COLOURS (v : Nat) : Nat := (0x1800 + 0x100 * v + 0x05) * 256 + 0x06

/-! Record 0x1C00 (08_amtan_raw_codec.md, Table 8.10) -/

/-- 0x1C00.01 AMTAN_VERSION, U8 RO (R218). -/
abbrev amtg_AMTAN_VERSION : Nat := (0x1C00) * 256 + 0x01
/-- 0x1C00.02 FLOOR_PICTURES, U64 RO (R218). -/
abbrev amtg_FLOOR_PICTURES : Nat := (0x1C00) * 256 + 0x02

/-! Record 0x1C10 + s (08_amtan_raw_codec.md, Table 8.10) -/

/-- A.01 STREAM_MODE, U8 RWC+S (R218). -/
abbrev amt_STREAM_MODE (s : Nat) : Nat := (0x1C10 + s) * 256 + 0x01
/-- A.02 STREAM_PORT, U8 RWC+S (R218). -/
abbrev amt_STREAM_PORT (s : Nat) : Nat := (0x1C10 + s) * 256 + 0x02
/-- A.03 Q_MIN, U8 RW+S (R218). -/
abbrev amt_Q_MIN (s : Nat) : Nat := (0x1C10 + s) * 256 + 0x03
/-- A.04 Q_MAX, U8 RW+S (R218). -/
abbrev amt_Q_MAX (s : Nat) : Nat := (0x1C10 + s) * 256 + 0x04
/-- A.05 Q_BASE_INIT, U8 RW+S (R218). -/
abbrev amt_Q_BASE_INIT (s : Nat) : Nat := (0x1C10 + s) * 256 + 0x05
/-- A.06 PICTURE_BUDGET, U32 RW+S (R218). -/
abbrev amt_PICTURE_BUDGET (s : Nat) : Nat := (0x1C10 + s) * 256 + 0x06
/-- A.07 BUDGET_MODE, U8 RW+S (R218). -/
abbrev amt_BUDGET_MODE (s : Nat) : Nat := (0x1C10 + s) * 256 + 0x07
/-- A.08 P_ENABLE, BOOL RW+S (R218). -/
abbrev amt_P_ENABLE (s : Nat) : Nat := (0x1C10 + s) * 256 + 0x08
/-- A.09 I_INTERVAL, U16 RW+S (R218). -/
abbrev amt_I_INTERVAL (s : Nat) : Nat := (0x1C10 + s) * 256 + 0x09
/-- A.0A FORCE_I, BOOL WO (R218). -/
abbrev amt_FORCE_I (s : Nat) : Nat := (0x1C10 + s) * 256 + 0x0A
/-- A.0B POOL, U8 RO (R218). -/
abbrev amt_POOL (s : Nat) : Nat := (0x1C10 + s) * 256 + 0x0B
/-- A.0C BUDGET_TABLE, U64 RO (R218). -/
abbrev amt_BUDGET_TABLE (s : Nat) : Nat := (0x1C10 + s) * 256 + 0x0C
/-- A.0D COST_TABLE, U64 RO (R218). -/
abbrev amt_COST_TABLE (s : Nat) : Nat := (0x1C10 + s) * 256 + 0x0D
/-- A.0E LAST_PICTURE_ID, U32 RO (R218). -/
abbrev amt_LAST_PICTURE_ID (s : Nat) : Nat := (0x1C10 + s) * 256 + 0x0E
/-- A.0F LAST_SIZE, U32 RO (R218). -/
abbrev amt_LAST_SIZE (s : Nat) : Nat := (0x1C10 + s) * 256 + 0x0F
/-- A.10 PICTURES, U64 RO (R218). -/
abbrev amt_PICTURES (s : Nat) : Nat := (0x1C10 + s) * 256 + 0x10
/-- A.11 FLOOR_TILES, U64 RO (R218). -/
abbrev amt_FLOOR_TILES (s : Nat) : Nat := (0x1C10 + s) * 256 + 0x11
/-- A.12 BAD_TILES, U64 RO (R218). -/
abbrev amt_BAD_TILES (s : Nat) : Nat := (0x1C10 + s) * 256 + 0x12
/-- A.13 MISSING_REF_COUNT, U64 RO (R218). -/
abbrev amt_MISSING_REF_COUNT (s : Nat) : Nat := (0x1C10 + s) * 256 + 0x13
/-- A.14 REJECTED, U64 RO (R218). -/
abbrev amt_REJECTED (s : Nat) : Nat := (0x1C10 + s) * 256 + 0x14

/-! Record 0x1D00 (09_picture_pools_and_hevc.md, Table 9.13) -/

/-- 0x1D00.01 POOLS_IN_USE, U8 RO (R246). -/
abbrev plg_POOLS_IN_USE : Nat := (0x1D00) * 256 + 0x01
/-- 0x1D00.02 POOL_CMD, BLOB WO (R246). -/
abbrev plg_POOL_CMD : Nat := (0x1D00) * 256 + 0x02
/-- 0x1D00.03 POOL_CMD_STATUS, U8 RO (R246). -/
abbrev plg_POOL_CMD_STATUS : Nat := (0x1D00) * 256 + 0x03

/-! Record 0x1D10 + k (09_picture_pools_and_hevc.md, Table 9.13) -/

/-- Q.01 POOL_OWNER, U8 RO (R246). -/
abbrev pool_POOL_OWNER (k : Nat) : Nat := (0x1D10 + k) * 256 + 0x01
/-- Q.02 POOL_BUFFERS, U8 RWC+S (R246). -/
abbrev pool_POOL_BUFFERS (k : Nat) : Nat := (0x1D10 + k) * 256 + 0x02
/-- Q.03 POOL_BASE, U64 RO (R246). -/
abbrev pool_POOL_BASE (k : Nat) : Nat := (0x1D10 + k) * 256 + 0x03
/-- Q.04 BUFFER_BYTES, U64 RO (R246). -/
abbrev pool_BUFFER_BYTES (k : Nat) : Nat := (0x1D10 + k) * 256 + 0x04
/-- Q.05 GEOMETRY, U64 RO (R246). -/
abbrev pool_GEOMETRY (k : Nat) : Nat := (0x1D10 + k) * 256 + 0x05
/-- Q.06 MARKS, BLOB RO (R246). -/
abbrev pool_MARKS (k : Nat) : Nat := (0x1D10 + k) * 256 + 0x06
/-- Q.07 MARK_FAULTS, U64 RO (R246). -/
abbrev pool_MARK_FAULTS (k : Nat) : Nat := (0x1D10 + k) * 256 + 0x07

/-! Record 0x1E00 (09_picture_pools_and_hevc.md, Table 9.13) -/

/-- 0x1E00.01 HEVC_CAPS, U8 RO (R246). -/
abbrev hevg_HEVC_CAPS : Nat := (0x1E00) * 256 + 0x01
/-- 0x1E00.02 ENC_LOAD_GPXS, F32 RO (R246). -/
abbrev hevg_ENC_LOAD_GPXS : Nat := (0x1E00) * 256 + 0x02
/-- 0x1E00.03 DEC_LOAD_GPXS, F32 RO (R246). -/
abbrev hevg_DEC_LOAD_GPXS : Nat := (0x1E00) * 256 + 0x03

/-! Record 0x1E10 + s (09_picture_pools_and_hevc.md, Table 9.13) -/

/-- H.01 HEVC_MODE, U8 RWC+S (R246). -/
abbrev hev_HEVC_MODE (s : Nat) : Nat := (0x1E10 + s) * 256 + 0x01
/-- H.02 HEVC_ENABLE, BOOL RW (R246). -/
abbrev hev_HEVC_ENABLE (s : Nat) : Nat := (0x1E10 + s) * 256 + 0x02
/-- H.03 VIEW, U8 RWC+S (R246). -/
abbrev hev_VIEW (s : Nat) : Nat := (0x1E10 + s) * 256 + 0x03
/-- H.04 PROFILE, U8 RWC+S (R246). -/
abbrev hev_PROFILE (s : Nat) : Nat := (0x1E10 + s) * 256 + 0x04
/-- H.05 TIER, U8 RWC+S (R246). -/
abbrev hev_TIER (s : Nat) : Nat := (0x1E10 + s) * 256 + 0x05
/-- H.06 LEVEL, U8 RWC+S (R246). -/
abbrev hev_LEVEL (s : Nat) : Nat := (0x1E10 + s) * 256 + 0x06
/-- H.07 GOP_MODE, U8 RWC+S (R246). -/
abbrev hev_GOP_MODE (s : Nat) : Nat := (0x1E10 + s) * 256 + 0x07
/-- H.08 GOP_SIZE, U8 RWC+S (R246). -/
abbrev hev_GOP_SIZE (s : Nat) : Nat := (0x1E10 + s) * 256 + 0x08
/-- H.09 REF_COUNT, U8 RWC+S (R246). -/
abbrev hev_REF_COUNT (s : Nat) : Nat := (0x1E10 + s) * 256 + 0x09
/-- H.0A INTRA_PERIOD, U16 RW+S (R246). -/
abbrev hev_INTRA_PERIOD (s : Nat) : Nat := (0x1E10 + s) * 256 + 0x0A
/-- H.0B IRAP_TYPE, U8 RW+S (R246). -/
abbrev hev_IRAP_TYPE (s : Nat) : Nat := (0x1E10 + s) * 256 + 0x0B
/-- H.0C RC_MODE, U8 RW+S (R246). -/
abbrev hev_RC_MODE (s : Nat) : Nat := (0x1E10 + s) * 256 + 0x0C
/-- H.0D BITRATE_KBPS, U32 RW+S (R246). -/
abbrev hev_BITRATE_KBPS (s : Nat) : Nat := (0x1E10 + s) * 256 + 0x0D
/-- H.0E QP_MIN, U8 RW+S (R246). -/
abbrev hev_QP_MIN (s : Nat) : Nat := (0x1E10 + s) * 256 + 0x0E
/-- H.0F QP_MAX, U8 RW+S (R246). -/
abbrev hev_QP_MAX (s : Nat) : Nat := (0x1E10 + s) * 256 + 0x0F
/-- H.10 QP_CONST, U8 RW+S (R246). -/
abbrev hev_QP_CONST (s : Nat) : Nat := (0x1E10 + s) * 256 + 0x10
/-- H.11 INPUT_DELAY_NS, U32 RW+S (R246). -/
abbrev hev_INPUT_DELAY_NS (s : Nat) : Nat := (0x1E10 + s) * 256 + 0x11
/-- H.12 INPUT_SLOTS, U8 RWC+S (R246). -/
abbrev hev_INPUT_SLOTS (s : Nat) : Nat := (0x1E10 + s) * 256 + 0x12
/-- H.13 SLICE_ROWS, U8 RWC+S (R246). -/
abbrev hev_SLICE_ROWS (s : Nat) : Nat := (0x1E10 + s) * 256 + 0x13
/-- H.14 OUT_BUFFERS, U8 RWC+S (R246). -/
abbrev hev_OUT_BUFFERS (s : Nat) : Nat := (0x1E10 + s) * 256 + 0x14
/-- H.15 OUT_BUFFER_BYTES, U32 RWC+S (R246). -/
abbrev hev_OUT_BUFFER_BYTES (s : Nat) : Nat := (0x1E10 + s) * 256 + 0x15
/-- H.16 OUT_RING_BASE, U64 RO (R246). -/
abbrev hev_OUT_RING_BASE (s : Nat) : Nat := (0x1E10 + s) * 256 + 0x16
/-- H.17 OUT_CONSUMER, U8 RWC+S (R246). -/
abbrev hev_OUT_CONSUMER (s : Nat) : Nat := (0x1E10 + s) * 256 + 0x17
/-- H.18 OUT_RELEASE, U8 WO (R246). -/
abbrev hev_OUT_RELEASE (s : Nat) : Nat := (0x1E10 + s) * 256 + 0x18
/-- H.19 POOL, U8 RO (R246). -/
abbrev hev_POOL (s : Nat) : Nat := (0x1E10 + s) * 256 + 0x19
/-- H.1A PICTURES, U64 RO (R246). -/
abbrev hev_PICTURES (s : Nat) : Nat := (0x1E10 + s) * 256 + 0x1A
/-- H.1B REPEATS, U64 RO (R246). -/
abbrev hev_REPEATS (s : Nat) : Nat := (0x1E10 + s) * 256 + 0x1B
/-- H.1C OVERFLOWS, U64 RO (R246). -/
abbrev hev_OVERFLOWS (s : Nat) : Nat := (0x1E10 + s) * 256 + 0x1C
/-- H.1D STALLS, U64 RO (R246). -/
abbrev hev_STALLS (s : Nat) : Nat := (0x1E10 + s) * 256 + 0x1D
/-- H.1E DEC_MAX_WIDTH, U16 RWC+S (R246). -/
abbrev hev_DEC_MAX_WIDTH (s : Nat) : Nat := (0x1E10 + s) * 256 + 0x1E
/-- H.1F DEC_MAX_HEIGHT, U16 RWC+S (R246). -/
abbrev hev_DEC_MAX_HEIGHT (s : Nat) : Nat := (0x1E10 + s) * 256 + 0x1F
/-- H.20 WATCHDOG_MULT, U8 RW+S (R246). -/
abbrev hev_WATCHDOG_MULT (s : Nat) : Nat := (0x1E10 + s) * 256 + 0x20
/-- H.21 CONCEALED_CTUS, U64 RO (R246). -/
abbrev hev_CONCEALED_CTUS (s : Nat) : Nat := (0x1E10 + s) * 256 + 0x21
/-- H.22 MISSING_REF_COUNT, U64 RO (R246). -/
abbrev hev_MISSING_REF_COUNT (s : Nat) : Nat := (0x1E10 + s) * 256 + 0x22

/-! Record 0x2000 (10_video_outputs.md, Table 10.3) -/

/-- 0x2000.01 GENLOCK_STATUS, U8 RO (R262). -/
abbrev gen_GENLOCK_STATUS : Nat := (0x2000) * 256 + 0x01
/-- 0x2000.02 GENLOCK_ERROR_NS, I32 RO (R262). -/
abbrev gen_GENLOCK_ERROR_NS : Nat := (0x2000) * 256 + 0x02
/-- 0x2000.03 GENLOCK_SLEW_NS, U32 RW+S (R262). -/
abbrev gen_GENLOCK_SLEW_NS : Nat := (0x2000) * 256 + 0x03

/-! Record 0x2010 + n (10_video_outputs.md, Table 10.3) -/

/-- O.01 OUT_ENABLE, BOOL RW (R262). -/
abbrev out_OUT_ENABLE (n : Nat) : Nat := (0x2010 + n) * 256 + 0x01
/-- O.02 OUT_MODE, U8 RWC+S (R262). -/
abbrev out_OUT_MODE (n : Nat) : Nat := (0x2010 + n) * 256 + 0x02
/-- O.03 OUT_VIEW, U8 RWC+S (R262). -/
abbrev out_OUT_VIEW (n : Nat) : Nat := (0x2010 + n) * 256 + 0x03
/-- O.04 OUT_RATE, U8 RWC+S (R262). -/
abbrev out_OUT_RATE (n : Nat) : Nat := (0x2010 + n) * 256 + 0x04
/-- O.05 TC_SOURCE, U8 RW+S (R262). -/
abbrev out_TC_SOURCE (n : Nat) : Nat := (0x2010 + n) * 256 + 0x05
/-- O.06 OUT_STATUS, U32 RO (R262). -/
abbrev out_OUT_STATUS (n : Nat) : Nat := (0x2010 + n) * 256 + 0x06
/-- O.07 OUT_FRAMES, U64 RO (R262). -/
abbrev out_OUT_FRAMES (n : Nat) : Nat := (0x2010 + n) * 256 + 0x07
/-- O.08 OUT_REPEATS, U64 RO (R262). -/
abbrev out_OUT_REPEATS (n : Nat) : Nat := (0x2010 + n) * 256 + 0x08
/-- O.09 OUT_SKIPS, U64 RO (R262). -/
abbrev out_OUT_SKIPS (n : Nat) : Nat := (0x2010 + n) * 256 + 0x09
/-- O.0A FL_RATE, U8 RWC+S (R262). -/
abbrev out_FL_RATE (n : Nat) : Nat := (0x2010 + n) * 256 + 0x0A
/-- O.0B FL_FORMAT, U8 RWC+S (R262). -/
abbrev out_FL_FORMAT (n : Nat) : Nat := (0x2010 + n) * 256 + 0x0B
/-- O.0C FL_BC_PINS, U16 RWC+S (R262). -/
abbrev out_FL_BC_PINS (n : Nat) : Nat := (0x2010 + n) * 256 + 0x0C
/-- O.0D FL_BC_BAUD, U32 RWC+S (R262). -/
abbrev out_FL_BC_BAUD (n : Nat) : Nat := (0x2010 + n) * 256 + 0x0D
/-- O.0E FL_RX_LAST, BLOB RO (R262). -/
abbrev out_FL_RX_LAST (n : Nat) : Nat := (0x2010 + n) * 256 + 0x0E
/-- O.0F FL_RX_ERRORS, U32 RO (R262). -/
abbrev out_FL_RX_ERRORS (n : Nat) : Nat := (0x2010 + n) * 256 + 0x0F

/-! Record 0x2400 (11_dram_controller.md, Table 11.8) -/

/-- 0x2400.01 DRAM_MAP, U8 RWC+S (R292). -/
abbrev dram_DRAM_MAP : Nat := (0x2400) * 256 + 0x01
/-- 0x2400.02 DATA_RATE_MTS, U16 RWC+S (R292). -/
abbrev dram_DATA_RATE_MTS : Nat := (0x2400) * 256 + 0x02
/-- 0x2400.03 DEVICE_WIDTH, U8 RWC+S (R292). -/
abbrev dram_DEVICE_WIDTH : Nat := (0x2400) * 256 + 0x03
/-- 0x2400.04 DENSITY_GBIT, U8 RWC+S (R292). -/
abbrev dram_DENSITY_GBIT : Nat := (0x2400) * 256 + 0x04
/-- 0x2400.05 RANKS_FITTED, U8 RWC+S (R292). -/
abbrev dram_RANKS_FITTED : Nat := (0x2400) * 256 + 0x05
/-- 0x2400.06 CHANNELS_MAPPED, U16 RO (R292). -/
abbrev dram_CHANNELS_MAPPED : Nat := (0x2400) * 256 + 0x06
/-- 0x2400.07 MAPPED_BYTES, U64 RO (R292). -/
abbrev dram_MAPPED_BYTES : Nat := (0x2400) * 256 + 0x07
/-- 0x2400.08 REFRESH_MODE, U8 RWC+S (R292). -/
abbrev dram_REFRESH_MODE : Nat := (0x2400) * 256 + 0x08
/-- 0x2400.09 REFRESH_DOUBLED, U16 RO (R292). -/
abbrev dram_REFRESH_DOUBLED : Nat := (0x2400) * 256 + 0x09
/-- 0x2400.0A DRAM_THERM_MAP, BLOB RWC+S (R292). -/
abbrev dram_DRAM_THERM_MAP : Nat := (0x2400) * 256 + 0x0A
/-- 0x2400.0B SCRUB_PERIOD_H, U16 RW+S (R292). -/
abbrev dram_SCRUB_PERIOD_H : Nat := (0x2400) * 256 + 0x0B
/-- 0x2400.0C EYE_MIN_STEPS, U8 RWC+S (R292). -/
abbrev dram_EYE_MIN_STEPS : Nat := (0x2400) * 256 + 0x0C
/-- 0x2400.0D RETRAIN, BOOL WO (R292). -/
abbrev dram_RETRAIN : Nat := (0x2400) * 256 + 0x0D
/-- 0x2400.0E VREF_RD, U8 RWC+S (R292). -/
abbrev dram_VREF_RD : Nat := (0x2400) * 256 + 0x0E
/-- 0x2400.0F VREF_WR, U8 RWC+S (R292). -/
abbrev dram_VREF_WR : Nat := (0x2400) * 256 + 0x0F
/-- 0x2400.10 RD_PROB_LOG2, U8 RWC+S (R292). -/
abbrev dram_RD_PROB_LOG2 : Nat := (0x2400) * 256 + 0x10
/-- 0x2400.11 DRFM_ISSUED, U64 RO (R292). -/
abbrev dram_DRFM_ISSUED : Nat := (0x2400) * 256 + 0x11
/-- 0x2400.12 DRFM_REPLACED, U64 RO (R292). -/
abbrev dram_DRFM_REPLACED : Nat := (0x2400) * 256 + 0x12
/-- 0x2400.13 RANK_RETIRE, U64 RWC+S (R292). -/
abbrev dram_RANK_RETIRE : Nat := (0x2400) * 256 + 0x13
/-- 0x2400.14 MIGRATE_GBPS, F32 RW+S (R292). -/
abbrev dram_MIGRATE_GBPS : Nat := (0x2400) * 256 + 0x14

/-! Record 0x2410 + c (11_dram_controller.md, Table 11.8) -/

/-- C.01 SPARE_RANK, U8 RWC+S (R292). -/
abbrev dch_SPARE_RANK (c : Nat) : Nat := (0x2410 + c) * 256 + 0x01
/-- C.02 RANK_STATE, U32 RO (R292). -/
abbrev dch_RANK_STATE (c : Nat) : Nat := (0x2410 + c) * 256 + 0x02
/-- C.03 MIGRATE_WATERMARK, U64 RO (R292). -/
abbrev dch_MIGRATE_WATERMARK (c : Nat) : Nat := (0x2410 + c) * 256 + 0x03
/-- C.04 CORRECTED, U64 RO (R292). -/
abbrev dch_CORRECTED (c : Nat) : Nat := (0x2410 + c) * 256 + 0x04
/-- C.05 UNCORRECTED, U64 RO (R292). -/
abbrev dch_UNCORRECTED (c : Nat) : Nat := (0x2410 + c) * 256 + 0x05
/-- C.06 POISONED_LINES, U64 RO (R292). -/
abbrev dch_POISONED_LINES (c : Nat) : Nat := (0x2410 + c) * 256 + 0x06
/-- C.07 OWED, U16 RO (R292). -/
abbrev dch_OWED (c : Nat) : Nat := (0x2410 + c) * 256 + 0x07
/-- C.08 TRAIN_RESULT, BLOB RO (R292). -/
abbrev dch_TRAIN_RESULT (c : Nat) : Nat := (0x2410 + c) * 256 + 0x08

/-! Record 0x2800 (12_magazines_and_link.md, Table 12.9) -/

/-- 0x2800.01 PORTS_UP, U8 RO (R322). -/
abbrev magg_PORTS_UP : Nat := (0x2800) * 256 + 0x01

/-! Record 0x2810 + 0x20 * p (12_magazines_and_link.md, Table 12.9) -/

/-- M.01 MAG_ENABLE, BOOL RW (R322). -/
abbrev mag_MAG_ENABLE (p : Nat) : Nat := (0x2810 + 0x20 * p) * 256 + 0x01
/-- M.02 MAG_RATE, U8 RWC+S (R322). -/
abbrev mag_MAG_RATE (p : Nat) : Nat := (0x2810 + 0x20 * p) * 256 + 0x02
/-- M.03 MAG_FEC, BOOL RWC+S (R322). -/
abbrev mag_MAG_FEC (p : Nat) : Nat := (0x2810 + 0x20 * p) * 256 + 0x03
/-- M.04 MAG_STATE, U8 RO (R322). -/
abbrev mag_MAG_STATE (p : Nat) : Nat := (0x2810 + 0x20 * p) * 256 + 0x04
/-- M.05 MAG_IDENTIFY, BLOB RO (R322). -/
abbrev mag_MAG_IDENTIFY (p : Nat) : Nat := (0x2810 + 0x20 * p) * 256 + 0x05
/-- M.06 MAG_CAPACITY, U64 RO (R322). -/
abbrev mag_MAG_CAPACITY (p : Nat) : Nat := (0x2810 + 0x20 * p) * 256 + 0x06
/-- M.07 REPLAY_TIMEOUT_NS, U32 RW+S (R322). -/
abbrev mag_REPLAY_TIMEOUT_NS (p : Nat) : Nat := (0x2810 + 0x20 * p) * 256 + 0x07
/-- M.08 REPLAYS, U64 RO (R322). -/
abbrev mag_REPLAYS (p : Nat) : Nat := (0x2810 + 0x20 * p) * 256 + 0x08
/-- M.09 RETRAINS, U32 RO (R322). -/
abbrev mag_RETRAINS (p : Nat) : Nat := (0x2810 + 0x20 * p) * 256 + 0x09
/-- M.0A PROTOCOL_ERRORS, U32 RO (R322). -/
abbrev mag_PROTOCOL_ERRORS (p : Nat) : Nat := (0x2810 + 0x20 * p) * 256 + 0x0A
/-- M.0B MAG_PWR_PIN, U8 RWC+S (R322). -/
abbrev mag_MAG_PWR_PIN (p : Nat) : Nat := (0x2810 + 0x20 * p) * 256 + 0x0B
/-- M.0C MAG_PRESENT_PIN, U8 RWC+S (R322). -/
abbrev mag_MAG_PRESENT_PIN (p : Nat) : Nat := (0x2810 + 0x20 * p) * 256 + 0x0C

/-! Record 0x2810 + 0x20 * p + 0x01 (12_magazines_and_link.md, Table 12.9) -/

/-- M+0x01.01 MAG_WRITE_MIN_C, F32 RW+S (R322). -/
abbrev mag_MAG_WRITE_MIN_C (p : Nat) : Nat := (0x2810 + 0x20 * p + 0x01) * 256 + 0x01
/-- M+0x01.02 MAG_WRITE_MAX_C, F32 RW+S (R322). -/
abbrev mag_MAG_WRITE_MAX_C (p : Nat) : Nat := (0x2810 + 0x20 * p + 0x01) * 256 + 0x02
/-- M+0x01.03 MAG_THERM_AIN, U8 RWC+S (R322). -/
abbrev mag_MAG_THERM_AIN (p : Nat) : Nat := (0x2810 + 0x20 * p + 0x01) * 256 + 0x03
/-- M+0x01.04 MAG_HOLD_TIMEOUT_S, U16 RW+S (R322). -/
abbrev mag_MAG_HOLD_TIMEOUT_S (p : Nat) : Nat := (0x2810 + 0x20 * p + 0x01) * 256 + 0x04
/-- M+0x01.05 MAG_TEMP_C, F32 RO (R322). -/
abbrev mag_MAG_TEMP_C (p : Nat) : Nat := (0x2810 + 0x20 * p + 0x01) * 256 + 0x05
/-- M+0x01.06 GATE_OPEN, BOOL RO (R322). -/
abbrev mag_GATE_OPEN (p : Nat) : Nat := (0x2810 + 0x20 * p + 0x01) * 256 + 0x06
/-- M+0x01.07 HELD, U16 RO (R322). -/
abbrev mag_HELD (p : Nat) : Nat := (0x2810 + 0x20 * p + 0x01) * 256 + 0x07

/-! Record 0x2810 + 0x20 * p + 0x02 (12_magazines_and_link.md, Table 12.9) -/

/-- M+0x02.01 MAG_ENCRYPT, BOOL RWC+S (R322). -/
abbrev mag_MAG_ENCRYPT (p : Nat) : Nat := (0x2810 + 0x20 * p + 0x02) * 256 + 0x01
/-- M+0x02.02 MAG_KEY, BLOB WO (R322). -/
abbrev mag_MAG_KEY (p : Nat) : Nat := (0x2810 + 0x20 * p + 0x02) * 256 + 0x02
/-- M+0x02.03 MAG_KEY_CLEAR, BOOL WO (R322). -/
abbrev mag_MAG_KEY_CLEAR (p : Nat) : Nat := (0x2810 + 0x20 * p + 0x02) * 256 + 0x03
/-- M+0x02.04 MAG_KEY_ID, BLOB RO (R322). -/
abbrev mag_MAG_KEY_ID (p : Nat) : Nat := (0x2810 + 0x20 * p + 0x02) * 256 + 0x04

/-! Record 0x2818 + 0x20 * p + k (12_magazines_and_link.md, Table 12.9) -/

/-- N.01 LANE_POWER, U8 RO (R322). -/
abbrev mln_LANE_POWER (p k : Nat) : Nat := (0x2818 + 0x20 * p + k) * 256 + 0x01
/-- N.02 LANE_ALIGN, U8 RO (R322). -/
abbrev mln_LANE_ALIGN (p k : Nat) : Nat := (0x2818 + 0x20 * p + k) * 256 + 0x02
/-- N.03 SLIP, BOOL WO (R322). -/
abbrev mln_SLIP (p k : Nat) : Nat := (0x2818 + 0x20 * p + k) * 256 + 0x03
/-- N.04 SLIP_POS, U8 RO (R322). -/
abbrev mln_SLIP_POS (p k : Nat) : Nat := (0x2818 + 0x20 * p + k) * 256 + 0x04
/-- N.05 DWELL, BOOL WO (R322). -/
abbrev mln_DWELL (p k : Nat) : Nat := (0x2818 + 0x20 * p + k) * 256 + 0x05
/-- N.06 MATCH_COUNT, U32 RO (R322). -/
abbrev mln_MATCH_COUNT (p k : Nat) : Nat := (0x2818 + 0x20 * p + k) * 256 + 0x06
/-- N.07 DESKEW, U8 RW (R322). -/
abbrev mln_DESKEW (p k : Nat) : Nat := (0x2818 + 0x20 * p + k) * 256 + 0x07
/-- N.08 LOGICAL, U8 RWC+S (R322). -/
abbrev mln_LOGICAL (p k : Nat) : Nat := (0x2818 + 0x20 * p + k) * 256 + 0x08
/-- N.09 INVERT, U8 RWC+S (R322). -/
abbrev mln_INVERT (p k : Nat) : Nat := (0x2818 + 0x20 * p + k) * 256 + 0x09
/-- N.0A EYE_MV, U16 RO (R322). -/
abbrev mln_EYE_MV (p k : Nat) : Nat := (0x2818 + 0x20 * p + k) * 256 + 0x0A
/-- N.0B FEC_CORRECTED, U64 RO (R322). -/
abbrev mln_FEC_CORRECTED (p k : Nat) : Nat := (0x2818 + 0x20 * p + k) * 256 + 0x0B
/-- N.0C FEC_UNCORRECTED, U64 RO (R322). -/
abbrev mln_FEC_UNCORRECTED (p k : Nat) : Nat := (0x2818 + 0x20 * p + k) * 256 + 0x0C
/-- N.0D PRBS_SEL, U8 RW (R322). -/
abbrev mln_PRBS_SEL (p k : Nat) : Nat := (0x2818 + 0x20 * p + k) * 256 + 0x0D
/-- N.0E LOOP, U8 RW (R322). -/
abbrev mln_LOOP (p k : Nat) : Nat := (0x2818 + 0x20 * p + k) * 256 + 0x0E
/-- N.0F PRBS_ERRORS, U32 RO (R322). -/
abbrev mln_PRBS_ERRORS (p k : Nat) : Nat := (0x2818 + 0x20 * p + k) * 256 + 0x0F
/-- N.10 PRBS_BITS, U64 RO (R322). -/
abbrev mln_PRBS_BITS (p k : Nat) : Nat := (0x2818 + 0x20 * p + k) * 256 + 0x10

/-! Record 0x2900 (13_recorder_queue.md, Table 13.8) -/

/-- 0x2900.01 TAGS_IN_USE, U16 RO (R351). -/
abbrev rcq_TAGS_IN_USE : Nat := (0x2900) * 256 + 0x01
/-- 0x2900.02 INTERNAL_TAG_RESERVE, U16 RWC+S (R351). -/
abbrev rcq_INTERNAL_TAG_RESERVE : Nat := (0x2900) * 256 + 0x02
/-- 0x2900.03 INTERNAL_WEIGHT, U8 RW+S (R351). -/
abbrev rcq_INTERNAL_WEIGHT : Nat := (0x2900) * 256 + 0x03
/-- 0x2900.04 ADMITTED, U64 RO (R351). -/
abbrev rcq_ADMITTED : Nat := (0x2900) * 256 + 0x04
/-- 0x2900.05 LOCK_WAITS, U64 RO (R351). -/
abbrev rcq_LOCK_WAITS : Nat := (0x2900) * 256 + 0x05
/-- 0x2900.06 ABORTS, U64 RO (R351). -/
abbrev rcq_ABORTS : Nat := (0x2900) * 256 + 0x06
/-- 0x2900.07 NS5_SECTORS, U64 RO (R351). -/
abbrev rcq_NS5_SECTORS : Nat := (0x2900) * 256 + 0x07
/-- 0x2900.08 HOLDUP_QUEUES, U16 RO (R351). -/
abbrev rcq_HOLDUP_QUEUES : Nat := (0x2900) * 256 + 0x08

/-! Record 0x2901 (13_recorder_queue.md, Table 13.8) -/

/-- 0x2901.01 PS_ENABLE, U8 RW+S (R351). -/
abbrev ps_PS_ENABLE : Nat := (0x2901) * 256 + 0x01
/-- 0x2901.02 T1_MS, U32 RW+S (R351). -/
abbrev ps_T1_MS : Nat := (0x2901) * 256 + 0x02
/-- 0x2901.03 T2_MS, U32 RW+S (R351). -/
abbrev ps_T2_MS : Nat := (0x2901) * 256 + 0x03
/-- 0x2901.04 T3_MS, U32 RW+S (R351). -/
abbrev ps_T3_MS : Nat := (0x2901) * 256 + 0x04
/-- 0x2901.05 PS1_EXIT_US, U32 RO (R351). -/
abbrev ps_PS1_EXIT_US : Nat := (0x2901) * 256 + 0x05
/-- 0x2901.06 PS2_EXIT_US, U32 RO (R351). -/
abbrev ps_PS2_EXIT_US : Nat := (0x2901) * 256 + 0x06
/-- 0x2901.07 PS3_EXIT_US, U32 RO (R351). -/
abbrev ps_PS3_EXIT_US : Nat := (0x2901) * 256 + 0x07
/-- 0x2901.08 PS_CURRENT, U8 RO (R351). -/
abbrev ps_PS_CURRENT : Nat := (0x2901) * 256 + 0x08

/-! Record 0x2940 + n (13_recorder_queue.md, Table 13.8) -/

/-- S.01 SQ_ENABLE, BOOL RW (R351). -/
abbrev sq_SQ_ENABLE (n : Nat) : Nat := (0x2940 + n) * 256 + 0x01
/-- S.02 SQ_BASE, U64 RW (R351). -/
abbrev sq_SQ_BASE (n : Nat) : Nat := (0x2940 + n) * 256 + 0x02
/-- S.03 SQ_SIZE, U16 RW (R351). -/
abbrev sq_SQ_SIZE (n : Nat) : Nat := (0x2940 + n) * 256 + 0x03
/-- S.04 SQ_CQ, U8 RW (R351). -/
abbrev sq_SQ_CQ (n : Nat) : Nat := (0x2940 + n) * 256 + 0x04
/-- S.05 SQ_WEIGHT, U8 RW (R351). -/
abbrev sq_SQ_WEIGHT (n : Nat) : Nat := (0x2940 + n) * 256 + 0x05
/-- S.06 SQ_HEAD, U16 RO (R351). -/
abbrev sq_SQ_HEAD (n : Nat) : Nat := (0x2940 + n) * 256 + 0x06
/-- S.07 SQ_TAIL, U16 RO (R351). -/
abbrev sq_SQ_TAIL (n : Nat) : Nat := (0x2940 + n) * 256 + 0x07
/-- S.08 SQ_OUTSTANDING, U16 RO (R351). -/
abbrev sq_SQ_OUTSTANDING (n : Nat) : Nat := (0x2940 + n) * 256 + 0x08

/-! Record 0x2980 + n (13_recorder_queue.md, Table 13.8) -/

/-- C.01 CQ_ENABLE, BOOL RW (R351). -/
abbrev cq_CQ_ENABLE (n : Nat) : Nat := (0x2980 + n) * 256 + 0x01
/-- C.02 CQ_BASE, U64 RW (R351). -/
abbrev cq_CQ_BASE (n : Nat) : Nat := (0x2980 + n) * 256 + 0x02
/-- C.03 CQ_SIZE, U16 RW (R351). -/
abbrev cq_CQ_SIZE (n : Nat) : Nat := (0x2980 + n) * 256 + 0x03
/-- C.04 CQ_VECTOR, U8 RW (R351). -/
abbrev cq_CQ_VECTOR (n : Nat) : Nat := (0x2980 + n) * 256 + 0x04
/-- C.05 CQ_IRQ, BOOL RW (R351). -/
abbrev cq_CQ_IRQ (n : Nat) : Nat := (0x2980 + n) * 256 + 0x05
/-- C.06 CQ_TAIL, U16 RO (R351). -/
abbrev cq_CQ_TAIL (n : Nat) : Nat := (0x2980 + n) * 256 + 0x06
/-- C.07 CQ_HEAD, U16 RO (R351). -/
abbrev cq_CQ_HEAD (n : Nat) : Nat := (0x2980 + n) * 256 + 0x07

/-! Record 0x29C0 + i (13_recorder_queue.md, Table 13.8) -/

/-- I.01 IQ_ROLE, U8 RO (R351). -/
abbrev iq_IQ_ROLE (i : Nat) : Nat := (0x29C0 + i) * 256 + 0x01
/-- I.02 IQ_OUTSTANDING, U16 RO (R351). -/
abbrev iq_IQ_OUTSTANDING (i : Nat) : Nat := (0x29C0 + i) * 256 + 0x02

/-! Record 0x2A00 (14_clip_store.md, Table 14.7) -/

/-- 0x2A00.01 REC_MAGAZINES, U8 RWC+S (R368). -/
abbrev clip_REC_MAGAZINES : Nat := (0x2A00) * 256 + 0x01
/-- 0x2A00.02 EXTENT_BATCH, U16 RW+S (R368). -/
abbrev clip_EXTENT_BATCH : Nat := (0x2A00) * 256 + 0x02
/-- 0x2A00.03 CLIP_NAME, STR RW (R368). -/
abbrev clip_CLIP_NAME : Nat := (0x2A00) * 256 + 0x03
/-- 0x2A00.04 TAKE_ID, U32 RO (R368). -/
abbrev clip_TAKE_ID : Nat := (0x2A00) * 256 + 0x04
/-- 0x2A00.05 CLIP_FORMAT, U8 WO (R368). -/
abbrev clip_CLIP_FORMAT : Nat := (0x2A00) * 256 + 0x05
/-- 0x2A00.06 CLIP_RECOVER, U8 WO (R368). -/
abbrev clip_CLIP_RECOVER : Nat := (0x2A00) * 256 + 0x06

/-! Record 0x2A10 + p (14_clip_store.md, Table 14.7) -/

/-- K.01 STORE_STATE, U8 RO (R368). -/
abbrev clp_STORE_STATE (p : Nat) : Nat := (0x2A10 + p) * 256 + 0x01
/-- K.02 CLIPS, U16 RO (R368). -/
abbrev clp_CLIPS (p : Nat) : Nat := (0x2A10 + p) * 256 + 0x02
/-- K.03 FREE_EXTENTS, U16 RO (R368). -/
abbrev clp_FREE_EXTENTS (p : Nat) : Nat := (0x2A10 + p) * 256 + 0x03
/-- K.04 CURRENT_CLIP, U16 RO (R368). -/
abbrev clp_CURRENT_CLIP (p : Nat) : Nat := (0x2A10 + p) * 256 + 0x04

/-! Record 0x2C00 (15_pcie_host_interface.md, Table 15.5) -/

/-- 0x2C00.01 LINK_SPEED, U8 RO (R387). -/
abbrev pcie_LINK_SPEED : Nat := (0x2C00) * 256 + 0x01
/-- 0x2C00.02 LINK_WIDTH, U8 RO (R387). -/
abbrev pcie_LINK_WIDTH : Nat := (0x2C00) * 256 + 0x02
/-- 0x2C00.03 LINK_MAX_SPEED, U8 RWC+S (R387). -/
abbrev pcie_LINK_MAX_SPEED : Nat := (0x2C00) * 256 + 0x03
/-- 0x2C00.04 BAR2_ENABLE, BOOL RW+S (R387). -/
abbrev pcie_BAR2_ENABLE : Nat := (0x2C00) * 256 + 0x04
/-- 0x2C00.05 BAR2_WRITE_ENABLE, BOOL RW (R387). -/
abbrev pcie_BAR2_WRITE_ENABLE : Nat := (0x2C00) * 256 + 0x05
/-- 0x2C00.06 BAR2_WRITES_DISCARDED, U64 RO (R387). -/
abbrev pcie_BAR2_WRITES_DISCARDED : Nat := (0x2C00) * 256 + 0x06
/-- 0x2C00.07 EVT_IRQ_HOLDOFF_US, U16 RW+S (R387). -/
abbrev pcie_EVT_IRQ_HOLDOFF_US : Nat := (0x2C00) * 256 + 0x07
/-- 0x2C00.08 HOST_RESETS, U32 RO (R387). -/
abbrev pcie_HOST_RESETS : Nat := (0x2C00) * 256 + 0x08
/-- 0x2C00.09 SUBSYSTEM, U32 RO (R387). -/
abbrev pcie_SUBSYSTEM : Nat := (0x2C00) * 256 + 0x09

/-! Record 0x3000 (16_time_and_network.md, Table 16.3) -/

/-- 0x3000.01 TB_OFFSET, U64 RO (R412). -/
abbrev tb_TB_OFFSET : Nat := (0x3000) * 256 + 0x01
/-- 0x3000.02 TB_RATE, U64 RO (R412). -/
abbrev tb_TB_RATE : Nat := (0x3000) * 256 + 0x02
/-- 0x3000.03 TB_ANCHOR, U64 RO (R412). -/
abbrev tb_TB_ANCHOR : Nat := (0x3000) * 256 + 0x03
/-- 0x3000.04 TB_NOW, TB RO (R412). -/
abbrev tb_TB_NOW : Nat := (0x3000) * 256 + 0x04
/-- 0x3000.05 TB_RAW, U64 RO (R412). -/
abbrev tb_TB_RAW : Nat := (0x3000) * 256 + 0x05
/-- 0x3000.06 TB_EPOCH, U32 RO (R412). -/
abbrev tb_TB_EPOCH : Nat := (0x3000) * 256 + 0x06
/-- 0x3000.07 TB_STATE, U8 RO (R412). -/
abbrev tb_TB_STATE : Nat := (0x3000) * 256 + 0x07

/-! Record 0x3001 (16_time_and_network.md, Table 16.3) -/

/-- 0x3001.01 STAGE_OFFSET, U64 RW (R412). -/
abbrev stg_STAGE_OFFSET : Nat := (0x3001) * 256 + 0x01
/-- 0x3001.02 STAGE_RATE, U64 RW (R412). -/
abbrev stg_STAGE_RATE : Nat := (0x3001) * 256 + 0x02
/-- 0x3001.03 STAGE_ANCHOR, U64 RW (R412). -/
abbrev stg_STAGE_ANCHOR : Nat := (0x3001) * 256 + 0x03
/-- 0x3001.04 STAGE_EPOCH, U32 RW (R412). -/
abbrev stg_STAGE_EPOCH : Nat := (0x3001) * 256 + 0x04
/-- 0x3001.05 STAGE_AT, U64 RW (R412). -/
abbrev stg_STAGE_AT : Nat := (0x3001) * 256 + 0x05
/-- 0x3001.06 STAGE_FLAGS, U8 RW (R412). -/
abbrev stg_STAGE_FLAGS : Nat := (0x3001) * 256 + 0x06
/-- 0x3001.07 STAGE_ARM, BOOL RW (R412). -/
abbrev stg_STAGE_ARM : Nat := (0x3001) * 256 + 0x07
/-- 0x3001.08 STAGE_STATUS, U8 RO (R412). -/
abbrev stg_STAGE_STATUS : Nat := (0x3001) * 256 + 0x08

/-! Record 0x3010 + n (16_time_and_network.md, Table 16.3) -/

/-- G.01 TPG_ARM, BOOL RW (R412). -/
abbrev tpg_TPG_ARM (n : Nat) : Nat := (0x3010 + n) * 256 + 0x01
/-- G.02 TARGET, TB RW (R412). -/
abbrev tpg_TARGET (n : Nat) : Nat := (0x3010 + n) * 256 + 0x02
/-- G.03 PERIOD, U64 RW+S (R412). -/
abbrev tpg_PERIOD (n : Nat) : Nat := (0x3010 + n) * 256 + 0x03
/-- G.04 WIDTH_NS, U32 RW+S (R412). -/
abbrev tpg_WIDTH_NS (n : Nat) : Nat := (0x3010 + n) * 256 + 0x04
/-- G.05 COUNT, U32 RW+S (R412). -/
abbrev tpg_COUNT (n : Nat) : Nat := (0x3010 + n) * 256 + 0x05
/-- G.06 MODE, U8 RW+S (R412). -/
abbrev tpg_MODE (n : Nat) : Nat := (0x3010 + n) * 256 + 0x06
/-- G.07 ROUTE, U16 RW+S (R412). -/
abbrev tpg_ROUTE (n : Nat) : Nat := (0x3010 + n) * 256 + 0x07
/-- G.08 INVERT, BOOL RW+S (R412). -/
abbrev tpg_INVERT (n : Nat) : Nat := (0x3010 + n) * 256 + 0x08
/-- G.09 TPG_STATUS, U32 RO (R412). -/
abbrev tpg_TPG_STATUS (n : Nat) : Nat := (0x3010 + n) * 256 + 0x09
/-- G.0A FIRED, U64 RO (R412). -/
abbrev tpg_FIRED (n : Nat) : Nat := (0x3010 + n) * 256 + 0x0A
/-- G.0B MISSED, U64 RO (R412). -/
abbrev tpg_MISSED (n : Nat) : Nat := (0x3010 + n) * 256 + 0x0B
/-- G.0C NEXT, TB RO (R412). -/
abbrev tpg_NEXT (n : Nat) : Nat := (0x3010 + n) * 256 + 0x0C
/-- G.0D LOG_EACH, BOOL RW+S (R412). -/
abbrev tpg_LOG_EACH (n : Nat) : Nat := (0x3010 + n) * 256 + 0x0D

/-! Record 0x3100 (16_time_and_network.md, Table 16.4) -/

/-- 0x3100.01 MAC_ADDR, U64 RO (R412). -/
abbrev net_MAC_ADDR : Nat := (0x3100) * 256 + 0x01
/-- 0x3100.02 IP_MODE, U8 RW+S (R412). -/
abbrev net_IP_MODE : Nat := (0x3100) * 256 + 0x02
/-- 0x3100.03 IP_ADDR, U32 RW+S (R412). -/
abbrev net_IP_ADDR : Nat := (0x3100) * 256 + 0x03
/-- 0x3100.04 NETMASK, U32 RW+S (R412). -/
abbrev net_NETMASK : Nat := (0x3100) * 256 + 0x04
/-- 0x3100.05 GATEWAY, U32 RW+S (R412). -/
abbrev net_GATEWAY : Nat := (0x3100) * 256 + 0x05
/-- 0x3100.06 VLAN_TABLE, BLOB RWC+S (R412). -/
abbrev net_VLAN_TABLE : Nat := (0x3100) * 256 + 0x06

/-! Record 0x3110 + p (16_time_and_network.md, Table 16.4) -/

/-- E.01 ETH_ENABLE, BOOL RW+S (R412). -/
abbrev eth_ETH_ENABLE (p : Nat) : Nat := (0x3110 + p) * 256 + 0x01
/-- E.02 ETH_RATE, U8 RWC+S (R412). -/
abbrev eth_ETH_RATE (p : Nat) : Nat := (0x3110 + p) * 256 + 0x02
/-- E.03 ETH_FEC, BOOL RWC+S (R412). -/
abbrev eth_ETH_FEC (p : Nat) : Nat := (0x3110 + p) * 256 + 0x03
/-- E.04 ETH_STATE, U8 RO (R412). -/
abbrev eth_ETH_STATE (p : Nat) : Nat := (0x3110 + p) * 256 + 0x04
/-- E.05 PVID, U16 RWC+S (R412). -/
abbrev eth_PVID (p : Nat) : Nat := (0x3110 + p) * 256 + 0x05
/-- E.06 LINK_DELAY, F32 RO (R412). -/
abbrev eth_LINK_DELAY (p : Nat) : Nat := (0x3110 + p) * 256 + 0x06
/-- E.07 RX_FRAMES, U64 RO (R412). -/
abbrev eth_RX_FRAMES (p : Nat) : Nat := (0x3110 + p) * 256 + 0x07
/-- E.08 RX_ERRORS, U64 RO (R412). -/
abbrev eth_RX_ERRORS (p : Nat) : Nat := (0x3110 + p) * 256 + 0x08
/-- E.09 TX_FRAMES, U64 RO (R412). -/
abbrev eth_TX_FRAMES (p : Nat) : Nat := (0x3110 + p) * 256 + 0x09

/-! Record 0x3120 (16_time_and_network.md, Table 16.4) -/

/-- 0x3120.01 PTP_ENABLE, BOOL RW+S (R412). -/
abbrev ptp_PTP_ENABLE : Nat := (0x3120) * 256 + 0x01
/-- 0x3120.02 PTP_PROFILE, U8 RWC+S (R412). -/
abbrev ptp_PTP_PROFILE : Nat := (0x3120) * 256 + 0x02
/-- 0x3120.03 PTP_DOMAIN, U8 RWC+S (R412). -/
abbrev ptp_PTP_DOMAIN : Nat := (0x3120) * 256 + 0x03
/-- 0x3120.04 PTP_TRANSPORT, U8 RWC+S (R412). -/
abbrev ptp_PTP_TRANSPORT : Nat := (0x3120) * 256 + 0x04
/-- 0x3120.05 TC_MODE, U8 RWC+S (R412). -/
abbrev ptp_TC_MODE : Nat := (0x3120) * 256 + 0x05
/-- 0x3120.06 PTP_ROLE, U8 RO (R412). -/
abbrev ptp_PTP_ROLE : Nat := (0x3120) * 256 + 0x06
/-- 0x3120.07 PRIORITY1, U8 RW+S (R412). -/
abbrev ptp_PRIORITY1 : Nat := (0x3120) * 256 + 0x07
/-- 0x3120.08 PRIORITY2, U8 RW+S (R412). -/
abbrev ptp_PRIORITY2 : Nat := (0x3120) * 256 + 0x08
/-- 0x3120.09 OFFSET_NS, F32 RO (R412). -/
abbrev ptp_OFFSET_NS : Nat := (0x3120) * 256 + 0x09
/-- 0x3120.0A GM_IDENTITY, U64 RO (R412). -/
abbrev ptp_GM_IDENTITY : Nat := (0x3120) * 256 + 0x0A
/-- 0x3120.0B LOCK_THRESH_NS, U32 RW+S (R412). -/
abbrev ptp_LOCK_THRESH_NS : Nat := (0x3120) * 256 + 0x0B
/-- 0x3120.0C LAUNCH_LEAD_US, U16 RW+S (R412). -/
abbrev ptp_LAUNCH_LEAD_US : Nat := (0x3120) * 256 + 0x0C
/-- 0x3120.0D LAUNCH_MISSED, U64 RO (R412). -/
abbrev ptp_LAUNCH_MISSED : Nat := (0x3120) * 256 + 0x0D

/-! Record 0x3130 (16_time_and_network.md, Table 16.4) -/

/-- 0x3130.01 TC_RATE, U8 RW+S (R412). -/
abbrev tc_TC_RATE : Nat := (0x3130) * 256 + 0x01
/-- 0x3130.02 TC_LOCAL_OFFSET_S, I32 RW+S (R412). -/
abbrev tc_TC_LOCAL_OFFSET_S : Nat := (0x3130) * 256 + 0x02
/-- 0x3130.03 DAILY_JAM_S, U32 RW+S (R412). -/
abbrev tc_DAILY_JAM_S : Nat := (0x3130) * 256 + 0x03
/-- 0x3130.04 TC_NOW, U32 RO (R412). -/
abbrev tc_TC_NOW : Nat := (0x3130) * 256 + 0x04

/-! Record 0x3140 + s (16_time_and_network.md, Table 16.4) -/

/-- X.01 PROXY_ENABLE, BOOL RW+S (R412). -/
abbrev prx_PROXY_ENABLE (s : Nat) : Nat := (0x3140 + s) * 256 + 0x01
/-- X.02 PROXY_DEST, U64 RW+S (R412). -/
abbrev prx_PROXY_DEST (s : Nat) : Nat := (0x3140 + s) * 256 + 0x02
/-- X.03 PROXY_PT, U8 RW+S (R412). -/
abbrev prx_PROXY_PT (s : Nat) : Nat := (0x3140 + s) * 256 + 0x03
/-- X.04 PROXY_SSRC, U32 RW+S (R412). -/
abbrev prx_PROXY_SSRC (s : Nat) : Nat := (0x3140 + s) * 256 + 0x04
/-- X.05 PROXY_MTU, U16 RW+S (R412). -/
abbrev prx_PROXY_MTU (s : Nat) : Nat := (0x3140 + s) * 256 + 0x05
/-- X.06 PROXY_VLAN, U16 RW+S (R412). -/
abbrev prx_PROXY_VLAN (s : Nat) : Nat := (0x3140 + s) * 256 + 0x06
/-- X.07 PACKETS, U64 RO (R412). -/
abbrev prx_PACKETS (s : Nat) : Nat := (0x3140 + s) * 256 + 0x07

/-! Record 0x0100 (17_parameter_dictionary.md, Table 17.13) -/

/-- 0x0100.01 VENDOR_ID, U16 RO (R446). -/
abbrev idn_VENDOR_ID : Nat := (0x0100) * 256 + 0x01
/-- 0x0100.02 DEVICE_ID, U16 RO (R446). -/
abbrev idn_DEVICE_ID : Nat := (0x0100) * 256 + 0x02
/-- 0x0100.03 STEPPING, U8 RO (R446). -/
abbrev idn_STEPPING : Nat := (0x0100) * 256 + 0x03
/-- 0x0100.04 SERIAL, STR RO (R446). -/
abbrev idn_SERIAL : Nat := (0x0100) * 256 + 0x04
/-- 0x0100.05 ORDER_CODE, STR RO (R446). -/
abbrev idn_ORDER_CODE : Nat := (0x0100) * 256 + 0x05
/-- 0x0100.06 FW_VERSION, U32 RO (R446). -/
abbrev idn_FW_VERSION : Nat := (0x0100) * 256 + 0x06
/-- 0x0100.07 DICT_FORMAT, U16 RO (R446). -/
abbrev idn_DICT_FORMAT : Nat := (0x0100) * 256 + 0x07

/-! Record 0x0110 (17_parameter_dictionary.md, Table 17.13) -/

/-- 0x0110.01 AUTH_CHALLENGE, BLOB RO (R446). -/
abbrev auth_AUTH_CHALLENGE : Nat := (0x0110) * 256 + 0x01
/-- 0x0110.02 AUTH_RESPONSE, BLOB WO (R446). -/
abbrev auth_AUTH_RESPONSE : Nat := (0x0110) * 256 + 0x02
/-- 0x0110.03 AUTH_LOCAL, BOOL RW+S (R446). -/
abbrev auth_AUTH_LOCAL : Nat := (0x0110) * 256 + 0x03
/-- 0x0110.04 SESSION_TIMEOUT_S, U16 RW+S (R446). -/
abbrev auth_SESSION_TIMEOUT_S : Nat := (0x0110) * 256 + 0x04
/-- 0x0110.05 SESSIONS, U8 RO (R446). -/
abbrev auth_SESSIONS : Nat := (0x0110) * 256 + 0x05
/-- 0x0110.06 KEY_RIGHTS, U8 RW+S (R446). -/
abbrev auth_KEY_RIGHTS : Nat := (0x0110) * 256 + 0x06
/-- 0x0110.07 KEY_SLOTS, U8 RO (R446). -/
abbrev auth_KEY_SLOTS : Nat := (0x0110) * 256 + 0x07
/-- 0x0110.08 AUTH_FAILURES, U32 RO (R446). -/
abbrev auth_AUTH_FAILURES : Nat := (0x0110) * 256 + 0x08

/-! Record 0x0111 (17_parameter_dictionary.md, Table 17.13) -/

/-- 0x0111.01 to .08 PROV_KEY, BLOB WO+S (R446). -/
abbrev pkey_PROV_KEY (j : Nat) : Nat := (0x0111) * 256 + 0x01 + j

/-! Record 0x0120 (17_parameter_dictionary.md, Table 17.13) -/

/-- 0x0120.01 UDP_MAX, U16 RW+S (R446). -/
abbrev srv_UDP_MAX : Nat := (0x0120) * 256 + 0x01
/-- 0x0120.02 TWM_ACCESS, U8 RW+S (R446). -/
abbrev srv_TWM_ACCESS : Nat := (0x0120) * 256 + 0x02

/-! Record 0x0210 (17_parameter_dictionary.md, Table 17.13) -/

/-- 0x0210.01 EVT_LOG_DEPTH, U32 RWC+S (R446). -/
abbrev elog_EVT_LOG_DEPTH : Nat := (0x0210) * 256 + 0x01
/-- 0x0210.02 EVT_LOG_OLDEST, U64 RO (R446). -/
abbrev elog_EVT_LOG_OLDEST : Nat := (0x0210) * 256 + 0x02
/-- 0x0210.03 EVT_LOG_NEXT, U64 RO (R446). -/
abbrev elog_EVT_LOG_NEXT : Nat := (0x0210) * 256 + 0x03

/-! Record 0x0320 (17_parameter_dictionary.md, Table 17.13) -/

/-- 0x0320.01 STORE_SAVE, BOOL WO (R446). -/
abbrev store_STORE_SAVE : Nat := (0x0320) * 256 + 0x01
/-- 0x0320.02 STORE_STATUS, U8 RO (R446). -/
abbrev store_STORE_STATUS : Nat := (0x0320) * 256 + 0x02
/-- 0x0320.03 STORE_SEQ, U32 RO (R446). -/
abbrev store_STORE_SEQ : Nat := (0x0320) * 256 + 0x03
/-- 0x0320.04 STORE_BANK, U8 RO (R446). -/
abbrev store_STORE_BANK : Nat := (0x0320) * 256 + 0x04
/-- 0x0320.05 CALIB_SEQ, U32 RO (R446). -/
abbrev store_CALIB_SEQ : Nat := (0x0320) * 256 + 0x05
/-- 0x0320.06 STORE_DIRTY, BOOL RO (R446). -/
abbrev store_STORE_DIRTY : Nat := (0x0320) * 256 + 0x06
/-- 0x0320.07 STORE_SKIPPED, U32 RO (R446). -/
abbrev store_STORE_SKIPPED : Nat := (0x0320) * 256 + 0x07
/-- 0x0320.08 FLASH_BYTES, U64 RO (R446). -/
abbrev store_FLASH_BYTES : Nat := (0x0320) * 256 + 0x08

/-! Record 0x3400 (18_scan_and_strobes.md, Table 18.5) -/

/-- 0x3400.01 SCAN_PORT, U8 RWC+S (R473). -/
abbrev scan_SCAN_PORT : Nat := (0x3400) * 256 + 0x01
/-- 0x3400.02 SCAN_ENCODER, U8 RWC+S (R473). -/
abbrev scan_SCAN_ENCODER : Nat := (0x3400) * 256 + 0x02
/-- 0x3400.03 SCAN_DIR, U8 RWC+S (R473). -/
abbrev scan_SCAN_DIR : Nat := (0x3400) * 256 + 0x03
/-- 0x3400.04 LINE_PITCH, U64 RWC+S (R473). -/
abbrev scan_LINE_PITCH : Nat := (0x3400) * 256 + 0x04
/-- 0x3400.05 START_POS, I64 RWC+S (R473). -/
abbrev scan_START_POS : Nat := (0x3400) * 256 + 0x05
/-- 0x3400.06 FWD_OFFSET, I32 RWC+S (R473). -/
abbrev scan_FWD_OFFSET : Nat := (0x3400) * 256 + 0x06
/-- 0x3400.07 REV_OFFSET, I32 RWC+S (R473). -/
abbrev scan_REV_OFFSET : Nat := (0x3400) * 256 + 0x07
/-- 0x3400.08 SCAN_LINES, U32 RWC+S (R473). -/
abbrev scan_SCAN_LINES : Nat := (0x3400) * 256 + 0x08
/-- 0x3400.09 SCAN_FRAMES, U32 RWC+S (R473). -/
abbrev scan_SCAN_FRAMES : Nat := (0x3400) * 256 + 0x09
/-- 0x3400.0A DIR_HYST, U16 RWC+S (R473). -/
abbrev scan_DIR_HYST : Nat := (0x3400) * 256 + 0x0A
/-- 0x3400.0B START_SOURCE, U8 RWC+S (R473). -/
abbrev scan_START_SOURCE : Nat := (0x3400) * 256 + 0x0B
/-- 0x3400.0C TRIG_OUT, U8 RWC+S (R473). -/
abbrev scan_TRIG_OUT : Nat := (0x3400) * 256 + 0x0C
/-- 0x3400.0D TRIG_WIDTH_NS, U32 RWC+S (R473). -/
abbrev scan_TRIG_WIDTH_NS : Nat := (0x3400) * 256 + 0x0D
/-- 0x3400.0E SENSOR_CYCLE_NS, U32 RWC+S (R473). -/
abbrev scan_SENSOR_CYCLE_NS : Nat := (0x3400) * 256 + 0x0E
/-- 0x3400.0F ABORT_SKIPS, U16 RW+S (R473). -/
abbrev scan_ABORT_SKIPS : Nat := (0x3400) * 256 + 0x0F
/-- 0x3400.10 SCAN_STATE, U8 RO (R473). -/
abbrev scan_SCAN_STATE : Nat := (0x3400) * 256 + 0x10
/-- 0x3400.11 LINE_SLOT, U64 RO (R473). -/
abbrev scan_LINE_SLOT : Nat := (0x3400) * 256 + 0x11
/-- 0x3400.12 LINES_FIRED, U64 RO (R473). -/
abbrev scan_LINES_FIRED : Nat := (0x3400) * 256 + 0x12
/-- 0x3400.13 LINES_SKIPPED, U64 RO (R473). -/
abbrev scan_LINES_SKIPPED : Nat := (0x3400) * 256 + 0x13
/-- 0x3400.14 LINES_DARK, U64 RO (R473). -/
abbrev scan_LINES_DARK : Nat := (0x3400) * 256 + 0x14
/-- 0x3400.15 STRAY_ROWS, U64 RO (R473). -/
abbrev scan_STRAY_ROWS : Nat := (0x3400) * 256 + 0x15
/-- 0x3400.16 LINE_REC_BASE, U64 RO (R473). -/
abbrev scan_LINE_REC_BASE : Nat := (0x3400) * 256 + 0x16

/-! Record 0x3410 + e (18_scan_and_strobes.md, Table 18.5) -/

/-- Y.01 ENC_FILTER, U8 RW+S (R473). -/
abbrev enc_ENC_FILTER (e : Nat) : Nat := (0x3410 + e) * 256 + 0x01
/-- Y.02 ENC_INVERT, BOOL RW+S (R473). -/
abbrev enc_ENC_INVERT (e : Nat) : Nat := (0x3410 + e) * 256 + 0x02
/-- Y.03 ENC_INDEX_MODE, U8 RWC+S (R473). -/
abbrev enc_ENC_INDEX_MODE (e : Nat) : Nat := (0x3410 + e) * 256 + 0x03
/-- Y.04 ENC_POSITION, I64 RO (R473). -/
abbrev enc_ENC_POSITION (e : Nat) : Nat := (0x3410 + e) * 256 + 0x04
/-- Y.05 ENC_INDEX_POS, I64 RO (R473). -/
abbrev enc_ENC_INDEX_POS (e : Nat) : Nat := (0x3410 + e) * 256 + 0x05
/-- Y.06 ENC_ERRORS, U64 RO (R473). -/
abbrev enc_ENC_ERRORS (e : Nat) : Nat := (0x3410 + e) * 256 + 0x06
/-- Y.07 LOOP_BW_HZ, F32 RW+S (R473). -/
abbrev enc_LOOP_BW_HZ (e : Nat) : Nat := (0x3410 + e) * 256 + 0x07
/-- Y.08 TRACK_STATE, U8 RO (R473). -/
abbrev enc_TRACK_STATE (e : Nat) : Nat := (0x3410 + e) * 256 + 0x08
/-- Y.09 TRACK_POS, I64 RO (R473). -/
abbrev enc_TRACK_POS (e : Nat) : Nat := (0x3410 + e) * 256 + 0x09
/-- Y.0A TRACK_VEL, F32 RO (R473). -/
abbrev enc_TRACK_VEL (e : Nat) : Nat := (0x3410 + e) * 256 + 0x0A

/-! Record 0x3420 (18_scan_and_strobes.md, Table 18.5) -/

/-- 0x3420.01 STROBE_ENABLE, U8 RW (R473). -/
abbrev stb_STROBE_ENABLE : Nat := (0x3420) * 256 + 0x01
/-- 0x3420.02 PEAK_LIMIT, U16 RW+S (R473). -/
abbrev stb_PEAK_LIMIT : Nat := (0x3420) * 256 + 0x02
/-- 0x3420.03 STROBE_PEAK_FUSED, U16 RO (R473). -/
abbrev stb_STROBE_PEAK_FUSED : Nat := (0x3420) * 256 + 0x03
/-- 0x3420.04 CURRENT_UNITS, BLOB RWC+S (R473). -/
abbrev stb_CURRENT_UNITS : Nat := (0x3420) * 256 + 0x04
/-- 0x3420.05 CHANNEL_GROUP, BLOB RWC+S (R473). -/
abbrev stb_CHANNEL_GROUP : Nat := (0x3420) * 256 + 0x05
/-- 0x3420.06 STAGGER_NS, U32 RWC+S (R473). -/
abbrev stb_STAGGER_NS : Nat := (0x3420) * 256 + 0x06
/-- 0x3420.07 STROBE_WINDOW_NS, U32 RWC+S (R473). -/
abbrev stb_STROBE_WINDOW_NS : Nat := (0x3420) * 256 + 0x07
/-- 0x3420.08 STROBE_RECOVERY_NS, U32 RWC+S (R473). -/
abbrev stb_STROBE_RECOVERY_NS : Nat := (0x3420) * 256 + 0x08
/-- 0x3420.09 STROBE_SOURCE, U8 RWC+S (R473). -/
abbrev stb_STROBE_SOURCE : Nat := (0x3420) * 256 + 0x09
/-- 0x3420.0A PATTERN_TABLE, BLOB RWC (R473). -/
abbrev stb_PATTERN_TABLE : Nat := (0x3420) * 256 + 0x0A
/-- 0x3420.0B PATTERN_LINES, U32 RO (R473). -/
abbrev stb_PATTERN_LINES : Nat := (0x3420) * 256 + 0x0B
/-- 0x3420.0C PATTERN_WRAP, BOOL RWC+S (R473). -/
abbrev stb_PATTERN_WRAP : Nat := (0x3420) * 256 + 0x0C
/-- 0x3420.0D CLIPPED_LINES, U64 RO (R473). -/
abbrev stb_CLIPPED_LINES : Nat := (0x3420) * 256 + 0x0D

/-! Record 0x3800 (19_two_wire_buses.md, Table 19.6) -/

/-- 0x3800.01 TWM_ADDR, U8 RO (R493). -/
abbrev twm_TWM_ADDR : Nat := (0x3800) * 256 + 0x01
/-- 0x3800.02 TWM_WAKE_WINDOW_MS, U16 RW+S (R493). -/
abbrev twm_TWM_WAKE_WINDOW_MS : Nat := (0x3800) * 256 + 0x02
/-- 0x3800.03 TWM_SLEEP_NACKS, U32 RO (R493). -/
abbrev twm_TWM_SLEEP_NACKS : Nat := (0x3800) * 256 + 0x03
/-- 0x3800.04 TWM_ERRORS, U32 RO (R493). -/
abbrev twm_TWM_ERRORS : Nat := (0x3800) * 256 + 0x04

/-! Record 0x3810 + n (19_two_wire_buses.md, Table 19.6) -/

/-- W.01 TW_ENABLE, BOOL RW+S (R493). -/
abbrev tw_TW_ENABLE (n : Nat) : Nat := (0x3810 + n) * 256 + 0x01
/-- W.02 TW_SPEED, U8 RWC+S (R493). -/
abbrev tw_TW_SPEED (n : Nat) : Nat := (0x3810 + n) * 256 + 0x02
/-- W.03 TW_FALL, U8 RWC+S (R493). -/
abbrev tw_TW_FALL (n : Nat) : Nat := (0x3810 + n) * 256 + 0x03
/-- W.04 TW_FILTER, U8 RWC+S (R493). -/
abbrev tw_TW_FILTER (n : Nat) : Nat := (0x3810 + n) * 256 + 0x04
/-- W.05 TW_STRETCH_TIMEOUT_US, U32 RW+S (R493). -/
abbrev tw_TW_STRETCH_TIMEOUT_US (n : Nat) : Nat := (0x3810 + n) * 256 + 0x05
/-- W.06 TW_BUSY_TIMEOUT_US, U32 RW+S (R493). -/
abbrev tw_TW_BUSY_TIMEOUT_US (n : Nat) : Nat := (0x3810 + n) * 256 + 0x06
/-- W.07 TW_ARB_RETRIES, U8 RW+S (R493). -/
abbrev tw_TW_ARB_RETRIES (n : Nat) : Nat := (0x3810 + n) * 256 + 0x07
/-- W.08 TW_RST_TIME_US, U32 RW+S (R493). -/
abbrev tw_TW_RST_TIME_US (n : Nat) : Nat := (0x3810 + n) * 256 + 0x08
/-- W.09 TW_RESET_ON_WARM, BOOL RWC+S (R493). -/
abbrev tw_TW_RESET_ON_WARM (n : Nat) : Nat := (0x3810 + n) * 256 + 0x09
/-- W.0A TW_RST_ASSERT, BOOL RW (R493). -/
abbrev tw_TW_RST_ASSERT (n : Nat) : Nat := (0x3810 + n) * 256 + 0x0A
/-- W.0B TW_XFER, BLOB WO (R493). -/
abbrev tw_TW_XFER (n : Nat) : Nat := (0x3810 + n) * 256 + 0x0B
/-- W.0C TW_RESULT, BLOB RO (R493). -/
abbrev tw_TW_RESULT (n : Nat) : Nat := (0x3810 + n) * 256 + 0x0C
/-- W.0D TW_STATE, U8 RO (R493). -/
abbrev tw_TW_STATE (n : Nat) : Nat := (0x3810 + n) * 256 + 0x0D
/-- W.0E TW_TRANSACTIONS, U64 RO (R493). -/
abbrev tw_TW_TRANSACTIONS (n : Nat) : Nat := (0x3810 + n) * 256 + 0x0E
/-- W.0F TW_FAILURES, U64 RO (R493). -/
abbrev tw_TW_FAILURES (n : Nat) : Nat := (0x3810 + n) * 256 + 0x0F
/-- W.10 TW_CLEARS, U32 RO (R493). -/
abbrev tw_TW_CLEARS (n : Nat) : Nat := (0x3810 + n) * 256 + 0x10

/-! Record 0x3C00 (20_thermal_and_power.md, Table 20.6) -/

/-- 0x3C00.01 THERM_SHUT_C, F32 RW+S (R518). -/
abbrev thm_THERM_SHUT_C : Nat := (0x3C00) * 256 + 0x01
/-- 0x3C00.02 THERM_SHUT_FUSED, F32 RO (R518). -/
abbrev thm_THERM_SHUT_FUSED : Nat := (0x3C00) * 256 + 0x02
/-- 0x3C00.03 WARN_C, F32 RO (R518). -/
abbrev thm_WARN_C : Nat := (0x3C00) * 256 + 0x03
/-- 0x3C00.04 THROTTLE_C, F32 RO (R518). -/
abbrev thm_THROTTLE_C : Nat := (0x3C00) * 256 + 0x04
/-- 0x3C00.05 HYST_C, F32 RO (R518). -/
abbrev thm_HYST_C : Nat := (0x3C00) * 256 + 0x05
/-- 0x3C00.06 RISE_WARN, F32 RO (R518). -/
abbrev thm_RISE_WARN : Nat := (0x3C00) * 256 + 0x06
/-- 0x3C00.07 RISE_TRIP, F32 RO (R518). -/
abbrev thm_RISE_TRIP : Nat := (0x3C00) * 256 + 0x07
/-- 0x3C00.08 RESTART_C, F32 RW+S (R518). -/
abbrev thm_RESTART_C : Nat := (0x3C00) * 256 + 0x08
/-- 0x3C00.09 HOLD_TIME_S, U16 RW+S (R518). -/
abbrev thm_HOLD_TIME_S : Nat := (0x3C00) * 256 + 0x09
/-- 0x3C00.0A ROUND_MS, U8 RWC+S (R518). -/
abbrev thm_ROUND_MS : Nat := (0x3C00) * 256 + 0x0A
/-- 0x3C00.0B JUNCTION_C, F32 RO (R518). -/
abbrev thm_JUNCTION_C : Nat := (0x3C00) * 256 + 0x0B
/-- 0x3C00.0C RISE, F32 RO (R518). -/
abbrev thm_RISE : Nat := (0x3C00) * 256 + 0x0C
/-- 0x3C00.0D THERM_STATE, U32 RO (R518). -/
abbrev thm_THERM_STATE : Nat := (0x3C00) * 256 + 0x0D
/-- 0x3C00.0E SENSOR_FAULTS, U64 RO (R518). -/
abbrev thm_SENSOR_FAULTS : Nat := (0x3C00) * 256 + 0x0E
/-- 0x3C00.0F SHUTDOWNS, U32 RO (R518). -/
abbrev thm_SHUTDOWNS : Nat := (0x3C00) * 256 + 0x0F

/-! Record 0x3C01 (20_thermal_and_power.md, Table 20.6) -/

/-- 0x3C01.01 to .10 ZONE_C, F32 RO (R518). -/
abbrev zone_ZONE_C (j : Nat) : Nat := (0x3C01) * 256 + 0x01 + j

/-! Record 0x3C02 (20_thermal_and_power.md, Table 20.6) -/

/-- 0x3C02.01 RAIL_VOLTS, BLOB RO (R518). -/
abbrev rail_RAIL_VOLTS : Nat := (0x3C02) * 256 + 0x01
/-- 0x3C02.02 RAIL_FAULTS, U16 RO (R518). -/
abbrev rail_RAIL_FAULTS : Nat := (0x3C02) * 256 + 0x02
/-- 0x3C02.03 PWR_FAIL_V, F32 RWC+S (R518). -/
abbrev rail_PWR_FAIL_V : Nat := (0x3C02) * 256 + 0x03
/-- 0x3C02.04 PWR_FAIL_HYST_V, F32 RWC+S (R518). -/
abbrev rail_PWR_FAIL_HYST_V : Nat := (0x3C02) * 256 + 0x04
/-- 0x3C02.05 PWR_RESTORE_S, U16 RW+S (R518). -/
abbrev rail_PWR_RESTORE_S : Nat := (0x3C02) * 256 + 0x05

/-! Record 0x3C03 (20_thermal_and_power.md, Table 20.6) -/

/-- 0x3C03.01 CAP_THERM_AIN, U8 RWC+S (R518). -/
abbrev hold_CAP_THERM_AIN : Nat := (0x3C03) * 256 + 0x01
/-- 0x3C03.02 CAP_CHG_REQ, BOOL RW+S (R518). -/
abbrev hold_CAP_CHG_REQ : Nat := (0x3C03) * 256 + 0x02
/-- 0x3C03.03 CAP_CHG_ALLOWED, BOOL RO (R518). -/
abbrev hold_CAP_CHG_ALLOWED : Nat := (0x3C03) * 256 + 0x03
/-- 0x3C03.04 HOLDUP_STATE, U8 RO (R518). -/
abbrev hold_HOLDUP_STATE : Nat := (0x3C03) * 256 + 0x04
/-- 0x3C03.05 HOLDUP_MS, U32 RO (R518). -/
abbrev hold_HOLDUP_MS : Nat := (0x3C03) * 256 + 0x05

/-! Record 0x3C10 + i (20_thermal_and_power.md, Table 20.6) -/

/-- A.01 AIN_MODE, U8 RWC+S (R518). -/
abbrev ain_AIN_MODE (i : Nat) : Nat := (0x3C10 + i) * 256 + 0x01
/-- A.02 AIN_PULL_OHM, F32 RWC+S (R518). -/
abbrev ain_AIN_PULL_OHM (i : Nat) : Nat := (0x3C10 + i) * 256 + 0x02
/-- A.03 AIN_R0_OHM, F32 RWC+S (R518). -/
abbrev ain_AIN_R0_OHM (i : Nat) : Nat := (0x3C10 + i) * 256 + 0x03
/-- A.04 AIN_BETA, F32 RWC+S (R518). -/
abbrev ain_AIN_BETA (i : Nat) : Nat := (0x3C10 + i) * 256 + 0x04
/-- A.05 AIN_GAIN, F32 RWC+S (R518). -/
abbrev ain_AIN_GAIN (i : Nat) : Nat := (0x3C10 + i) * 256 + 0x05
/-- A.06 AIN_OFFSET, F32 RWC+S (R518). -/
abbrev ain_AIN_OFFSET (i : Nat) : Nat := (0x3C10 + i) * 256 + 0x06
/-- A.07 AIN_VOLTS, F32 RO (R518). -/
abbrev ain_AIN_VOLTS (i : Nat) : Nat := (0x3C10 + i) * 256 + 0x07
/-- A.08 AIN_VALUE, F32 RO (R518). -/
abbrev ain_AIN_VALUE (i : Nat) : Nat := (0x3C10 + i) * 256 + 0x08

/-! Record 0x0300 (21_clocks_reset_boot.md, Table 21.9) -/

/-- 0x0300.01 BOOT_SOURCE, U8 RO (R542). -/
abbrev boot_BOOT_SOURCE : Nat := (0x0300) * 256 + 0x01
/-- 0x0300.02 BOOT_SLOT, U8 RO (R542). -/
abbrev boot_BOOT_SLOT : Nat := (0x0300) * 256 + 0x02
/-- 0x0300.03 BOOT_STATUS, U8 RO (R542). -/
abbrev boot_BOOT_STATUS : Nat := (0x0300) * 256 + 0x03
/-- 0x0300.04 SLOT_STATES, U32 RO (R542). -/
abbrev boot_SLOT_STATES : Nat := (0x0300) * 256 + 0x04
/-- 0x0300.05 FW_UPDATE, BLOB WO (R542). -/
abbrev boot_FW_UPDATE : Nat := (0x0300) * 256 + 0x05
/-- 0x0300.06 FW_UPDATE_STATUS, U8 RO (R542). -/
abbrev boot_FW_UPDATE_STATUS : Nat := (0x0300) * 256 + 0x06
/-- 0x0300.07 FW_COMMIT, BOOL WO (R542). -/
abbrev boot_FW_COMMIT : Nat := (0x0300) * 256 + 0x07
/-- 0x0300.08 FW_AUTO_COMMIT, BOOL RW+S (R542). -/
abbrev boot_FW_AUTO_COMMIT : Nat := (0x0300) * 256 + 0x08
/-- 0x0300.09 SUBSYSTEM_IDS, U32 RWC (R542). -/
abbrev boot_SUBSYSTEM_IDS : Nat := (0x0300) * 256 + 0x09

/-! Record 0x0310 (21_clocks_reset_boot.md, Table 21.9) -/

/-- 0x0310.01 ROLLBACK_FUSED, U8 RO (R542). -/
abbrev fuse_ROLLBACK_FUSED : Nat := (0x0310) * 256 + 0x01
/-- 0x0310.02 KEYS_REVOKED, U8 RO (R542). -/
abbrev fuse_KEYS_REVOKED : Nat := (0x0310) * 256 + 0x02

/-! Record 0x0400 (21_clocks_reset_boot.md, Table 21.9) -/

/-- 0x0400.01 RESET_CAUSE, U8 RO (R542). -/
abbrev clk_RESET_CAUSE : Nat := (0x0400) * 256 + 0x01
/-- 0x0400.02 RESET_COUNT, U32 RO (R542). -/
abbrev clk_RESET_COUNT : Nat := (0x0400) * 256 + 0x02
/-- 0x0400.03 RESET_REQUEST, U32 WO (R542). -/
abbrev clk_RESET_REQUEST : Nat := (0x0400) * 256 + 0x03
/-- 0x0400.04 BOOT_WDT_S, U8 RW+S (R542). -/
abbrev clk_BOOT_WDT_S : Nat := (0x0400) * 256 + 0x04
/-- 0x0400.05 PLL_LOCKED, BOOL RO (R542). -/
abbrev clk_PLL_LOCKED : Nat := (0x0400) * 256 + 0x05
/-- 0x0400.06 VENG_BUS, U8 RWC+S (R542). -/
abbrev clk_VENG_BUS : Nat := (0x0400) * 256 + 0x06
/-- 0x0400.07 VENG_ADDR, U8 RWC+S (R542). -/
abbrev clk_VENG_ADDR : Nat := (0x0400) * 256 + 0x07
/-- 0x0400.08 VENG_MV, U16 RO (R542). -/
abbrev clk_VENG_MV : Nat := (0x0400) * 256 + 0x08

end Sys2Proof.Machine.Reg
end

