-- ==== Sys2Proof/Machine/Dict.lean ====
section
/-! DEFINITION. The parameter dictionary as data: every record's rows with type, access, default, range and markers,
from the entry tables of the chapters (R415 to R419), and the checks a value must pass. -/

namespace Sys2Proof.Machine

/-- The bytes of an array of F32 codes. -/
def f32s (l : List Nat) : List Byte := l.flatMap (leBytes 4)

/-- Entry types (Table 17.1). -/
inductive Ty where
  | bool | u8 | u16 | u32 | u64 | i32 | i64 | f32 | tb | str | blob
deriving DecidableEq, Repr

/-- Access codes (Table 17.2). -/
inductive Acc where
  | ro | rw | wo | rwc
deriving DecidableEq, Repr

/-- The range a value must lie in, as the entry's meaning states it. Floating-point bounds are F32 codes. -/
inductive Rng where
  | any
  | bool
  | nat (lo hi : Nat)
  | oneOf (l : List Nat)
  | mask (m : Nat)
  | nibbles (max : Nat)
  | f32 (lo hi : Nat)
  | f32pos
  | int (w : Nat) (lo hi : Int)
  | blobLen (lo hi : Nat)
  | blobMul (m hi : Nat)
  | strMax (n : Nat)
  | trigPin
  | ain
  | gpPin
  | pow2 (lo hi : Nat)
deriving DecidableEq, Repr

/-- One row of an entry table: `n` consecutive sub-indices from `sub`; `persist` is the suffix +S, `calib` the marker
‡, `service` the marker †, `staged` the marker §. -/
structure Row where
  sub : Nat
  name : String
  ty : Ty
  acc : Acc
  dflt : Val
  rng : Rng
  persist : Bool := false
  calib : Bool := false
  service : Bool := false
  staged : Bool := false
  n : Nat := 1
deriving DecidableEq, Repr

/-- Record 0x0200: Table 2.3. -/
def rec_mode : List Row := [
  { sub := 0x01, name := "MODE_REQUEST", ty := .u16, acc := .rw, dflt := .num 0, rng := .mask 0x1FF },
  { sub := 0x02, name := "MODE_CURRENT", ty := .u8, acc := .ro, dflt := .num 1, rng := .any },
  { sub := 0x03, name := "MODE_EXIT_CAUSE", ty := .u8, acc := .ro, dflt := .num 0, rng := .any },
  { sub := 0x04, name := "MODE_TARGET", ty := .u8, acc := .ro, dflt := .num 0, rng := .any },
  { sub := 0x05, name := "MODE_TIMEOUT_S", ty := .u32, acc := .rw, dflt := .num 60, rng := .nat 10 600, persist := true },
  { sub := 0x06, name := "BURST_AUTO_OFFLOAD", ty := .bool, acc := .rw, dflt := .num 0, rng := .bool, persist := true },
  { sub := 0x07, name := "MODE_REFUSE_REASON", ty := .u8, acc := .ro, dflt := .num 0, rng := .any }]

/-- Record 0x0800 + 0x100 * p: Table 3.7. -/
def rec_sen : List Row := [
  { sub := 0x01, name := "PORT_ENABLE", ty := .bool, acc := .rw, dflt := .num 0, rng := .bool },
  { sub := 0x02, name := "CODING", ty := .u8, acc := .rwc, dflt := .num 0, rng := .oneOf [0, 1], persist := true },
  { sub := 0x03, name := "LANE_COUNT", ty := .u8, acc := .rwc, dflt := .num 64, rng := .oneOf [1, 2, 4, 8, 16, 32, 64], persist := true },
  { sub := 0x04, name := "LANE_RATE_MBPS", ty := .u32, acc := .rwc, dflt := .num 12500, rng := .nat 1250 12500, persist := true },
  { sub := 0x05, name := "WORD_WIDTH", ty := .u8, acc := .rwc, dflt := .num 12, rng := .oneOf [10, 12, 14, 16], persist := true },
  { sub := 0x06, name := "TRAINING_WORD", ty := .u16, acc := .rwc, dflt := .num 1716, rng := .any, persist := true },
  { sub := 0x07, name := "SEGMENT_LANES", ty := .u8, acc := .rwc, dflt := .num 1, rng := .oneOf [1, 2, 4, 8, 16, 32, 64, 128], persist := true },
  { sub := 0x08, name := "GANG", ty := .u8, acc := .rwc, dflt := .num 0, rng := .nat 0 2, persist := true },
  { sub := 0x09, name := "PORT_STATUS", ty := .u32, acc := .ro, dflt := .num 0, rng := .any },
  { sub := 0x0A, name := "ALIGN_DWELL", ty := .u32, acc := .rw, dflt := .num 4096, rng := .nat 256 65536, persist := true },
  { sub := 0x0B, name := "ALIGN_MIN", ty := .u32, acc := .rw, dflt := .num 4090, rng := .any, persist := true },
  { sub := 0x0C, name := "CONT_ADAPT", ty := .bool, acc := .rw, dflt := .num 0, rng := .bool, persist := true },
  { sub := 0x0D, name := "REALIGN_AUTO", ty := .bool, acc := .rw, dflt := .num 1, rng := .bool, persist := true },
  { sub := 0x0E, name := "RX_POWER_REQ", ty := .u8, acc := .rw, dflt := .num 0, rng := .oneOf [0, 1, 2] },
  { sub := 0x0F, name := "DESKEW_ARM", ty := .bool, acc := .wo, dflt := .num 0, rng := .bool, service := true }]

/-- Record 0x0800 + 0x100 * p + 0x01: Table 3.7. -/
def rec_sen1 : List Row := [
  { sub := 0x01, name := "SB0_ENABLE", ty := .bool, acc := .rw, dflt := .num 0, rng := .bool, persist := true },
  { sub := 0x02, name := "SB1_ENABLE", ty := .bool, acc := .rw, dflt := .num 0, rng := .bool, persist := true },
  { sub := 0x03, name := "SB_RATE_MBPS", ty := .u16, acc := .rwc, dflt := .num 3125, rng := .nat 1250 3125, persist := true },
  { sub := 0x04, name := "SB_POWER_REQ", ty := .u8, acc := .rw, dflt := .num 0, rng := .oneOf [0, 1, 2, 4, 5, 6, 8, 9, 10] },
  { sub := 0x05, name := "TRIG_LAT_NS", ty := .u16, acc := .ro, dflt := .num 0, rng := .any },
  { sub := 0x06, name := "SB_SEND", ty := .blob, acc := .wo, dflt := .bytes [], rng := .blobLen 1 33, service := true },
  { sub := 0x07, name := "SB_PRBS_SEL", ty := .u8, acc := .rw, dflt := .num 0, rng := .nibbles 5, service := true },
  { sub := 0x08, name := "CK_ENABLE", ty := .bool, acc := .rw, dflt := .num 0, rng := .bool, persist := true },
  { sub := 0x09, name := "CK_FREQ", ty := .u8, acc := .rw, dflt := .num 0, rng := .nat 0 4, persist := true }]

/-- Record 0x0810 + 0x100 * p + k: Table 3.8. -/
def rec_lan : List Row := [
  { sub := 0x01, name := "LANE_POWER", ty := .u8, acc := .ro, dflt := .num 0, rng := .any },
  { sub := 0x02, name := "LANE_ALIGN", ty := .u8, acc := .ro, dflt := .num 0, rng := .any },
  { sub := 0x03, name := "SLIP", ty := .bool, acc := .wo, dflt := .num 0, rng := .bool, service := true },
  { sub := 0x04, name := "SLIP_POS", ty := .u8, acc := .ro, dflt := .num 0, rng := .any },
  { sub := 0x05, name := "DWELL", ty := .bool, acc := .wo, dflt := .num 0, rng := .bool, service := true },
  { sub := 0x06, name := "MATCH_COUNT", ty := .u32, acc := .ro, dflt := .num 0, rng := .any },
  { sub := 0x07, name := "LANDING", ty := .u8, acc := .ro, dflt := .num 255, rng := .any },
  { sub := 0x08, name := "DESKEW", ty := .u8, acc := .rw, dflt := .num 0, rng := .nat 0 63, service := true },
  { sub := 0x09, name := "LOGICAL", ty := .u8, acc := .rwc, dflt := .num 0, rng := .nat 0 63, persist := true },
  { sub := 0x0A, name := "INVERT", ty := .bool, acc := .rwc, dflt := .num 0, rng := .bool, persist := true },
  { sub := 0x0B, name := "CTLE", ty := .u8, acc := .ro, dflt := .num 0, rng := .any },
  { sub := 0x0C, name := "DFE", ty := .blob, acc := .ro, dflt := .bytes (zeros 5), rng := .any },
  { sub := 0x0D, name := "EYE_MV", ty := .u16, acc := .ro, dflt := .num 0, rng := .any },
  { sub := 0x0E, name := "PRBS_SEL", ty := .u8, acc := .rw, dflt := .num 0, rng := .nat 0 5, service := true },
  { sub := 0x0F, name := "LOOP", ty := .u8, acc := .rw, dflt := .num 0, rng := .oneOf [0, 1, 2], service := true },
  { sub := 0x10, name := "PRBS_ERRORS", ty := .u32, acc := .ro, dflt := .num 0, rng := .any },
  { sub := 0x11, name := "PRBS_BITS", ty := .u64, acc := .ro, dflt := .num 0, rng := .any },
  { sub := 0x12, name := "PRBS_LOCK", ty := .bool, acc := .ro, dflt := .num 0, rng := .any }]

/-- Record 0x0C00 + 0x100 * p: Table 4.6. -/
def rec_itk : List Row := [
  { sub := 0x01, name := "OUT_FORMAT", ty := .u8, acc := .rwc, dflt := .num 3, rng := .oneOf [0, 1, 2, 3], persist := true },
  { sub := 0x02, name := "LIN_SHIFT", ty := .u8, acc := .rwc, dflt := .num 8, rng := .nat 0 8, persist := true },
  { sub := 0x03, name := "WIDTH", ty := .u16, acc := .rwc, dflt := .num 0, rng := .any, persist := true },
  { sub := 0x04, name := "HEIGHT", ty := .u16, acc := .rwc, dflt := .num 0, rng := .any, persist := true },
  { sub := 0x05, name := "READOUT_COUNT", ty := .u8, acc := .rwc, dflt := .num 1, rng := .nat 1 3, persist := true },
  { sub := 0x06, name := "CFA", ty := .u8, acc := .rwc, dflt := .num 0, rng := .nat 0 8, persist := true },
  { sub := 0x07, name := "ROW_PERIOD_NS", ty := .u32, acc := .rw, dflt := .num 0, rng := .any, persist := true },
  { sub := 0x08, name := "ROW_TIMEOUT", ty := .u8, acc := .rw, dflt := .num 4, rng := .nat 1 255, persist := true },
  { sub := 0x09, name := "TRIGGERED", ty := .bool, acc := .rw, dflt := .num 0, rng := .bool, persist := true },
  { sub := 0x0A, name := "FRAME_NUMBER", ty := .u64, acc := .ro, dflt := .num 0, rng := .any },
  { sub := 0x0B, name := "DROPPED_COUNT", ty := .u64, acc := .ro, dflt := .num 0, rng := .any }]

/-- Record 0x0C00 + 0x100 * p + 0x01: Table 4.6. -/
def rec_itk1 : List Row := [
  { sub := 0x01, name := "ADC_GROUPS", ty := .u8, acc := .rwc, dflt := .num 1, rng := .oneOf [1, 2, 4, 8, 16], persist := true },
  { sub := 0x02, name := "LIN_TABLE", ty := .blob, acc := .rwc, dflt := .bytes [], rng := .blobLen 0 262208, calib := true, n := 3 }]

/-- Record 0x0C00 + 0x100 * p + 0x02: Table 4.6. -/
def rec_itk2 : List Row := [
  { sub := 0x01, name := "RATIO", ty := .f32, acc := .rwc, dflt := .num 0x3F800000, rng := .any, persist := true, n := 2 },
  { sub := 0x03, name := "SAT", ty := .u32, acc := .rwc, dflt := .num 62259, rng := .nat 0 0xFFFFFF, persist := true, n := 3 },
  { sub := 0x06, name := "BAND", ty := .u32, acc := .rwc, dflt := .num 8192, rng := .nat 1 0xFFFFFF, persist := true, n := 2 },
  { sub := 0x08, name := "NW", ty := .f32, acc := .rwc, dflt := .num 0x3F800000, rng := .f32pos, persist := true, n := 3 }]

/-- Record 0x0C00 + 0x100 * p + 0x03: Table 4.6. -/
def rec_itk3 : List Row := [
  { sub := 0x01, name := "OB_FIRST", ty := .u16, acc := .rwc, dflt := .num 0, rng := .any, persist := true },
  { sub := 0x02, name := "OB_COUNT", ty := .u16, acc := .rwc, dflt := .num 0, rng := .nat 0 256, persist := true },
  { sub := 0x03, name := "BLACK_FIXED", ty := .i32, acc := .rw, dflt := .num 0, rng := .any, persist := true },
  { sub := 0x04, name := "COL_BLACK", ty := .blob, acc := .rwc, dflt := .bytes [], rng := .blobLen 0 131072, calib := true }]

/-- Record 0x0C00 + 0x100 * p + 0x04: Table 4.6. -/
def rec_itk4 : List Row := [
  { sub := 0x01, name := "DEFECT_LIST", ty := .blob, acc := .rwc, dflt := .bytes [], rng := .blobMul 4 4194304, calib := true },
  { sub := 0x02, name := "DEFECT_COUNT", ty := .u32, acc := .ro, dflt := .num 0, rng := .any },
  { sub := 0x03, name := "DEFECT_STEP", ty := .u8, acc := .rwc, dflt := .num 2, rng := .oneOf [1, 2, 4], persist := true },
  { sub := 0x04, name := "HOT_ENABLE", ty := .bool, acc := .rw, dflt := .num 0, rng := .bool, persist := true },
  { sub := 0x05, name := "HOT_THRESH", ty := .u32, acc := .rw, dflt := .num 4096, rng := .nat 0 0xFFFFFF, persist := true },
  { sub := 0x06, name := "HOT_COUNT", ty := .u64, acc := .ro, dflt := .num 0, rng := .any }]

/-- Record 0x0C00 + 0x100 * p + 0x05: Table 4.6. -/
def rec_itk5 : List Row := [
  { sub := 0x01, name := "FLAT_MODE", ty := .u8, acc := .rwc, dflt := .num 0, rng := .nat 0 2, persist := true },
  { sub := 0x02, name := "FLAT_BLOCK", ty := .blob, acc := .rwc, dflt := .bytes [], rng := .blobLen 0 2097152, calib := true },
  { sub := 0x03, name := "FLAT_PIXEL_SOURCE", ty := .str, acc := .rwc, dflt := .bytes [], rng := .strMax 65535, persist := true }]

/-- Record 0x0C00 + 0x100 * p + 0x06: Table 4.6. -/
def rec_itk6 : List Row := [
  { sub := 0x01, name := "RING_SLOTS", ty := .u32, acc := .rwc, dflt := .num 32, rng := .nat 2 4096, persist := true },
  { sub := 0x02, name := "SLOT_BYTES", ty := .u64, acc := .ro, dflt := .num 0, rng := .any },
  { sub := 0x03, name := "RING_BASE", ty := .u64, acc := .ro, dflt := .num 0, rng := .any },
  { sub := 0x04, name := "SLOTS_FREE", ty := .u32, acc := .ro, dflt := .num 0, rng := .any },
  { sub := 0x05, name := "INTAKE_RESERVE_GBPS", ty := .f32, acc := .rwc, dflt := .num 0x42800000, rng := .any, persist := true },
  { sub := 0x06, name := "DROP_POLICY", ty := .u8, acc := .rw, dflt := .num 0, rng := .nat 0 1, persist := true }]

/-- Record 0x0C00 + 0x100 * p + 0x07: Table 4.6. -/
def rec_itk7 : List Row := [
  { sub := 0x01, name := "PAIR_PORT", ty := .u8, acc := .rwc, dflt := .num 255, rng := .oneOf [0, 1, 2, 3, 255], persist := true },
  { sub := 0x02, name := "PAIR_WINDOW", ty := .tb, acc := .rw, dflt := .num 65536000, rng := .any, persist := true }]

/-- Record 0x0C00 + 0x100 * p + 0x08: Table 4.6. -/
def rec_itk8 : List Row := [
  { sub := 0x01, name := "BURST_PRE", ty := .u32, acc := .rwc, dflt := .num 0, rng := .any, persist := true },
  { sub := 0x02, name := "BURST_POST", ty := .u32, acc := .rwc, dflt := .num 0, rng := .any, persist := true },
  { sub := 0x03, name := "BURST_SLOTS", ty := .u32, acc := .ro, dflt := .num 0, rng := .any },
  { sub := 0x04, name := "TRIG_SOURCE", ty := .u8, acc := .rwc, dflt := .num 3, rng := .nat 1 4, persist := true },
  { sub := 0x05, name := "TRIG_PIN", ty := .u8, acc := .rwc, dflt := .num 0, rng := .trigPin, persist := true },
  { sub := 0x06, name := "TRIG_TIME", ty := .tb, acc := .rw, dflt := .num 0, rng := .any },
  { sub := 0x07, name := "TRIG_NOW", ty := .bool, acc := .wo, dflt := .num 0, rng := .bool },
  { sub := 0x08, name := "LEVEL_WINDOW", ty := .u64, acc := .rwc, dflt := .num 0, rng := .any, persist := true },
  { sub := 0x09, name := "LEVEL_THRESHOLD", ty := .u32, acc := .rw, dflt := .num 0, rng := .any, persist := true },
  { sub := 0x0A, name := "LEVEL_FALLING", ty := .bool, acc := .rw, dflt := .num 0, rng := .bool, persist := true },
  { sub := 0x0B, name := "TRIG_FRAME", ty := .u64, acc := .ro, dflt := .num 0, rng := .any },
  { sub := 0x0C, name := "TRIG_PRE_HELD", ty := .u32, acc := .ro, dflt := .num 0, rng := .any },
  { sub := 0x0D, name := "TRIG_IGNORED", ty := .u32, acc := .ro, dflt := .num 0, rng := .any }]

/-- Record 0x1000 + 0x40 * p: Table 5.7. -/
def rec_seq : List Row := [
  { sub := 0x01, name := "SUBMIT", ty := .blob, acc := .wo, dflt := .bytes [], rng := .blobLen 80 80 },
  { sub := 0x02, name := "PENDING", ty := .u8, acc := .ro, dflt := .num 0, rng := .any },
  { sub := 0x03, name := "LAST_LANDED", ty := .u32, acc := .ro, dflt := .num 0, rng := .any },
  { sub := 0x04, name := "RETRY_LIMIT", ty := .u8, acc := .rw, dflt := .num 4, rng := .nat 1 16, persist := true },
  { sub := 0x05, name := "TEMP_AIN", ty := .u8, acc := .rwc, dflt := .num 255, rng := .ain, persist := true },
  { sub := 0x06, name := "TEMP_GAIN", ty := .f32, acc := .rwc, dflt := .num 0x42C80000, rng := .any, persist := true },
  { sub := 0x07, name := "TEMP_OFFSET", ty := .f32, acc := .rwc, dflt := .num 0xC2480000, rng := .any, persist := true }]

/-- Record 0x1008 + 0x40 * p + g: Table 5.7. -/
def rec_grp : List Row := [
  { sub := 0x01, name := "GROUP_NAME", ty := .str, acc := .rwc, dflt := .bytes [], rng := .strMax 65535, persist := true },
  { sub := 0x02, name := "LATENCY", ty := .u8, acc := .rwc, dflt := .num 1, rng := .nat 1 7, persist := true },
  { sub := 0x03, name := "WINDOW_FIRST", ty := .u16, acc := .rwc, dflt := .num 0, rng := .any, persist := true },
  { sub := 0x04, name := "WINDOW_LAST", ty := .u16, acc := .rwc, dflt := .num 0, rng := .any, persist := true },
  { sub := 0x05, name := "CHANNEL", ty := .u8, acc := .rwc, dflt := .num 0, rng := .oneOf [0, 1, 2], persist := true },
  { sub := 0x06, name := "BUS", ty := .u8, acc := .rwc, dflt := .num 0, rng := .nat 0 7, persist := true },
  { sub := 0x07, name := "TARGET", ty := .u8, acc := .rwc, dflt := .num 0, rng := .nat 0 127, persist := true },
  { sub := 0x08, name := "TEMPLATE", ty := .blob, acc := .rwc, dflt := .bytes [], rng := .blobLen 1 32, persist := true },
  { sub := 0x09, name := "VALUE_OFFSET", ty := .u8, acc := .rwc, dflt := .num 0, rng := .any, persist := true },
  { sub := 0x0A, name := "VALUE_LEN", ty := .u8, acc := .rwc, dflt := .num 1, rng := .nat 1 8, persist := true },
  { sub := 0x0B, name := "VALUE_BIG_ENDIAN", ty := .bool, acc := .rwc, dflt := .num 1, rng := .bool, persist := true },
  { sub := 0x0C, name := "STORED_VALUE", ty := .u64, acc := .rw, dflt := .num 0, rng := .any, persist := true },
  { sub := 0x0D, name := "GOVERNING", ty := .u32, acc := .ro, dflt := .num 0, rng := .any },
  { sub := 0x0E, name := "MISSED", ty := .u32, acc := .ro, dflt := .num 0, rng := .any }]

/-- Record 0x1100 + p: Table 5.7. -/
def rec_frm : List Row := [
  { sub := 0x01, name := "LAST_FRAME_RECORD", ty := .blob, acc := .ro, dflt := .bytes (zeros 256), rng := .any },
  { sub := 0x02, name := "DROP_RECORD_BASE", ty := .u64, acc := .ro, dflt := .num 0, rng := .any }]

/-- Record 0x1200 + 0x10 * p: Table 5.7. -/
def rec_foc : List Row := [
  { sub := 0x01, name := "STATS_ENABLE", ty := .bool, acc := .rw, dflt := .num 0, rng := .bool, persist := true },
  { sub := 0x02, name := "MEASURE", ty := .u8, acc := .rw, dflt := .num 0, rng := .nat 0 2, persist := true },
  { sub := 0x03, name := "WINDOW_COUNT", ty := .u8, acc := .rw, dflt := .num 1, rng := .nat 1 64, persist := true },
  { sub := 0x04, name := "WINDOWS", ty := .blob, acc := .rw, dflt := .bytes [], rng := .blobLen 512 512, persist := true },
  { sub := 0x05, name := "CORING", ty := .u16, acc := .rw, dflt := .num 0, rng := .any, persist := true },
  { sub := 0x06, name := "PARTIAL_ROW", ty := .u16, acc := .rw, dflt := .num 0, rng := .any, persist := true },
  { sub := 0x07, name := "STATS_BASE", ty := .u64, acc := .ro, dflt := .num 0, rng := .any }]

/-- Record 0x1400: Table 6.7. -/
def rec_weir : List Row := [
  { sub := 0x01, name := "WEIR_BUDGET_W", ty := .f32, acc := .rw, dflt := .num 0x42B40000, rng := .f32 0x41C80000 0x42DC0000, persist := true },
  { sub := 0x02, name := "WEIR_CEILING_W", ty := .f32, acc := .ro, dflt := .num 0x42DC0000, rng := .any },
  { sub := 0x03, name := "WEIR_DEPTH_J", ty := .f32, acc := .rw, dflt := .num 0x40000000, rng := .f32 0x3DCCCCCD 0x41200000, persist := true },
  { sub := 0x04, name := "WEIR_OVERDRAFT_J", ty := .f32, acc := .rw, dflt := .num 0x3F000000, rng := .f32 0 0x40000000, persist := true },
  { sub := 0x05, name := "WEIR_LEVEL_J", ty := .f32, acc := .ro, dflt := .num 0, rng := .any },
  { sub := 0x06, name := "WEIR_HEADROOM", ty := .f32, acc := .ro, dflt := .num 0x3F800000, rng := .any },
  { sub := 0x07, name := "BASE_POWER_W", ty := .f32, acc := .ro, dflt := .num 0, rng := .any },
  { sub := 0x08, name := "BARGE_POWER_W", ty := .f32, acc := .ro, dflt := .num 0, rng := .any },
  { sub := 0x09, name := "CLOCK_AUTO", ty := .bool, acc := .rw, dflt := .num 0, rng := .bool, persist := true },
  { sub := 0x0A, name := "CLOCK_STEP", ty := .u16, acc := .ro, dflt := .num 0, rng := .any },
  { sub := 0x0B, name := "CLUSTER_CLOCK_MAX", ty := .u16, acc := .rw, dflt := .num 0, rng := .any, persist := true },
  { sub := 0x0C, name := "CEILING_GATED", ty := .u8, acc := .ro, dflt := .num 0, rng := .any }]

/-- Record 0x1401: Table 6.7. -/
def rec_job : List Row := [
  { sub := 0x01, name := "CLUSTER_ENABLE", ty := .u8, acc := .rw, dflt := .num 0xFF, rng := .any },
  { sub := 0x02, name := "DEADLINE_C0_NS", ty := .u32, acc := .rw, dflt := .num 250000000, rng := .any, persist := true },
  { sub := 0x03, name := "DEADLINE_C1_NS", ty := .u32, acc := .rw, dflt := .num 100000000, rng := .any, persist := true },
  { sub := 0x04, name := "DEADLINE_C2_NS", ty := .u32, acc := .rw, dflt := .num 100000000, rng := .any, persist := true },
  { sub := 0x05, name := "DEADLINE_C3_NS", ty := .u32, acc := .rw, dflt := .num 4000000000, rng := .any, persist := true },
  { sub := 0x06, name := "DEVELOP_IN_FLIGHT", ty := .u8, acc := .rw, dflt := .num 2, rng := .nat 1 4, persist := true },
  { sub := 0x07, name := "BASIN_C0_RESERVE", ty := .u16, acc := .rwc, dflt := .num 256, rng := .nat 0 768, persist := true },
  { sub := 0x08, name := "BASIN_LEVEL", ty := .blob, acc := .ro, dflt := .bytes [], rng := .any },
  { sub := 0x09, name := "BACKLOG", ty := .u32, acc := .ro, dflt := .num 0, rng := .any },
  { sub := 0x0A, name := "STEALS", ty := .u64, acc := .ro, dflt := .num 0, rng := .any },
  { sub := 0x0B, name := "BASIN_DUMP", ty := .blob, acc := .ro, dflt := .bytes [], rng := .any },
  { sub := 0x0C, name := "BASIN_SELECT", ty := .u8, acc := .rw, dflt := .num 0, rng := .nat 0 7 }]

/-- Record 0x1402: Table 6.7. -/
def rec_nrg : List Row := [
  { sub := 0x01, name := "ENERGY_EST", ty := .f32, acc := .ro, dflt := .num 0, rng := .any, n := 5 }]

/-- Record 0x1403: Table 6.7. -/
def rec_fab : List Row := [
  { sub := 0x01, name := "ARB_MODE", ty := .u8, acc := .rwc, dflt := .num 0, rng := .nat 0 2 },
  { sub := 0x02, name := "CHANNEL_SHARES", ty := .blob, acc := .rwc, dflt := .bytes [45, 35, 8, 6, 6], rng := .blobLen 5 5, persist := true },
  { sub := 0x03, name := "FABRIC_GRANTS", ty := .blob, acc := .ro, dflt := .bytes [], rng := .any },
  { sub := 0x04, name := "MAX_GRANT_WAIT", ty := .u32, acc := .ro, dflt := .num 0, rng := .any }]

/-- Record 0x1404: Table 6.10. -/
def rec_fb : List Row := [
  { sub := 0x01, name := "FB_PORT", ty := .u8, acc := .rwc, dflt := .num 0, rng := .nat 0 3, persist := true },
  { sub := 0x02, name := "FB_PHASE", ty := .u8, acc := .rw, dflt := .num 0, rng := .oneOf [0, 1, 2, 3, 4] },
  { sub := 0x03, name := "FB_FRAMES", ty := .u16, acc := .rw, dflt := .num 16, rng := .nat 1 256, persist := true },
  { sub := 0x04, name := "FB_DARK_FRAMES", ty := .u16, acc := .ro, dflt := .num 0, rng := .any },
  { sub := 0x05, name := "FB_FLAT_FRAMES", ty := .u16, acc := .ro, dflt := .num 0, rng := .any },
  { sub := 0x06, name := "FB_MIN_SIGNAL", ty := .f32, acc := .rw, dflt := .num 0x3DCCCCCD, rng := .f32 0 0x3F800000, persist := true },
  { sub := 0x07, name := "FB_PLANE_MEANS", ty := .blob, acc := .ro, dflt := .bytes (zeros 16), rng := .any },
  { sub := 0x08, name := "FB_TABLE_BASE", ty := .u64, acc := .ro, dflt := .num 0, rng := .any },
  { sub := 0x09, name := "FB_CANDIDATES", ty := .u32, acc := .ro, dflt := .num 0, rng := .any },
  { sub := 0x0A, name := "FB_CANDIDATE_BASE", ty := .u64, acc := .ro, dflt := .num 0, rng := .any }]

/-- Record 0x1405 + p: Table 6.10. -/
def rec_tst : List Row := [
  { sub := 0x01, name := "TSTATS_ENABLE", ty := .bool, acc := .rw, dflt := .num 0, rng := .bool, persist := true },
  { sub := 0x02, name := "HIST_BASE", ty := .i32, acc := .rw, dflt := .num 0, rng := .any, persist := true },
  { sub := 0x03, name := "HIST_SHIFT", ty := .u8, acc := .rw, dflt := .num 10, rng := .nat 0 15, persist := true },
  { sub := 0x04, name := "DETECT_THRESH", ty := .u32, acc := .rw, dflt := .num 4096, rng := .any, persist := true },
  { sub := 0x05, name := "TSTATS_BASE", ty := .u64, acc := .ro, dflt := .num 0, rng := .any },
  { sub := 0x06, name := "TSTATS_BYTES", ty := .u64, acc := .ro, dflt := .num 0, rng := .any }]

/-- Record 0x1800 + 0x100 * v: Table 7.5. -/
def rec_view : List Row := [
  { sub := 0x01, name := "VIEW_ENABLE", ty := .bool, acc := .rw, dflt := .num 0, rng := .bool },
  { sub := 0x02, name := "VIEW_SOURCE", ty := .u8, acc := .rwc, dflt := .num 0, rng := .oneOf [0, 1, 2, 3, 16, 17, 18, 19, 20, 21, 22, 23, 32, 33, 34, 35, 36, 37, 38, 39], persist := true },
  { sub := 0x03, name := "VIEW_STATUS", ty := .u32, acc := .ro, dflt := .num 0, rng := .any },
  { sub := 0x04, name := "ACTIVE_FRAME", ty := .u64, acc := .ro, dflt := .num 0, rng := .any },
  { sub := 0x05, name := "COMMIT_FRAME", ty := .u64, acc := .wo, dflt := .num 0, rng := .any },
  { sub := 0x06, name := "COMMIT_RECORD", ty := .u32, acc := .wo, dflt := .num 0, rng := .any },
  { sub := 0x07, name := "COMMIT_CANCEL", ty := .bool, acc := .wo, dflt := .num 0, rng := .bool },
  { sub := 0x08, name := "LAST_FRAME", ty := .u64, acc := .ro, dflt := .num 0, rng := .any },
  { sub := 0x09, name := "REPEAT_COUNT", ty := .u64, acc := .ro, dflt := .num 0, rng := .any },
  { sub := 0x0A, name := "SUPERSEDED", ty := .u64, acc := .ro, dflt := .num 0, rng := .any },
  { sub := 0x0B, name := "POISON_TILES", ty := .u64, acc := .ro, dflt := .num 0, rng := .any },
  { sub := 0x0C, name := "VIEW_BUFFERS", ty := .u8, acc := .rwc, dflt := .num 4, rng := .nat 3 8, persist := true },
  { sub := 0x0D, name := "BUFFER_BASE", ty := .u64, acc := .ro, dflt := .num 0, rng := .any },
  { sub := 0x0E, name := "BUFFER_BYTES", ty := .u64, acc := .ro, dflt := .num 0, rng := .any }]

/-- Record 0x1800 + 0x100 * v + 0x01: Table 7.5. -/
def rec_view1 : List Row := [
  { sub := 0x01, name := "WB_GAINS", ty := .blob, acc := .rw, dflt := .bytes (f32s [0x3F800000, 0x3F800000, 0x3F800000, 0x3F800000]), rng := .blobLen 16 16, persist := true, staged := true },
  { sub := 0x02, name := "PASS_BLACK", ty := .f32, acc := .rw, dflt := .num 0x00000000, rng := .any, persist := true, staged := true },
  { sub := 0x03, name := "UNPACK_SHIFT", ty := .u8, acc := .rw, dflt := .num 8, rng := .nat 0 8, persist := true, staged := true }]

/-- Record 0x1800 + 0x100 * v + 0x02: Table 7.5. -/
def rec_view2 : List Row := [
  { sub := 0x01, name := "MATRIX", ty := .blob, acc := .rw, dflt := .bytes (f32s [0x3F800000, 0x00000000, 0x00000000, 0x00000000, 0x3F800000, 0x00000000, 0x00000000, 0x00000000, 0x3F800000]), rng := .blobLen 36 36, persist := true, staged := true },
  { sub := 0x02, name := "OFFSET", ty := .blob, acc := .rw, dflt := .bytes (zeros 12), rng := .blobLen 12 12, persist := true, staged := true },
  { sub := 0x03, name := "EXPOSURE_GAIN", ty := .f32, acc := .rw, dflt := .num 0x3F800000, rng := .any, persist := true, staged := true },
  { sub := 0x04, name := "ROLLOFF_MODE", ty := .u8, acc := .rw, dflt := .num 1, rng := .nat 0 2, persist := true, staged := true },
  { sub := 0x05, name := "KNEE", ty := .f32, acc := .rw, dflt := .num 0x40800000, rng := .any, persist := true, staged := true },
  { sub := 0x06, name := "WHITE", ty := .f32, acc := .rw, dflt := .num 0x41800000, rng := .any, persist := true, staged := true },
  { sub := 0x07, name := "LUMA_WEIGHTS", ty := .blob, acc := .rw, dflt := .bytes (f32s [0x3EB01C5D, 0x3F3A6918, 0xBD93BA34]), rng := .blobLen 12 12, persist := true, staged := true }]

/-- Record 0x1800 + 0x100 * v + 0x03: Table 7.5. -/
def rec_view3 : List Row := [
  { sub := 0x01, name := "SHAPER_ENABLE", ty := .bool, acc := .rw, dflt := .num 0, rng := .bool, persist := true, staged := true },
  { sub := 0x02, name := "SHAPER", ty := .blob, acc := .rw, dflt := .bytes [], rng := .blobLen 49152 49152, persist := true, staged := true },
  { sub := 0x03, name := "LUT_ENABLE", ty := .bool, acc := .rw, dflt := .num 0, rng := .bool, persist := true, staged := true },
  { sub := 0x04, name := "LUT", ty := .blob, acc := .rw, dflt := .bytes [], rng := .blobLen 1647750 1647750, persist := true, staged := true },
  { sub := 0x05, name := "TRANSFER", ty := .u8, acc := .rw, dflt := .num 1, rng := .nat 0 5, persist := true, staged := true },
  { sub := 0x06, name := "TRANSFER_TABLE", ty := .blob, acc := .rw, dflt := .num 1, rng := .blobLen 16384 16384, persist := true, staged := true },
  { sub := 0x07, name := "PQ_REF_NITS", ty := .f32, acc := .rw, dflt := .num 0x434B0000, rng := .f32 0x3F800000 0x461C4000, persist := true, staged := true },
  { sub := 0x08, name := "HLG_SCALE", ty := .f32, acc := .rw, dflt := .num 0x3E87AE14, rng := .f32pos, persist := true, staged := true }]

/-- Record 0x1800 + 0x100 * v + 0x04: Table 7.5. -/
def rec_view4 : List Row := [
  { sub := 0x01, name := "CROP", ty := .u64, acc := .rwc, dflt := .num 0, rng := .any, persist := true },
  { sub := 0x02, name := "OUT_HEIGHT", ty := .u16, acc := .rwc, dflt := .num 2160, rng := .any, persist := true },
  { sub := 0x03, name := "DESQUEEZE", ty := .f32, acc := .rwc, dflt := .num 0x3F800000, rng := .f32 0x3F800000 0x40000000, persist := true },
  { sub := 0x04, name := "OUT_WIDTH", ty := .u16, acc := .ro, dflt := .num 0, rng := .any },
  { sub := 0x05, name := "STEP_X", ty := .u32, acc := .ro, dflt := .num 0, rng := .any },
  { sub := 0x06, name := "STEP_Y", ty := .u32, acc := .ro, dflt := .num 0, rng := .any },
  { sub := 0x07, name := "COEFF", ty := .blob, acc := .rwc, dflt := .bytes [], rng := .blobLen 1024 1024, persist := true },
  { sub := 0x08, name := "PACKING", ty := .u8, acc := .rwc, dflt := .num 0, rng := .nat 0 4, persist := true },
  { sub := 0x09, name := "YCC_MATRIX", ty := .u8, acc := .rwc, dflt := .num 0, rng := .nat 0 1, persist := true },
  { sub := 0x0A, name := "RANGE", ty := .u8, acc := .rwc, dflt := .num 0, rng := .nat 0 1, persist := true }]

/-- Record 0x1800 + 0x100 * v + 0x05: Table 7.5. -/
def rec_view5 : List Row := [
  { sub := 0x01, name := "OVERLAY_MASK", ty := .u8, acc := .rw, dflt := .num 0, rng := .mask 7, persist := true, staged := true },
  { sub := 0x02, name := "FRAME_LINES", ty := .blob, acc := .rw, dflt := .bytes (zeros 64), rng := .blobLen 64 64, persist := true, staged := true },
  { sub := 0x03, name := "PEAK_THRESH", ty := .f32, acc := .rw, dflt := .num 0x3C23D70A, rng := .any, persist := true, staged := true },
  { sub := 0x04, name := "PEAK_COLOUR", ty := .u64, acc := .rw, dflt := .num 0xFFFF00000000, rng := .mask 0xFFFFFFFFFFFF, persist := true, staged := true },
  { sub := 0x05, name := "FC_THRESH", ty := .blob, acc := .rw, dflt := .bytes [], rng := .blobLen 60 60, persist := true, staged := true },
  { sub := 0x06, name := "FC_COLOURS", ty := .blob, acc := .rw, dflt := .bytes [], rng := .blobLen 96 96, persist := true, staged := true }]

/-- Record 0x1C00: Table 8.10. -/
def rec_amtg : List Row := [
  { sub := 0x01, name := "AMTAN_VERSION", ty := .u8, acc := .ro, dflt := .num 1, rng := .any },
  { sub := 0x02, name := "FLOOR_PICTURES", ty := .u64, acc := .ro, dflt := .num 0, rng := .any }]

/-- Record 0x1C10 + s: Table 8.10. -/
def rec_amt : List Row := [
  { sub := 0x01, name := "STREAM_MODE", ty := .u8, acc := .rwc, dflt := .num 0, rng := .oneOf [0, 1, 2], persist := true },
  { sub := 0x02, name := "STREAM_PORT", ty := .u8, acc := .rwc, dflt := .num 0, rng := .nat 0 3, persist := true },
  { sub := 0x03, name := "Q_MIN", ty := .u8, acc := .rw, dflt := .num 0, rng := .nat 0 15, persist := true },
  { sub := 0x04, name := "Q_MAX", ty := .u8, acc := .rw, dflt := .num 4, rng := .nat 0 15, persist := true },
  { sub := 0x05, name := "Q_BASE_INIT", ty := .u8, acc := .rw, dflt := .num 1, rng := .nat 0 15, persist := true },
  { sub := 0x06, name := "PICTURE_BUDGET", ty := .u32, acc := .rw, dflt := .num 0, rng := .any, persist := true },
  { sub := 0x07, name := "BUDGET_MODE", ty := .u8, acc := .rw, dflt := .num 0, rng := .oneOf [0, 1], persist := true },
  { sub := 0x08, name := "P_ENABLE", ty := .bool, acc := .rw, dflt := .num 0, rng := .bool, persist := true },
  { sub := 0x09, name := "I_INTERVAL", ty := .u16, acc := .rw, dflt := .num 32, rng := .nat 1 1024, persist := true },
  { sub := 0x0A, name := "FORCE_I", ty := .bool, acc := .wo, dflt := .num 0, rng := .bool },
  { sub := 0x0B, name := "POOL", ty := .u8, acc := .ro, dflt := .num 0, rng := .any },
  { sub := 0x0C, name := "BUDGET_TABLE", ty := .u64, acc := .ro, dflt := .num 0, rng := .any },
  { sub := 0x0D, name := "COST_TABLE", ty := .u64, acc := .ro, dflt := .num 0, rng := .any },
  { sub := 0x0E, name := "LAST_PICTURE_ID", ty := .u32, acc := .ro, dflt := .num 0, rng := .any },
  { sub := 0x0F, name := "LAST_SIZE", ty := .u32, acc := .ro, dflt := .num 0, rng := .any },
  { sub := 0x10, name := "PICTURES", ty := .u64, acc := .ro, dflt := .num 0, rng := .any },
  { sub := 0x11, name := "FLOOR_TILES", ty := .u64, acc := .ro, dflt := .num 0, rng := .any },
  { sub := 0x12, name := "BAD_TILES", ty := .u64, acc := .ro, dflt := .num 0, rng := .any },
  { sub := 0x13, name := "MISSING_REF_COUNT", ty := .u64, acc := .ro, dflt := .num 0, rng := .any },
  { sub := 0x14, name := "REJECTED", ty := .u64, acc := .ro, dflt := .num 0, rng := .any }]

/-- Record 0x1D00: Table 9.13. -/
def rec_plg : List Row := [
  { sub := 0x01, name := "POOLS_IN_USE", ty := .u8, acc := .ro, dflt := .num 0, rng := .any },
  { sub := 0x02, name := "POOL_CMD", ty := .blob, acc := .wo, dflt := .bytes [], rng := .blobLen 16 16 },
  { sub := 0x03, name := "POOL_CMD_STATUS", ty := .u8, acc := .ro, dflt := .num 0, rng := .any }]

/-- Record 0x1D10 + k: Table 9.13. -/
def rec_pool : List Row := [
  { sub := 0x01, name := "POOL_OWNER", ty := .u8, acc := .ro, dflt := .num 0, rng := .any },
  { sub := 0x02, name := "POOL_BUFFERS", ty := .u8, acc := .rwc, dflt := .num 0, rng := .nat 0 64, persist := true },
  { sub := 0x03, name := "POOL_BASE", ty := .u64, acc := .ro, dflt := .num 0, rng := .any },
  { sub := 0x04, name := "BUFFER_BYTES", ty := .u64, acc := .ro, dflt := .num 0, rng := .any },
  { sub := 0x05, name := "GEOMETRY", ty := .u64, acc := .ro, dflt := .num 0, rng := .any },
  { sub := 0x06, name := "MARKS", ty := .blob, acc := .ro, dflt := .bytes [], rng := .any },
  { sub := 0x07, name := "MARK_FAULTS", ty := .u64, acc := .ro, dflt := .num 0, rng := .any }]

/-- Record 0x1E00: Table 9.13. -/
def rec_hevg : List Row := [
  { sub := 0x01, name := "HEVC_CAPS", ty := .u8, acc := .ro, dflt := .num 3, rng := .any },
  { sub := 0x02, name := "ENC_LOAD_GPXS", ty := .f32, acc := .ro, dflt := .num 0x00000000, rng := .any },
  { sub := 0x03, name := "DEC_LOAD_GPXS", ty := .f32, acc := .ro, dflt := .num 0x00000000, rng := .any }]

/-- Record 0x1E10 + s: Table 9.13. -/
def rec_hev : List Row := [
  { sub := 0x01, name := "HEVC_MODE", ty := .u8, acc := .rwc, dflt := .num 0, rng := .nat 0 2, persist := true },
  { sub := 0x02, name := "HEVC_ENABLE", ty := .bool, acc := .rw, dflt := .num 0, rng := .bool },
  { sub := 0x03, name := "VIEW", ty := .u8, acc := .rwc, dflt := .num 0, rng := .nat 0 3, persist := true },
  { sub := 0x04, name := "PROFILE", ty := .u8, acc := .rwc, dflt := .num 2, rng := .nat 1 5, persist := true },
  { sub := 0x05, name := "TIER", ty := .u8, acc := .rwc, dflt := .num 0, rng := .nat 0 1, persist := true },
  { sub := 0x06, name := "LEVEL", ty := .u8, acc := .rwc, dflt := .num 0, rng := .any, persist := true },
  { sub := 0x07, name := "GOP_MODE", ty := .u8, acc := .rwc, dflt := .num 1, rng := .nat 0 2, persist := true },
  { sub := 0x08, name := "GOP_SIZE", ty := .u8, acc := .rwc, dflt := .num 4, rng := .oneOf [2, 4, 8], persist := true },
  { sub := 0x09, name := "REF_COUNT", ty := .u8, acc := .rwc, dflt := .num 2, rng := .nat 1 4, persist := true },
  { sub := 0x0A, name := "INTRA_PERIOD", ty := .u16, acc := .rw, dflt := .num 120, rng := .nat 1 65535, persist := true },
  { sub := 0x0B, name := "IRAP_TYPE", ty := .u8, acc := .rw, dflt := .num 0, rng := .oneOf [0, 1], persist := true },
  { sub := 0x0C, name := "RC_MODE", ty := .u8, acc := .rw, dflt := .num 2, rng := .nat 0 2, persist := true },
  { sub := 0x0D, name := "BITRATE_KBPS", ty := .u32, acc := .rw, dflt := .num 100000, rng := .nat 1000 800000, persist := true },
  { sub := 0x0E, name := "QP_MIN", ty := .u8, acc := .rw, dflt := .num 10, rng := .nat 0 51, persist := true },
  { sub := 0x0F, name := "QP_MAX", ty := .u8, acc := .rw, dflt := .num 51, rng := .nat 0 51, persist := true },
  { sub := 0x10, name := "QP_CONST", ty := .u8, acc := .rw, dflt := .num 30, rng := .nat 0 51, persist := true },
  { sub := 0x11, name := "INPUT_DELAY_NS", ty := .u32, acc := .rw, dflt := .num 101000000, rng := .any, persist := true },
  { sub := 0x12, name := "INPUT_SLOTS", ty := .u8, acc := .rwc, dflt := .num 10, rng := .nat 0 18, persist := true },
  { sub := 0x13, name := "SLICE_ROWS", ty := .u8, acc := .rwc, dflt := .num 0, rng := .any, persist := true },
  { sub := 0x14, name := "OUT_BUFFERS", ty := .u8, acc := .rwc, dflt := .num 8, rng := .nat 2 32, persist := true },
  { sub := 0x15, name := "OUT_BUFFER_BYTES", ty := .u32, acc := .rwc, dflt := .num 0, rng := .any, persist := true },
  { sub := 0x16, name := "OUT_RING_BASE", ty := .u64, acc := .ro, dflt := .num 0, rng := .any },
  { sub := 0x17, name := "OUT_CONSUMER", ty := .u8, acc := .rwc, dflt := .num 1, rng := .mask 3, persist := true },
  { sub := 0x18, name := "OUT_RELEASE", ty := .u8, acc := .wo, dflt := .num 0, rng := .any },
  { sub := 0x19, name := "POOL", ty := .u8, acc := .ro, dflt := .num 0, rng := .any },
  { sub := 0x1A, name := "PICTURES", ty := .u64, acc := .ro, dflt := .num 0, rng := .any },
  { sub := 0x1B, name := "REPEATS", ty := .u64, acc := .ro, dflt := .num 0, rng := .any },
  { sub := 0x1C, name := "OVERFLOWS", ty := .u64, acc := .ro, dflt := .num 0, rng := .any },
  { sub := 0x1D, name := "STALLS", ty := .u64, acc := .ro, dflt := .num 0, rng := .any },
  { sub := 0x1E, name := "DEC_MAX_WIDTH", ty := .u16, acc := .rwc, dflt := .num 8192, rng := .any, persist := true },
  { sub := 0x1F, name := "DEC_MAX_HEIGHT", ty := .u16, acc := .rwc, dflt := .num 4320, rng := .any, persist := true },
  { sub := 0x20, name := "WATCHDOG_MULT", ty := .u8, acc := .rw, dflt := .num 4, rng := .nat 2 16, persist := true },
  { sub := 0x21, name := "CONCEALED_CTUS", ty := .u64, acc := .ro, dflt := .num 0, rng := .any },
  { sub := 0x22, name := "MISSING_REF_COUNT", ty := .u64, acc := .ro, dflt := .num 0, rng := .any }]

/-- Record 0x2000: Table 10.3. -/
def rec_gen : List Row := [
  { sub := 0x01, name := "GENLOCK_STATUS", ty := .u8, acc := .ro, dflt := .num 0, rng := .any },
  { sub := 0x02, name := "GENLOCK_ERROR_NS", ty := .i32, acc := .ro, dflt := .num 0, rng := .any },
  { sub := 0x03, name := "GENLOCK_SLEW_NS", ty := .u32, acc := .rw, dflt := .num 1000, rng := .nat 100 1000000, persist := true }]

/-- Record 0x2010 + n: Table 10.3. -/
def rec_out : List Row := [
  { sub := 0x01, name := "OUT_ENABLE", ty := .bool, acc := .rw, dflt := .num 0, rng := .bool },
  { sub := 0x02, name := "OUT_MODE", ty := .u8, acc := .rwc, dflt := .num 0, rng := .oneOf [0, 1, 2, 3, 4, 6], persist := true },
  { sub := 0x03, name := "OUT_VIEW", ty := .u8, acc := .rwc, dflt := .num 0, rng := .nat 0 3, persist := true },
  { sub := 0x04, name := "OUT_RATE", ty := .u8, acc := .rwc, dflt := .num 7, rng := .nat 0 7, persist := true },
  { sub := 0x05, name := "TC_SOURCE", ty := .u8, acc := .rw, dflt := .num 0, rng := .nat 0 1, persist := true },
  { sub := 0x06, name := "OUT_STATUS", ty := .u32, acc := .ro, dflt := .num 0, rng := .any },
  { sub := 0x07, name := "OUT_FRAMES", ty := .u64, acc := .ro, dflt := .num 0, rng := .any },
  { sub := 0x08, name := "OUT_REPEATS", ty := .u64, acc := .ro, dflt := .num 0, rng := .any },
  { sub := 0x09, name := "OUT_SKIPS", ty := .u64, acc := .ro, dflt := .num 0, rng := .any },
  { sub := 0x0A, name := "FL_RATE", ty := .u8, acc := .rwc, dflt := .num 2, rng := .nat 0 2, persist := true },
  { sub := 0x0B, name := "FL_FORMAT", ty := .u8, acc := .rwc, dflt := .num 0, rng := .nat 0 1, persist := true },
  { sub := 0x0C, name := "FL_BC_PINS", ty := .u16, acc := .rwc, dflt := .num 65535, rng := .any, persist := true },
  { sub := 0x0D, name := "FL_BC_BAUD", ty := .u32, acc := .rwc, dflt := .num 1000000, rng := .nat 115200 3000000, persist := true },
  { sub := 0x0E, name := "FL_RX_LAST", ty := .blob, acc := .ro, dflt := .bytes [], rng := .any },
  { sub := 0x0F, name := "FL_RX_ERRORS", ty := .u32, acc := .ro, dflt := .num 0, rng := .any }]

/-- Record 0x2400: Table 11.8. -/
def rec_dram : List Row := [
  { sub := 0x01, name := "DRAM_MAP", ty := .u8, acc := .rwc, dflt := .num 0, rng := .nat 0 3, persist := true },
  { sub := 0x02, name := "DATA_RATE_MTS", ty := .u16, acc := .rwc, dflt := .num 8000, rng := .oneOf [4800, 5600, 6400, 7200, 8000], persist := true },
  { sub := 0x03, name := "DEVICE_WIDTH", ty := .u8, acc := .rwc, dflt := .num 8, rng := .oneOf [4, 8], persist := true },
  { sub := 0x04, name := "DENSITY_GBIT", ty := .u8, acc := .rwc, dflt := .num 16, rng := .oneOf [8, 16, 32, 64], persist := true },
  { sub := 0x05, name := "RANKS_FITTED", ty := .u8, acc := .rwc, dflt := .num 1, rng := .nat 1 4, persist := true },
  { sub := 0x06, name := "CHANNELS_MAPPED", ty := .u16, acc := .ro, dflt := .num 0, rng := .any },
  { sub := 0x07, name := "MAPPED_BYTES", ty := .u64, acc := .ro, dflt := .num 0, rng := .any },
  { sub := 0x08, name := "REFRESH_MODE", ty := .u8, acc := .rwc, dflt := .num 0, rng := .oneOf [0, 1], persist := true },
  { sub := 0x09, name := "REFRESH_DOUBLED", ty := .u16, acc := .ro, dflt := .num 0, rng := .any },
  { sub := 0x0A, name := "DRAM_THERM_MAP", ty := .blob, acc := .rwc, dflt := .bytes (zeros 32), rng := .blobLen 32 32, persist := true },
  { sub := 0x0B, name := "SCRUB_PERIOD_H", ty := .u16, acc := .rw, dflt := .num 24, rng := .nat 0 720, persist := true },
  { sub := 0x0C, name := "EYE_MIN_STEPS", ty := .u8, acc := .rwc, dflt := .num 24, rng := .nat 8 64, persist := true },
  { sub := 0x0D, name := "RETRAIN", ty := .bool, acc := .wo, dflt := .num 0, rng := .bool },
  { sub := 0x0E, name := "VREF_RD", ty := .u8, acc := .rwc, dflt := .num 64, rng := .nat 0 127, persist := true },
  { sub := 0x0F, name := "VREF_WR", ty := .u8, acc := .rwc, dflt := .num 64, rng := .any, persist := true },
  { sub := 0x10, name := "RD_PROB_LOG2", ty := .u8, acc := .rwc, dflt := .num 10, rng := .nat 6 14, persist := true },
  { sub := 0x11, name := "DRFM_ISSUED", ty := .u64, acc := .ro, dflt := .num 0, rng := .any },
  { sub := 0x12, name := "DRFM_REPLACED", ty := .u64, acc := .ro, dflt := .num 0, rng := .any },
  { sub := 0x13, name := "RANK_RETIRE", ty := .u64, acc := .rwc, dflt := .num 0, rng := .mask 0xFFFFFFFFFFFF, persist := true },
  { sub := 0x14, name := "MIGRATE_GBPS", ty := .f32, acc := .rw, dflt := .num 0x41000000, rng := .f32 0x3F800000 0x41000000, persist := true }]

/-- Record 0x2410 + c: Table 11.8. -/
def rec_dch : List Row := [
  { sub := 0x01, name := "SPARE_RANK", ty := .u8, acc := .rwc, dflt := .num 255, rng := .oneOf [0, 1, 2, 3, 255], persist := true },
  { sub := 0x02, name := "RANK_STATE", ty := .u32, acc := .ro, dflt := .num 0, rng := .any },
  { sub := 0x03, name := "MIGRATE_WATERMARK", ty := .u64, acc := .ro, dflt := .num 0, rng := .any },
  { sub := 0x04, name := "CORRECTED", ty := .u64, acc := .ro, dflt := .num 0, rng := .any },
  { sub := 0x05, name := "UNCORRECTED", ty := .u64, acc := .ro, dflt := .num 0, rng := .any },
  { sub := 0x06, name := "POISONED_LINES", ty := .u64, acc := .ro, dflt := .num 0, rng := .any },
  { sub := 0x07, name := "OWED", ty := .u16, acc := .ro, dflt := .num 0, rng := .any },
  { sub := 0x08, name := "TRAIN_RESULT", ty := .blob, acc := .ro, dflt := .bytes (zeros 320), rng := .any }]

/-- Record 0x2800: Table 12.9. -/
def rec_magg : List Row := [
  { sub := 0x01, name := "PORTS_UP", ty := .u8, acc := .ro, dflt := .num 0, rng := .any }]

/-- Record 0x2810 + 0x20 * p: Table 12.9. -/
def rec_mag : List Row := [
  { sub := 0x01, name := "MAG_ENABLE", ty := .bool, acc := .rw, dflt := .num 0, rng := .bool },
  { sub := 0x02, name := "MAG_RATE", ty := .u8, acc := .rwc, dflt := .num 255, rng := .oneOf [0, 1, 2, 3, 255], persist := true },
  { sub := 0x03, name := "MAG_FEC", ty := .bool, acc := .rwc, dflt := .num 1, rng := .bool, persist := true },
  { sub := 0x04, name := "MAG_STATE", ty := .u8, acc := .ro, dflt := .num 0, rng := .any },
  { sub := 0x05, name := "MAG_IDENTIFY", ty := .blob, acc := .ro, dflt := .bytes (zeros 128), rng := .any },
  { sub := 0x06, name := "MAG_CAPACITY", ty := .u64, acc := .ro, dflt := .num 0, rng := .any },
  { sub := 0x07, name := "REPLAY_TIMEOUT_NS", ty := .u32, acc := .rw, dflt := .num 10000, rng := .nat 2000 100000, persist := true },
  { sub := 0x08, name := "REPLAYS", ty := .u64, acc := .ro, dflt := .num 0, rng := .any },
  { sub := 0x09, name := "RETRAINS", ty := .u32, acc := .ro, dflt := .num 0, rng := .any },
  { sub := 0x0A, name := "PROTOCOL_ERRORS", ty := .u32, acc := .ro, dflt := .num 0, rng := .any },
  { sub := 0x0B, name := "MAG_PWR_PIN", ty := .u8, acc := .rwc, dflt := .num 255, rng := .gpPin, persist := true },
  { sub := 0x0C, name := "MAG_PRESENT_PIN", ty := .u8, acc := .rwc, dflt := .num 255, rng := .gpPin, persist := true }]

/-- Record 0x2810 + 0x20 * p + 0x01: Table 12.9. -/
def rec_mag1 : List Row := [
  { sub := 0x01, name := "MAG_WRITE_MIN_C", ty := .f32, acc := .rw, dflt := .num 0x00000000, rng := .any, persist := true },
  { sub := 0x02, name := "MAG_WRITE_MAX_C", ty := .f32, acc := .rw, dflt := .num 0x428C0000, rng := .any, persist := true },
  { sub := 0x03, name := "MAG_THERM_AIN", ty := .u8, acc := .rwc, dflt := .num 255, rng := .ain, persist := true },
  { sub := 0x04, name := "MAG_HOLD_TIMEOUT_S", ty := .u16, acc := .rw, dflt := .num 30, rng := .nat 1 600, persist := true },
  { sub := 0x05, name := "MAG_TEMP_C", ty := .f32, acc := .ro, dflt := .num 0, rng := .any },
  { sub := 0x06, name := "GATE_OPEN", ty := .bool, acc := .ro, dflt := .num 0, rng := .any },
  { sub := 0x07, name := "HELD", ty := .u16, acc := .ro, dflt := .num 0, rng := .any }]

/-- Record 0x2810 + 0x20 * p + 0x02: Table 12.9. -/
def rec_mag2 : List Row := [
  { sub := 0x01, name := "MAG_ENCRYPT", ty := .bool, acc := .rwc, dflt := .num 0, rng := .bool, persist := true },
  { sub := 0x02, name := "MAG_KEY", ty := .blob, acc := .wo, dflt := .bytes [], rng := .blobLen 64 64 },
  { sub := 0x03, name := "MAG_KEY_CLEAR", ty := .bool, acc := .wo, dflt := .num 0, rng := .bool },
  { sub := 0x04, name := "MAG_KEY_ID", ty := .blob, acc := .ro, dflt := .bytes (zeros 16), rng := .any }]

/-- Record 0x2818 + 0x20 * p + k: Table 12.9. -/
def rec_mln : List Row := [
  { sub := 0x01, name := "LANE_POWER", ty := .u8, acc := .ro, dflt := .num 0, rng := .any },
  { sub := 0x02, name := "LANE_ALIGN", ty := .u8, acc := .ro, dflt := .num 0, rng := .any },
  { sub := 0x03, name := "SLIP", ty := .bool, acc := .wo, dflt := .num 0, rng := .bool, service := true },
  { sub := 0x04, name := "SLIP_POS", ty := .u8, acc := .ro, dflt := .num 0, rng := .any },
  { sub := 0x05, name := "DWELL", ty := .bool, acc := .wo, dflt := .num 0, rng := .bool, service := true },
  { sub := 0x06, name := "MATCH_COUNT", ty := .u32, acc := .ro, dflt := .num 0, rng := .any },
  { sub := 0x07, name := "DESKEW", ty := .u8, acc := .rw, dflt := .num 0, rng := .nat 0 63, service := true },
  { sub := 0x08, name := "LOGICAL", ty := .u8, acc := .rwc, dflt := .num 0, rng := .nat 0 7, persist := true },
  { sub := 0x09, name := "INVERT", ty := .u8, acc := .rwc, dflt := .num 0, rng := .mask 0x3, persist := true },
  { sub := 0x0A, name := "EYE_MV", ty := .u16, acc := .ro, dflt := .num 0, rng := .any },
  { sub := 0x0B, name := "FEC_CORRECTED", ty := .u64, acc := .ro, dflt := .num 0, rng := .any },
  { sub := 0x0C, name := "FEC_UNCORRECTED", ty := .u64, acc := .ro, dflt := .num 0, rng := .any },
  { sub := 0x0D, name := "PRBS_SEL", ty := .u8, acc := .rw, dflt := .num 0, rng := .nibbles 5, service := true },
  { sub := 0x0E, name := "LOOP", ty := .u8, acc := .rw, dflt := .num 0, rng := .oneOf [0, 1, 2, 3], service := true },
  { sub := 0x0F, name := "PRBS_ERRORS", ty := .u32, acc := .ro, dflt := .num 0, rng := .any },
  { sub := 0x10, name := "PRBS_BITS", ty := .u64, acc := .ro, dflt := .num 0, rng := .any }]

/-- Record 0x2900: Table 13.8. -/
def rec_rcq : List Row := [
  { sub := 0x01, name := "TAGS_IN_USE", ty := .u16, acc := .ro, dflt := .num 0, rng := .any },
  { sub := 0x02, name := "INTERNAL_TAG_RESERVE", ty := .u16, acc := .rwc, dflt := .num 1024, rng := .nat 0 8192, persist := true },
  { sub := 0x03, name := "INTERNAL_WEIGHT", ty := .u8, acc := .rw, dflt := .num 2, rng := .nat 1 16, persist := true },
  { sub := 0x04, name := "ADMITTED", ty := .u64, acc := .ro, dflt := .num 0, rng := .any },
  { sub := 0x05, name := "LOCK_WAITS", ty := .u64, acc := .ro, dflt := .num 0, rng := .any },
  { sub := 0x06, name := "ABORTS", ty := .u64, acc := .ro, dflt := .num 0, rng := .any },
  { sub := 0x07, name := "NS5_SECTORS", ty := .u64, acc := .ro, dflt := .num 0, rng := .any },
  { sub := 0x08, name := "HOLDUP_QUEUES", ty := .u16, acc := .ro, dflt := .num 0, rng := .any }]

/-- Record 0x2901: Table 13.8. -/
def rec_ps : List Row := [
  { sub := 0x01, name := "PS_ENABLE", ty := .u8, acc := .rw, dflt := .num 7, rng := .mask 0x7, persist := true },
  { sub := 0x02, name := "T1_MS", ty := .u32, acc := .rw, dflt := .num 2, rng := .nat 1 1000, persist := true },
  { sub := 0x03, name := "T2_MS", ty := .u32, acc := .rw, dflt := .num 500, rng := .nat 1 60000, persist := true },
  { sub := 0x04, name := "T3_MS", ty := .u32, acc := .rw, dflt := .num 30000, rng := .nat 1 3600000, persist := true },
  { sub := 0x05, name := "PS1_EXIT_US", ty := .u32, acc := .ro, dflt := .num 20, rng := .any },
  { sub := 0x06, name := "PS2_EXIT_US", ty := .u32, acc := .ro, dflt := .num 2000, rng := .any },
  { sub := 0x07, name := "PS3_EXIT_US", ty := .u32, acc := .ro, dflt := .num 800000, rng := .any },
  { sub := 0x08, name := "PS_CURRENT", ty := .u8, acc := .ro, dflt := .num 0, rng := .any }]

/-- Record 0x2940 + n: Table 13.8. -/
def rec_sq : List Row := [
  { sub := 0x01, name := "SQ_ENABLE", ty := .bool, acc := .rw, dflt := .num 0, rng := .bool },
  { sub := 0x02, name := "SQ_BASE", ty := .u64, acc := .rw, dflt := .num 0, rng := .any },
  { sub := 0x03, name := "SQ_SIZE", ty := .u16, acc := .rw, dflt := .num 16, rng := .nat 16 4096 },
  { sub := 0x04, name := "SQ_CQ", ty := .u8, acc := .rw, dflt := .num 0, rng := .nat 0 63 },
  { sub := 0x05, name := "SQ_WEIGHT", ty := .u8, acc := .rw, dflt := .num 1, rng := .nat 1 16 },
  { sub := 0x06, name := "SQ_HEAD", ty := .u16, acc := .ro, dflt := .num 0, rng := .any },
  { sub := 0x07, name := "SQ_TAIL", ty := .u16, acc := .ro, dflt := .num 0, rng := .any },
  { sub := 0x08, name := "SQ_OUTSTANDING", ty := .u16, acc := .ro, dflt := .num 0, rng := .any }]

/-- Record 0x2980 + n: Table 13.8. -/
def rec_cq : List Row := [
  { sub := 0x01, name := "CQ_ENABLE", ty := .bool, acc := .rw, dflt := .num 0, rng := .bool },
  { sub := 0x02, name := "CQ_BASE", ty := .u64, acc := .rw, dflt := .num 0, rng := .any },
  { sub := 0x03, name := "CQ_SIZE", ty := .u16, acc := .rw, dflt := .num 16, rng := .nat 16 4096 },
  { sub := 0x04, name := "CQ_VECTOR", ty := .u8, acc := .rw, dflt := .num 0, rng := .nat 0 127 },
  { sub := 0x05, name := "CQ_IRQ", ty := .bool, acc := .rw, dflt := .num 1, rng := .bool },
  { sub := 0x06, name := "CQ_TAIL", ty := .u16, acc := .ro, dflt := .num 0, rng := .any },
  { sub := 0x07, name := "CQ_HEAD", ty := .u16, acc := .ro, dflt := .num 0, rng := .any }]

/-- Record 0x29C0 + i: Table 13.8. -/
def rec_iq : List Row := [
  { sub := 0x01, name := "IQ_ROLE", ty := .u8, acc := .ro, dflt := .num 0, rng := .any },
  { sub := 0x02, name := "IQ_OUTSTANDING", ty := .u16, acc := .ro, dflt := .num 0, rng := .any }]

/-- Record 0x2A00: Table 14.7. -/
def rec_clip : List Row := [
  { sub := 0x01, name := "REC_MAGAZINES", ty := .u8, acc := .rwc, dflt := .num 1, rng := .mask 0xF, persist := true },
  { sub := 0x02, name := "EXTENT_BATCH", ty := .u16, acc := .rw, dflt := .num 16, rng := .nat 1 256, persist := true },
  { sub := 0x03, name := "CLIP_NAME", ty := .str, acc := .rw, dflt := .bytes [], rng := .strMax 32 },
  { sub := 0x04, name := "TAKE_ID", ty := .u32, acc := .ro, dflt := .num 0, rng := .any },
  { sub := 0x05, name := "CLIP_FORMAT", ty := .u8, acc := .wo, dflt := .num 0, rng := .any },
  { sub := 0x06, name := "CLIP_RECOVER", ty := .u8, acc := .wo, dflt := .num 0, rng := .any }]

/-- Record 0x2A10 + p: Table 14.7. -/
def rec_clp : List Row := [
  { sub := 0x01, name := "STORE_STATE", ty := .u8, acc := .ro, dflt := .num 0, rng := .any },
  { sub := 0x02, name := "CLIPS", ty := .u16, acc := .ro, dflt := .num 0, rng := .any },
  { sub := 0x03, name := "FREE_EXTENTS", ty := .u16, acc := .ro, dflt := .num 0, rng := .any },
  { sub := 0x04, name := "CURRENT_CLIP", ty := .u16, acc := .ro, dflt := .num 65535, rng := .any }]

/-- Record 0x2C00: Table 15.5. -/
def rec_pcie : List Row := [
  { sub := 0x01, name := "LINK_SPEED", ty := .u8, acc := .ro, dflt := .num 0, rng := .any },
  { sub := 0x02, name := "LINK_WIDTH", ty := .u8, acc := .ro, dflt := .num 0, rng := .any },
  { sub := 0x03, name := "LINK_MAX_SPEED", ty := .u8, acc := .rwc, dflt := .num 6, rng := .nat 1 6, persist := true },
  { sub := 0x04, name := "BAR2_ENABLE", ty := .bool, acc := .rw, dflt := .num 0, rng := .bool, persist := true },
  { sub := 0x05, name := "BAR2_WRITE_ENABLE", ty := .bool, acc := .rw, dflt := .num 0, rng := .bool },
  { sub := 0x06, name := "BAR2_WRITES_DISCARDED", ty := .u64, acc := .ro, dflt := .num 0, rng := .any },
  { sub := 0x07, name := "EVT_IRQ_HOLDOFF_US", ty := .u16, acc := .rw, dflt := .num 10, rng := .nat 0 1000, persist := true },
  { sub := 0x08, name := "HOST_RESETS", ty := .u32, acc := .ro, dflt := .num 0, rng := .any },
  { sub := 0x09, name := "SUBSYSTEM", ty := .u32, acc := .ro, dflt := .num 0, rng := .any }]

/-- Record 0x3000: Table 16.3. -/
def rec_tb : List Row := [
  { sub := 0x01, name := "TB_OFFSET", ty := .u64, acc := .ro, dflt := .num 0, rng := .any },
  { sub := 0x02, name := "TB_RATE", ty := .u64, acc := .ro, dflt := .num 234562480592213, rng := .any },
  { sub := 0x03, name := "TB_ANCHOR", ty := .u64, acc := .ro, dflt := .num 0, rng := .any },
  { sub := 0x04, name := "TB_NOW", ty := .tb, acc := .ro, dflt := .num 0, rng := .any },
  { sub := 0x05, name := "TB_RAW", ty := .u64, acc := .ro, dflt := .num 0, rng := .any },
  { sub := 0x06, name := "TB_EPOCH", ty := .u32, acc := .ro, dflt := .num 0, rng := .any },
  { sub := 0x07, name := "TB_STATE", ty := .u8, acc := .ro, dflt := .num 0, rng := .any }]

/-- Record 0x3001: Table 16.3. -/
def rec_stg : List Row := [
  { sub := 0x01, name := "STAGE_OFFSET", ty := .u64, acc := .rw, dflt := .num 0, rng := .any },
  { sub := 0x02, name := "STAGE_RATE", ty := .u64, acc := .rw, dflt := .num 234562480592213, rng := .nat 234327918111621 234797043072805 },
  { sub := 0x03, name := "STAGE_ANCHOR", ty := .u64, acc := .rw, dflt := .num 0, rng := .any },
  { sub := 0x04, name := "STAGE_EPOCH", ty := .u32, acc := .rw, dflt := .num 0, rng := .any },
  { sub := 0x05, name := "STAGE_AT", ty := .u64, acc := .rw, dflt := .num 0, rng := .any },
  { sub := 0x06, name := "STAGE_FLAGS", ty := .u8, acc := .rw, dflt := .num 0, rng := .mask 0x1 },
  { sub := 0x07, name := "STAGE_ARM", ty := .bool, acc := .rw, dflt := .num 0, rng := .bool },
  { sub := 0x08, name := "STAGE_STATUS", ty := .u8, acc := .ro, dflt := .num 0, rng := .any }]

/-- Record 0x3010 + n: Table 16.3. -/
def rec_tpg : List Row := [
  { sub := 0x01, name := "TPG_ARM", ty := .bool, acc := .rw, dflt := .num 0, rng := .bool },
  { sub := 0x02, name := "TARGET", ty := .tb, acc := .rw, dflt := .num 0, rng := .any },
  { sub := 0x03, name := "PERIOD", ty := .u64, acc := .rw, dflt := .num 65536000000000, rng := .nat 78643200 72057594037927936, persist := true },
  { sub := 0x04, name := "WIDTH_NS", ty := .u32, acc := .rw, dflt := .num 1000, rng := .any, persist := true },
  { sub := 0x05, name := "COUNT", ty := .u32, acc := .rw, dflt := .num 1, rng := .any, persist := true },
  { sub := 0x06, name := "MODE", ty := .u8, acc := .rw, dflt := .num 0, rng := .oneOf [0, 1, 2], persist := true },
  { sub := 0x07, name := "ROUTE", ty := .u16, acc := .rw, dflt := .num 0, rng := .mask 0xFF, persist := true },
  { sub := 0x08, name := "INVERT", ty := .bool, acc := .rw, dflt := .num 0, rng := .bool, persist := true },
  { sub := 0x09, name := "TPG_STATUS", ty := .u32, acc := .ro, dflt := .num 0, rng := .any },
  { sub := 0x0A, name := "FIRED", ty := .u64, acc := .ro, dflt := .num 0, rng := .any },
  { sub := 0x0B, name := "MISSED", ty := .u64, acc := .ro, dflt := .num 0, rng := .any },
  { sub := 0x0C, name := "NEXT", ty := .tb, acc := .ro, dflt := .num 0, rng := .any },
  { sub := 0x0D, name := "LOG_EACH", ty := .bool, acc := .rw, dflt := .num 0, rng := .bool, persist := true }]

/-- Record 0x3100: Table 16.4. -/
def rec_net : List Row := [
  { sub := 0x01, name := "MAC_ADDR", ty := .u64, acc := .ro, dflt := .num 0, rng := .any },
  { sub := 0x02, name := "IP_MODE", ty := .u8, acc := .rw, dflt := .num 1, rng := .oneOf [0, 1], persist := true },
  { sub := 0x03, name := "IP_ADDR", ty := .u32, acc := .rw, dflt := .num 0, rng := .any, persist := true },
  { sub := 0x04, name := "NETMASK", ty := .u32, acc := .rw, dflt := .num 4294967040, rng := .any, persist := true },
  { sub := 0x05, name := "GATEWAY", ty := .u32, acc := .rw, dflt := .num 0, rng := .any, persist := true },
  { sub := 0x06, name := "VLAN_TABLE", ty := .blob, acc := .rwc, dflt := .bytes ([0x01, 0x00, 0x07, 0x07] ++ zeros 252), rng := .blobLen 256 256, persist := true }]

/-- Record 0x3110 + p: Table 16.4. -/
def rec_eth : List Row := [
  { sub := 0x01, name := "ETH_ENABLE", ty := .bool, acc := .rw, dflt := .num 1, rng := .bool, persist := true },
  { sub := 0x02, name := "ETH_RATE", ty := .u8, acc := .rwc, dflt := .num 1, rng := .oneOf [0, 1], persist := true },
  { sub := 0x03, name := "ETH_FEC", ty := .bool, acc := .rwc, dflt := .num 0, rng := .bool, persist := true },
  { sub := 0x04, name := "ETH_STATE", ty := .u8, acc := .ro, dflt := .num 0, rng := .any },
  { sub := 0x05, name := "PVID", ty := .u16, acc := .rwc, dflt := .num 1, rng := .any, persist := true },
  { sub := 0x06, name := "LINK_DELAY", ty := .f32, acc := .ro, dflt := .num 0x00000000, rng := .any },
  { sub := 0x07, name := "RX_FRAMES", ty := .u64, acc := .ro, dflt := .num 0, rng := .any },
  { sub := 0x08, name := "RX_ERRORS", ty := .u64, acc := .ro, dflt := .num 0, rng := .any },
  { sub := 0x09, name := "TX_FRAMES", ty := .u64, acc := .ro, dflt := .num 0, rng := .any }]

/-- Record 0x3120: Table 16.4. -/
def rec_ptp : List Row := [
  { sub := 0x01, name := "PTP_ENABLE", ty := .bool, acc := .rw, dflt := .num 1, rng := .bool, persist := true },
  { sub := 0x02, name := "PTP_PROFILE", ty := .u8, acc := .rwc, dflt := .num 2, rng := .oneOf [0, 1, 2], persist := true },
  { sub := 0x03, name := "PTP_DOMAIN", ty := .u8, acc := .rwc, dflt := .num 127, rng := .any, persist := true },
  { sub := 0x04, name := "PTP_TRANSPORT", ty := .u8, acc := .rwc, dflt := .num 0, rng := .oneOf [0, 1], persist := true },
  { sub := 0x05, name := "TC_MODE", ty := .u8, acc := .rwc, dflt := .num 1, rng := .oneOf [0, 1, 2], persist := true },
  { sub := 0x06, name := "PTP_ROLE", ty := .u8, acc := .ro, dflt := .num 0, rng := .any },
  { sub := 0x07, name := "PRIORITY1", ty := .u8, acc := .rw, dflt := .num 128, rng := .any, persist := true },
  { sub := 0x08, name := "PRIORITY2", ty := .u8, acc := .rw, dflt := .num 128, rng := .any, persist := true },
  { sub := 0x09, name := "OFFSET_NS", ty := .f32, acc := .ro, dflt := .num 0x00000000, rng := .any },
  { sub := 0x0A, name := "GM_IDENTITY", ty := .u64, acc := .ro, dflt := .num 0, rng := .any },
  { sub := 0x0B, name := "LOCK_THRESH_NS", ty := .u32, acc := .rw, dflt := .num 100, rng := .any, persist := true },
  { sub := 0x0C, name := "LAUNCH_LEAD_US", ty := .u16, acc := .rw, dflt := .num 50, rng := .nat 10 1000, persist := true },
  { sub := 0x0D, name := "LAUNCH_MISSED", ty := .u64, acc := .ro, dflt := .num 0, rng := .any }]

/-- Record 0x3130: Table 16.4. -/
def rec_tc : List Row := [
  { sub := 0x01, name := "TC_RATE", ty := .u8, acc := .rw, dflt := .num 1, rng := .nat 0 7, persist := true },
  { sub := 0x02, name := "TC_LOCAL_OFFSET_S", ty := .i32, acc := .rw, dflt := .num 0, rng := .any, persist := true },
  { sub := 0x03, name := "DAILY_JAM_S", ty := .u32, acc := .rw, dflt := .num 0, rng := .any, persist := true },
  { sub := 0x04, name := "TC_NOW", ty := .u32, acc := .ro, dflt := .num 0, rng := .any }]

/-- Record 0x3140 + s: Table 16.4. -/
def rec_prx : List Row := [
  { sub := 0x01, name := "PROXY_ENABLE", ty := .bool, acc := .rw, dflt := .num 0, rng := .bool, persist := true },
  { sub := 0x02, name := "PROXY_DEST", ty := .u64, acc := .rw, dflt := .num 0, rng := .mask 0xFFFFFFFFFFFF, persist := true },
  { sub := 0x03, name := "PROXY_PT", ty := .u8, acc := .rw, dflt := .num 96, rng := .nat 96 127, persist := true },
  { sub := 0x04, name := "PROXY_SSRC", ty := .u32, acc := .rw, dflt := .num 0, rng := .any, persist := true },
  { sub := 0x05, name := "PROXY_MTU", ty := .u16, acc := .rw, dflt := .num 1500, rng := .nat 576 9000, persist := true },
  { sub := 0x06, name := "PROXY_VLAN", ty := .u16, acc := .rw, dflt := .num 0, rng := .any, persist := true },
  { sub := 0x07, name := "PACKETS", ty := .u64, acc := .ro, dflt := .num 0, rng := .any }]

/-- Record 0x0100: Table 17.13. -/
def rec_idn : List Row := [
  { sub := 0x01, name := "VENDOR_ID", ty := .u16, acc := .ro, dflt := .num 8043, rng := .any },
  { sub := 0x02, name := "DEVICE_ID", ty := .u16, acc := .ro, dflt := .num 0x9600, rng := .any },
  { sub := 0x03, name := "STEPPING", ty := .u8, acc := .ro, dflt := .num 0, rng := .any },
  { sub := 0x04, name := "SERIAL", ty := .str, acc := .ro, dflt := .bytes (ascii "0000-0000-0000-0000"), rng := .any },
  { sub := 0x05, name := "ORDER_CODE", ty := .str, acc := .ro, dflt := .bytes (ascii "LVE-9600-C"), rng := .any },
  { sub := 0x06, name := "FW_VERSION", ty := .u32, acc := .ro, dflt := .num 0, rng := .any },
  { sub := 0x07, name := "DICT_FORMAT", ty := .u16, acc := .ro, dflt := .num 1, rng := .any }]

/-- Record 0x0110: Table 17.13. -/
def rec_auth : List Row := [
  { sub := 0x01, name := "AUTH_CHALLENGE", ty := .blob, acc := .ro, dflt := .bytes [], rng := .any },
  { sub := 0x02, name := "AUTH_RESPONSE", ty := .blob, acc := .wo, dflt := .bytes [], rng := .blobLen 48 48 },
  { sub := 0x03, name := "AUTH_LOCAL", ty := .bool, acc := .rw, dflt := .num 0, rng := .bool, persist := true },
  { sub := 0x04, name := "SESSION_TIMEOUT_S", ty := .u16, acc := .rw, dflt := .num 60, rng := .nat 10 3600, persist := true },
  { sub := 0x05, name := "SESSIONS", ty := .u8, acc := .ro, dflt := .num 0, rng := .any },
  { sub := 0x06, name := "KEY_RIGHTS", ty := .u8, acc := .rw, dflt := .num 255, rng := .any, persist := true },
  { sub := 0x07, name := "KEY_SLOTS", ty := .u8, acc := .ro, dflt := .num 0, rng := .any },
  { sub := 0x08, name := "AUTH_FAILURES", ty := .u32, acc := .ro, dflt := .num 0, rng := .any }]

/-- Record 0x0111: Table 17.13. -/
def rec_pkey : List Row := [
  { sub := 0x01, name := "PROV_KEY", ty := .blob, acc := .wo, dflt := .bytes (zeros 32), rng := .blobLen 32 32, persist := true, n := 8 }]

/-- Record 0x0120: Table 17.13. -/
def rec_srv : List Row := [
  { sub := 0x01, name := "UDP_MAX", ty := .u16, acc := .rw, dflt := .num 1472, rng := .nat 576 8972, persist := true },
  { sub := 0x02, name := "TWM_ACCESS", ty := .u8, acc := .rw, dflt := .num 1, rng := .oneOf [0, 1], persist := true }]

/-- Record 0x0210: Table 17.13. -/
def rec_elog : List Row := [
  { sub := 0x01, name := "EVT_LOG_DEPTH", ty := .u32, acc := .rwc, dflt := .num 65536, rng := .pow2 4096 1048576, persist := true },
  { sub := 0x02, name := "EVT_LOG_OLDEST", ty := .u64, acc := .ro, dflt := .num 0, rng := .any },
  { sub := 0x03, name := "EVT_LOG_NEXT", ty := .u64, acc := .ro, dflt := .num 0, rng := .any }]

/-- Record 0x0320: Table 17.13. -/
def rec_store : List Row := [
  { sub := 0x01, name := "STORE_SAVE", ty := .bool, acc := .wo, dflt := .num 0, rng := .bool },
  { sub := 0x02, name := "STORE_STATUS", ty := .u8, acc := .ro, dflt := .num 0, rng := .any },
  { sub := 0x03, name := "STORE_SEQ", ty := .u32, acc := .ro, dflt := .num 0, rng := .any },
  { sub := 0x04, name := "STORE_BANK", ty := .u8, acc := .ro, dflt := .num 255, rng := .any },
  { sub := 0x05, name := "CALIB_SEQ", ty := .u32, acc := .ro, dflt := .num 0, rng := .any },
  { sub := 0x06, name := "STORE_DIRTY", ty := .bool, acc := .ro, dflt := .num 0, rng := .any },
  { sub := 0x07, name := "STORE_SKIPPED", ty := .u32, acc := .ro, dflt := .num 0, rng := .any },
  { sub := 0x08, name := "FLASH_BYTES", ty := .u64, acc := .ro, dflt := .num 0, rng := .any }]

/-- Record 0x3400: Table 18.5. -/
def rec_scan : List Row := [
  { sub := 0x01, name := "SCAN_PORT", ty := .u8, acc := .rwc, dflt := .num 0, rng := .nat 0 3, persist := true },
  { sub := 0x02, name := "SCAN_ENCODER", ty := .u8, acc := .rwc, dflt := .num 0, rng := .nat 0 3, persist := true },
  { sub := 0x03, name := "SCAN_DIR", ty := .u8, acc := .rwc, dflt := .num 0, rng := .nat 0 1, persist := true },
  { sub := 0x04, name := "LINE_PITCH", ty := .u64, acc := .rwc, dflt := .num 65536, rng := .nat 1 0xFFFFFFFFFFFF, persist := true },
  { sub := 0x05, name := "START_POS", ty := .i64, acc := .rwc, dflt := .num 0, rng := .any, persist := true },
  { sub := 0x06, name := "FWD_OFFSET", ty := .i32, acc := .rwc, dflt := .num 0, rng := .any, persist := true },
  { sub := 0x07, name := "REV_OFFSET", ty := .i32, acc := .rwc, dflt := .num 0, rng := .any, persist := true },
  { sub := 0x08, name := "SCAN_LINES", ty := .u32, acc := .rwc, dflt := .num 1024, rng := .nat 1 65535, persist := true },
  { sub := 0x09, name := "SCAN_FRAMES", ty := .u32, acc := .rwc, dflt := .num 0, rng := .any, persist := true },
  { sub := 0x0A, name := "DIR_HYST", ty := .u16, acc := .rwc, dflt := .num 4, rng := .nat 1 4096, persist := true },
  { sub := 0x0B, name := "START_SOURCE", ty := .u8, acc := .rwc, dflt := .num 0, rng := .nat 0 2, persist := true },
  { sub := 0x0C, name := "TRIG_OUT", ty := .u8, acc := .rwc, dflt := .num 0, rng := .oneOf [0, 16, 17, 18, 19, 20, 21, 22, 23, 24, 25, 26, 27, 28, 29, 30, 31], persist := true },
  { sub := 0x0D, name := "TRIG_WIDTH_NS", ty := .u32, acc := .rwc, dflt := .num 100, rng := .nat 10 100000, persist := true },
  { sub := 0x0E, name := "SENSOR_CYCLE_NS", ty := .u32, acc := .rwc, dflt := .num 10000, rng := .any, persist := true },
  { sub := 0x0F, name := "ABORT_SKIPS", ty := .u16, acc := .rw, dflt := .num 16, rng := .any, persist := true },
  { sub := 0x10, name := "SCAN_STATE", ty := .u8, acc := .ro, dflt := .num 0, rng := .any },
  { sub := 0x11, name := "LINE_SLOT", ty := .u64, acc := .ro, dflt := .num 0, rng := .any },
  { sub := 0x12, name := "LINES_FIRED", ty := .u64, acc := .ro, dflt := .num 0, rng := .any },
  { sub := 0x13, name := "LINES_SKIPPED", ty := .u64, acc := .ro, dflt := .num 0, rng := .any },
  { sub := 0x14, name := "LINES_DARK", ty := .u64, acc := .ro, dflt := .num 0, rng := .any },
  { sub := 0x15, name := "STRAY_ROWS", ty := .u64, acc := .ro, dflt := .num 0, rng := .any },
  { sub := 0x16, name := "LINE_REC_BASE", ty := .u64, acc := .ro, dflt := .num 0, rng := .any }]

/-- Record 0x3410 + e: Table 18.5. -/
def rec_enc : List Row := [
  { sub := 0x01, name := "ENC_FILTER", ty := .u8, acc := .rw, dflt := .num 4, rng := .any, persist := true },
  { sub := 0x02, name := "ENC_INVERT", ty := .bool, acc := .rw, dflt := .num 0, rng := .bool, persist := true },
  { sub := 0x03, name := "ENC_INDEX_MODE", ty := .u8, acc := .rwc, dflt := .num 0, rng := .nat 0 2, persist := true },
  { sub := 0x04, name := "ENC_POSITION", ty := .i64, acc := .ro, dflt := .num 0, rng := .any },
  { sub := 0x05, name := "ENC_INDEX_POS", ty := .i64, acc := .ro, dflt := .num 0, rng := .any },
  { sub := 0x06, name := "ENC_ERRORS", ty := .u64, acc := .ro, dflt := .num 0, rng := .any },
  { sub := 0x07, name := "LOOP_BW_HZ", ty := .f32, acc := .rw, dflt := .num 0x43480000, rng := .f32 0x3F800000 0x44FA0000, persist := true },
  { sub := 0x08, name := "TRACK_STATE", ty := .u8, acc := .ro, dflt := .num 0, rng := .any },
  { sub := 0x09, name := "TRACK_POS", ty := .i64, acc := .ro, dflt := .num 0, rng := .any },
  { sub := 0x0A, name := "TRACK_VEL", ty := .f32, acc := .ro, dflt := .num 0x00000000, rng := .any }]

/-- Record 0x3420: Table 18.5. -/
def rec_stb : List Row := [
  { sub := 0x01, name := "STROBE_ENABLE", ty := .u8, acc := .rw, dflt := .num 0, rng := .any },
  { sub := 0x02, name := "PEAK_LIMIT", ty := .u16, acc := .rw, dflt := .num 0, rng := .nat 0 8192, persist := true },
  { sub := 0x03, name := "STROBE_PEAK_FUSED", ty := .u16, acc := .ro, dflt := .num 8192, rng := .any },
  { sub := 0x04, name := "CURRENT_UNITS", ty := .blob, acc := .rwc, dflt := .bytes (zeros 128), rng := .blobLen 128 128, persist := true },
  { sub := 0x05, name := "CHANNEL_GROUP", ty := .blob, acc := .rwc, dflt := .bytes (zeros 128), rng := .blobLen 128 128, persist := true },
  { sub := 0x06, name := "STAGGER_NS", ty := .u32, acc := .rwc, dflt := .num 500, rng := .nat 5 100000, persist := true },
  { sub := 0x07, name := "STROBE_WINDOW_NS", ty := .u32, acc := .rwc, dflt := .num 8000, rng := .nat 10 163837, persist := true },
  { sub := 0x08, name := "STROBE_RECOVERY_NS", ty := .u32, acc := .rwc, dflt := .num 1000, rng := .nat 0 1000000, persist := true },
  { sub := 0x09, name := "STROBE_SOURCE", ty := .u8, acc := .rwc, dflt := .num 0, rng := .nat 0 1, persist := true },
  { sub := 0x0A, name := "PATTERN_TABLE", ty := .blob, acc := .rwc, dflt := .bytes [], rng := .blobMul 80 0xFFFFFFFF },
  { sub := 0x0B, name := "PATTERN_LINES", ty := .u32, acc := .ro, dflt := .num 0, rng := .any },
  { sub := 0x0C, name := "PATTERN_WRAP", ty := .bool, acc := .rwc, dflt := .num 0, rng := .bool, persist := true },
  { sub := 0x0D, name := "CLIPPED_LINES", ty := .u64, acc := .ro, dflt := .num 0, rng := .any }]

/-- Record 0x3800: Table 19.6. -/
def rec_twm : List Row := [
  { sub := 0x01, name := "TWM_ADDR", ty := .u8, acc := .ro, dflt := .num 0x3A, rng := .any },
  { sub := 0x02, name := "TWM_WAKE_WINDOW_MS", ty := .u16, acc := .rw, dflt := .num 10, rng := .nat 1 1000, persist := true },
  { sub := 0x03, name := "TWM_SLEEP_NACKS", ty := .u32, acc := .ro, dflt := .num 0, rng := .any },
  { sub := 0x04, name := "TWM_ERRORS", ty := .u32, acc := .ro, dflt := .num 0, rng := .any }]

/-- Record 0x3810 + n: Table 19.6. -/
def rec_tw : List Row := [
  { sub := 0x01, name := "TW_ENABLE", ty := .bool, acc := .rw, dflt := .num 0, rng := .bool, persist := true },
  { sub := 0x02, name := "TW_SPEED", ty := .u8, acc := .rwc, dflt := .num 1, rng := .nat 0 2, persist := true },
  { sub := 0x03, name := "TW_FALL", ty := .u8, acc := .rwc, dflt := .num 1, rng := .nat 0 3, persist := true },
  { sub := 0x04, name := "TW_FILTER", ty := .u8, acc := .rwc, dflt := .num 5, rng := .nat 0 31, persist := true },
  { sub := 0x05, name := "TW_STRETCH_TIMEOUT_US", ty := .u32, acc := .rw, dflt := .num 25000, rng := .nat 100 1000000, persist := true },
  { sub := 0x06, name := "TW_BUSY_TIMEOUT_US", ty := .u32, acc := .rw, dflt := .num 2000, rng := .nat 100 1000000, persist := true },
  { sub := 0x07, name := "TW_ARB_RETRIES", ty := .u8, acc := .rw, dflt := .num 3, rng := .nat 0 15, persist := true },
  { sub := 0x08, name := "TW_RST_TIME_US", ty := .u32, acc := .rw, dflt := .num 1000, rng := .nat 10 100000, persist := true },
  { sub := 0x09, name := "TW_RESET_ON_WARM", ty := .bool, acc := .rwc, dflt := .num 1, rng := .bool, persist := true },
  { sub := 0x0A, name := "TW_RST_ASSERT", ty := .bool, acc := .rw, dflt := .num 0, rng := .bool },
  { sub := 0x0B, name := "TW_XFER", ty := .blob, acc := .wo, dflt := .bytes [], rng := .any },
  { sub := 0x0C, name := "TW_RESULT", ty := .blob, acc := .ro, dflt := .bytes (zeros 88), rng := .any },
  { sub := 0x0D, name := "TW_STATE", ty := .u8, acc := .ro, dflt := .num 0, rng := .any },
  { sub := 0x0E, name := "TW_TRANSACTIONS", ty := .u64, acc := .ro, dflt := .num 0, rng := .any },
  { sub := 0x0F, name := "TW_FAILURES", ty := .u64, acc := .ro, dflt := .num 0, rng := .any },
  { sub := 0x10, name := "TW_CLEARS", ty := .u32, acc := .ro, dflt := .num 0, rng := .any }]

/-- Record 0x3C00: Table 20.6. -/
def rec_thm : List Row := [
  { sub := 0x01, name := "THERM_SHUT_C", ty := .f32, acc := .rw, dflt := .num 0x42E60000, rng := .f32 0x42D20000 0x42F00000, persist := true },
  { sub := 0x02, name := "THERM_SHUT_FUSED", ty := .f32, acc := .ro, dflt := .num 0x42F00000, rng := .any },
  { sub := 0x03, name := "WARN_C", ty := .f32, acc := .ro, dflt := .num 0x42BE0000, rng := .any },
  { sub := 0x04, name := "THROTTLE_C", ty := .f32, acc := .ro, dflt := .num 0x42C80000, rng := .any },
  { sub := 0x05, name := "HYST_C", ty := .f32, acc := .ro, dflt := .num 0x40400000, rng := .any },
  { sub := 0x06, name := "RISE_WARN", ty := .f32, acc := .ro, dflt := .num 0x40000000, rng := .any },
  { sub := 0x07, name := "RISE_TRIP", ty := .f32, acc := .ro, dflt := .num 0x40C00000, rng := .any },
  { sub := 0x08, name := "RESTART_C", ty := .f32, acc := .rw, dflt := .num 0x42AA0000, rng := .any, persist := true },
  { sub := 0x09, name := "HOLD_TIME_S", ty := .u16, acc := .rw, dflt := .num 30, rng := .nat 10 600, persist := true },
  { sub := 0x0A, name := "ROUND_MS", ty := .u8, acc := .rwc, dflt := .num 8, rng := .oneOf [4, 8, 16, 32, 64], persist := true },
  { sub := 0x0B, name := "JUNCTION_C", ty := .f32, acc := .ro, dflt := .num 0x7FC00000, rng := .any },
  { sub := 0x0C, name := "RISE", ty := .f32, acc := .ro, dflt := .num 0x00000000, rng := .any },
  { sub := 0x0D, name := "THERM_STATE", ty := .u32, acc := .ro, dflt := .num 0, rng := .any },
  { sub := 0x0E, name := "SENSOR_FAULTS", ty := .u64, acc := .ro, dflt := .num 0, rng := .any },
  { sub := 0x0F, name := "SHUTDOWNS", ty := .u32, acc := .ro, dflt := .num 0, rng := .any }]

/-- Record 0x3C01: Table 20.6. -/
def rec_zone : List Row := [
  { sub := 0x01, name := "ZONE_C", ty := .f32, acc := .ro, dflt := .num 0x7FC00000, rng := .any, n := 16 }]

/-- Record 0x3C02: Table 20.6. -/
def rec_rail : List Row := [
  { sub := 0x01, name := "RAIL_VOLTS", ty := .blob, acc := .ro, dflt := .bytes (zeros 60), rng := .any },
  { sub := 0x02, name := "RAIL_FAULTS", ty := .u16, acc := .ro, dflt := .num 0, rng := .any },
  { sub := 0x03, name := "PWR_FAIL_V", ty := .f32, acc := .rwc, dflt := .num 0x3F800000, rng := .any, persist := true },
  { sub := 0x04, name := "PWR_FAIL_HYST_V", ty := .f32, acc := .rwc, dflt := .num 0x3D4CCCCD, rng := .any, persist := true },
  { sub := 0x05, name := "PWR_RESTORE_S", ty := .u16, acc := .rw, dflt := .num 1, rng := .nat 1 60, persist := true }]

/-- Record 0x3C03: Table 20.6. -/
def rec_hold : List Row := [
  { sub := 0x01, name := "CAP_THERM_AIN", ty := .u8, acc := .rwc, dflt := .num 255, rng := .ain, persist := true },
  { sub := 0x02, name := "CAP_CHG_REQ", ty := .bool, acc := .rw, dflt := .num 1, rng := .bool, persist := true },
  { sub := 0x03, name := "CAP_CHG_ALLOWED", ty := .bool, acc := .ro, dflt := .num 0, rng := .any },
  { sub := 0x04, name := "HOLDUP_STATE", ty := .u8, acc := .ro, dflt := .num 0, rng := .any },
  { sub := 0x05, name := "HOLDUP_MS", ty := .u32, acc := .ro, dflt := .num 0, rng := .any }]

/-- Record 0x3C10 + i: Table 20.6. -/
def rec_ain : List Row := [
  { sub := 0x01, name := "AIN_MODE", ty := .u8, acc := .rwc, dflt := .num 0, rng := .nat 0 2, persist := true },
  { sub := 0x02, name := "AIN_PULL_OHM", ty := .f32, acc := .rwc, dflt := .num 0x461C4000, rng := .any, persist := true },
  { sub := 0x03, name := "AIN_R0_OHM", ty := .f32, acc := .rwc, dflt := .num 0x461C4000, rng := .any, persist := true },
  { sub := 0x04, name := "AIN_BETA", ty := .f32, acc := .rwc, dflt := .num 0x4556B000, rng := .any, persist := true },
  { sub := 0x05, name := "AIN_GAIN", ty := .f32, acc := .rwc, dflt := .num 0x42C80000, rng := .any, persist := true },
  { sub := 0x06, name := "AIN_OFFSET", ty := .f32, acc := .rwc, dflt := .num 0xC2480000, rng := .any, persist := true },
  { sub := 0x07, name := "AIN_VOLTS", ty := .f32, acc := .ro, dflt := .num 0, rng := .any },
  { sub := 0x08, name := "AIN_VALUE", ty := .f32, acc := .ro, dflt := .num 0x7FC00000, rng := .any }]

/-- Record 0x0300: Table 21.9. -/
def rec_boot : List Row := [
  { sub := 0x01, name := "BOOT_SOURCE", ty := .u8, acc := .ro, dflt := .num 0, rng := .any },
  { sub := 0x02, name := "BOOT_SLOT", ty := .u8, acc := .ro, dflt := .num 0, rng := .any },
  { sub := 0x03, name := "BOOT_STATUS", ty := .u8, acc := .ro, dflt := .num 0, rng := .any },
  { sub := 0x04, name := "SLOT_STATES", ty := .u32, acc := .ro, dflt := .num 0, rng := .any },
  { sub := 0x05, name := "FW_UPDATE", ty := .blob, acc := .wo, dflt := .bytes [], rng := .any },
  { sub := 0x06, name := "FW_UPDATE_STATUS", ty := .u8, acc := .ro, dflt := .num 0, rng := .any },
  { sub := 0x07, name := "FW_COMMIT", ty := .bool, acc := .wo, dflt := .num 0, rng := .bool },
  { sub := 0x08, name := "FW_AUTO_COMMIT", ty := .bool, acc := .rw, dflt := .num 1, rng := .bool, persist := true },
  { sub := 0x09, name := "SUBSYSTEM_IDS", ty := .u32, acc := .rwc, dflt := .num 0, rng := .any }]

/-- Record 0x0310: Table 21.9. -/
def rec_fuse : List Row := [
  { sub := 0x01, name := "ROLLBACK_FUSED", ty := .u8, acc := .ro, dflt := .num 0, rng := .any },
  { sub := 0x02, name := "KEYS_REVOKED", ty := .u8, acc := .ro, dflt := .num 0, rng := .any }]

/-- Record 0x0400: Table 21.9. -/
def rec_clk : List Row := [
  { sub := 0x01, name := "RESET_CAUSE", ty := .u8, acc := .ro, dflt := .num 0, rng := .any },
  { sub := 0x02, name := "RESET_COUNT", ty := .u32, acc := .ro, dflt := .num 0, rng := .any },
  { sub := 0x03, name := "RESET_REQUEST", ty := .u32, acc := .wo, dflt := .num 0, rng := .any },
  { sub := 0x04, name := "BOOT_WDT_S", ty := .u8, acc := .rw, dflt := .num 10, rng := .nat 5 60, persist := true },
  { sub := 0x05, name := "PLL_LOCKED", ty := .bool, acc := .ro, dflt := .num 1, rng := .any },
  { sub := 0x06, name := "VENG_BUS", ty := .u8, acc := .rwc, dflt := .num 3, rng := .nat 0 3, persist := true },
  { sub := 0x07, name := "VENG_ADDR", ty := .u8, acc := .rwc, dflt := .num 64, rng := .nat 0 127, persist := true },
  { sub := 0x08, name := "VENG_MV", ty := .u16, acc := .ro, dflt := .num 0, rng := .any }]

/-- The rows of the record with index `idx`; none where the manual names no record (R415, R420). -/
def rowsOf (idx : Nat) : List Row :=
  if idx = 0x0200 then rec_mode else
  if 0x0800 ≤ idx ∧ idx < 0x0C00 ∧ (idx - 0x0800) % 0x100 = 0 then rec_sen else
  if 0x0801 ≤ idx ∧ idx < 0x0C01 ∧ (idx - 0x0801) % 0x100 = 0 then rec_sen1 else
  if 0x0810 ≤ idx ∧ idx < 0x0B50 ∧ (idx - 0x0810) % 0x100 < 64 then rec_lan else
  if 0x0C00 ≤ idx ∧ idx < 0x1000 ∧ (idx - 0x0C00) % 0x100 = 0 then rec_itk else
  if 0x0C01 ≤ idx ∧ idx < 0x1001 ∧ (idx - 0x0C01) % 0x100 = 0 then rec_itk1 else
  if 0x0C02 ≤ idx ∧ idx < 0x1002 ∧ (idx - 0x0C02) % 0x100 = 0 then rec_itk2 else
  if 0x0C03 ≤ idx ∧ idx < 0x1003 ∧ (idx - 0x0C03) % 0x100 = 0 then rec_itk3 else
  if 0x0C04 ≤ idx ∧ idx < 0x1004 ∧ (idx - 0x0C04) % 0x100 = 0 then rec_itk4 else
  if 0x0C05 ≤ idx ∧ idx < 0x1005 ∧ (idx - 0x0C05) % 0x100 = 0 then rec_itk5 else
  if 0x0C06 ≤ idx ∧ idx < 0x1006 ∧ (idx - 0x0C06) % 0x100 = 0 then rec_itk6 else
  if 0x0C07 ≤ idx ∧ idx < 0x1007 ∧ (idx - 0x0C07) % 0x100 = 0 then rec_itk7 else
  if 0x0C08 ≤ idx ∧ idx < 0x1008 ∧ (idx - 0x0C08) % 0x100 = 0 then rec_itk8 else
  if 0x1000 ≤ idx ∧ idx < 0x1100 ∧ (idx - 0x1000) % 0x40 = 0 then rec_seq else
  if 0x1008 ≤ idx ∧ idx < 0x10D0 ∧ (idx - 0x1008) % 0x40 < 8 then rec_grp else
  if 0x1100 ≤ idx ∧ idx < 0x1104 then rec_frm else
  if 0x1200 ≤ idx ∧ idx < 0x1240 ∧ (idx - 0x1200) % 0x10 = 0 then rec_foc else
  if idx = 0x1400 then rec_weir else
  if idx = 0x1401 then rec_job else
  if idx = 0x1402 then rec_nrg else
  if idx = 0x1403 then rec_fab else
  if idx = 0x1404 then rec_fb else
  if 0x1405 ≤ idx ∧ idx < 0x1409 then rec_tst else
  if 0x1800 ≤ idx ∧ idx < 0x1C00 ∧ (idx - 0x1800) % 0x100 = 0 then rec_view else
  if 0x1801 ≤ idx ∧ idx < 0x1C01 ∧ (idx - 0x1801) % 0x100 = 0 then rec_view1 else
  if 0x1802 ≤ idx ∧ idx < 0x1C02 ∧ (idx - 0x1802) % 0x100 = 0 then rec_view2 else
  if 0x1803 ≤ idx ∧ idx < 0x1C03 ∧ (idx - 0x1803) % 0x100 = 0 then rec_view3 else
  if 0x1804 ≤ idx ∧ idx < 0x1C04 ∧ (idx - 0x1804) % 0x100 = 0 then rec_view4 else
  if 0x1805 ≤ idx ∧ idx < 0x1C05 ∧ (idx - 0x1805) % 0x100 = 0 then rec_view5 else
  if idx = 0x1C00 then rec_amtg else
  if 0x1C10 ≤ idx ∧ idx < 0x1C18 then rec_amt else
  if idx = 0x1D00 then rec_plg else
  if 0x1D10 ≤ idx ∧ idx < 0x1D18 then rec_pool else
  if idx = 0x1E00 then rec_hevg else
  if 0x1E10 ≤ idx ∧ idx < 0x1E18 then rec_hev else
  if idx = 0x2000 then rec_gen else
  if 0x2010 ≤ idx ∧ idx < 0x2018 then rec_out else
  if idx = 0x2400 then rec_dram else
  if 0x2410 ≤ idx ∧ idx < 0x241C then rec_dch else
  if idx = 0x2800 then rec_magg else
  if 0x2810 ≤ idx ∧ idx < 0x2890 ∧ (idx - 0x2810) % 0x20 = 0 then rec_mag else
  if 0x2811 ≤ idx ∧ idx < 0x2891 ∧ (idx - 0x2811) % 0x20 = 0 then rec_mag1 else
  if 0x2812 ≤ idx ∧ idx < 0x2892 ∧ (idx - 0x2812) % 0x20 = 0 then rec_mag2 else
  if 0x2818 ≤ idx ∧ idx < 0x2880 ∧ (idx - 0x2818) % 0x20 < 8 then rec_mln else
  if idx = 0x2900 then rec_rcq else
  if idx = 0x2901 then rec_ps else
  if 0x2940 ≤ idx ∧ idx < 0x2980 then rec_sq else
  if 0x2980 ≤ idx ∧ idx < 0x29C0 then rec_cq else
  if 0x29C0 ≤ idx ∧ idx < 0x29D0 then rec_iq else
  if idx = 0x2A00 then rec_clip else
  if 0x2A10 ≤ idx ∧ idx < 0x2A14 then rec_clp else
  if idx = 0x2C00 then rec_pcie else
  if idx = 0x3000 then rec_tb else
  if idx = 0x3001 then rec_stg else
  if 0x3010 ≤ idx ∧ idx < 0x3020 then rec_tpg else
  if idx = 0x3100 then rec_net else
  if 0x3110 ≤ idx ∧ idx < 0x3112 then rec_eth else
  if idx = 0x3120 then rec_ptp else
  if idx = 0x3130 then rec_tc else
  if 0x3140 ≤ idx ∧ idx < 0x3148 then rec_prx else
  if idx = 0x0100 then rec_idn else
  if idx = 0x0110 then rec_auth else
  if idx = 0x0111 then rec_pkey else
  if idx = 0x0120 then rec_srv else
  if idx = 0x0210 then rec_elog else
  if idx = 0x0320 then rec_store else
  if idx = 0x3400 then rec_scan else
  if 0x3410 ≤ idx ∧ idx < 0x3414 then rec_enc else
  if idx = 0x3420 then rec_stb else
  if idx = 0x3800 then rec_twm else
  if 0x3810 ≤ idx ∧ idx < 0x3818 then rec_tw else
  if idx = 0x3C00 then rec_thm else
  if idx = 0x3C01 then rec_zone else
  if idx = 0x3C02 then rec_rail else
  if idx = 0x3C03 then rec_hold else
  if 0x3C10 ≤ idx ∧ idx < 0x3C20 then rec_ain else
  if idx = 0x0300 then rec_boot else
  if idx = 0x0310 then rec_fuse else
  if idx = 0x0400 then rec_clk else
  []

/-- The row of an entry; none for a COUNT and where the manual names no entry. -/
def rowOf (k : Nat) : Option Row :=
  (rowsOf (k / 256)).find? (fun r => decide (r.sub ≤ k % 256) && decide (k % 256 < r.sub + r.n))

/-- COUNT of a record: its highest sub-index in use (R415). -/
def countOf (idx : Nat) : Nat := (rowsOf idx).foldl (fun a r => max a (r.sub + r.n - 1)) 0

/-- The default of an entry (R418). The lanes' LOGICAL defaults to the lane's own number (Tables 3.8 and 12.9). -/
def defaultVal (k : Nat) : Val :=
  let idx := k / 256
  match rowOf k with
  | none => .num 0
  | some r =>
    if r.name = "LOGICAL" then
      (if idx < 0x0C00 then .num ((idx - 0x0810) % 0x100) else .num ((idx - 0x2818) % 0x20))
    else r.dflt

/-- The largest value of a row is larger than 4,096 bytes, so it lives in the calibration copy (R442). -/
def Row.large (r : Row) : Bool :=
  match r.rng with
  | .blobLen _ hi => decide (4096 < hi)
  | .blobMul _ hi => decide (4096 < hi)
  | .strMax n => decide (4096 < n)
  | _ => false

/-- The row is held in the calibration copy: the ‡ entries, and +S entries that may exceed 4,096 bytes (R442). -/
def inCalibArea (r : Row) : Bool := r.calib || (r.persist && r.large)

/-- Bytes of a value on a transport (Table 17.1); 0 for the variable-length types. -/
def Ty.size : Ty → Nat
  | .bool => 1 | .u8 => 1 | .u16 => 2 | .u32 => 4 | .u64 => 8 | .i32 => 4 | .i64 => 8 | .f32 => 4 | .tb => 8
  | .str => 0 | .blob => 0

/-- The type code on a transport (Table 17.1). -/
def Ty.code : Ty → Nat
  | .bool => 1 | .u8 => 2 | .u16 => 3 | .u32 => 4 | .u64 => 5 | .i32 => 6 | .i64 => 7 | .f32 => 8 | .tb => 9
  | .str => 10 | .blob => 11

/-- The value has the entry's type and fits its size; a BOOL is 0x00 or 0x01 (R416). -/
def Ty.admits (t : Ty) : Val → Bool
  | .num n => if t = .bool then decide (n ≤ 1) else decide (0 < t.size) && decide (n < 2 ^ (8 * t.size))
  | .bytes _ => decide (t = .str) || decide (t = .blob)

/-- A GP pin number of Table 1.7: 0 to 47, with bit 7 the polarity; 0xFF none. -/
def gpPinOk (n : Nat) : Bool := n == 0xFF || decide (n % 128 < 48)

/-- The outcome of the range check: none when the value lies in range, else the status code of Table 17.7
(RANGE, TOO_BIG beyond the entry's size, TYPE for a length that does not match). -/
def Rng.check (r : Rng) (v : Val) : Option Nat :=
  match r, v with
  | .any, _ => none
  | .bool, .num n => if n ≤ 1 then none else some 7
  | .nat lo hi, .num n => if lo ≤ n ∧ n ≤ hi then none else some 7
  | .oneOf l, .num n => if n ∈ l then none else some 7
  | .mask m, .num n => if Nat.land n m = n then none else some 7
  | .nibbles mx, .num n => if n % 16 ≤ mx ∧ n / 16 ≤ mx then none else some 7
  | .f32 lo hi, .num n => if FVal.le (f32v lo) (f32v n) && FVal.le (f32v n) (f32v hi) then none else some 7
  | .f32pos, .num n =>
    match f32v n with
    | .nan => none
    | .inf neg => if neg then some 7 else none
    | .fin neg q => if neg ∨ q = 0 then some 7 else none
  | .int w lo hi, .num n => if lo ≤ toInt w n ∧ toInt w n ≤ hi then none else some 7
  | .blobLen lo hi, .bytes b => if hi < b.length then some 0x0F else if b.length < lo then some 6 else none
  | .blobMul m hi, .bytes b => if hi < b.length then some 0x0F else if b.length % m ≠ 0 then some 6 else none
  | .strMax n, .bytes b => if n < b.length then some 0x0F else none
  | .trigPin, .num n => if bit n 6 = 1 then (if n % 64 < 16 then none else some 7) else (if n % 64 < 48 then none else some 7)
  | .ain, .num n => if n < 16 ∨ n = 0xFF then none else some 7
  | .gpPin, .num n => if gpPinOk n then none else some 7
  | .pow2 lo hi, .num n => if lo ≤ n ∧ n ≤ hi ∧ 2 ^ Nat.log2 n = n then none else some 7
  | _, _ => some 6

end Sys2Proof.Machine
end

