-- ==== Sys2Proof/Config.lean ====
section
/-! DEFINITION. The values the manual leaves free: constants without a body, applied to the model's own counter
`Dev.free` or to the operands, so that nothing can be proved of them (assumption 1). -/

namespace Sys2Proof.Config

/-- Byte `i` of the `n`-th draw from the TRNG (R434: a fresh nonce). -/
opaque trngByte (n i : Nat) : Byte

/-- The `n`-th number that the manual leaves open, where it states an effect and not a value (assumption 1). -/
opaque freeNat (n : Nat) : Nat

/-- A tap of the Seusk COEFF set (Table 7.5), which the manual names and does not list. -/
opaque coeffTap (phase k : Nat) : Nat

/-- An entry of the Seusk FC_THRESH set, as an F32 code (Table 7.5). -/
opaque fcThresh (i : Nat) : Nat

/-- Entry `i` of a per-pixel flat-field table that firmware has loaded from a source, which the manual does not lay out. -/
opaque flatPixel (source : List Byte) (i : Nat) : Nat

/-- TRIG_LAT_NS of a port (R61), fixed and not given. -/
opaque trigLatNs (p : Nat) : Nat

/-- An entry of the Seusk FC_COLOURS set (Table 7.5). -/
opaque fcColour (band k : Nat) : Nat

/-- Byte 1 of the ST 352 payload ID of quad-link 12G. -/
opaque quadPayload : Nat

/-- Choice `i` among the syntax elements of the parameter sets that H.265 leaves to an encoder. -/
opaque hevcChoice (i : Nat) : Nat

/-- The PPS after its two identifiers: firmware's choice for stream `s`. -/
opaque ppsBits (s : Nat) : List Bool

/-- The hypothetical reference decoder parameters in the VUI of stream `s` under CBR. -/
opaque hrdBits (s : Nat) : List Bool

/-- The payload of the buffering period (0) or picture timing (1) SEI message of coded picture `n`. -/
opaque seiBytes (n kind : Nat) : List Byte

/-- What follows the picture order count in the header of slice `i` of coded picture `n`: firmware's choice. -/
opaque sliceBits (n i : Nat) : List Bool

/-- A chroma value between the samples of a subsampled plane: of the four nearest codes, at quarter steps (fx, fy). The
manual names no interpolation. -/
opaque chromaUp (near : List Nat) (fx fy : Nat) : Nat

end Sys2Proof.Config
end

