-- ==== Sys2Proof/Machine/State.lean ====
section
/-! DEFINITION. The state of the block as plain data: the dictionary store, the event arbiter, every unit's own
registers, queues and sequences, the pound, and the commands that wait (INVENTORY.md, State). An entry of the parameter
dictionary has one home, the store `regs`; what stands beside it is state the manual gives a unit but no entry. -/

namespace Sys2Proof.Machine

/-! ## The dictionary store and events -/

/-- The dictionary store: entries whose value differs from, or was written over, their default (R415, R418).
An entry not listed reads as its default in the entry tables (Machine/Dict.lean). -/
abbrev Regs := List (Nat × Val)

/-- An event as its source posts it (R22). `cycle` is TB_RAW at posting, by which the arbiter orders the oldest (R23);
`ref` names an earlier event whose SEQ[31:0] becomes ARG1 (R28). -/
structure Event where
  code : Nat
  inst : Nat
  arg0 : Nat
  arg1 : Nat
  tb : Nat
  cycle : Nat
  id : Nat
  ref : Option Nat
deriving DecidableEq, Repr, Inhabited

/-- One source's queue of 16 entries and its loss phase (R23, R26): `lost` events so far, `first` the code of the first.
`due` is a phase that has ended, its count and its first code, whose EVT_SOURCE_LOST is still to be logged. -/
structure Source where
  hi : Nat
  inst : Nat
  queue : List Event
  losing : Bool
  lost : Nat
  first : Nat
  due : Option (Nat × Nat)
deriving DecidableEq, Repr, Inhabited

/-- A numbered event record (Table 1.3). -/
structure LogRecord where
  seq : Nat
  tb : Nat
  code : Nat
  inst : Nat
  arg0 : Nat
  arg1 : Nat
deriving DecidableEq, Repr, Inhabited

/-- The event arbiter's log: the next sequence number, the ring's depth in force since boot (R24), the records held,
oldest first, the records not copied to a full host ring (R25), those that wait in D3hot for the copy (R384), and the
number each kept event was given. -/
structure Arbiter where
  next : Nat
  depth : Nat
  ring : List LogRecord
  missed : Nat
  waiting : List LogRecord
  seqOf : List (Nat × Nat)
deriving DecidableEq, Repr, Inhabited

/-- The phase of a unit with a shut-down sequence (R27 to R29). -/
inductive Phase where
  | off
  | starting
  | running
  | stopping
deriving DecidableEq, Repr, Inhabited

/-- A unit's start and stop sequence: a disable held as pending while starting (R29), an enable held as deferred, with
the event that recorded it (R28): none for an enable of firmware's own, which no event records. -/
structure UnitState where
  phase : Phase
  pendingDisable : Bool
  deferred : Option (Option Nat)
deriving DecidableEq, Repr, Inhabited

/-! ## Two-wire buses -/

/-- Who a two-wire transaction or sideband frame is for. -/
inductive Owner where
  | none
  | client
  | firmware (task : Nat)
  | record (p : Nat) (uid : Nat) (g : Nat)
  | stored (p : Nat) (g : Nat)
deriving DecidableEq, Repr, Inhabited

/-- A two-wire transaction (Table 19.2) with its class (R481), its attempts so far and the most data bytes that any of them
had acknowledged. -/
structure TwXfer where
  cls : Nat
  target : Nat
  noRetry : Bool
  wdata : List Byte
  rlen : Nat
  tag : Nat
  owner : Owner
  attempts : Nat
  seen : Nat
  startTb : Nat
deriving DecidableEq, Repr, Inhabited

/-- The end of a write that a settings sequencer or firmware task waits for: 0 done, 1 clean miss, 2 uncertain (R115). -/
structure Ending where
  owner : Owner
  outcome : Nat
deriving DecidableEq, Repr, Inhabited

/-- One controller bus (R476 to R488). `live` is the enable in force (R484). `clearing` holds the transaction whose bus clear is under way at the reset pulse
(true when SCL was the low line); `stuckAt` is TB_RAW of the last failed clear; `pulse` is a pulse of TWn_RST_N under way, begun
at TB_RAW `pulseAt`; `bootHold` is TWn_RST_N held from reset until firmware releases it; `waiting` is the first transaction of
the queue with TB_RAW since when it waits (R482). -/
structure TwBus where
  queue : List TwXfer
  run : Option TwXfer
  clearing : Option (TwXfer × Bool)
  busy : Bool
  stuckAt : Option Nat
  live : Bool
  pulse : Bool
  pulseAt : Nat
  bootHold : Bool
  waiting : Option (TwXfer × Nat)
deriving DecidableEq, Repr, Inhabited

/-- The management target's byte window and wake state (Table 17.8, R489 to R491). -/
structure TwmTarget where
  pointer : Nat
  status : Nat
  reqLen : Nat
  rspLen : Nat
  buf : List Byte
  asleep : Bool
  wakeRaw : Option Nat
  lastRaw : Option Nat
deriving DecidableEq, Repr, Inhabited

/-! ## Sensor lanes -/

/-- A PRBS checker (R74): lock, the last received bits (newest first), error-free bits since the last error, the
positions of recent errors (newest first) and the bits seen. -/
structure Prbs where
  locked : Bool
  reg : List Bool
  good : Nat
  errs : List Nat
  seen : Nat
deriving DecidableEq, Repr, Inhabited

/-- A receive lane's own state: its checker, its open raw segment (the SOL count, and whether row assembly takes it),
whether a dwell runs, and in a search the slips made and whether it is found. `absent` counts the segments in a row that
ended without a sync sequence; `descr` is the descrambler's register, the latest 58 bits, and `heads` tells of the latest
64 sync headers, newest first, which were valid (R53, R67). -/
structure Lane where
  prbs : Prbs
  seg : Option (Nat × Bool)
  absent : Nat
  descr : Nat
  heads : List Bool
  dwelling : Bool
  slips : Nat
  found : Bool
deriving DecidableEq, Repr, Inhabited

/-- A frame to send on a sideband lane (Table 3.4); `tb` is the instant of the trigger that a trigger frame carries. -/
structure SbFrame where
  ty : Nat
  payload : List Byte
  owner : Owner
  tb : Nat
deriving DecidableEq, Repr, Inhabited

/-- A sideband lane: power state (codes of Table 3.8), the state it is to enter after the frame it sends, a wake in
progress, the frame being sent and the queue (R61, R62, R70, R71). -/
structure SbLane where
  power : Nat
  goal : Option Nat
  waking : Bool
  sending : Option SbFrame
  queue : List SbFrame
deriving DecidableEq, Repr, Inhabited

/-- What an alignment in progress is doing (R64 to R66). -/
inductive AlignStep where
  | idle
  | verify
  | search
  | deskew
  | failed
deriving DecidableEq, Repr, Inhabited

/-- A sensor port's lanes as a group (R47 to R75). `goal` is the power state the receive lanes enter at the next EOF,
`deferred` a wake held during it; `landed` are the deskew landings of an open window; `realignRaw` is TB_RAW at the end
of the frame at which a realigning port stopped; `ckTo` a reference-clock restart that waits; `trigSeq` the triggers
sent on SB0 and `trigTb` the instant of the latest of them. `deferred` holds the event that recorded the wake request.
`nextLane` is the logical lane of the stripe link's next block, `packet` the bytes of the packet that is open and whether
it is malformed (R54, R57). `gens` are the latest bits of the quads' pattern transmitters (R73). -/
structure SenPort where
  rx : Nat
  goal : Option Nat
  waking : Bool
  deferred : Option (Option Nat)
  sb : List SbLane
  lanes : List Lane
  step : AlignStep
  armed : Bool
  windowOpen : Bool
  landed : List (Nat × Nat)
  realigning : Bool
  realignRaw : Option Nat
  ckTo : Option Nat
  trigSeq : Nat
  trigTb : Option Nat
  nextLane : Nat
  packet : Option (List Byte × Bool)
  gens : List (List Bool)
deriving DecidableEq, Repr, Inhabited

/-! ## Intake -/

/-- A frame slot of a port's ring (R93): 0 FREE, 1 FILLING, 2 HELD; the order stamp of its latest change, the frame it
holds and its SOF_TB, the consumers that have not released it and the jobs running on it. -/
structure Slot where
  st : Nat
  stamp : Nat
  frame : Nat
  sofTb : Nat
  holds : Nat
  running : Nat
deriving DecidableEq, Repr, Inhabited

/-- Samples of one readout of one row that have arrived: first column and codes (R50, R55). -/
structure RowPart where
  row : Nat
  readout : Nat
  first : Nat
  samples : List Nat
deriving DecidableEq, Repr, Inhabited

/-- A complete row: its readouts, each WIDTH codes (R81); a row written as zeros in SCAN (R461) has none. -/
structure FullRow where
  row : Nat
  readouts : List (List Nat)
deriving DecidableEq, Repr, Inhabited

/-- One entry of an applied-groups vector: the internal serial number of the record, its ID and the group's value
(R117). -/
structure Applied where
  uid : Nat
  id : Nat
  value : Nat
deriving DecidableEq, Repr, Inhabited

/-- Focus-statistics settings in force for a frame (R123). -/
structure FocusCfg where
  enable : Bool
  measure : Nat
  windows : List Nat
  coring : Nat
  partialRow : Nat
deriving DecidableEq, Repr, Inhabited

/-- The settings of the front-end that may change in every mode, as a frame took them when it began (R86, R87). -/
structure LivePix where
  blackFixed : Nat
  hot : Bool
  hotThresh : Nat
deriving DecidableEq, Repr, Inhabited

/-- A frame in progress at a port (R80 to R83): lanes (raw) or members (stripe) that have sent their SOF or FS and their
EOF or FE, complete rows, TB_RAW of the latest completion per segment group, and of each settings group whether its
write window is unopened (0), open (1) or closed (2). `skipped` and `dark` are the counts of R462. -/
structure Asm where
  frame : Nat
  headCount : Nat
  headField : Nat
  sofTb : Nat
  sofRaw : Nat
  epoch : Nat
  trigTb : Nat
  slot : Option Nat
  rows : List FullRow
  sofLanes : List Nat
  eofLanes : List Nat
  groupRaw : List (Nat × Nat)
  partner : Option Nat
  partnerSof : Option Nat
  sofId : Nat
  applied : List Applied
  mixed : Bool
  temp : Nat
  live : LivePix
  focus : FocusCfg
  windows : List Nat
  levelDone : Bool
  skipped : Nat
  dark : Nat
deriving DecidableEq, Repr, Inhabited

/-- A frame that has ended, as later units need it; `applied` is its vector of IDs, `sofId` and `partnerSof` the post
numbers of its SOF event and its partner's (R41), `recAt` the pound address of its frame record. -/
structure FrameInfo where
  port : Nat
  frame : Nat
  slot : Option Nat
  rowsValid : Nat
  status : Nat
  sofTb : Nat
  eofTb : Nat
  eofRaw : Nat
  trigTb : Nat
  partner : Option Nat
  partnerSof : Option Nat
  sofId : Nat
  recAt : Nat
  applied : List Nat
deriving DecidableEq, Repr, Inhabited

/-- A final statistics block that waits to be written (R124). -/
structure FinalStats where
  frame : Nat
  slot : Nat
  rows : List FullRow
  rowsValid : Nat
  live : LivePix
  focus : FocusCfg
  applied : List Nat
deriving DecidableEq, Repr, Inhabited

/-- A capturing port's burst (R102, R103): armed, the number of the capture's first frame, the trigger TB once fired, T,
capture stopped, completion logged, and the level detector's previous mean. -/
structure Burst where
  armed : Bool
  base : Nat
  fired : Option Nat
  trigFrame : Option Nat
  stopped : Bool
  complete : Bool
  prevMean : Option Rat
deriving DecidableEq, Repr, Inhabited

/-- A front-end (R79 to R104). `run`: 0 stopped, 1 running, 2 stopping at EOF. `frames` are the frames begun since the
reset, `head` the extended head count with the field it came from, `rehead` that the next frame's takes the field anew, `asms` the frames in progress, oldest first (more
than one only in SCAN), `tail` the latest frame that ended, whose rest is discarded: its head field and the lanes or
members that had sent its SOF or FS. `slots` are the slots ever taken, of `slotCount`. `parts`, `segs` and `last` are row
assembly: samples of rows not complete, segments closed per gang lane, and of each member the latest packet's
(ROW, readout, PACKET_INDEX), the columns received and RE. -/
structure Intake where
  run : Nat
  hasRing : Bool
  frames : Nat
  head : Option (Nat × Nat)
  rehead : Bool
  asms : List Asm
  tail : Option (Nat × List Nat)
  slots : List Slot
  slotCount : Nat
  stamp : Nat
  dropIdx : Nat
  parts : List RowPart
  segs : List (Nat × Nat)
  last : List (Nat × List Nat)
  burst : Burst
  stats : List FinalStats
  flatTable : Nat
deriving DecidableEq, Repr, Inhabited

/-! ## Settings sequencer -/

/-- How far the write of one group of a settings record has come (R114 to R116): it waits for its window, runs in the
window of a frame, is done, or was abandoned. -/
inductive WriteSt where
  | waiting
  | running (frame : Nat)
  | done
  | dropped
deriving DecidableEq, Repr, Inhabited

/-- One group of a settings record: its value, the frame it is aimed at, its consecutive misses, and the writes that ran
past their window and are still carried to their end (R115). -/
structure GroupWrite where
  g : Nat
  value : Nat
  target : Nat
  st : WriteSt
  misses : Nat
  late : Nat
deriving DecidableEq, Repr, Inhabited

/-- A pending settings record (Table 5.1); `uid` is its serial number in this model, since IDs need not be unique. -/
structure SetRec where
  uid : Nat
  id : Nat
  groups : List GroupWrite
deriving DecidableEq, Repr, Inhabited

/-- A write that governs group `g` from the first frame whose head count is `since` or greater (R109), and for an uncertain
miss from frame number `frame` on (R117). -/
structure Governs where
  g : Nat
  since : Nat
  frame : Nat
  entry : Applied
deriving DecidableEq, Repr, Inhabited

/-- A settings sequencer (R108 to R117): pending records in acceptance order, the writes that govern, newest first, and
the vector of the latest frame. `stored` holds the stored-value writes under way at entry to a capture mode: group and
attempts left. -/
structure Sequencer where
  recs : List SetRec
  gov : List Governs
  cur : List Applied
  nextUid : Nat
  stored : List (Nat × Nat)
deriving DecidableEq, Repr, Inhabited

/-! ## Scan and strobe -/

/-- An encoder: accepted levels, count, first index seen since entry to SCAN, tracking loop, ticks with |e| < 0.5,
illegal samples since the last event and TB_RAW of that event (R449 to R453). -/
structure Encoder where
  a : Bool
  b : Bool
  c : Int
  indexed : Bool
  p : Rat
  v : Rat
  e : Rat
  lockRun : Nat
  illegal : Nat
  errRaw : Option Nat
deriving DecidableEq, Repr, Inhabited

/-- A line that waits for its row: row number, TB_RAW of firing (R461). -/
structure LineWait where
  frame : Nat
  row : Nat
  raw : Nat
deriving DecidableEq, Repr, Inhabited

/-- A scheduled strobe pulse: firing group, channels, units, and its start and end in CLK_PER cycles of TB_RAW / 3
(R470). -/
structure StbPulse where
  group : Nat
  channels : List Nat
  units : Nat
  start : Nat
  stop : Nat
deriving DecidableEq, Repr, Inhabited

/-- The scan unit (R454 to R472). `forward` is the direction in force, `dirKnown` whether a bidirectional scan has its
first direction, `far` is H of R457 and `start` the count at the start, `slot` the current slot, `waitTurn` a pass that
has taken its last slot. `passes` are the scan frames begun, `taken` the slots consumed of the latest of them, `cur` its
frame while the front-end holds it, `consumed` the scan frames whose slots are all consumed, and `stopping` the frame
cut off by an abort or by leaving SCAN (R463). `lines` are the fired lines without a row, `onChip` the pattern entries
fetched (none: poisoned), `skips` the run of skips, `fireRaw` TB_RAW of the latest firing, and the marks of R469 and
R470 are once per frame. -/
structure Scan where
  live : Bool
  forward : Bool
  dirKnown : Bool
  far : Int
  start : Int
  slot : Nat
  waitTurn : Bool
  passes : Nat
  taken : Nat
  cur : Option Nat
  consumed : Nat
  stopping : Option Nat
  lines : List LineWait
  onChip : List (Nat × Option (List Byte))
  skips : Nat
  fireRaw : Option Nat
  darkLogged : Bool
  clipLogged : Bool
  syncIdx : Nat
  pulses : List StbPulse
deriving DecidableEq, Repr, Inhabited

/-! ## Time base, pulses and network -/

/-- The free-running count and what stands beside the entries of the time base: TB and TB_EPOCH of the cycle before,
against which R393 counts wraps, and TB_RAW of the cycle in which a staged set was armed (R395). -/
structure TimeBase where
  raw : Nat
  prevTb : Nat
  prevEpoch : Nat
  armRaw : Option Nat
deriving DecidableEq, Repr, Inhabited

/-- A pulse in progress: TB_RAW of its end, its routes, and whether it is active low (R400, R401). -/
structure Pulse where
  stop : Nat
  route : Nat
  invert : Bool
deriving DecidableEq, Repr, Inhabited

/-- A pulse generator's settings as taken at arming (R402), the instants used, TB_RAW of arming, whether instant 0 was
past then, the pulse in progress, and the pin's inactive level. -/
structure Tpg where
  target : Nat
  period : Nat
  widthNs : Nat
  count : Nat
  mode : Nat
  route : Nat
  invert : Bool
  used : Nat
  armRaw : Nat
  late : Bool
  pulse : Option Pulse
  idleHigh : Bool
deriving DecidableEq, Repr, Inhabited

/-- A learned address of the switch: VLAN, address, port and TB_RAW of the latest refresh (R404). -/
structure MacEntry where
  vid : Nat
  mac : Nat
  port : Nat
  raw : Nat
deriving DecidableEq, Repr, Inhabited

/-- The switch, the internal port and the PTP servo (R403 to R411): `best` is the announced data of the master followed
(priority1, clockClass, clockAccuracy, variance, priority2, grandmasterIdentity) and the clockIdentity of its sender, `good`
counts consecutive Sync intervals within the threshold, `rtp` is the next RTP sequence number of each proxy stream, `lease`
the address that DHCP gave, `utc` currentUtcOffset. -/
structure Network where
  macs : List MacEntry
  best : Option (List Nat × Nat)
  good : Nat
  rtp : List Nat
  lease : Nat
  utc : Nat
deriving DecidableEq, Repr, Inhabited

/-! ## PCI Express endpoint -/

/-- An MSI-X table entry (R380). -/
structure MsixEntry where
  addr : Nat
  data : Nat
  masked : Bool
  pending : Bool
deriving DecidableEq, Repr, Inhabited

/-- The BAR 0 registers of Table 15.4 that are not views of other state, the MSI-X table, the mailbox records taken
over and waiting, responses that wait for ring space, the D-state, and the event-vector signal that is due. -/
structure Endpoint where
  mbxEnable : Bool
  reqBase : Nat
  reqSize : Nat
  reqHead : Nat
  reqTail : Nat
  rspBase : Nat
  rspSize : Nat
  rspHead : Nat
  rspTail : Nat
  requests : List (List Byte)
  responses : List (List Byte)
  latchTb : Nat
  latchRaw : Nat
  epochAtRead : Nat
  evtBase : Nat
  evtSize : Nat
  evtHead : Nat
  evtTail : Nat
  evtDue : Bool
  evtSignalRaw : Option Nat
  window : Nat
  msix : List MsixEntry
  d3hot : Bool
deriving DecidableEq, Repr, Inhabited

/-! ## Turad sessions and the persistent store -/

/-- A session's subscription (R431, R432): code ranges, queued records, records discarded since the latest EVENT and the
EVENT messages sent. -/
structure Subscription where
  ranges : List (Nat × Nat)
  queue : List LogRecord
  lost : Nat
  sent : Nat
deriving DecidableEq, Repr, Inhabited

/-- A block write in progress (R428): entry, TOTAL, the bytes so far and TB_RAW of the latest chunk. -/
structure BlockWrite where
  key : Nat
  total : Nat
  data : List Byte
  raw : Nat
deriving DecidableEq, Repr, Inhabited

/-- A Turad session (R429 to R437): identity, session key when authenticated, last accepted SEQ, the latest responses
with their SEQ, and TB_RAW of the latest message. `port` is the UDP port that EVENT messages go to. -/
structure Session where
  tr : Transport
  client : Nat
  ip : Nat
  port : Nat
  ks : Option (List Byte)
  last : Nat
  responses : List (Nat × List Byte)
  sub : Option Subscription
  block : Option BlockWrite
  raw : Nat
deriving DecidableEq, Repr

/-- The latest nonce issued to a CLIENT_ID, unused (R434). -/
structure Nonce where
  client : Nat
  nd : List Byte
  raw : Nat
deriving DecidableEq, Repr, Inhabited

/-- Consecutive failed proofs of a CLIENT_ID, and TB_RAW at which a lockout began (R437). -/
structure ProofFails where
  client : Nat
  count : Nat
  lockedRaw : Option Nat
deriving DecidableEq, Repr, Inhabited

/-- A save in progress (R444): the bank image, the calibration image when it is rewritten, and whether an entry of the
set took a value after the snapshot. -/
structure SaveJob where
  bank : List Byte
  calib : Option (List Byte)
  dirtyAfter : Bool
deriving DecidableEq, Repr, Inhabited

/-- The external SPI NOR: its JESD216 table (R532), and its areas (Table 17.10): bytes written since the area was erased; what
follows reads as 0xFF. It outlives every reset and every power loss. -/
structure Flash where
  sfdp : List Byte
  boot : List Byte
  slotA : List Byte
  slotB : List Byte
  bank0 : List Byte
  bank1 : List Byte
  copy0 : List Byte
  copy1 : List Byte
deriving DecidableEq, Repr, Inhabited

/-- The dictionary service (R424 to R437) and the store (R441 to R445). `copyInForce` is the calibration copy's
area. -/
structure Service where
  sessions : List Session
  nonces : List Nonce
  fails : List ProofFails
  save : Option SaveJob
  savePending : Bool
  copyInForce : Option Nat
deriving DecidableEq, Repr

/-! ## Barges, basins and the weir -/

/-- A mosaic frame or picture in the pound: the address of its first sample, its size, CFA and format, the bits of a
sample, the readouts of a packed row, LIN_SHIFT, whether rows are packed (R90, PASS) and the rows that count; rows from
`valid` on read as 0 (R207). -/
structure Mosaic where
  base : Nat
  w : Nat
  h : Nat
  cfa : Nat
  fmt : Nat
  bits : Nat
  readouts : Nat
  shift : Nat
  packed : Bool
  valid : Nat
  coding : Coding := { chroma := 0, depth := 0, full := false, gbr := false }
deriving DecidableEq, Repr, Inhabited

/-- An Amtan picture header (Table 8.1), as its fields. -/
structure PicHead where
  ty : Nat
  bits : Nat
  cfa : Nat
  w : Nat
  h : Nat
  fmt : Nat
  qMin : Nat
  qMax : Nat
  port : Nat
  stream : Nat
  frame : Nat
  tb : Nat
  id : Nat
  refId : Nat
  budget : Nat
deriving DecidableEq, Repr, Inhabited

/-- A job (Table 6.1) with the frame route it belongs to. -/
structure Job where
  route : Nat
  cls : Nat
  port : Nat
  flags : Nat
  tile : Nat
  frame : Nat
  src : Nat
  dst : Nat
  deadline : Nat
  energy : Nat
  tw : Nat
  th : Nat
  counter : Nat
  param : Nat
  seq : Nat
  work : Nat
deriving DecidableEq, Repr, Inhabited

/-- A view fed by a DEVELOP route: the buffer assigned (R164) and the bank chosen (R183). -/
structure ViewUse where
  v : Nat
  buf : Nat
  bank : Nat
deriving DecidableEq, Repr, Inhabited

/-- One route of one frame (R133): jobs not complete, the address of its completion counter, the slot it holds, its
source, the views or the Amtan stream it serves, and what the jobs have found so far. `base` is the picture's region,
`tiles` are tile, SIZE and FLAGS of coded tiles, `costs` their cost entries, `picLen` the length of a picture to decode,
`dead` a route whose jobs were discarded (R149). -/
structure Work where
  id : Nat
  route : Nat
  cls : Nat
  port : Nat
  frame : Nat
  left : Nat
  counter : Nat
  slot : Option Nat
  mosaic : Mosaic
  views : List ViewUse
  stream : Nat
  head : PicHead
  target : Option Nat
  ref : Option Nat
  budgets : List (Nat × Nat)
  base : Nat
  picLen : Nat
  tiles : List (Nat × Nat × Nat)
  costs : List (Nat × Nat × Nat × Nat × Nat)
  bad : Nat
  poison : Bool
  dead : Bool
  late : Bool
  info : FrameInfo
deriving DecidableEq, Repr, Inhabited

/-- The dispatcher, the basins, the barges and the weir (R129 to R153). `level` is B in units of 2^−8 µJ, `est` the
estimates by route and cluster, `rr` the barge last served by the steal arbiter, `starved` whether C0 jobs are being
refused; `refusedTicks`, `ticks`, `refused` and `high` are what R151 reviews, `baseWin` and `bargeWin` the energies of
the latest ticks, `bargeTick` that of this one; `goal` the clock step each cluster is brought to, `calm` the comparisons
since the average fell below 0.95 of the ceiling, `headroom` h × r of R147. -/
structure Barges where
  works : List Work
  nextWork : Nat
  basins : List (List Job)
  backlog : List Job
  running : List (Option Job)
  postSeq : Nat
  rr : Nat
  level : Int
  est : List (List Nat)
  starved : Bool
  refused : Bool
  refusedTicks : Nat
  ticks : Nat
  high : Bool
  baseWin : List Nat
  bargeWin : List Nat
  bargeTick : Nat
  goal : List Nat
  calm : Nat
  headroom : Rat
deriving DecidableEq, Repr, Inhabited

/-- The fabric arbiter (R141): per barge the requests still to be granted, the line of the next one and the grants its
oldest has waited; per cluster the weight of the latest sample, the barge served last and the grants; the cluster being served
with the grants left to it in this round, and the longest wait. -/
structure Fabric where
  want : List Nat
  line : List Nat
  wait : List Nat
  weights : List Nat
  last : List Nat
  grants : List Nat
  cluster : Nat
  left : Nat
  longest : Nat
deriving DecidableEq, Repr, Inhabited

/-- A DRAM channel arbiter (R142): the requests of intake, fabric, magazines, HEVC, PCI Express and the migrator (R289), the
classes of its latest 99 commands, newest first, and the class that the round robin served last. -/
structure ChanArb where
  want : List Nat
  recent : List Nat
  rr : Nat
deriving DecidableEq, Repr, Inhabited

/-- A frame that the recording service is to write (R363), in the order of recording: 0 a gap, 1 a coded picture, 2 the
frame uncoded; whether its bytes are there, and where. Of an uncoded frame the first `bits` bits are its rows, and the rest
is black (R98). -/
structure RecUnit where
  info : FrameInfo
  kind : Nat
  work : Nat
  ready : Bool
  addr : Nat
  size : Nat
  bits : Nat
deriving DecidableEq, Repr, Inhabited

/-- FLATBUILD (R158, R159): the phase in force with its pass, frames still to add, the latest frame added, the pass-1
sums by tile and plane, the candidates, and the pixels whose GAIN was clamped; the areas' pound addresses. -/
structure FlatBuild where
  phase : Nat
  pass : Nat
  left : Nat
  last : Nat
  added : Nat
  sums : List (Nat × Nat × Nat × Nat)
  cands : List Nat
  clamped : Nat
  darkBase : Nat
  flatBase : Nat
deriving DecidableEq, Repr, Inhabited

/-! ## Views, Amtan streams and picture pools -/

/-- A view buffer: 0 free, 1 being written, 2 published; the order of its last change, the frame with its SOF_TB, and
the consumers that read it. -/
structure ViewBuf where
  st : Nat
  stamp : Nat
  frame : Nat
  sofTb : Nat
  readers : Nat
deriving DecidableEq, Repr, Inhabited

/-- A commit that is not in effect (R183): by record or by frame, its value, the bank it loads, whether firmware has
finished loading it, and whether its aimed frame has been taken up already (R184). -/
structure Commit where
  byRecord : Bool
  value : Nat
  bank : Nat
  loaded : Bool
  missed : Bool
deriving DecidableEq, Repr, Inhabited

/-- A view (R162 to R166, R182 to R184): its two banks and the one that governs, a commit, the latest frame taken up with its
vector of IDs, its buffers, the latest published one and the frame it holds, the publications so far, TB_RAW of the latest, and
the buffer and number of the one published before that cycle (R254). -/
structure View where
  banks : List Regs
  cur : Nat
  commit : Option Commit
  closed : Bool
  upLast : Option Nat
  upIds : List Nat
  bufs : List ViewBuf
  latest : Option Nat
  published : Option Nat
  pubs : Nat
  pubRaw : Option Nat
  prev : Option (Nat × Nat)
  stamp : Nat
deriving DecidableEq, Repr, Inhabited

/-- An Amtan stream (R204 to R209, R213 to R216): the next PICTURE_ID, pictures since the last I, the last coded frame and
its geometry and limits, P_ENABLE and I_INTERVAL in force, the cost table, the picture regions (address, size, number, and those used), the pictures
offered and waiting, the decoded buffer shown to views, and those published before it and not yet released (R245). -/
structure AmtStream where
  next : Nat
  sinceI : Nat
  lastFrame : Option Nat
  geom : List Nat
  limits : Option (Nat × Nat)
  force : Bool
  pOn : Bool
  interval : Nat
  cost : List (Nat × Nat × Nat)
  base : Nat
  bytes : Nat
  regionCount : Nat
  regions : Nat
  offers : List (List Byte)
  shown : Option Nat
  old : List Nat
deriving DecidableEq, Repr, Inhabited

/-- A pool buffer (R223): marks (Table 9.2), TAG, pins, and how its latest picture since it was FREE ended: 0 none or not
complete, 1 complete, 2 overflow. -/
structure PoolBuf where
  marks : Nat
  tag : Nat
  pins : Nat
  pic : Nat
deriving DecidableEq, Repr, Inhabited

/-- A picture pool (R221, R222): its owner's code, geometry and buffers; none allocated when the list is empty. -/
structure Pool where
  owner : Nat
  base : Nat
  bytes : Nat
  w : Nat
  h : Nat
  chroma : Nat
  depth : Nat
  bufs : List PoolBuf
deriving DecidableEq, Repr, Inhabited


/-! ## The HEVC engine -/

/-- A source frame for which an encode stream has taken no input yet (R230). -/
structure EncWait where
  frame : Nat
  sofTb : Nat
  eofTb : Nat
deriving DecidableEq, Repr, Inhabited

/-- An encode input (R230, R231): the source frame, REPEAT, the view buffer it is read from, or the ring slot it was
copied to. -/
structure EncIn where
  frame : Nat
  sofTb : Nat
  rep : Bool
  buf : Nat
  slot : Option Nat
deriving DecidableEq, Repr, Inhabited

/-- A picture to code or decode, in the order of the engine's queue: an encode picture's input, kind (0 IRAP, 1 intra,
2 P, 3 B), layer, and whether it is kept as a reference; a decode picture with its target. `poc` is its POC, an I32
code. -/
structure PicTask where
  s : Nat
  inp : EncIn
  kind : Nat
  layer : Nat
  keep : Bool
  poc : Nat
  au : Option AuPicture
  target : Nat
deriving DecidableEq, Repr

/-- The record firmware's rate control keeps of a coded picture (R237): kind, layer, BITS, QP, summed ACT, SOF_TB, the
bits of its access unit, and the bits predicted for it. -/
structure PicRate where
  kind : Nat
  layer : Nat
  bits : Nat
  qp : Nat
  act : Nat
  tb : Nat
  size : Nat
  pred : Nat
deriving DecidableEq, Repr, Inhabited

/-- The picture in the engine: its task, target and pinned references, the output buffer, PICTURE_COUNT, QP, the bytes
that firmware wrote ahead of the first slice, the slice headers, whether a check failed (R227), the converted and padded
input planes (R232), ACT of each CTU, the bits predicted (R237), and TB_RAW at its start (R242). -/
structure PicRun where
  task : PicTask
  target : Nat
  refs : List Nat
  out : Nat
  count : Nat
  qp : Nat
  head : List Byte
  slices : List (List Byte)
  fault : Bool
  source : List (List Nat)
  acts : List Nat
  pred : Nat
  began : Nat
deriving DecidableEq, Repr

/-- A decoded picture that waits for output (R245): its buffer, IDR period and POC, size and coding. -/
structure DecOut where
  buf : Nat
  epoch : Nat
  poc : Nat
  w : Nat
  h : Nat
  coding : Coding
deriving DecidableEq, Repr, Inhabited

/-- An HEVC stream (R230 to R245). Encode: source frames without input, inputs taken and not yet planned, pictures planned
whose commands are not yet queued, the records read of coded pictures, newest first, and those not yet read, the bits of
the reference decoder's buffer after the latest picture read with its SOF_TB, ring slots held,
inputs taken so far, the input number of the latest IRAP picture, of POC 0 and of the latest anchor, whether an IRAP is
due, the view's publications when the stream started, pictures coded, the consumers that hold each output buffer (bit 2
the engine), and buffers for the proxy service. Decode: access units that wait, pictures that wait for output, IDR
pictures so far, POC and buffer of the latest decoded picture, the buffers of decoded pictures, latest first, the STATUS of
the latest, whether one is under way, output times so far, the buffer published latest and those before it. -/
structure Hevc where
  awaits : List EncWait
  inputs : List (Nat × EncIn)
  planned : List PicTask
  rates : List PicRate
  unread : List PicRate
  hrd : Option (Nat × Nat)
  ring : List Bool
  taken : Nat
  base : Nat
  pocBase : Nat
  anchor : Option Nat
  irap : Bool
  pubMark : Nat
  count : Nat
  outs : List Nat
  proxy : List Nat
  aus : List AccessUnit
  outQ : List DecOut
  epoch : Nat
  last : Option (Nat × Nat)
  recent : List Nat
  status : Nat
  busy : Bool
  published : Nat
  shown : Option Nat
  old : List Nat
deriving DecidableEq, Repr

/-! ## Video outputs -/

/-- A video output (R252 to R256): the number k of its latest frame, the view buffer it latched until the last active
line is sent, the publication that the latest frame latched, the one latched last, the view's publications when the output started,
black frames, whether a frame is being sent, frames within 10 ns, the genlock error in ns, TB_RAW of its latest jump, the
finder's presence, the SDI register and the 8b/10b disparity of the lane, and back-channel bytes of a message begun. -/
structure Output where
  k : Option Nat
  reading : Option Nat
  pub : Option Nat
  seen : Nat
  base : Nat
  black : Bool
  sending : Bool
  good : Nat
  error : Int
  jumpRaw : Option Nat
  present : Bool
  sdi : Nat
  rd : Bool
  rx : List Byte
deriving DecidableEq, Repr, Inhabited

/-! ## DRAM -/

/-- A rank (R266, Table 11.7): its state, OWED, TB_RAW at which its next refresh tick is due, corrections since its
latest EV 0x2401 and TB_RAW of that event (R269, R280). -/
structure Rank where
  st : Nat
  owed : Nat
  due : Option Nat
  corrected : Nat
  logRaw : Option Nat
deriving DecidableEq, Repr, Inhabited

/-- A migration (R287): the failed rank, the spare, the first line not yet copied, the dirty lines, the lines written
poisoned and TB_RAW of its start. -/
structure Migration where
  src : Nat
  dst : Nat
  mark : Nat
  dirty : List Nat
  bad : Nat
  startRaw : Nat
deriving DecidableEq, Repr, Inhabited

/-- A channel: its four ranks, the ranks that hold addresses in the order of the rank field (R274), a migration, and
the rounds in a row that were cool enough to leave doubled mode (R281). -/
structure Chan where
  ranks : List Rank
  order : List Nat
  mig : Option Migration
  cool : Nat
deriving DecidableEq, Repr, Inhabited

/-- The DRAM controller: whether training runs, the MAP, device width, density and rate in force (R566), the ranks
fitted as trained, the mapped channels in ascending order, the channels, and the RANK_RETIRE bits that firmware set
itself (R286). -/
structure Dram where
  training : Bool
  map : Nat
  width : Nat
  density : Nat
  rate : Nat
  fitted : Nat
  mapped : List Nat
  chans : List Chan
  failed : Nat
deriving DecidableEq, Repr, Inhabited

/-! ## Magazine ports and the recorder queue -/

/-- A link packet as sent, with the times it has been resent (Table 12.3, R305). -/
structure LinkPkt where
  seq : Nat
  ty : Nat
  flags : Nat
  tag : Nat
  index : Nat
  payload : List Byte
  resent : Nat
deriving DecidableEq, Repr, Inhabited

/-- One end of a magazine link (R301 to R306). Sending: the next SEQ, packets not acknowledged, packets that wait for
credit, DATA and control packets sent, the limits received, whether the first ACK has come, and TB_RAW from which the
replay timeout counts. Receiving: the last good SEQ, good packets not acknowledged, whether a NAK is out, packets of each
kind received, the limits last stated, whether an ACK is due. Retraining: cause, failed retrains in a row, TB_RAW of
its start. -/
structure MagLink where
  tx : Nat
  unacked : List LinkPkt
  waiting : List LinkPkt
  dataSent : Nat
  ctrlSent : Nat
  dataLimit : Nat
  ctrlLimit : Nat
  opened : Bool
  replayRaw : Nat
  rx : Nat
  owing : Nat
  nakOut : Bool
  dataGot : Nat
  ctrlGot : Nat
  dataStated : Nat
  ctrlStated : Nat
  ackDue : Bool
  cause : Nat
  fails : Nat
  downRaw : Option Nat
deriving DecidableEq, Repr, Inhabited

/-- A command that firmware itself sends to a magazine, outside the recorder queue: IDENTIFY, TEMP, SLEEP, WAKE, SET_KEY,
and the ABORT of a target (Table 12.6); `data` is the sector received. -/
structure OwnCmd where
  tag : Nat
  op : Nat
  target : Nat
  data : Option (List Byte)
deriving DecidableEq, Repr, Inhabited

/-- What an internal command writes: bytes of firmware's own memory, or a range of the pound. -/
inductive SrcPart where
  | lit (b : List Byte)
  | mem (a n : Nat)
deriving DecidableEq, Repr

/-- A clip table entry (Table 14.3); `bad` is an entry whose CRC failed, with its bytes as read (R358). -/
structure ClipEntry where
  state : Nat
  stripe : Nat
  stripes : Nat
  ports : Nat
  serial : Nat
  take : Nat
  first : Nat
  extents : Nat
  startTb : Nat
  endTb : Nat
  frames : Nat
  gaps : Nat
  lastIndex : Nat
  bytes : Nat
  name : List Byte
  bad : Option (List Byte)
deriving DecidableEq, Repr, Inhabited

/-- The store of a magazine as firmware holds it (R354 to R357): the copy in use (0 A, 1 B) and its SEQ, the sectors named
in the superblock, SERIAL_NEXT, the used clip entries and the extents that are not free. -/
structure ClipStore where
  copy : Nat
  seq : Nat
  sectors : Nat
  serialNext : Nat
  clips : List (Nat × ClipEntry)
  map : List (Nat × Nat)
deriving DecidableEq, Repr, Inhabited

/-- The clip that a member records or that is being recovered (R359 to R366): its entry, chain, the next stream offset and
UNIT_SEQ, index entries not yet in an index unit, the offset of the last index unit, counts, SOF_TB of the first and
last entry, whether it is opened, and the internal queue of the service that writes it. -/
structure ClipRun where
  clip : Nat
  chain : List Nat
  off : Nat
  unitSeq : Nat
  pend : List (List Byte)
  lastIndex : Nat
  frames : Nat
  gaps : Nat
  first : Option Nat
  last : Nat
  opened : Bool
  queue : Nat
deriving DecidableEq, Repr, Inhabited

/-- Steps that firmware takes on a magazine when the commands before them have completed. -/
inductive FwAct where
  | loaded
  | commit
  | super
  | swap
  | openTake (stripe stripes : Nat)
  | opened
  | unitDone (port slot frame : Nat)
  | close (report : Bool)
  | closed (recovered : Bool)
  | scan (clip : Nat)
  | scanned
  | trim (lba : Nat)
  | formatted
deriving DecidableEq, Repr

/-- One step of what firmware does on a magazine: a command through an internal queue, SET_KEY, a step of its own, or the
report of the FLUSH just completed (R42). -/
inductive FwOp where
  | cmd (q op lba count : Nat) (src : List SrcPart)
  | key
  | act (a : FwAct)
  | report
deriving DecidableEq, Repr

/-- Firmware's work on a magazine: the steps left, whether the command of the first one is out, and the results of the
latest commands, newest first: status and data. -/
structure FwRun where
  script : List FwOp
  busy : Bool
  results : List (Nat × List Byte)
  timedOut : Bool
deriving DecidableEq, Repr, Inhabited

/-- A magazine port (R295 to R321): presence and supply, TB_RAW of the supply's switch-on, its link, its receive lanes with
their alignment, the rate and FEC in use, whether IDENTIFY is wanted after UP and has been accepted, firmware's own
commands, whether PS is being left, TB_RAW since which it is idle, the key in effect and a key write or clear held, whether
KEY_ID mismatches, the latest temperature report in 1/16 °C with its age in rounds, the rounds outside and inside the
write window, and firmware's work, the store and the clip on it. Of the stream sent: the scramblers' registers, the place in the
ALIGN period, the count of ALIGN stripes, whether RS-FEC runs, the STATE last told and the pattern transmitters' latest bits.
Of the stream received: the packet that is open, its bytes and whether it is damaged; while training, per lane the TRAIN
blocks with STATE 0x03 in a row and whether STATE 0x02 or 0x03 has come, and the magazine's FEC; after UP whether it has
sent anything else (R296 to R298). -/
structure MagPort where
  scr : List Nat
  stripes : Nat
  aligns : Nat
  fecOn : Bool
  told : Nat
  gens : List (List Bool)
  packet : Option (List Byte × Bool)
  trains : List Nat
  heard : List Bool
  theirs : Bool
  settled : Bool
  present : Bool
  supply : Bool
  powerRaw : Option Nat
  link : MagLink
  lanes : List Lane
  step : AlignStep
  armed : Bool
  windowOpen : Bool
  landed : List (Nat × Nat)
  rate : Nat
  fec : Bool
  wantIdent : Bool
  ready : Bool
  own : List OwnCmd
  exiting : Bool
  idleRaw : Nat
  key : Option (List Byte)
  keyHeld : Option (Option (List Byte))
  mismatch : Bool
  temp : Option Int
  tempAge : Nat
  outside : Nat
  inside : Nat
  fw : FwRun
  store : Option ClipStore
  clip : Option ClipRun
deriving DecidableEq, Repr, Inhabited

/-- An entry of an internal queue: a submission of firmware for the magazine of port `ns` − 1, or the pound. -/
structure IntCmd where
  op : Nat
  ns : Nat
  lba : Nat
  count : Nat
  src : List SrcPart
deriving DecidableEq, Repr, Inhabited

/-- How far a command has come (R336, R343): it waits for range locks or earlier commands, waits at its port, is at the
magazine or being served, waits for the completion arbiter, or was taken by it and waits for room in its CQ. -/
inductive RecPhase where
  | locked
  | atPort
  | active
  | ended
  | taken
deriving DecidableEq, Repr, Inhabited

/-- An admitted command (R333): tag, order of acceptance, queue (host SQ, or 64 + i for IQi), fields of Table 13.1, its
scatter list or source, sectors done and sectors sent or asked for, its status, INFO, first poisoned sector, sectors that
wait for their transfer to the host, the magazine's completion (status, DONE), TB_RAW since which the gate holds it, the
ABORT that waits for its end, and the magazine's answer to that. -/
structure RecCmd where
  tag : Nat
  seq : Nat
  queue : Nat
  cid : Nat
  op : Nat
  ns : Nat
  lba : Nat
  count : Nat
  arg : Nat
  sgl : List (Nat × Nat)
  src : List SrcPart
  ph : RecPhase
  done : Nat
  next : Nat
  status : Nat
  info : Nat
  poisoned : Option Nat
  buf : List (List Byte)
  magEnd : Option (Nat × Nat)
  heldRaw : Option Nat
  aborter : Option Nat
  answer : Option Nat
  got : List Byte
deriving DecidableEq, Repr, Inhabited

/-- The recorder queue: admitted commands, acceptances so far, completions that wait for the arbiter in order, fetched
entries per SQ, entries of the internal queues, the queue whose turn it is and the admissions left in it (R333), the
phase of each CQ, and WRITE commands refused during hold-up. -/
structure Recorder where
  cmds : List RecCmd
  accepted : Nat
  comp : List Nat
  fetched : List (List (List Byte))
  iqs : List (List IntCmd)
  turn : Nat
  credit : Nat
  phase : List Bool
  refused : Nat
deriving DecidableEq, Repr, Inhabited

/-- The take (R362 to R365): whether one is being opened, its member ports in stripe order, its recording ports, the
units written so far, SOF_TB of its first frame, whether it has ended, and whether RECORD is being left. -/
structure Take where
  opening : Bool
  members : List Nat
  ports : Nat
  units : Nat
  first : Option Nat
  ended : Bool
  leaving : Bool
deriving DecidableEq, Repr, Inhabited

/-! ## Thermal management, hold-up, reset and boot -/

/-- A temperature sensor or an input in mode 0x01 or 0x02 (R500, R506): its previous stored reading, whether it is
broken with the good rounds since, its latest valid readings, newest first, and its value when valid. -/
structure Sensor where
  prev : Option Rat
  broken : Bool
  good : Nat
  hist : List Rat
  val : Option Rat
deriving DecidableEq, Repr, Inhabited

/-- A state with dwell (R504): asserted, and consecutive rounds above its threshold and below its release. -/
structure Dwell where
  on : Bool
  above : Nat
  below : Nat
deriving DecidableEq, Repr, Inhabited

/-- The thermal unit (R496 to R511): channels 0 to 31; the dwell of WARN, THROTTLE, SHUTDOWN, RISE_WARN and RISE_TRIP,
and of the rails; consecutive rounds without a junction; the charge gate with its rounds within the opening window; the
restart timer in ms while it runs, TB_RAW of the shutdown; the hold's duration that EV 0x3C05 is to carry; and the period
in ms of the round in progress. -/
structure Thermal where
  sens : List Sensor
  dwell : List Dwell
  rails : List Dwell
  noJunction : Nat
  capOpen : Bool
  capGood : Nat
  holdMs : Option Nat
  holdRaw : Nat
  restartMs : Option Nat
  period : Nat
deriving DecidableEq, Repr, Inhabited

/-- Hold-up (R512 to R516, R528): TB_RAW of PWR_FAIL, whether EV 0x3C0A is logged, whether the input is restored, and
the reset cause held until then. Whether PWR_FAIL is posted is `Dev.holdup`. -/
structure PowerFail where
  raw : Nat
  done : Bool
  restored : Bool
  held : Option Nat
deriving DecidableEq, Repr, Inhabited

/-- The fuses (R536): the hashes of the four public keys, a revoke bit per key, and ROLLBACK_FUSED. They outlive every
reset. -/
structure Fuses where
  keys : List (List Byte)
  revoked : Nat
  rollback : Nat
deriving DecidableEq, Repr, Inhabited

/-- How far boot has come (R530, R533, R541): the ROM has not run, it waits for a push, firmware trains, or the device has
left BOOT. -/
inductive BootPhase where
  | rom
  | waiting
  | training
  | done
deriving DecidableEq, Repr, Inhabited

/-- Boot and the watchdogs (R530 to R541): the phase, the straps as sampled, the image that runs with its slot and
ROLLBACK, the push window with BOOT_PUSH_LEN and BOOT_PUSH_STATUS, TB_RAW from which the boot watchdog counts, the
VDD_ENG commanded in mV (0 before boot commands it), TB_RAW of that command while the regulator has not confirmed it,
whether it has confirmed one since the reset, TB_RAW of the latest reset request that was granted (R527), and the data lines and
clock in MHz with which the SPI NOR is read (R532). -/
structure Boot where
  phase : BootPhase
  straps : Nat
  slot : Nat
  version : Nat
  rollback : Nat
  window : List Host.Cell
  pushLen : Nat
  pushStatus : Nat
  wdtRaw : Nat
  vengSet : Nat
  vengRaw : Option Nat
  vengOk : Bool
  resetRaw : Option Nat
  norLines : Nat
  norMhz : Nat
deriving DecidableEq, Repr, Inhabited

/-! ## The block -/

/-- The kinds of thing the block puts out: the model's own record, so that what a command sends can be stated
(assumption 4). -/
inductive OutKind where
  | pin
  | sideband
  | refclk
  | twoWire
  | turad
  | ethernet
  | msix
  | pcie
  | magLink
  | video
  | finder
  | strobe
  | nor
  | dram
deriving DecidableEq, Repr, Inhabited

/-- One thing put out: its kind, the instance, a few numbers and the bytes sent. -/
structure Out where
  kind : OutKind
  inst : Nat
  info : List Nat
  data : List Byte
deriving DecidableEq, Repr, Inhabited

/-- A sparse memory in canonical form: addresses strictly rising and no zero byte listed; an address not listed reads
as 0 (Machine/Ops.lean, `Mem.wf`). -/
abbrev Mem := List Host.Cell

/-- A mode transition in progress (R37 to R40): TB_RAW from which its timeout counts, its cause, and the post number of
the EV 0x0203 that began it. MODE_TARGET is the entry; `before` are targets that it has replaced and whose conditions stay
pending (R38); `held` says that the shut-downs wait for the end of recording (Table 2.7, step 6). -/
structure Transition where
  raw : Nat
  cause : Nat
  ref : Nat
  before : List Nat
  held : Bool
deriving DecidableEq, Repr, Inhabited

/-- Everything the units hold, apart from the pound, the log and host memory. `forced` are the causes of forced
transitions that wait (R38); `workLo` and `workHi` bound the part of the pound that is allocated afresh at each mode
entry, beside rings that stay (assumption 30); `offRead` are the ranges of a held burst that have been read out. -/
structure Dev where
  regs : Regs
  changes : List (Nat × Nat)
  answer : Nat
  calibDirty : Bool
  sources : List Source
  posts : Nat
  free : Nat
  time : TimeBase
  units : List (UnitId × UnitState)
  forced : List Nat
  trans : Option Transition
  workLo : Nat
  workHi : Nat
  offRead : List (Nat × Nat)
  sen : List SenPort
  itk : List Intake
  seqr : List Sequencer
  enc : List Encoder
  scan : Scan
  brg : Barges
  fab : Fabric
  chArb : List ChanArb
  fb : FlatBuild
  views : List View
  amt : List AmtStream
  pools : List Pool
  hevc : List Hevc
  hevcQ : List PicTask
  engine : Option PicRun
  outs : List Output
  align : List Nat
  dram : Dram
  mags : List MagPort
  rcq : Recorder
  take : Take
  holdup : Bool
  therm : Thermal
  pwr : PowerFail
  fuses : Fuses
  boot : Boot
  tw : List TwBus
  ends : List Ending
  recEnds : List (Nat × Nat)
  ended : List FrameInfo
  recEnter : Option Nat
  recLeave : Option Nat
  recQ : List RecUnit
  twm : TwmTarget
  tpg : List Tpg
  net : Network
  ep : Endpoint
  srv : Service
  flash : Flash
  out : List Out
deriving DecidableEq, Repr

/-- The machine: the units, the event log, the pound with its poisoned lines, host memory as the block has written it,
and the commands that wait, first in first out. -/
structure State where
  dev : Dev
  arb : Arbiter
  mem : Mem
  poison : List Nat
  hostMem : Mem
  pending : List Instr
deriving DecidableEq, Repr

/-- The reasons a command ends in a fault. The block has none: every command of the table has an effect or none
(NOTES.md, Stops). -/
inductive Fault where
  /-- Raised by no command; the outcome type needs a reason (safe). -/
  | none
deriving DecidableEq, Repr

/-- The reasons a command is refused. -/
inductive Refusal where
  /-- A command whose meaning this model has not reached, by its mnemonic (safe: the machine stops). -/
  | notModelled (mnemonic : String)
deriving DecidableEq, Repr

/-! ## Reset -/

/-- A pattern checker at reset. -/
def Prbs.reset : Prbs := { locked := false, reg := [], good := 0, errs := [], seen := 0 }

/-- A receive lane at reset. -/
def Lane.reset : Lane := { prbs := Prbs.reset, seg := none, absent := 0, descr := 0, heads := [], dwelling := false, slips := 0, found := false }

/-- A sideband at reset: OFF. -/
def SbLane.reset : SbLane := { power := 0, goal := none, waking := false, sending := none, queue := [] }

/-- A sensor port at reset: lanes OFF, unaligned. -/
def SenPort.reset : SenPort :=
  { rx := 0, goal := none, waking := false, deferred := none, sb := List.replicate 2 SbLane.reset
    lanes := List.replicate 64 Lane.reset, step := .idle, armed := false, windowOpen := false, landed := []
    realigning := false, realignRaw := none, ckTo := none, trigSeq := 0, trigTb := none, nextLane := 0, packet := none
    gens := List.replicate 16 (List.replicate 31 true) }

/-- A front-end at reset: frame numbers from 0 (R12, R80). -/
def Intake.reset : Intake :=
  { run := 0, hasRing := false, frames := 0, head := none, rehead := false, asms := [], tail := none, slots := [], slotCount := 0
    stamp := 0, dropIdx := 0, parts := [], segs := [], last := []
    burst := { armed := false, base := 0, fired := none, trigFrame := none, stopped := false, complete := false, prevMean := none }
    stats := [], flatTable := 0 }

/-- A settings sequencer at reset. -/
def Sequencer.reset : Sequencer := { recs := [], gov := [], cur := [], nextUid := 1, stored := [] }

/-- An encoder at reset. -/
def Encoder.reset : Encoder :=
  { a := false, b := false, c := 0, indexed := false, p := 0, v := 0, e := 0, lockRun := 0, illegal := 0, errRaw := none }

/-- The scan unit at reset: idle. -/
def Scan.reset : Scan :=
  { live := false, forward := true, dirKnown := false, far := 0, start := 0, slot := 0, waitTurn := false, passes := 0
    taken := 0, cur := none, consumed := 0, stopping := none, lines := [], onChip := [], skips := 0, fireRaw := none
    darkLogged := false, clipLogged := false, syncIdx := 0, pulses := [] }

/-- The dispatcher and the weir at reset: estimates of Table 6.5, an empty bucket (assumption 31). -/
def Barges.reset : Barges :=
  { works := [], nextWork := 1, basins := List.replicate 8 [], backlog := [], running := List.replicate 64 none
    postSeq := 0, rr := 63, level := 0, est := [2883, 1441, 1441, 722, 2883].map (List.replicate 8), starved := false
    refused := false, refusedTicks := 0, ticks := 0, high := true, baseWin := [], bargeWin := [], bargeTick := 0
    goal := List.replicate 8 0, calm := 0, headroom := 1 }

/-- FLATBUILD at reset. -/
def FlatBuild.reset : FlatBuild :=
  { phase := 0, pass := 0, left := 0, last := 0, added := 0, sums := [], cands := [], clamped := 0, darkBase := 0, flatBase := 0 }

/-- A view at reset. -/
def View.reset : View :=
  { banks := [[], []], cur := 0, commit := none, closed := false, upLast := none, upIds := [], bufs := [], latest := none
    published := none, pubs := 0, pubRaw := none, prev := none, stamp := 0 }

/-- An Amtan stream at reset. -/
def AmtStream.reset : AmtStream :=
  { next := 0, sinceI := 0, lastFrame := none, geom := [], limits := none, force := false, pOn := false, interval := 0
    cost := [], base := 0, bytes := 0, regionCount := 0, regions := 0, offers := [], shown := none, old := [] }

/-- A pool that is not allocated. -/
def Pool.reset : Pool := { owner := 0, base := 0, bytes := 0, w := 0, h := 0, chroma := 0, depth := 0, bufs := [] }

/-- An HEVC stream at reset. -/
def Hevc.reset : Hevc :=
  { awaits := [], inputs := [], planned := [], rates := [], unread := [], hrd := none, ring := [], taken := 0, base := 0, pocBase := 0, anchor := none, irap := true, pubMark := 0
    count := 0, outs := [], proxy := [], aus := [], outQ := [], epoch := 0, last := none, recent := [], status := 0, busy := false
    published := 0, shown := none, old := [] }

/-- An output at reset. -/
def Output.reset : Output :=
  { k := none, reading := none, pub := none, seen := 0, base := 0, black := false, sending := false, good := 0, error := 0
    jumpRaw := none, present := false, sdi := 0, rd := false, rx := [] }

/-- A rank before training. -/
def Rank.reset : Rank := { st := 0, owed := 0, due := none, corrected := 0, logRaw := none }

/-- The DRAM controller before training. -/
def Dram.reset : Dram :=
  { training := false, map := 0, width := 0, density := 0, rate := 0, fitted := 0, mapped := []
    chans := List.replicate 12 { ranks := List.replicate 4 Rank.reset, order := [], mig := none, cool := 0 }, failed := 0 }

/-- A magazine port at reset: nothing known of a magazine. -/
def MagPort.reset : MagPort :=
  { scr := List.replicate 8 0, stripes := 0, aligns := 0, fecOn := false, told := 0
    gens := List.replicate 8 (List.replicate 31 true), packet := none, trains := List.replicate 8 0
    heard := List.replicate 8 false, theirs := false, settled := false
    present := false, supply := false, powerRaw := none
    link := { tx := 0, unacked := [], waiting := [], dataSent := 0, ctrlSent := 0, dataLimit := 0, ctrlLimit := 0
              opened := false, replayRaw := 0, rx := 0, owing := 0, nakOut := false, dataGot := 0, ctrlGot := 0
              dataStated := 0, ctrlStated := 0, ackDue := false, cause := 0, fails := 0, downRaw := none }
    lanes := List.replicate 8 Lane.reset, step := .idle, armed := false, windowOpen := false, landed := [], rate := 0
    fec := false, wantIdent := false, ready := false, own := [], exiting := false, idleRaw := 0, key := none
    keyHeld := none, mismatch := false, temp := none, tempAge := 0, outside := 0, inside := 0
    fw := { script := [], busy := false, results := [], timedOut := false }, store := none, clip := none }

/-- The recorder queue at reset. -/
def Recorder.reset : Recorder :=
  { cmds := [], accepted := 0, comp := [], fetched := List.replicate 64 [], iqs := List.replicate 16 [], turn := 79
    credit := 0, phase := List.replicate 64 true, refused := 0 }

/-- A take that is not open. -/
def Take.reset : Take := { opening := false, members := [], ports := 0, units := 0, first := none, ended := false, leaving := false }

/-- The thermal unit at reset: the charge gate is closed (assumption 32). -/
def Thermal.reset : Thermal :=
  { sens := List.replicate 32 { prev := none, broken := false, good := 0, hist := [], val := none }
    dwell := List.replicate 5 { on := false, above := 0, below := 0 }
    rails := List.replicate 15 { on := false, above := 0, below := 0 }
    noJunction := 0, capOpen := false, capGood := 0, holdMs := none, holdRaw := 0, restartMs := none, period := 1 }

/-- SHA-384 of the public key whose image the model's fuses accept: the P-384 test key of RFC 6979, A.2.6 (assumption
33). -/
def testKeyHash : List Byte :=
  [121, 65, 19, 242, 158, 221, 121, 107, 133, 223, 170, 222, 93, 112, 123, 227, 69, 55, 19, 131, 231, 186, 196, 133, 214, 46,
    219, 203, 211, 119, 186, 31, 221, 240, 161, 149, 75, 249, 173, 24, 151, 146, 173, 13, 135, 41, 158, 3]

/-- The fuses as the model has them (assumption 33). -/
def Fuses.reset : Fuses :=
  { keys := [testKeyHash, List.replicate 48 0, List.replicate 48 0, List.replicate 48 0], revoked := 0, rollback := 0 }

/-- Boot at the release of reset: the ROM has yet to run. -/
def Boot.reset : Boot :=
  { phase := .rom, straps := 0, slot := 0, version := 0, rollback := 0, window := [], pushLen := 0, pushStatus := 0
    wdtRaw := 0, vengSet := 0, vengRaw := none, vengOk := false
    resetRaw := none, norLines := 1, norMhz := 25 }

/-- A controller bus at reset: TWn_RST_N is low until firmware releases it (R479). -/
def TwBus.reset : TwBus :=
  { queue := [], run := none, clearing := none, busy := false, stuckAt := none, live := false, pulse := false, pulseAt := 0
    bootHold := true, waiting := none }

/-- The management target at reset, awake. -/
def TwmTarget.reset : TwmTarget :=
  { pointer := 0, status := 0, reqLen := 0, rspLen := 0, buf := [], asleep := false, wakeRaw := none
    lastRaw := none }

/-- A pulse generator at reset. -/
def Tpg.reset : Tpg :=
  { target := 0, period := 0, widthNs := 0, count := 0, mode := 0, route := 0, invert := false, used := 0, armRaw := 0
    late := false, pulse := none, idleHigh := false }

/-- The switch and the PTP servo at reset. -/
def Network.reset : Network :=
  { macs := [], best := none, good := 0, rtp := List.replicate 8 0, lease := 0, utc := 37 }

/-- The endpoint at reset: every vector masked, BAR 2 at 0 (Table 15.4). -/
def Endpoint.reset : Endpoint :=
  { mbxEnable := false, reqBase := 0, reqSize := 0, reqHead := 0, reqTail := 0, rspBase := 0, rspSize := 0, rspHead := 0
    rspTail := 0, requests := [], responses := [], latchTb := 0, latchRaw := 0, epochAtRead := 0, evtBase := 0, evtSize := 0
    evtHead := 0, evtTail := 0, evtDue := false, evtSignalRaw := none, window := 0
    msix := List.replicate 128 { addr := 0, data := 0, masked := true, pending := false }, d3hot := false }

/-- The dictionary service at reset. -/
def Service.reset : Service := { sessions := [], nonces := [], fails := [], save := none, savePending := false, copyInForce := none }

/-- A flash of the least size that R441 allows, erased (assumption 33). -/
def Flash.blank : Flash :=
  { sfdp := [0x53, 0x46, 0x44, 0x50, 0x06, 0x01, 0x00, 0xFF, 0x00, 0x06, 0x01, 0x02, 0x10, 0x00, 0x00, 0xFF,
             0xE5, 0x20, 0xF3, 0xFF, 0xFF, 0xFF, 0xFF, 0x1F]
    boot := [], slotA := [], slotB := [], bank0 := [], bank1 := [], copy0 := [], copy1 := [] }

/-- The units right after a power-on reset: every entry reads its default, and the mode is BOOT (R33, R34). -/
def Dev.reset : Dev :=
  { regs := [], changes := [], answer := 0, calibDirty := false
    sources := [], posts := 0, free := 0
    time := { raw := 0, prevTb := 0, prevEpoch := 0, armRaw := none }
    units := [], forced := [], trans := none, workLo := 0, workHi := 0, offRead := []
    sen := List.replicate 4 SenPort.reset, itk := List.replicate 4 Intake.reset, seqr := List.replicate 4 Sequencer.reset
    enc := List.replicate 4 Encoder.reset, scan := Scan.reset, brg := Barges.reset
    fab := { want := List.replicate 64 0, line := List.replicate 64 0, wait := List.replicate 64 0, weights := List.replicate 8 0
             last := List.replicate 8 7, grants := List.replicate 8 0, cluster := 7, left := 0, longest := 0 }
    chArb := List.replicate 12 { want := List.replicate 6 0, recent := [], rr := 5 }, fb := FlatBuild.reset
    views := List.replicate 4 View.reset, amt := List.replicate 8 AmtStream.reset, pools := List.replicate 8 Pool.reset
    hevc := List.replicate 8 Hevc.reset, hevcQ := [], engine := none, outs := List.replicate 8 Output.reset, align := []
    dram := Dram.reset, mags := List.replicate 4 MagPort.reset, rcq := Recorder.reset, take := Take.reset, holdup := false
    therm := Thermal.reset, pwr := { raw := 0, done := false, restored := false, held := none }, fuses := Fuses.reset
    boot := Boot.reset, tw := List.replicate 8 TwBus.reset, ends := [], recEnds := [], ended := [], recEnter := none
    recLeave := none, recQ := [], twm := TwmTarget.reset, tpg := List.replicate 16 Tpg.reset, net := Network.reset
    ep := Endpoint.reset, srv := Service.reset, flash := Flash.blank, out := [] }

/-- The machine right after a power-on reset: the log holds the reset record, which the arbiter makes itself (R22, R529,
R565), the pound and host memory list nothing, and no command waits. -/
def State.reset : State :=
  { dev := Dev.reset
    arb := { next := 1, depth := 65536, ring := [{ seq := 0, tb := 0, code := 0x0401, inst := 0xFFFF, arg0 := 0, arg1 := 0 }]
             missed := 0, waiting := [], seqOf := [] }
    mem := [], poison := [], hostMem := [], pending := [] }
end Sys2Proof.Machine
end

