-- ==== Sys2Proof/Machine/DramMap.lean ====
section
/-! DEFINITION. The address maps of the DRAM controller (R266, R274 to R276) and what the ranks do to a line of the
pound. -/

namespace Sys2Proof.Machine

/-- Device geometry (Table 11.1): bank bits beside the three bank-group bits, row bits, line-column bits. -/
structure Geometry where
  bank : Nat
  row : Nat
  col : Nat
deriving DecidableEq, Repr, Inhabited

/-- Table 11.1; none for a width and density it does not list. -/
def geometryOf (width density : Nat) : Option Geometry :=
  if width = 4 ∧ density = 8 then some ⟨1, 16, 6⟩
  else if width = 4 ∧ density = 16 then some ⟨2, 16, 6⟩
  else if width = 4 ∧ density = 32 then some ⟨2, 17, 6⟩
  else if width = 8 ∧ density = 16 then some ⟨2, 16, 5⟩
  else if width = 8 ∧ density = 32 then some ⟨2, 17, 5⟩
  else if width = 8 ∧ density = 64 then some ⟨2, 18, 5⟩
  else none

/-- Lines per rank. -/
def Geometry.lines (g : Geometry) : Nat := 2 ^ (g.bank + 3 + g.row + g.col)

/-- Channel `c`. -/
def Dram.chan (x : Dram) (c : Nat) : Chan := nth x.chans c

/-- Rank `r` of channel `c`. -/
def Dram.rank (x : Dram) (c r : Nat) : Rank := nth (x.chan c).ranks r

/-- Mapped ranks per channel (R266): those of the first mapped channel. -/
def Dram.perChannel (x : Dram) : Nat := match x.mapped with | [] => 0 | c :: _ => (x.chan c).order.length

/-- Bits of the rank field. -/
def rankBits (m : Nat) : Nat := if m = 4 then 2 else if m = 2 then 1 else 0

/-- Lines of the address space. -/
def Dram.lines (x : Dram) : Nat :=
  match geometryOf x.width x.density with
  | none => 0
  | some g => x.mapped.length * x.perChannel * g.lines

/-- MAPPED_BYTES (R266). -/
def Dram.bytes (x : Dram) : Nat := x.lines * 256

/-- Where a line lies (R274 to R276): channel, rank, rank-local line, row, device bank group, device bank, line column. -/
structure LinePlace where
  chan : Nat
  rank : Nat
  idx : Nat
  row : Nat
  group : Nat
  bank : Nat
  col : Nat
deriving DecidableEq, Repr, Inhabited

/-- Position among the mapped channels and channel-local line of line `l` (R274). -/
def Dram.split (x : Dram) (l : Nat) : Nat × Nat :=
  let n := x.mapped.length
  if x.map = 3 then ((l / 16) % n, ((l / 16) / n) * 16 + l % 16) else (l % n, l / n)

/-- The place of line `l` of the address space; none at or above MAPPED_BYTES. -/
def Dram.place (x : Dram) (l : Nat) : Option LinePlace :=
  match geometryOf x.width x.density with
  | none => none
  | some g =>
    if x.lines ≤ l then none
    else
      let p := x.split l
      let c := nth x.mapped p.1
      let cl := p.2
      let k := rankBits x.perChannel
      let col := cl % 2 ^ g.col
      let bank := (cl / 2 ^ g.col) % 2 ^ g.bank
      let grp := (cl / 2 ^ (g.col + g.bank)) % 8
      let up := cl / 2 ^ (g.col + g.bank + 3)
      let field := if x.map = 2 then up / 2 ^ g.row else up % 2 ^ k
      let row := if x.map = 2 then up % 2 ^ g.row else up / 2 ^ k
      let hash := x.map = 1 || x.map = 3
      some
        { chan := c, rank := nth (x.chan c).order field
          idx := row * 2 ^ (g.col + g.bank + 3) + cl % 2 ^ (g.col + g.bank + 3)
          row := row
          group := if hash then Nat.xor grp (row % 8) else grp
          bank := if hash then Nat.xor bank ((row / 8) % 2 ^ g.bank) else bank
          col := col }

/-- The line of the address space at a rank-local line; none when the rank holds no addresses. -/
def Dram.lineOf (x : Dram) (c r idx : Nat) : Option Nat :=
  match geometryOf x.width x.density with
  | none => none
  | some g =>
    if !(x.mapped.contains c) || !((x.chan c).order.contains r) || decide (g.lines ≤ idx) then none
    else
      let k := rankBits x.perChannel
      let field := (x.chan c).order.findIdx (· == r)
      let low := g.col + g.bank + 3
      let row := idx / 2 ^ low
      let cl :=
        if x.map = 2 then (field * 2 ^ g.row + row) * 2 ^ low + idx % 2 ^ low
        else (row * 2 ^ k + field) * 2 ^ low + idx % 2 ^ low
      let n := x.mapped.length
      let i := x.mapped.findIdx (· == c)
      some (if x.map = 3 then ((cl / 16) * n + i) * 16 + cl % 16 else cl * n + i)

/-- A rank that holds addresses is lost (R290). -/
def Dram.anyLost (x : Dram) : Bool := x.mapped.any (fun c => (x.chan c).order.any (fun r => (x.rank c r).st == 6))

/-- The line lies in a lost rank: reads answer POISON and writes are discarded (R290). -/
def Dram.lost (x : Dram) (l : Nat) : Bool :=
  x.anyLost && (match x.place l with | some p => (x.rank p.chan p.rank).st == 6 | none => false)

/-- The lines touched by `n` bytes from address `a`. -/
def linesOf (a n : Nat) : List Nat := if n = 0 then [] else List.range' (a / 256) ((a + n - 1) / 256 + 1 - a / 256)

/-- A write to a line marks it dirty in a migration of its rank that has not copied it (R287). -/
def Dram.dirty (x : Dram) (l : Nat) : Dram :=
  match x.place l with
  | none => x
  | some p =>
    { x with chans := x.chans.modify p.chan (fun ch =>
        { ch with mig := ch.mig.map (fun m =>
            if m.src = p.rank && decide (m.mark ≤ p.idx) && !(m.dirty.contains p.idx)
            then { m with dirty := p.idx :: m.dirty } else m) }) }

/-- A migration runs. -/
def Dram.migrating (x : Dram) : Bool := x.chans.any (fun ch => ch.mig.isSome)

end Sys2Proof.Machine
end

