-- ==== Sys2Proof/Machine/Ops.lean ====
section
/-! DEFINITION. The named operations every command uses: memory, the dictionary store, device time, posting events to
their sources (R22 to R26, R565), units, modes and ordering codes. -/

namespace Sys2Proof.Machine

/-! ## Sparse memory -/

/-- The byte at an address; 0 where nothing is listed. -/
def Mem.read : Mem → Nat → Byte
  | [], _ => 0
  | (b, v) :: m, a => if b = a then v else Mem.read m a

/-- One byte written, keeping the canonical form. -/
def Mem.write : Mem → Nat → Byte → Mem
  | [], a, v => if v = 0 then [] else [(a, v)]
  | (b, w) :: m, a, v =>
    if a < b then (if v = 0 then (b, w) :: m else (a, v) :: (b, w) :: m)
    else if a = b then (if v = 0 then m else (a, v) :: m)
    else (b, w) :: Mem.write m a v

/-- The bytes of `bs` written from address `a` upward. -/
def Mem.writeBytes (m : Mem) (a : Nat) : List Byte → Mem
  | [] => m
  | b :: bs => Mem.writeBytes (Mem.write m a b) (a + 1) bs

/-- `n` bytes from address `a` upward. -/
def Mem.readBytes (m : Mem) (a : Nat) : Nat → List Byte
  | 0 => []
  | n + 1 => Mem.read m a :: Mem.readBytes m (a + 1) n

/-- Every listed address is above `lo`, addresses rise strictly, and no listed byte is 0. -/
def Mem.wfFrom (lo : Option Nat) : Mem → Bool
  | [] => true
  | (a, v) :: m =>
    (match lo with | none => true | some l => decide (l < a)) && decide (v ≠ 0) && Mem.wfFrom (some a) m

/-- The canonical form of a sparse memory. -/
def Mem.wf (m : Mem) : Bool := Mem.wfFrom none m

/-! ## The pound (R265: 256-byte lines) -/

/-- The lines wholly covered by `n` bytes from `a`: their poison is cleared by the write (R271). -/
def wholeLine (a n l : Nat) : Bool := decide (a ≤ l * 256) && decide (l * 256 + 256 ≤ a + n)

/-- A write of bytes to the pound: bytes of a lost rank are discarded (R290), a line wholly written loses its poison
(R271), and a line of a rank that is being copied becomes dirty (R287). -/
def poundWrite (a : Nat) (bs : List Byte) (s : State) : State :=
  let x := s.dev.dram
  { s with
    mem := if x.anyLost then
        (bs.zipIdx).foldl (fun m p => if x.lost ((a + p.2) / 256) then m else m.write (a + p.2) p.1) s.mem
      else s.mem.writeBytes a bs
    poison := s.poison.filter (fun l => !(wholeLine a bs.length l))
    dev := { s.dev with dram := if x.migrating then (linesOf a bs.length).foldl Dram.dirty x else x } }

/-- A read of the line answers POISON (R271, R290). -/
def linePoisoned (s : State) (l : Nat) : Bool := s.poison.contains l || s.dev.dram.lost l

/-- A read of the pound: the bytes, zero where their line is poisoned, and whether any line touched is (R271). -/
def poundRead (a n : Nat) (s : State) : List Byte × Bool :=
  let bs := s.mem.readBytes a n
  if s.poison.isEmpty && !s.dev.dram.anyLost then (bs, false)
  else
    let bad := (linesOf a n).filter (linePoisoned s)
    (if bad.isEmpty then bs else bs.zipIdx.map (fun p => if bad.contains ((a + p.2) / 256) then 0 else p.1), !bad.isEmpty)

/-- Where firmware's 16 GiB at the top of the pound begin. -/
def Dev.reserveBase (d : Dev) : Nat := d.dram.bytes - 2 ^ 34

/-- Where the strobe pattern table stands in them (R466, assumption 30). -/
def Dev.patternBase (d : Dev) : Nat := d.reserveBase

/-! ## The dictionary store -/

/-- The value stored for a key, if any. -/
def Regs.find : Regs → Nat → Option Val
  | [], _ => none
  | (j, v) :: r, k => if j = k then some v else Regs.find r k

/-- The store with the value of a key replaced. -/
def Regs.put : Regs → Nat → Val → Regs
  | [], k, v => [(k, v)]
  | (j, w) :: r, k, v => if j = k then (k, v) :: r else (j, w) :: Regs.put r k v

/-- The value of an entry: as stored, else its default (R418). -/
def Dev.val (d : Dev) (k : Nat) : Val := (d.regs.find k).getD (defaultVal k)

/-- The value of a numeric entry. -/
def Dev.get (d : Dev) (k : Nat) : Nat :=
  match d.val k with
  | .num n => n
  | .bytes _ => 0

/-- The value of a STR or BLOB entry. -/
def Dev.bytes (d : Dev) (k : Nat) : List Byte :=
  match d.val k with
  | .num _ => []
  | .bytes b => b

/-- A BOOL entry. -/
def Dev.flag (d : Dev) (k : Nat) : Bool := d.get k != 0

/-- An entry set to a number. -/
def setN (k v : Nat) (d : Dev) : Dev := { d with regs := d.regs.put k (.num v) }

/-- An entry set to bytes. -/
def setB (k : Nat) (b : List Byte) (d : Dev) : Dev := { d with regs := d.regs.put k (.bytes b) }

/-- An entry set to a value. -/
def setV (k : Nat) (v : Val) (d : Dev) : Dev := { d with regs := d.regs.put k v }

/-- A counter entry of `w` bits increased by `n`, wrapping. -/
def addW (w k n : Nat) (d : Dev) : Dev := setN k ((d.get k + n) % 2 ^ w) d

/-- A U64 counter entry increased by 1. -/
def inc64 (k : Nat) (d : Dev) : Dev := addW 64 k 1 d

/-- A U32 counter entry increased by 1. -/
def inc32 (k : Nat) (d : Dev) : Dev := addW 32 k 1 d

/-! ## Device time (R391) -/

/-- TB formed from a raw count with the values applied. -/
def tbAt (d : Dev) (raw : Nat) : Nat :=
  let diff := (raw + 2 ^ 64 - d.get Reg.tb_TB_ANCHOR % 2 ^ 64) % 2 ^ 64
  (d.get Reg.tb_TB_OFFSET + (diff * d.get Reg.tb_TB_RATE) / 2 ^ 32) % 2 ^ 64

/-- Device time now. -/
def tbNow (d : Dev) : Nat := tbAt d d.time.raw

/-- The signed 64-bit difference a − b of two TB values (R397). -/
def tbDiff (a b : Nat) : Int := toInt 64 ((a + 2 ^ 64 - b % 2 ^ 64) % 2 ^ 64)

/-- A target is due or past at `now` (R397). -/
def tbDue (target now : Nat) : Bool := decide (tbDiff target now ≤ 0)

/-- P of R394: PTP time in ns since the epoch. -/
def ptpNs (epoch tb : Nat) : Nat := epoch * 2 ^ 48 + tb / 2 ^ 16

/-- CLK_FAB cycles in a number of nanoseconds, rounded up (1.2 GHz). -/
def cyclesOfNs (ns : Nat) : Nat := ceilDiv (ns * 12) 10

/-- Whole microseconds in a number of CLK_FAB cycles. -/
def usOfCycles (n : Nat) : Nat := n / 1200

/-! ## Events -/

/-- The kept events of R565. -/
def isKept (code : Nat) : Bool :=
  code == 0x0101 || code == 0x0201 || code == 0x0203 ||
  code == 0x0C01 || code == 0x0D01 || code == 0x0E01 || code == 0x0F01

/-- The SOF events of the front-ends. -/
def isSof (code : Nat) : Bool := code == 0x0C01 || code == 0x0D01 || code == 0x0E01 || code == 0x0F01

/-- A source that has posted nothing. -/
def Source.empty (hi inst : Nat) : Source :=
  { hi := hi, inst := inst, queue := [], losing := false, lost := 0, first := 0, due := none }

/-- The queue without its youngest entry that is not kept, if it has one. -/
def dropYoungest : List Event → List Event
  | [] => []
  | e :: q => if q.all (fun x => isKept x.code) then (if isKept e.code then e :: q else q) else e :: dropYoungest q

/-- A lost event counted; the first of a phase names its code (R26). -/
def Source.lose (src : Source) (code : Nat) : Source :=
  { src with losing := true, lost := src.lost + 1, first := if src.lost = 0 then code else src.first }

/-- One event entering its source's queue (R23, R26, R565). Firmware posts its kept events only when the queue has room
(`makeRoom`). -/
def Source.push (src : Source) (e : Event) : Source :=
  if isSof e.code then
    if src.queue.length < 16 then { src with queue := src.queue ++ [e] }
    else
      let q := dropYoungest src.queue
      let src' := if q.length < src.queue.length then
          (match src.queue.reverse.find? (fun x => !isKept x.code) with
           | some x => src.lose x.code
           | none => src)
        else src
      { src' with queue := q ++ [e] }
  else if isKept e.code then { src with queue := src.queue ++ [e] }
  else if src.losing || decide (16 ≤ src.queue.length) then src.lose e.code
  else { src with queue := src.queue ++ [e] }

/-- The sources with the one of (hi, inst) replaced by its image under `f`. -/
def updSource (hi inst : Nat) (f : Source → Source) : List Source → List Source
  | [] => [f (Source.empty hi inst)]
  | x :: xs => if x.hi = hi ∧ x.inst = inst then f x :: xs else x :: updSource hi inst f xs

/-- The source named by CODE[15:8] and INSTANCE. -/
def Dev.source (d : Dev) (hi inst : Nat) : Source :=
  (d.sources.find? (fun x => x.hi == hi && x.inst == inst)).getD (Source.empty hi inst)

/-- An event posted with ARG1 taken from the SEQ of the event `ref`, when given. -/
def postRef (code inst arg0 arg1 : Nat) (ref : Option Nat) (d : Dev) : Dev :=
  let e : Event :=
    { code := code, inst := inst, arg0 := arg0 % 2 ^ 32, arg1 := arg1 % 2 ^ 32, tb := tbNow d, cycle := d.time.raw,
      id := d.posts, ref := ref }
  { d with sources := updSource (code / 256) inst (fun x => x.push e) d.sources, posts := d.posts + 1 }

/-- An event posted by its source: it carries TB of this cycle (R22) and enters the source's queue (R23). -/
def post (code inst arg0 arg1 : Nat) (d : Dev) : Dev := postRef code inst arg0 arg1 none d

/-- Something the block puts out. -/
def emit (kind : OutKind) (inst : Nat) (info : List Nat) (data : List Byte) (d : Dev) : Dev :=
  { d with out := d.out ++ [{ kind := kind, inst := inst, info := info, data := data }] }

/-- A fresh draw of the model's free-value counter. -/
def draw (d : Dev) : Nat × Dev := (d.free, { d with free := d.free + 1 })

/-! ## Units and modes -/

/-- Mode codes of Table 2.1. -/
abbrev mBOOT : Nat := 0x01
abbrev mSTANDBY : Nat := 0x02
abbrev mCONFIGURE : Nat := 0x03
abbrev mPREVIEW : Nat := 0x04
abbrev mRECORD : Nat := 0x05
abbrev mBURST : Nat := 0x06
abbrev mSCAN : Nat := 0x07
abbrev mOFFLOAD : Nat := 0x08
abbrev mPLAYBACK : Nat := 0x09
abbrev mCALIBRATE : Nat := 0x0A
abbrev mSERVICE : Nat := 0x0B
abbrev mTHERMAL : Nat := 0x0C

/-- MODE_CURRENT. -/
def Dev.mode (d : Dev) : Nat := d.get Reg.mode_MODE_CURRENT
/-- MODE_TARGET; 0x00 when no transition is in progress. -/
def Dev.target (d : Dev) : Nat := d.get Reg.mode_MODE_TARGET

/-- The capture modes (R33). -/
def captureMode (m : Nat) : Bool := m == mPREVIEW || m == mRECORD || m == mBURST || m == mSCAN || m == mCALIBRATE

/-- A unit's sequence state; off when nothing has started it. -/
def Dev.unit (d : Dev) (u : UnitId) : UnitState :=
  ((d.units.find? (fun x => x.1 == u)).map (·.2)).getD { phase := .off, pendingDisable := false, deferred := none }

/-- The list with the state of a unit replaced. -/
def putUnit (u : UnitId) (st : UnitState) : List (UnitId × UnitState) → List (UnitId × UnitState)
  | [] => [(u, st)]
  | x :: xs => if x.1 = u then (u, st) :: xs else x :: putUnit u st xs

/-- A unit's sequence state set. -/
def setUnit (u : UnitId) (st : UnitState) (d : Dev) : Dev := { d with units := putUnit u st d.units }

/-- The unit runs. -/
def Dev.runs (d : Dev) (u : UnitId) : Bool := decide ((d.unit u).phase = .running)

/-! ## Ordering codes (R2, R3) -/

/-- The device's DEVICE_ID, which names its ordering code (R5). -/
def Dev.code (d : Dev) : Nat := d.get Reg.idn_DEVICE_ID

/-- Sensor ports provided (Table 0.1). -/
def Dev.nPorts (d : Dev) : Nat := if d.code = 0x9600 then 4 else if d.code = 0x9400 then 2 else 1
/-- Clusters provided. -/
def Dev.nClusters (d : Dev) : Nat := if d.code = 0x9600 then 8 else if d.code = 0x9400 then 6 else 4
/-- Magazine ports provided. -/
def Dev.nMags (d : Dev) : Nat := if d.code = 0x9600 then 4 else 2
/-- A DRAM channel is provided. -/
def Dev.hasChannel (d : Dev) (c : Nat) : Bool :=
  if d.code = 0x9600 then decide (c < 12)
  else if d.code = 0x9400 then decide (c < 4) || (decide (6 ≤ c) && decide (c < 10))
  else decide (c < 3) || (decide (6 ≤ c) && decide (c < 9))
/-- The HEVC engine decodes. -/
def Dev.hasDecode (d : Dev) : Bool := d.code != 0x9200
/-- The scan and strobe unit is provided. -/
def Dev.hasScan (d : Dev) : Bool := d.code != 0x9200

/-- The index belongs to a unit absent from the ordering code (R3). -/
def Dev.absentIndex (d : Dev) (idx : Nat) : Bool :=
  if 0x0800 ≤ idx ∧ idx < 0x0C00 then decide (d.nPorts ≤ (idx - 0x0800) / 0x100)
  else if 0x0C00 ≤ idx ∧ idx < 0x1000 then decide (d.nPorts ≤ (idx - 0x0C00) / 0x100)
  else if 0x1000 ≤ idx ∧ idx < 0x1100 then decide (d.nPorts ≤ (idx - 0x1000) / 0x40)
  else if 0x1100 ≤ idx ∧ idx < 0x1104 then decide (d.nPorts ≤ idx - 0x1100)
  else if 0x1200 ≤ idx ∧ idx < 0x1240 then decide (d.nPorts ≤ (idx - 0x1200) / 0x10)
  else if 0x1405 ≤ idx ∧ idx < 0x1409 then decide (d.nPorts ≤ idx - 0x1405)
  else if 0x2410 ≤ idx ∧ idx < 0x241C then !(d.hasChannel (idx - 0x2410))
  else if 0x2810 ≤ idx ∧ idx < 0x2890 then decide (d.nMags ≤ (idx - 0x2810) / 0x20)
  else if 0x2A10 ≤ idx ∧ idx < 0x2A14 then decide (d.nMags ≤ idx - 0x2A10)
  else if 0x3400 ≤ idx ∧ idx < 0x3500 then !d.hasScan
  else false

/-- The decode entries of the HEVC engine (R246): DEC_LOAD_GPXS, and of each stream DEC_MAX_WIDTH, DEC_MAX_HEIGHT,
WATCHDOG_MULT, CONCEALED_CTUS and MISSING_REF_COUNT. -/
def isDecodeEntry (k : Nat) : Bool :=
  k == Reg.hevg_DEC_LOAD_GPXS ||
    (decide (0x1E10 ≤ k / 256) && decide (k / 256 < 0x1E18) && decide (0x1E ≤ k % 256) && decide (k % 256 ≤ 0x22))

/-- The entry belongs to a unit absent from the ordering code (R3, R228, R246). -/
def Dev.absent (d : Dev) (k : Nat) : Bool := d.absentIndex (k / 256) || (!d.hasDecode && isDecodeEntry k)

/-! ## Small changes -/

/-- A change of the units alone. -/
def onDev (f : Dev → Dev) (s : State) : State := { s with dev := f s.dev }

/-- Element `i` of a list of records changed by `f`. -/
def updAt {α : Type} (i : Nat) (f : α → α) (l : List α) : List α := l.modify i f

end Sys2Proof.Machine
end

