-- ==== Sys2Proof/Machine/Arbiters.lean ====
section
/-! DEFINITION. The arbiters through which requests reach DRAM (R141, R142, R144, R289): the cluster arbiters, the fabric
arbiter and the channel arbiters. -/

namespace Sys2Proof.Machine

/-! ## The fabric (R141) -/

/-- Barges of cluster `c` with a request outstanding. -/
def Fabric.waiting (f : Fabric) (c : Nat) : Nat := ((List.range 8).filter (fun b => nth f.want (8 * c + b) != 0)).length

/-- The sample of every 64 cycles. -/
def Fabric.sample (f : Fabric) : Fabric := { f with weights := (List.range 8).map f.waiting }

/-- The grants in a row that a cluster gets in a round: its weight, where one sampled at 0 has weight 1; or one, in plain
round-robin (R141, R144). -/
def Fabric.turn (plain : Bool) (f : Fabric) (c : Nat) : Nat := if plain then 1 else max 1 (nth f.weights c)

/-- The cluster that gets the next grant, with the grants left to it after this one: the cluster being served as long as its
turn lasts, then the next in ascending order that has a request. -/
def Fabric.pick (plain : Bool) (f : Fabric) : Option (Nat × Nat) :=
  if 0 < f.left && 0 < f.waiting f.cluster then some (f.cluster, f.left - 1)
  else (((List.range 8).map (fun k => (f.cluster + 1 + k) % 8)).find? (fun c => 0 < f.waiting c)).map
    (fun c => (c, f.turn plain c - 1))

/-- The barge that its cluster's arbiter serves, round-robin. -/
def Fabric.bargeOf (f : Fabric) (c : Nat) : Option Nat :=
  ((List.range 8).map (fun k => 8 * c + (nth f.last c + 1 + k) % 8)).find? (fun b => nth f.want b != 0)

/-- Barge `b` of cluster `c` is granted one request: every other barge with a request has waited one grant more. -/
def Fabric.grant (c left b : Nat) (f : Fabric) : Fabric :=
  { f with
    want := f.want.modify b (· - 1), line := f.line.modify b (· + 1), cluster := c, left := left
    last := f.last.set c (b % 8), grants := f.grants.modify c (fun n => (n + 1) % 2 ^ 64)
    longest := max f.longest (nth f.wait b)
    wait := f.wait.zipIdx.map (fun x => if x.2 = b ∨ nth f.want x.2 = 0 then 0 else x.1 + 1) }

/-! ## A channel (R142, R289) -/

/-- The commands of the latest 99 that a class had. -/
def ChanArb.used (x : ChanArb) (k : Nat) : Nat := (x.recent.filter (· == k)).length

/-- A class has requests and less than its share of the latest 99 commands, so that this one keeps its share of the window of
100 that it ends. While a migrator runs on the channel it has 2 of 100, and the shares are of the other 98 (R289). -/
def ChanArb.owed (shares : List Nat) (mig : Bool) (x : ChanArb) (k : Nat) : Bool :=
  nth x.want k != 0 &&
    (if k = 5 then mig && decide (x.used 5 < 2)
     else if mig then decide (100 * x.used k < 98 * nth shares k) else decide (x.used k < nth shares k))

/-- The class of the next command: round-robin among those to which it is owed, else among those with requests, the migrator
last; in plain round-robin among all with requests (R142, R144). -/
def ChanArb.pick (plain mig : Bool) (shares : List Nat) (x : ChanArb) : Option Nat :=
  let l := (List.range 6).map (fun k => (x.rr + 1 + k) % 6)
  match (if plain then none else l.find? (x.owed shares mig)) with
  | some k => some k
  | none => match l.find? (fun k => k != 5 && nth x.want k != 0) with
    | some k => some k
    | none => if nth x.want 5 != 0 then some 5 else none

/-- One command of a channel. -/
def ChanArb.command (plain mig : Bool) (shares : List Nat) (x : ChanArb) : ChanArb :=
  match x.pick plain mig shares with
  | none => x
  | some k => { want := x.want.modify k (· - 1), recent := (k :: x.recent).take 99, rr := k }

/-! ## Requests -/

/-- Requester classes of a channel, in the order of CHANNEL_SHARES. -/
abbrev rqIntake : Nat := 0
abbrev rqFabric : Nat := 1
abbrev rqMagazine : Nat := 2
abbrev rqHevc : Nat := 3
abbrev rqPcie : Nat := 4
abbrev rqMigrator : Nat := 5

/-- Channel `c` gets a request of a class. -/
def chanAsk (k c : Nat) (d : Dev) : Dev :=
  { d with chArb := d.chArb.modify c (fun x => { x with want := x.want.modify k (· + 1) }) }

/-- A request for line `l`, at the channel that holds it (R274). -/
def lineAsk (k l : Nat) (d : Dev) : Dev :=
  match d.dram.place l with
  | some p => chanAsk k p.chan d
  | none => d

/-- Requests for the lines of `n` bytes from address `a`. -/
def poundAsk (k a n : Nat) (d : Dev) : Dev := (linesOf a n).foldl (fun e l => lineAsk k l e) d

/-- Barge `b` raises `n` requests, the first for line `l` (assumption 120). -/
def fabricAsk (b l n : Nat) (d : Dev) : Dev :=
  { d with fab := { d.fab with want := d.fab.want.set b n, line := d.fab.line.set b l, wait := d.fab.wait.set b 0 } }

/-- The job of barge `b` is complete: what the fabric had not yet granted of its requests counts as granted. -/
def fabricEnd (b : Nat) (d : Dev) : Dev :=
  let n := nth d.fab.want b
  { d with fab := { d.fab with
      want := d.fab.want.set b 0, wait := d.fab.wait.set b 0
      grants := d.fab.grants.modify (b / 8) (fun g => (g + n) % 2 ^ 64) } }

/-! ## A cycle -/

/-- One grant of the fabric arbiter, and the request at its channel. -/
def fabricCycle (d : Dev) : Dev :=
  let f := if d.time.raw % 64 = 0 then d.fab.sample else d.fab
  match f.pick (d.get Reg.fab_ARB_MODE != 0) with
  | none => { d with fab := f }
  | some (c, left) =>
    match f.bargeOf c with
    | none => { d with fab := f }
    | some b => lineAsk rqFabric (nth f.line b) { d with fab := f.grant c left b }

/-- One command of every channel (assumption 121). -/
def channelCycle (d : Dev) : Dev :=
  let shares := (d.bytes Reg.fab_CHANNEL_SHARES).map (·.toNat)
  { d with chArb := d.chArb.zipIdx.map (fun x =>
      x.1.command (d.get Reg.fab_ARB_MODE == 2) (d.dram.chan x.2).mig.isSome shares) }

end Sys2Proof.Machine
end

