-- ==== Sys2Proof/Machine/LineCode.lean ====
section
/-! DEFINITION. Line codings: 8b/10b code groups (R59, R258; IEEE 802.3 Clause 36) and the blocks of the stripe link with
their descrambler (R53; IEEE 802.3 Clause 49). -/

namespace Sys2Proof.Machine

/-! ## 8b/10b -/

/-- What a code group carries: a data octet, or one of the control code groups in use. -/
inductive Octet where
  | data (b : Byte)
  | idle
  | start
  | stop
deriving DecidableEq, Repr

/-- abcdei of D.0 to D.31 for negative running disparity, a first. -/
def code5b6b : List Nat :=
  [0b100111, 0b011101, 0b101101, 0b110001, 0b110101, 0b101001, 0b011001, 0b111000] ++
  [0b111001, 0b100101, 0b010101, 0b110100, 0b001101, 0b101100, 0b011100, 0b010111] ++
  [0b011011, 0b100011, 0b010011, 0b110010, 0b001011, 0b101010, 0b011010, 0b111010] ++
  [0b110011, 0b100110, 0b010110, 0b110110, 0b001110, 0b101110, 0b011110, 0b101011]

/-- fghj of D.x.0 to D.x.7 for negative running disparity, f first. -/
def code3b4b : List Nat := [0b1011, 0b1001, 0b0101, 0b1100, 0b1101, 0b1010, 0b0110, 0b1110]

/-- The ones among the low `n` bits. -/
def onesOf (n v : Nat) : Nat := sumN ((List.range n).map (fun i => bit v i))

/-- A sub-block of `n` bits sent at a running disparity, positive when true: a code that is not balanced, or is one of the two
balanced pairs, is complemented at positive disparity; one that is not balanced changes the disparity. -/
def subBlock (n code : Nat) (paired rd : Bool) : Nat × Bool :=
  let even := decide (2 * onesOf n code = n)
  (if rd && (!even || paired) then 2 ^ n - 1 - code else code, if even then rd else !rd)

/-- The code group of a data octet, a its most significant bit. D.x.A7 stands in for D.x.P7 where a run of five would
arise. -/
def dataGroup (b : Nat) (rd : Bool) : Nat × Bool :=
  let x := b % 32
  let y := b / 32
  let six := subBlock 6 (code5b6b.getD x 0) (x == 7) rd
  let alt := y == 7 && (if six.2 then x == 11 || x == 13 || x == 14 else x == 17 || x == 18 || x == 20)
  let four := subBlock 4 (if alt then 0b0111 else code3b4b.getD y 0) (y == 3) six.2
  (six.1 * 16 + four.1, four.2)

/-- A control code group: K28.5 changes the disparity, K27.7 and K29.7 do not. -/
def Octet.group (o : Octet) (rd : Bool) : Nat × Bool :=
  match o with
  | .data b => dataGroup b.toNat rd
  | .idle => (if rd then 0b1100000101 else 0b0011111010, !rd)
  | .start => (if rd then 0b0010010111 else 0b1101101000, rd)
  | .stop => (if rd then 0b0100010111 else 0b1011101000, rd)

/-- The code groups of a run of octets from a running disparity. -/
def codeGroups : List Octet → Bool → List Nat
  | [], _ => []
  | o :: os, rd => (o.group rd).1 :: codeGroups os (o.group rd).2

/-- The running disparity after a run of octets. -/
def disparityAfter : List Octet → Bool → Bool
  | [], rd => rd
  | o :: os, rd => disparityAfter os (o.group rd).2

/-- A frame of octets between K27.7 and K29.7. -/
def framed (b : List Byte) : List Octet := .start :: b.map .data ++ [.stop]

/-! ## Blocks of the stripe link -/

/-- A block as its header and type say: 8 data bytes, a control block of Table 3.2, or invalid. -/
inductive StripeBlock where
  | data (b : List Byte)
  | idle
  | start
  | term
  | align (lane count : Nat)
  | invalid
deriving DecidableEq, Repr

/-- The payload descrambled by x^58 + x^39 + 1, bit 0 first: `reg` holds the 58 bits received before, the latest in bit 57. -/
def descramble (reg payload : Nat) : Nat × Nat :=
  let z := reg + payload * 2 ^ 58
  (Nat.xor (Nat.xor payload (z / 2 ^ 19 % 2 ^ 64)) (z % 2 ^ 64), z / 2 ^ 64 % 2 ^ 58)

/-- A block of a sync header and a descrambled payload (R53, Table 3.2). -/
def blockOf (header payload : Nat) : StripeBlock :=
  let b := leBytes 8 payload
  if header = 1 then .data b
  else if header = 2 then
    (match payload % 256 with
     | 0x1E => .idle
     | 0x78 => .start
     | 0x87 => .term
     | 0x4B => .align (rdLe b 1 1) (rdLe b 2 4)
     | _ => .invalid)
  else .invalid

end Sys2Proof.Machine
end

