-- ==== Sys2Proof/Machine/Events.lean ====
section
/-! DEFINITION. The event arbiter: numbering (R22, R23), the log (R24), the host copy (R25, R379), loss (R26), delivery
to Turad subscriptions (R432), and message-signalled interrupts (R380). -/

namespace Sys2Proof.Machine

/-! ## Interrupt messages -/

/-- A cause of vector `v`: one message, or the pending bit while the vector is masked or the endpoint is in D3hot
(R380, R384). -/
def signal (v : Nat) (d : Dev) : Dev :=
  let e := nth d.ep.msix v
  if e.masked || d.ep.d3hot then
    { d with ep := { d.ep with msix := updAt v (fun x => { x with pending := true }) d.ep.msix } }
  else emit .msix v [e.addr, e.data] [] d

/-! ## Records -/

/-- A record as 32 bytes (Table 1.3). -/
def LogRecord.bytes (r : LogRecord) : List Byte :=
  leBytes 8 r.seq ++ leBytes 8 r.tb ++ leBytes 2 r.code ++ leBytes 2 r.inst ++ leBytes 4 r.arg0 ++ leBytes 4 r.arg1 ++
    zeros 4

/-- The host ring is full: advancing EVT_HEAD would make it equal to EVT_TAIL (R25). -/
def Endpoint.evtFull (e : Endpoint) : Bool := (e.evtHead + 1) % e.evtSize == e.evtTail % e.evtSize

/-- The copy of one record into the host ring (R25, R379); in D3hot it waits (R384). -/
def copyRecord (r : LogRecord) (s : State) : State :=
  let e := s.dev.ep
  if e.evtSize = 0 then s
  else if e.d3hot then { s with arb := { s.arb with waiting := s.arb.waiting ++ [r] } }
  else if e.evtFull then { s with arb := { s.arb with missed := s.arb.missed + 1 } }
  else
    { s with
      hostMem := s.hostMem.writeBytes (e.evtBase + 32 * e.evtHead) r.bytes
      dev := { s.dev with ep := { e with evtHead := (e.evtHead + 1) % e.evtSize, evtDue := true } } }

/-- The code lies in one of the ranges. -/
def inRanges (l : List (Nat × Nat)) (c : Nat) : Bool := l.any (fun p => decide (p.1 ≤ c) && decide (c ≤ p.2))

/-- A record offered to a subscription: queued when it matches; the oldest of 1,024 is discarded and counted (R432). -/
def Subscription.offer (u : Subscription) (r : LogRecord) : Subscription :=
  if inRanges u.ranges r.code then
    if u.queue.length < 1024 then { u with queue := u.queue ++ [r] }
    else { u with queue := u.queue.drop 1 ++ [r], lost := u.lost + 1 }
  else u

/-- A record offered to every session. -/
def deliver (r : LogRecord) (d : Dev) : Dev :=
  { d with srv := { d.srv with
      sessions := d.srv.sessions.map (fun x => { x with sub := x.sub.map (fun u => u.offer r) }) } }

/-- The log with one more record, overwriting the oldest when full (R24). -/
def Arbiter.append (a : Arbiter) (r : LogRecord) : Arbiter :=
  { a with next := a.next + 1, ring := (a.ring ++ [r]).drop (a.ring.length + 1 - a.depth) }

/-- The log with another depth: the latest records that it has room for stay (R24). -/
def Arbiter.resize (a : Arbiter) (depth : Nat) : Arbiter := { a with depth := depth, ring := a.ring.drop (a.ring.length - depth) }

/-- A record numbered and logged: the sequence number is one above the record before (R22), then the log, the host
copy and the subscriptions. -/
def logRecord (tb code inst arg0 arg1 : Nat) (s : State) : State :=
  let r : LogRecord :=
    { seq := s.arb.next, tb := tb, code := code, inst := inst, arg0 := arg0 % 2 ^ 32, arg1 := arg1 % 2 ^ 32 }
  let s1 := copyRecord r { s with arb := s.arb.append r }
  { s1 with dev := deliver r s1.dev }

/-- EV 0x0211 EVT_HOST_OVERRUN, the first record copied after the host ring has room again (R25). -/
def logOverrun (s : State) : State :=
  if s.arb.missed = 0 || s.dev.ep.evtSize = 0 || s.dev.ep.evtFull || s.dev.ep.d3hot then s
  else logRecord (tbNow s.dev) 0x0211 0xFFFF s.arb.missed 0 { s with arb := { s.arb with missed := 0 } }

/-- The sequence number given to a kept event, by its post number. -/
def Arbiter.seqFor (a : Arbiter) (id : Nat) : Option Nat := (a.seqOf.find? (fun p => p.1 == id)).map (·.2)

/-- An event taken from its queue: numbered, its ARG1 the SEQ[31:0] of the event it refers to (R28), and for a kept
event the number remembered. -/
def logEvent (e : Event) (s : State) : State :=
  let arg1 := match e.ref with
    | some i => (s.arb.seqFor i).getD 0
    | none => e.arg1
  let n := s.arb.next
  let s1 := logRecord e.tb e.code e.inst e.arg0 arg1 s
  if isKept e.code then { s1 with arb := { s1.arb with seqOf := (e.id, n) :: s1.arb.seqOf } } else s1

/-! ## Arbitration -/

/-- The event that comes first of two: the earlier cycle, then ascending CODE[15:8], then ascending INSTANCE (R23). -/
def Event.before (a b : Event) : Bool :=
  decide (a.cycle < b.cycle) ||
  (decide (a.cycle = b.cycle) &&
    (decide (a.code / 256 < b.code / 256) ||
      (decide (a.code / 256 = b.code / 256) && decide (a.inst < b.inst))))

/-- The source whose head comes first. -/
def oldestOf : List Source → Option (Nat × Nat)
  | [] => none
  | x :: xs =>
    match x.queue, oldestOf xs with
    | [], r => r
    | _ :: _, none => some (x.hi, x.inst)
    | e :: _, some k =>
      match (xs.find? (fun y => y.hi == k.1 && y.inst == k.2)).bind (fun y => y.queue.head?) with
      | none => some (x.hi, x.inst)
      | some f => if f.before e then some k else some (x.hi, x.inst)

/-- A front-end's queue that holds an SOF event. -/
def Source.hasSof (x : Source) : Bool := decide (0x0C ≤ x.hi) && decide (x.hi ≤ 0x0F) && x.queue.any (fun e => isSof e.code)

/-- A queue that holds a kept event. -/
def Source.hasKept (x : Source) : Bool := x.queue.any (fun e => isKept e.code)

/-- EV 0x0212 for a source whose loss phase has ended (R26): ARG0 the number lost, ARG1 the code of the first. -/
def logLost (x : Source) (s : State) : State :=
  match x.due with
  | none => s
  | some l =>
    logRecord (tbNow s.dev) 0x0212 x.inst l.1 l.2
      { s with dev := { s.dev with sources := updSource x.hi x.inst (fun y => { y with due := none }) s.dev.sources } }

/-- A source without the head of its queue: a queue that drains while losing ends its loss phase, whose record is due. -/
def Source.pop (x : Source) : Source :=
  let q := x.queue.drop 1
  if q = [] && x.losing then { x with queue := q, losing := false, lost := 0, first := 0, due := some (x.lost, x.first) }
  else { x with queue := q }

/-- The head of a source taken: a loss that is due is logged first (R26); the event leaves the queue and is numbered. -/
def takeHead (k : Nat × Nat) (s : State) : State :=
  let x := s.dev.source k.1 k.2
  match x.queue with
  | [] => s
  | e :: _ =>
    let s0 := logLost x s
    logEvent e { s0 with dev := { s0.dev with sources := updSource k.1 k.2 Source.pop s0.dev.sources } }

/-- `n` more events in the order of R23: sources that hold a kept event first, then every other, oldest first.
`sof` are the sources served in the first class. -/
def takeRest : Nat → List (Nat × Nat) → State → State
  | 0, _, s => s
  | n + 1, sof, s =>
    let kept := s.dev.sources.filter (fun x => x.hasKept && !(sof.contains (x.hi, x.inst)))
    match oldestOf kept with
    | some k => takeRest n sof (takeHead k s)
    | none =>
      match oldestOf s.dev.sources with
      | some k => takeRest n sof (takeHead k s)
      | none => s

/-- The queues served first: the front-ends' that hold an SOF event, in port order (R23). -/
def sofSources (d : Dev) : List (Nat × Nat) :=
  ([0x0C, 0x0D, 0x0E, 0x0F].flatMap (fun h => (d.sources.filter (fun x => x.hi == h && x.hasSof)).map
    (fun x => (x.hi, x.inst)))).take 4

/-- One CLK_FAB cycle of the arbiter accepts up to four events (R23). -/
def arbitrate (s : State) : State :=
  let sof := sofSources s.dev
  takeRest (4 - sof.length) sof (sof.foldl (fun t k => takeHead k t) s)

/-- EVENT_ARBITRATION (R23). -/
def execEventArbitration (s : State) : Host.Outcome State Fault Refusal := .next (arbitrate s)

/-- EVT_SOURCE_LOST: the source's queue has drained empty after a loss, and EV 0x0212 is logged (R26). -/
def execEvtSourceLost (hi inst : Nat) (s : State) : Host.Outcome State Fault Refusal :=
  .next (logLost (s.dev.source hi inst) s)

/-- Cycles of the arbiter pass until the queue of a source has room. -/
def roomLoop (hi inst : Nat) : Nat → State → State
  | 0, s => s
  | n + 1, s => if (s.dev.source hi inst).queue.length < 16 then s else roomLoop hi inst n (arbitrate s)

/-- Firmware posts a kept event only when its source's queue has room, and waits until it has (R565). Every cycle takes an
event, so as many cycles as events wait are enough; the wait itself takes no time here (assumption 40). -/
def makeRoom (hi inst : Nat) (s : State) : State :=
  roomLoop hi inst ((s.dev.sources.map (fun x => x.queue.length)).foldl (· + ·) 0) s

end Sys2Proof.Machine
end

