-- ==== Sys2Proof/Machine/EntryWrite.lean ====
section
/-! DEFINITION. One write to the dictionary (R419): its checks, the event that records it once firmware has room to post it
(R565), and its effect. -/

namespace Sys2Proof.Machine

/-- The outcome of a write: accepted with the state after it, or refused with a status code of Table 17.7 and what the
refusal itself leaves (an event and a reason register, for the entries that log one). -/
inductive WRes where
  | ok (s : State)
  | no (code : Nat) (eff : Dev → Dev)

/-- Status codes of Table 17.7 used by acceptance rules. -/
abbrev stMODE : Nat := 5
abbrev stTYPE : Nat := 6
abbrev stRANGE : Nat := 7
abbrev stREFUSED : Nat := 8
abbrev stBUSY : Nat := 9

/-- The dictionary is served: from the moment firmware runs (Table 2.2). -/
def Dev.served (d : Dev) : Bool := d.mode != 0 && decide (d.boot.phase = .training ∨ d.boot.phase = .done)

/-- The writer is firmware. -/
def byFirmware : Writer → Bool
  | .firmware => true
  | .client _ _ => false

/-- The checks of R419 that the entry tables decide, in order: existence, absence, access, type, length and range,
mode; none when all pass. The restrictions to a mode bind clients: firmware works through SERVICE entries in every mode
(R64), but it too writes no RO entry and no value out of range (R19). 0xFF is no code of Table 17.7: nobody answers. -/
def writeCheck (d : Dev) (w : Writer) (k : Nat) (v : Val) : Option Nat :=
  if !d.served then some 0xFF
  else if 0xF000 ≤ k / 256 then some 1
  else if k % 256 = 0 then (if rowsOf (k / 256) = [] then some 1 else if d.absent k then some 2 else some 3)
  else match rowOf k with
    | none => some 1
    | some r =>
      if d.absent k then some 2
      else if r.acc = .ro then some 3
      else if !(r.ty.admits v) then some stTYPE
      else match r.rng.check v with
        | some c => some c
        | none =>
          if byFirmware w then none
          else if r.acc = .rwc && !(d.mode == mCONFIGURE && d.target == 0) then some stMODE
          else if r.service && d.mode != mSERVICE then some stMODE
          else none

/-- ARG1 of DICT_WRITE: the low 32 bits of the value, the length of a STR or BLOB, 0 for a WO entry (Table 17.14). -/
def dictArg1 (k : Nat) (v : Val) : Nat :=
  match rowOf k with
  | none => 0
  | some r =>
    if r.acc = .wo then 0
    else match v with
      | .num n => n % 2 ^ 32
      | .bytes b => b.length % 2 ^ 32

/-- Code of a transport in DICT_WRITE. -/
def trCode : Transport → Nat
  | .udp => 0
  | .mailbox => 1
  | .twm => 2

/-- The count of accepted writes of an entry since reset (CHANGE of R428), one higher. -/
def bumpChange (k : Nat) : List (Nat × Nat) → List (Nat × Nat)
  | [] => [(k, 1)]
  | (j, n) :: l => if j = k then (j, (n + 1) % 2 ^ 32) :: l else (j, n) :: bumpChange k l

/-- The CHANGE count of an entry (R428). -/
def changeOf (k : Nat) (l : List (Nat × Nat)) : Nat :=
  match l with
  | [] => 0
  | (j, n) :: l' => if j = k then n else changeOf k l'

/-- STORE_DIRTY and the calibration mark when an entry of the persistent set takes a value (R444). -/
def touchStore (k : Nat) (d : Dev) : Dev :=
  match rowOf k with
  | none => d
  | some r =>
    if r.persist || r.calib then
      { setN Reg.store_STORE_DIRTY 1 d with
        calibDirty := d.calibDirty || inCalibArea r
        srv := { d.srv with save := d.srv.save.map (fun j => { j with dirtyAfter := true }) } }
    else d

/-- An accepted write recorded: EV 0x0101 for a client's write (R419, R565). The event's post number is `d.posts`
before the call. -/
def recordWrite (w : Writer) (k : Nat) (v : Val) (d : Dev) : Dev :=
  match w with
  | .firmware => touchStore k d
  | .client id tr =>
    touchStore k { post 0x0101 (if tr = .twm then 0xFFFF else id) (trCode tr * 2 ^ 24 + k) (dictArg1 k v) d with
      changes := bumpChange k d.changes }

/-- Firmware waits for room to post the event that records a client's write (R565). -/
def roomToRecord (w : Writer) (s : State) : State :=
  match w with
  | .firmware => s
  | .client id tr => makeRoom 1 (if tr = .twm then 0xFFFF else id) s

/-- One write: the table's checks, the entry's own acceptance rule, the event, the effect. The effect is given the post
number of the event that records the write (R28). -/
def entryWrite (w : Writer) (k : Nat) (v : Val) (accept : State → Option (Nat × (Dev → Dev)))
    (effect : Nat → State → State) (s : State) : WRes :=
  match writeCheck s.dev w k v with
  | some c => .no c id
  | none =>
    match accept s with
    | some (c, eff) => .no c eff
    | none => .ok (effect s.dev.posts (onDev (recordWrite w k v) (roomToRecord w s)))

/-- No acceptance rule beyond the table's. -/
def noRule (_ : State) : Option (Nat × (Dev → Dev)) := none

/-- A refusal with no further trace. -/
def refuse (c : Nat) : Option (Nat × (Dev → Dev)) := some (c, id)

/-- The state a command leaves after a write: the answer given to the writer is kept in `Dev.answer` (Table 17.7). -/
def finishWrite (s : State) : WRes → State
  | .ok t => { t with dev := { t.dev with answer := 0 } }
  | .no c eff => { s with dev := { eff s.dev with answer := c } }

end Sys2Proof.Machine
end

