-- ==== Sys2Proof/Machine/TimeBase.lean ====
section
/-! DEFINITION. The time base: the count and its wraps (R390 to R394) and staged updates (R395, R396). -/

namespace Sys2Proof.Machine

/-- TB_EPOCH after a cycle, from that of the cycle before and the two TB values (R393). -/
def epochAfter (epoch old new : Nat) : Nat :=
  let d := tbDiff new old
  if new < old ∧ 0 < d then (epoch + 1) % 2 ^ 32
  else if old < new ∧ d < 0 then (epoch + 2 ^ 32 - 1) % 2 ^ 32
  else epoch

/-- One CLK_FAB cycle: TB_RAW advances (R390) and a wrap of TB is counted (R393). -/
def cycle (d : Dev) : Dev :=
  let old := tbNow d
  let ep := d.get Reg.tb_TB_EPOCH
  let d1 := { d with time := { d.time with raw := (d.time.raw + 1) % 2 ^ 64, prevTb := old, prevEpoch := ep } }
  let e := epochAfter ep old (tbNow d1)
  if e = ep then d1 else setN Reg.tb_TB_EPOCH e d1

/-- TB_EPOCH_WRAP: the next cycle is one in which device time wraps, and TB_EPOCH rises or falls by 1 (R393). Where the
next cycle has no wrap the command has no effect. -/
def execTbEpochWrap (s : State) : Host.Outcome State Fault Refusal :=
  let d := cycle s.dev
  .next (if d.get Reg.tb_TB_EPOCH = s.dev.get Reg.tb_TB_EPOCH then s else { s with dev := d })

/-- The staged set is armed (R395). -/
def Dev.stageArmed (d : Dev) : Bool := d.flag Reg.stg_STAGE_ARM

/-- Record 0x3001 is writable by a client only while PTP_ENABLE is FALSE (R412). -/
def stageRule (w : Writer) (d : Dev) : Option (Nat × (Dev → Dev)) :=
  match w with
  | .firmware => none
  | .client _ _ => if d.flag Reg.ptp_PTP_ENABLE then refuse stREFUSED else none

/-- A write of STAGE_ARM: TRUE arms, FALSE withdraws (R395). -/
def writeStageArm (w : Writer) (v : Bool) : State → WRes :=
  entryWrite w Reg.stg_STAGE_ARM (.num (b2n v))
    (fun s =>
      match stageRule w s.dev with
      | some r => some r
      | none => if v && s.dev.stageArmed then refuse stBUSY else none)
    (fun _ => onDev (fun d =>
      if v then
        setN Reg.stg_STAGE_STATUS 1 (setN Reg.stg_STAGE_ARM 1
          { d with time := { d.time with armRaw := some d.time.raw } })
      else if d.stageArmed then
        setN Reg.stg_STAGE_STATUS 0 (setN Reg.stg_STAGE_ARM 0 { d with time := { d.time with armRaw := none } })
      else d))

/-- A write of another entry of record 0x3001: refused while armed (R395). -/
def writeStaging (w : Writer) (k : Nat) (v : Val) : State → WRes :=
  entryWrite w k v
    (fun s =>
      match stageRule w s.dev with
      | some r => some r
      | none => if s.dev.stageArmed then refuse stBUSY else none)
    (fun _ => onDev (setV k v))

/-- STAGE_ARM (R395). -/
def execStageArm (w : Writer) (v : Bool) (s : State) : Host.Outcome State Fault Refusal :=
  .next (finishWrite s (writeStageArm w v s))

/-- A signed number limited to 32 bits, as a code. -/
def satI32 (i : Int) : Nat := ofInt 32 (clampI (-(2 ^ 31)) (2 ^ 31 - 1) i)

/-- A number limited to 32 unsigned bits. -/
def satU32 (n : Nat) : Nat := min n (2 ^ 32 - 1)

/-- A number limited to 16 unsigned bits. -/
def satU16 (n : Nat) : Nat := min n 0xFFFF

/-- The staged set can be applied in this cycle: it follows the arming cycle and TB_RAW − STAGE_AT is not negative. -/
def Dev.stageDue (d : Dev) : Bool :=
  d.stageArmed &&
  (match d.time.armRaw with
   | some a => decide (a ≠ d.time.raw)
   | none => true) &&
  decide (0 ≤ tbDiff d.time.raw (d.get Reg.stg_STAGE_AT))

/-- The staged OFFSET, RATE and ANCHOR, and a staged TB_EPOCH, applied as a whole in this cycle (R395). -/
def applyStaged (d : Dev) : Dev :=
  let old := tbNow d
  let status := if d.time.raw = d.get Reg.stg_STAGE_AT then 2 else 3
  let d1 := setN Reg.tb_TB_OFFSET (d.get Reg.stg_STAGE_OFFSET)
    (setN Reg.tb_TB_RATE (d.get Reg.stg_STAGE_RATE) (setN Reg.tb_TB_ANCHOR (d.get Reg.stg_STAGE_ANCHOR) d))
  let ep := if bit (d.get Reg.stg_STAGE_FLAGS) 0 = 1 then d.get Reg.stg_STAGE_EPOCH
    else epochAfter d.time.prevEpoch d.time.prevTb (tbNow d1)
  let d2 := setN Reg.tb_TB_EPOCH ep (setN Reg.stg_STAGE_STATUS status (setN Reg.stg_STAGE_ARM 0
    { d1 with time := { d1.time with armRaw := none } }))
  post 0x3001 0xFFFF (satI32 (tbDiff (tbNow d1) old / 65536)) status d2

/-! ## Pulse generators -/

/-- Generator `n`. -/
def Dev.tpgOf (d : Dev) (n : Nat) : Tpg := nth d.tpg n

/-- Generator `n` changed. -/
def setTpg (n : Nat) (f : Tpg → Tpg) (d : Dev) : Dev := { d with tpg := updAt n f d.tpg }

/-- The level of TP_n without a pulse (R402). -/
def tpgIdle (n : Nat) (high : Bool) (d : Dev) : Dev :=
  let g := d.tpgOf n
  let d1 := setTpg n (fun g => { g with idleHigh := high }) d
  if g.idleHigh = high ∨ g.pulse.isSome then d1 else emit .pin n [b2n high] [] d1

end Sys2Proof.Machine
end

