-- ==== Sys2Proof/Machine/TwoWireOps.lean ====
section
/-! DEFINITION. The engine of the controller buses TW0 to TW7 (R476 to R488): queues, starts, bus clears, completions. -/

namespace Sys2Proof.Machine

/-- Bus `n`. -/
def Dev.bus (d : Dev) (n : Nat) : TwBus := nth d.tw n

/-- What the bus keeps of time: since when the first transaction of the queue waits with none running (R482), and when a reset
pulse began. `old` is the bus before the change. -/
def TwBus.timed (raw : Nat) (old b : TwBus) : TwBus :=
  { b with
    waiting := match b.queue, b.run, b.clearing with
      | x :: _, none, none => (match old.waiting with
        | some w => if w.1 = x then some w else some (x, raw)
        | none => some (x, raw))
      | _, _, _ => none
    pulseAt := if b.pulse && !old.pulse then raw else b.pulseAt }

/-- Bus `n` changed. -/
def setBus (n : Nat) (f : TwBus → TwBus) (d : Dev) : Dev := { d with tw := updAt n (fun b => TwBus.timed d.time.raw b (f b)) d.tw }

/-- The first transaction of the queue has waited TW_BUSY_TIMEOUT_US (R482, R485). -/
def Dev.twWaited (d : Dev) (n : Nat) : Bool :=
  match (d.bus n).waiting with
  | some w => decide (d.get (Reg.tw_TW_BUSY_TIMEOUT_US n) * 1200 ≤ (d.time.raw + 2 ^ 64 - w.2) % 2 ^ 64)
  | none => false

/-- tLOW, tHIGH and the setup and hold times of the bus's speed, and the fall time of its drivers, in ns (Tables 19.1, R477, R478). -/
def Dev.twTimes (d : Dev) (n : Nat) : List Nat :=
  let fall := match d.get (Reg.tw_TW_FALL n) with | 0 => 20 | 1 => 50 | 2 => 100 | _ => 200
  (match d.get (Reg.tw_TW_SPEED n) with
   | 0 => [5000, 5000, 5000]
   | 1 => [1400, 1100, 1400]
   | _ => [560, 440, 560]) ++ [if n < 4 then fall else 20]

/-- What the engine puts on the wires for a transaction (R480), in order: 256 a START or repeated START, 257 a STOP, a number below
256 a byte sent, 258 a byte read and acknowledged, 259 the last byte read, answered with NACK. -/
def TwXfer.wires (x : TwXfer) : List Nat :=
  let w := if x.wdata.isEmpty then [] else 256 :: (2 * x.target) :: x.wdata.map (fun b => b.toNat)
  let r := if x.rlen = 0 then [] else 256 :: (2 * x.target + 1) :: (List.replicate (x.rlen - 1) 258 ++ [259])
  w ++ r ++ [257]

/-- Status, ACKED and data of a transaction by what the engine saw (Table 19.4). -/
def TwXfer.result (x : TwXfer) (r : TwEnd) : Nat × Nat × List Byte :=
  let w := x.wdata.length
  let slots := (if w = 0 then 0 else 1 + w) + (if x.rlen = 0 then 0 else 1)
  let got := (r.acks.take slots).takeWhile (fun a => a)
  let acked := min w (got.length - 1)
  match r.cut.val with
  | 0 =>
    if got.length = slots then (0, w, padTo x.rlen r.data)
    else if 0 < got.length ∧ got.length ≤ w then (2, acked, [])
    else (1, acked, [])
  | 1 => (3, acked, r.data.take x.rlen)
  | 2 => (4, acked, r.data.take x.rlen)
  | _ => (5, acked, r.data.take x.rlen)

/-- The bus is STUCK (R485). -/
def TwBus.stuck (b : TwBus) : Bool := b.stuckAt.isSome

/-- TW_STATE (Table 19.6). -/
def TwBus.state (b : TwBus) : Nat :=
  if b.run.isSome then 1 else if b.clearing.isSome then 3 else if b.stuck then 4 else if b.busy then 2 else 0

/-- TW_STATE brought up to date. -/
def twSync (n : Nat) (d : Dev) : Dev := setN (Reg.tw_TW_STATE n) (d.bus n).state d

/-- TWn_RST_N is driven low: from reset, by TW_RST_ASSERT, or for a pulse (R479, R480, R485). -/
def Dev.rstLow (d : Dev) (n : Nat) : Bool :=
  (d.bus n).bootHold || (d.bus n).pulse || d.flag (Reg.tw_TW_RST_ASSERT n)

/-- The pin TWn_RST_N as it now stands, put out. -/
def emitRst (n : Nat) (d : Dev) : Dev := emit .twoWire n [1, b2n (!(d.rstLow n))] [] d

/-- The outcome of a status for the settings sequencer (R115, R483): 0 done, 1 clean miss, 2 uncertain. A miss is clean where
no attempt has had a data byte acknowledged. -/
def twOutcome (status acked : Nat) : Nat :=
  if status = 0 then 0
  else if [1, 3, 4, 6, 7, 9].contains status ∧ acked = 0 then 1
  else 2

/-- A transaction completes: the counts, a client's TW_RESULT and EV 0x3801 (R483), or its owner's ending. -/
def twFinish (n : Nat) (x : TwXfer) (status acked : Nat) (data : List Byte) (d : Dev) : Dev :=
  let d1 := inc64 (Reg.tw_TW_TRANSACTIONS n) d
  let d2 := if status = 0 then d1 else inc64 (Reg.tw_TW_FAILURES n) d1
  match x.owner with
  | .client =>
    let res := leBytes 4 x.tag ++ leBytes 1 status ++ leBytes 1 acked ++ leBytes 1 data.length ++
      leBytes 1 x.attempts ++ leBytes 8 x.startTb ++ leBytes 8 (tbNow d) ++ padTo 64 data
    post 0x3801 n x.tag status (setB (Reg.tw_TW_RESULT n) res d2)
  | o => { d2 with ends := d2.ends ++ [{ owner := o, outcome := twOutcome status (max acked x.seen) }] }

/-- The queue with a transaction in place: classes in rising order, oldest first; `front` puts it at the head of its
class (R481). -/
def twInsert (front : Bool) (x : TwXfer) : List TwXfer → List TwXfer
  | [] => [x]
  | y :: ys =>
    if (if front then x.cls ≤ y.cls else x.cls < y.cls) then x :: y :: ys else y :: twInsert front x ys

/-- A transaction offered to a bus: queued, or completed DISABLED at once (R484). -/
def twOffer (n : Nat) (x : TwXfer) (d : Dev) : Dev :=
  if (d.bus n).live then setBus n (fun b => { b with queue := twInsert false x b.queue }) d
  else twFinish n x 9 0 [] d

/-- START of a transaction on a free bus. -/
def twBegin (n : Nat) (x : TwXfer) (d : Dev) : Dev :=
  let x' := { x with attempts := x.attempts + 1, startTb := tbNow d }
  emit .twoWire n (0 :: (d.twTimes n ++ x.wires)) []
    (setBus n (fun b => { b with run := some x', busy := true, stuckAt := none }) d)

/-- The pulses used until a sample of SDA is high, within nine (R485). -/
def clearPulses (samples : List Bool) : Option Nat :=
  let i := (samples.take 9).findIdx (fun x => x)
  if i < min 9 samples.length then some (i + 1) else none

/-- A successful clear: EV 0x3802, then the transaction starts. -/
def clearDone (n : Nat) (x : TwXfer) (pulses rst : Nat) (d : Dev) : Dev :=
  twBegin n x (post 0x3802 n pulses rst (inc32 (Reg.tw_TW_CLEARS n)
    (setBus n (fun b => { b with clearing := none, stuckAt := none }) d)))

/-- A failed clear: the bus is STUCK, by SDA (1) or SCL (2), and the transaction completes BUS_STUCK. -/
def clearFailed (n : Nat) (x : TwXfer) (line : Nat) (d : Dev) : Dev :=
  post 0x3803 n line 0 (twFinish n x 7 0 []
    (setBus n (fun b => { b with clearing := none, stuckAt := some d.time.raw }) d))

/-- The reset pulse of a bus clear begins for the transaction (R485 step 3). -/
def clearPulse (n : Nat) (x : TwXfer) (viaScl : Bool) (d : Dev) : Dev :=
  emitRst n (setBus n (fun b => { b with clearing := some (x, viaScl), pulse := true }) d)

/-- The bus can start a transaction: not busy, none running, no clear or reset pulse under way. -/
def TwBus.canStart (b : TwBus) : Bool := b.run.isNone && b.clearing.isNone && !b.pulse && !b.busy

/-- The engine takes the first transaction of the queue (R481), finding the lines as `l` says (R485). -/
def twStart (n : Nat) (l : TwLines) (d : Dev) : Dev :=
  let b := d.bus n
  match b.queue with
  | [] => d
  | x :: q =>
    if !b.canStart then d
    else
      let d1 := setBus n (fun b => { b with queue := q }) d
      let held := match b.stuckAt with
        | some t => decide ((d.time.raw + 2 ^ 64 - t) % 2 ^ 64 < 120000000)
        | none => false
      if held then twFinish n x 7 0 [] d1
      else if l.sclLow then d
      else if l.sdaLow then
        (match clearPulses l.samples with
         | some p => clearDone n x p 0 d1
         | none => clearPulse n x false d1)
      else twBegin n x d1

/-- The reset pulse of TW_RST_TIME_US ends; a clear under way runs its second round (R485). -/
def twPulseEnd (n : Nat) (l : TwLines) (d : Dev) : Dev :=
  let b := d.bus n
  if !b.pulse || decide ((d.time.raw + 2 ^ 64 - b.pulseAt) % 2 ^ 64 < d.get (Reg.tw_TW_RST_TIME_US n) * 1200) then d
  else
    let d1 := emitRst n (setBus n (fun b => { b with pulse := false }) d)
    match b.clearing with
    | none => d1
    | some (x, viaScl) =>
      if l.sclLow then clearFailed n x (if viaScl then 2 else 1) d1
      else
        match clearPulses l.samples with
        | some p => clearDone n x p 1 d1
        | none => clearFailed n x 1 d1

/-- SCL has stayed low for TW_BUSY_TIMEOUT_US on a bus that is not busy: the reset pulse of step 3 for the first waiting
transaction. -/
def twSclLow (n : Nat) (d : Dev) : Dev :=
  let b := d.bus n
  match b.queue with
  | [] => d
  | x :: q => if b.canStart && d.twWaited n then clearPulse n x true (setBus n (fun b => { b with queue := q }) d) else d

/-- The running transaction has ended: an enable written meanwhile takes effect (R484). -/
def twRunEnded (n : Nat) (busy : Bool) (d : Dev) : Dev :=
  setBus n (fun b => { b with run := none, busy := busy, live := d.flag (Reg.tw_TW_ENABLE n) }) d

/-- The running transaction ends with a status of Table 19.4 (R483, R486 to R488). -/
def twComplete (n : Nat) (r : TwEnd) (d : Dev) : Dev :=
  match (d.bus n).run with
  | none => d
  | some x =>
    let (status, acked, data) := x.result r
    let done := fun (busy : Bool) => twFinish n x status acked data (twRunEnded n busy d)
    if status = 3 then
      if !x.noRetry && decide (x.attempts ≤ d.get (Reg.tw_TW_ARB_RETRIES n)) && (d.bus n).live then
        setBus n (fun b => { b with run := none, queue := twInsert true { x with seen := max x.seen acked } b.queue }) d
      else done true
    else if status = 4 then post 0x3804 n x.target acked (done true)
    else if status = 5 then post 0x3805 n x.target acked (done true)
    else done false

/-- A clock stretch beyond the limit ends the transaction with TIMEOUT and pulses TWn_RST_N (R480). -/
def twStretch (n : Nat) (acked : Nat) (d : Dev) : Dev :=
  match (d.bus n).run with
  | none => d
  | some x =>
    emitRst n (setBus n (fun b => { b with pulse := true }) (twFinish n x 8 acked [] (twRunEnded n true d)))

/-- The first transaction has waited TW_BUSY_TIMEOUT_US for a busy bus (R482). -/
def twBusyTimeout (n : Nat) (d : Dev) : Dev :=
  let b := d.bus n
  match b.queue with
  | [] => d
  | x :: q =>
    if b.busy && d.twWaited n then
      twFinish n x 6 0 [] (setBus n (fun b => { b with queue := q }) d)
    else d

/-- A change of TW_ENABLE: a disable completes the queue DISABLED; an enable takes effect at once, or when the running
transaction ends (R484). -/
def twEnable (n : Nat) (v : Bool) (d : Dev) : Dev :=
  let b := d.bus n
  if v then
    (if b.run.isNone then setBus n (fun b => { b with live := true }) d else d)
  else
    b.queue.foldl (fun a x => twFinish n x 9 0 [] a) (setBus n (fun b => { b with live := false, queue := [] }) d)

/-- The owner's settings write on bus `n`: class 1, no client TAG. -/
def twSettings (target : Nat) (bytes : List Byte) (o : Owner) : TwXfer :=
  { cls := 1, target := target, noRetry := false, wdata := bytes, rlen := 0, tag := 0, owner := o, attempts := 0, seen := 0,
    startTb := 0 }

/-- A firmware transaction: class 2. -/
def twFirmware (target : Nat) (w : List Byte) (rlen task : Nat) : TwXfer :=
  { cls := 2, target := target, noRetry := false, wdata := w, rlen := rlen, tag := 0, owner := .firmware task,
    attempts := 0, seen := 0, startTb := 0 }

/-- TWm is one of the on-board buses TW0 to TW3 (R477) rather than a cable bus (R478). -/
def onBoard (n : Nat) : Bool := decide (n < 4)

/-- The acceptance rules of TW_SPEED, TW_FALL and TW_FILTER (R477, R478). -/
def twWireRule (n sub v : Nat) (d : Dev) : Bool :=
  if sub = 2 then
    (if v = 2 then (if onBoard n then d.get (Reg.tw_TW_FALL n) != 3 else decide (d.get (Reg.tw_TW_FILTER n) ≤ 21)) else true)
  else if sub = 3 then onBoard n && !(v == 3 && d.get (Reg.tw_TW_SPEED n) == 2)
  else if sub = 4 then !(onBoard n) && !(decide (21 < v) && d.get (Reg.tw_TW_SPEED n) == 2)
  else true

/-- The request of Table 19.2 is in range (R483). -/
def twXferOk (b : List Byte) : Bool :=
  decide (8 ≤ b.length) && decide (8 ≤ rdLe b 0 1) && decide (rdLe b 0 1 ≤ 0x77) && decide (rdLe b 1 1 ≤ 1) &&
  decide (rdLe b 2 1 ≤ 64) && decide (rdLe b 3 1 ≤ 64) && decide (rdLe b 2 1 + rdLe b 3 1 ≠ 0) &&
  decide (b.length = 8 + rdLe b 2 1)

/-- The transaction a client's request asks for. -/
def twClient (b : List Byte) : TwXfer :=
  { cls := 3, target := rdLe b 0 1, noRetry := decide (rdLe b 1 1 = 1), wdata := sliceB b 8 (rdLe b 2 1),
    rlen := rdLe b 3 1, tag := rdLe b 4 4, owner := .client, attempts := 0, seen := 0, startTb := 0 }

/-- Client transactions queued on a bus (R481). -/
def TwBus.clients (b : TwBus) : Nat := (b.queue.filter (fun x => x.cls == 3)).length

/-- A write of TW_XFER (R483). -/
def writeTwXfer (w : Writer) (n : Nat) (b : List Byte) : State → WRes :=
  entryWrite w (Reg.tw_TW_XFER n) (.bytes b)
    (fun s =>
      if !(twXferOk b) then refuse stRANGE
      else if 8 ≤ (s.dev.bus n).clients then refuse stBUSY
      else none)
    (fun _ => onDev (fun d => twSync n (twOffer n (twClient b) d)))

/-- A write of TW_RST_ASSERT (R479). -/
def writeTwRstAssert (w : Writer) (n : Nat) (v : Bool) : State → WRes :=
  entryWrite w (Reg.tw_TW_RST_ASSERT n) (.num (b2n v)) noRule
    (fun _ => onDev (fun d => emitRst n (setN (Reg.tw_TW_RST_ASSERT n) (b2n v) d)))

/-- A write of another entry of a bus. -/
def writeTwEntry (w : Writer) (n : Nat) (k : Nat) (v : Val) : State → WRes :=
  entryWrite w k v
    (fun s =>
      match v with
      | .num x => if twWireRule n (k % 256) x s.dev then none else refuse stREFUSED
      | .bytes _ => none)
    (fun _ => onDev (fun d =>
      if k = Reg.tw_TW_ENABLE n then twSync n (twEnable n (v != .num 0) (setV k v d)) else setV k v d))

/-! ## The management target's wake (R491) -/

/-- A START wakes the sleeping target; its transaction is not acknowledged. -/
def twmWake (d : Dev) : Dev :=
  let d1 := inc32 Reg.twm_TWM_SLEEP_NACKS d
  post 0x3806 8 (d1.get Reg.twm_TWM_SLEEP_NACKS) 0
    { d1 with twm := { d1.twm with asleep := false, wakeRaw := some d.time.raw } }

/-- TWM_WAKE_WINDOW_MS has passed since the target woke and since the latest transaction addressed to it (R491). -/
def Dev.twmIdle (d : Dev) : Bool :=
  let passed := fun (r : Option Nat) => match r with
    | some x => decide (d.get Reg.twm_TWM_WAKE_WINDOW_MS * 1200000 ≤ (d.time.raw + 2 ^ 64 - x) % 2 ^ 64)
    | none => true
  passed d.twm.wakeRaw && passed d.twm.lastRaw

/-- The target's address logic sleeps once its wake window has passed (R491). -/
def twmDoze (d : Dev) : Dev :=
  if d.twmIdle then { d with twm := { d.twm with asleep := true, wakeRaw := none, lastRaw := none } } else d

/-- TWM_WAKE (R491). -/
def execTwmWake (s : State) : Host.Outcome State Fault Refusal :=
  .next (if s.dev.twm.asleep ∧ s.dev.mode = mSTANDBY then onDev twmWake s else s)

/-- TWM_SLEEP: the wake window has passed since the latest addressed transaction, in STANDBY (R491). -/
def execTwmSleep (s : State) : Host.Outcome State Fault Refusal :=
  .next (if s.dev.mode = mSTANDBY then onDev twmDoze s else s)

end Sys2Proof.Machine
end

