-- ==== Sys2Proof/Machine/LaneOps.lean ====
section
/-! DEFINITION. Sensor lanes: gangs (R48), sidebands (R59 to R62), the firmware alignment (R64 to R68), power states
(R70 to R72) and pattern checkers (R74). -/

namespace Sys2Proof.Machine

/-! ## Ports and gangs -/

/-- Port `p`. -/
def Dev.port (d : Dev) (p : Nat) : SenPort := nth d.sen p

/-- Port `p` changed. -/
def setPort (p : Nat) (f : SenPort → SenPort) (d : Dev) : Dev := { d with sen := updAt p f d.sen }

/-- Receive lane `k` of port `p` changed. -/
def setLane (p k : Nat) (f : Lane → Lane) (d : Dev) : Dev :=
  setPort p (fun x => { x with lanes := updAt k f x.lanes }) d

/-- The leading port of the gang a port belongs to; the port itself outside a gang (R48). -/
def Dev.lead (d : Dev) (p : Nat) : Nat :=
  let ga := d.get (Reg.sen_GANG 0)
  if ga = 2 then 0
  else if p = 1 ∧ ga = 1 then 0
  else if p = 3 ∧ d.get (Reg.sen_GANG 2) = 1 then 2
  else p

/-- The ports of the gang led by `p` (R48). -/
def Dev.members (d : Dev) (p : Nat) : List Nat := (List.range 4).filter (fun q => d.lead q == d.lead p)

/-- The port belongs to a gang. -/
def Dev.ganged (d : Dev) (p : Nat) : Bool := decide (1 < (d.members p).length)

/-- Lanes of the port's group (R47, R48). -/
def Dev.laneCount (d : Dev) (p : Nat) : Nat := if d.ganged p then 64 else d.get (Reg.sen_LANE_COUNT p)

/-- Stripe-link coding. -/
def Dev.stripe (d : Dev) (p : Nat) : Bool := d.get (Reg.sen_CODING (d.lead p)) == 1

/-- Word width w. -/
def Dev.wordWidth (d : Dev) (p : Nat) : Nat := d.get (Reg.sen_WORD_WIDTH (d.lead p))

/-- Slip positions of a lane: w in raw coding, 66 in the stripe link (R64). -/
def Dev.positions (d : Dev) (p : Nat) : Nat := if d.stripe p then 66 else d.wordWidth p

/-- Event code `x` of a sensor port (R77). -/
def senEv (p x : Nat) : Nat := (8 + p) * 256 + x

/-- A frame is in progress at the port's gang. -/
def Dev.inFrame (d : Dev) (p : Nat) : Bool := !(nth d.itk (d.lead p)).asms.isEmpty

/-- PORT_STATUS bit `i` set or cleared. -/
def setStatus (p i : Nat) (b : Bool) (d : Dev) : Dev :=
  setN (Reg.sen_PORT_STATUS p) (setBit (d.get (Reg.sen_PORT_STATUS p)) i b) d

/-- PORT_STATUS ALIGNED. -/
def Dev.aligned (d : Dev) (p : Nat) : Bool := bit (d.get (Reg.sen_PORT_STATUS p)) 0 == 1

/-- GANG_MEMBER of every port follows the gangs. -/
def noteGangs (d : Dev) : Dev := (List.range 4).foldl (fun e p => setStatus p 2 (e.ganged p) e) d

/-! ## Sidebands -/

/-- Sideband `i` of port `p`. -/
def Dev.sb (d : Dev) (p i : Nat) : SbLane := nth (d.port p).sb i

/-- Sideband `i` of port `p` changed. -/
def setSb (p i : Nat) (f : SbLane → SbLane) (d : Dev) : Dev := setPort p (fun x => { x with sb := updAt i f x.sb }) d

/-- The frame on the wire between K27.7 and K29.7 (R59). -/
def sbBytes (ty : Nat) (payload : List Byte) : List Byte :=
  let body := leBytes 1 ty ++ leBytes 1 payload.length ++ payload
  body ++ leBytes 2 (crc16 body)

/-- The lane takes frames: enabled, ACTIVE, which it stays while it finishes a frame before it sleeps, and not sending a test
pattern (R61, R62, R73). -/
def Dev.sbOpen (d : Dev) (p i : Nat) : Bool :=
  decide ((d.sb p i).power = 3) && d.flag (if i = 0 then Reg.sen_SB0_ENABLE p else Reg.sen_SB1_ENABLE p) &&
    field (d.get (Reg.sen_SB_PRBS_SEL p)) (4 * i + 3) (4 * i) == 0

/-- A frame starts on a sideband: a trigger frame takes its SEQ (Table 3.4), a TIME frame the TB of its start. It is put out
as its 8b/10b code groups, after its TYPE; the running disparity that the idles before it left is free (assumption 60). -/
def sbStart (p i : Nat) (f : SbFrame) (d : Dev) : Dev :=
  let trig := decide (f.ty = 1) || decide (f.ty = 2)
  let payload :=
    if trig then leBytes 1 ((d.port p).trigSeq % 256)
    else if f.ty = 3 then leBytes 8 (tbNow d)
    else f.payload
  let d1 := setSb p i (fun l => { l with sending := some f }) d
  let d2 := if trig then setPort p (fun x => { x with trigSeq := (x.trigSeq + 1) % 256, trigTb := some f.tb }) d1 else d1
  let b := sbBytes f.ty payload
  let r := draw d2
  emit .sideband (2 * p + i) (f.ty :: codeGroups (framed b) (Config.freeNat r.1 % 2 == 1)) b r.2

/-- The owner of a sideband write told of its end. -/
def endOwner (o : Owner) (outcome : Nat) (d : Dev) : Dev :=
  match o with
  | .none => d
  | o => { d with ends := d.ends ++ [{ owner := o, outcome := outcome }] }

/-- A trigger that is not sent (R61): EV 0x0804 with the SEQ it would have carried, `ahead` triggers queued before. -/
def triggerLost (p ahead : Nat) (d : Dev) : Dev := post (senEv p 4) 64 (((d.port p).trigSeq + ahead) % 256) 0 d

/-- A trigger issued to a port queues a trigger frame on SB0, or is lost (R61); true when issued. -/
def sendTrigger (p ty : Nat) (d : Dev) : Bool × Dev :=
  let l := d.sb p 0
  let f : SbFrame := { ty := ty, payload := [], owner := .none, tb := tbNow d }
  if !(d.sbOpen p 0) then (false, triggerLost p 0 d)
  else match l.sending with
    | none => (true, sbStart p 0 f d)
    | some _ =>
      if l.queue.length < 8 then (true, setSb p 0 (fun l => { l with queue := l.queue ++ [f] }) d)
      else (false, triggerLost p 8 d)

/-- The instant of the latest trigger issued to the port (R61, R100). -/
def Dev.trigTime (d : Dev) (p : Nat) : Option Nat :=
  match (d.sb p 0).queue.getLast? with
  | some f => some f.tb
  | none => (d.port p).trigTb

/-- A frame offered on SB1; a full, sleeping or disabled lane makes a settings write a clean miss (R62). Any other frame is
then not sent, and nothing records it (assumption 61). -/
def sbOffer (p : Nat) (f : SbFrame) (d : Dev) : Dev :=
  let l := d.sb p 1
  if !(d.sbOpen p 1) then endOwner f.owner 1 d
  else match l.sending with
    | none => sbStart p 1 f d
    | some _ =>
      if l.queue.length < 16 then setSb p 1 (fun l => { l with queue := l.queue ++ [f] }) d
      else endOwner f.owner 1 d

/-- The lane's power state changes, with EV 0x0806; a lane that is not ACTIVE drops its queue: triggers are lost, and
settings writes are clean misses (R61, R62, R71). -/
def sbEnter (p i st : Nat) (d : Dev) : Dev :=
  let l := d.sb p i
  let d1 := setSb p i (fun l => { l with power := st, goal := none, queue := if st = 3 then l.queue else [] }) d
  let d2 := if l.power = st then d1 else post (senEv p 6) (64 + i) (l.power * 256 + st) 0 d1
  if st = 3 then d2
  else if i = 0 then (List.range l.queue.length).foldl (fun a j => triggerLost p j a) d2
  else l.queue.foldl (fun a f => endOwner f.owner 1 a) d2

/-- The state a sideband is asked for: OFF while disabled, else by SB_POWER_REQ. -/
def Dev.sbWanted (d : Dev) (p i : Nat) : Nat :=
  if !(d.flag (if i = 0 then Reg.sen_SB0_ENABLE p else Reg.sen_SB1_ENABLE p)) then 0
  else 3 - field (d.get (Reg.sen_SB_POWER_REQ p)) (2 * i + 1) (2 * i)

/-- A sideband brought toward the state it is asked for: down after the frame it sends (R71), up by a wake (R70). -/
def sbGo (p i : Nat) (d : Dev) : Dev :=
  let l := d.sb p i
  let want := d.sbWanted p i
  if want < l.power then
    (if l.sending.isSome then setSb p i (fun l => { l with goal := some want }) d else sbEnter p i want d)
  else if l.goal.isSome then setSb p i (fun l => { l with goal := none }) d
  else if l.power < want then
    (if want = 3 then setSb p i (fun l => { l with waking := true }) d else sbEnter p i want d)
  else setSb p i (fun l => { l with waking := false }) d

/-- SIDEBAND_FRAME_SENT: the frame's K29.7 has been sent (R62); the owner is told, and the lane enters the state it is
asked for or starts its next frame. -/
def sbSent (p i : Nat) (d : Dev) : Dev :=
  let l := d.sb p i
  match l.sending with
  | none => d
  | some f =>
    let d1 := endOwner f.owner 0 (setSb p i (fun l => { l with sending := none }) d)
    match l.goal with
    | some g => sbEnter p i g d1
    | none =>
      match l.queue with
      | [] => d1
      | g :: q => sbStart p i g (setSb p i (fun l => { l with queue := q }) d1)

/-- A sideband sends the test pattern selected for it, without an end (R73); with none it is idle. The pattern is put out as its
code. -/
def sbPattern (p i sel : Nat) (d : Dev) : Dev :=
  if (d.sb p i).power = 3 then emit .sideband (2 * p + i) [256 + sel] [] d else d

/-! ## The reference clock (R63) -/

/-- The output of a port's reference clock: its frequency code, or 0xFF while low. -/
def emitCk (p code : Nat) (d : Dev) : Dev := emit .refclk p [code] [] d

/-- The output restarts after at least 1 µs. -/
def ckRestart (p : Nat) (d : Dev) : Dev :=
  match (d.port p).ckTo with
  | some v => emitCk p v (setPort p (fun x => { x with ckTo := none }) d)
  | none => d

/-- The persistent set is loaded: the reference clocks and the sidebands follow their entries. -/
def lanesLoaded (d : Dev) : Dev :=
  (List.range d.nPorts).foldl (fun e p =>
    sbGo p 1 (sbGo p 0 (if e.flag (Reg.sen_CK_ENABLE p) then emitCk p (e.get (Reg.sen_CK_FREQ p)) e else e))) (noteGangs d)

/-- The reference clocks stop with a reset, until the persistent set is loaded again. -/
def clocksStop (d : Dev) : Dev :=
  (List.range d.nPorts).foldl (fun e p => if d.flag (Reg.sen_CK_ENABLE p) then emitCk p 0xFF e else e) d

/-- The head told its TRAIN mode on SB1 (R60). -/
def sendTrain (p mode : Nat) (d : Dev) : Dev :=
  sbOffer p { ty := 0x11, payload := leBytes 1 mode, owner := .none, tb := 0 } d

/-! ## Alignment -/

/-- Every lane of the group changed by `f`. -/
def onLanes (p : Nat) (f : Nat → Dev → Dev) (d : Dev) : Dev := (List.range (d.laneCount p)).foldl (fun a k => f k a) d

/-- A dwell starts: MATCH_COUNT reads 0xFFFF_FFFF while dwelling. -/
def startDwell (p k : Nat) (d : Dev) : Dev :=
  setN (Reg.lan_MATCH_COUNT p k) 0xFFFFFFFF (setLane p k (fun l => { l with dwelling := true }) d)

/-- A deferred enable or wake comes into effect: EV 0x0220 (R28, R71). ARG1 is the SEQ of the event that recorded it, free
where no event did. -/
def postDeferral (inst entry : Nat) (ref : Option Nat) (d : Dev) : Dev :=
  match ref with
  | some i => postRef 0x0220 inst entry 0 (some i) d
  | none => post 0x0220 inst entry (Config.freeNat d.free % 2 ^ 32) (draw d).2

/-- One slip of a lane (R64). -/
def slipLane (p k : Nat) (d : Dev) : Dev :=
  setN (Reg.lan_SLIP_POS p k) ((d.get (Reg.lan_SLIP_POS p k) + 1) % max 1 (d.positions p)) d

/-- The firmware search begins on every lane of the port, after TRAIN MODE 0x01 (R64). -/
def startSearch (p : Nat) (d : Dev) : Dev :=
  let d1 := setStatus p 0 false (sendTrain p 1 (setPort p (fun x => { x with step := .search, armed := false }) d))
  onLanes p (fun k a =>
    startDwell p k (setN (Reg.lan_LANE_ALIGN p k) 0
      (setLane p k (fun l => { l with slips := 0, found := false }) a))) d1

/-- The verifying dwell after SLEEP (Table 3.6). -/
def startVerify (p : Nat) (d : Dev) : Dev :=
  let d1 := setPort p (fun x => { x with step := .verify, armed := false }) d
  onLanes p (fun k a => startDwell p k (setLane p k (fun l => { l with slips := 0, found := false }) a)) d1

/-- The port's alignment fails (R66). -/
def alignFail (p lane reason : Nat) (d : Dev) : Dev :=
  let d1 := setStatus p 0 false (setPort p (fun x => { x with step := .failed, armed := false, windowOpen := false }) d)
  post (senEv p 3) lane lane reason (onLanes p (fun k a => setLane p k (fun l => { l with dwelling := false }) a) d1)

/-- Every lane is found and deskewed (R66): firmware sends TRAIN MODE 0x00 and EV 0x0802 is logged. A port that is
realigned sends it at its restart (R68). -/
def portAligned (p : Nat) (d : Dev) : Dev :=
  let x := d.port p
  let d1 := setPort p (fun x => { x with step := .idle, armed := false, windowOpen := false }) d
  let d2 := setStatus p 1 false (setStatus p 0 true (onLanes p (fun k a => setN (Reg.lan_LANE_ALIGN p k) 1 a) d1))
  let d3 := if x.realigning then d2 else sendTrain p 0 d2
  post (senEv p 2) 0xFFFF (d.laneCount p)
    ((List.range (d.laneCount p)).foldl (fun m k => max m (d.get (Reg.lan_DESKEW p k))) 0) d3

/-- A deskew measurement opens (R65). -/
def armDeskew (p : Nat) (d : Dev) : Dev :=
  onLanes p (fun k a => setN (Reg.lan_LANDING p k) 0xFF a)
    (setPort p (fun x => { x with armed := true, windowOpen := false, landed := [] }) d)

/-- All lanes are found: TRAIN MODE 0x02 and a deskew measurement (R65). -/
def startDeskew (p : Nat) (d : Dev) : Dev :=
  armDeskew p (sendTrain p 2 (setPort p (fun x => { x with step := .deskew }) d))

/-- Every lane of the group is found. -/
def Dev.allFound (d : Dev) (p : Nat) : Bool :=
  (List.range (d.laneCount p)).all (fun k => (nth (d.port p).lanes k).found)

/-- A lane of the search has been found or has come to its end (R64, R66): when no lane dwells any more, the port is deskewed
or its alignment has failed. -/
def searchSettle (p : Nat) (d : Dev) : Dev :=
  if (List.range (d.laneCount p)).any (fun k => (nth (d.port p).lanes k).dwelling) then d
  else if d.allFound p then startDeskew p d
  else setStatus p 0 false (setPort p (fun x => { x with step := .failed, armed := false, windowOpen := false }) d)

/-- The equaliser of a lane as it has adapted (R69). -/
def adapt (p k : Nat) (eq : Equaliser) (d : Dev) : Dev :=
  setN (Reg.lan_CTLE p k) (eq.ctle % 16) (setB (Reg.lan_DFE p k) (padTo 5 eq.dfe) (setN (Reg.lan_EYE_MV p k) (eq.eyeMv % 65536) d))

/-- A dwell completes on a sensor lane: its result, the equaliser as adapted (R69), and the firmware search (R64). -/
def dwellDone (p k matched : Nat) (eq : Equaliser) (d : Dev) : Dev :=
  let l := nth (d.port p).lanes k
  if !l.dwelling then d
  else
    let hits := min matched (d.get (Reg.sen_ALIGN_DWELL p))
    let d1 := setN (Reg.lan_MATCH_COUNT p k) hits (setLane p k (fun l => { l with dwelling := false }) d)
    let adapts := match (d.port p).step with
      | .search => true
      | _ => d.flag (Reg.sen_CONT_ADAPT p)
    let d2 := if adapts then adapt p k eq d1 else d1
    let ok := decide (d.get (Reg.sen_ALIGN_MIN p) ≤ hits)
    match (d.port p).step with
    | .verify =>
      if ok then
        (let d3 := setLane p k (fun l => { l with found := true }) d2
         if d3.allFound p then portAligned p d3 else d3)
      else startSearch p d2
    | .search =>
      if ok then searchSettle p (setLane p k (fun l => { l with found := true }) d2)
      else
        let d3 := setLane p k (fun l => { l with slips := l.slips + 1 }) (slipLane p k d2)
        if (nth (d3.port p).lanes k).slips < d.positions p then startDwell p k d3
        else searchSettle p (post (senEv p 3) k k 1 d3)
    | _ => d2

/-- The measurement ends (R65, R66): lanes without an event fail; else firmware writes each DESKEW. -/
def deskewFinish (p : Nat) (d : Dev) : Dev :=
  let x := d.port p
  let d0 := setPort p (fun x => { x with armed := false, windowOpen := false }) d
  match x.step with
  | .deskew =>
    let none? := (List.range (d.laneCount p)).filter (fun k => !(x.landed.any (fun y => y.1 == k)))
    (match none? with
     | _ :: _ => none?.foldl (fun a k => alignFail p k 2 a) d0
     | [] =>
       let mx := x.landed.foldl (fun m y => max m y.2) 0
       let mn := x.landed.foldl (fun m y => min m y.2) 127
       if 63 < mx - mn then alignFail p 0xFFFF 3 d0
       else portAligned p (x.landed.foldl (fun a y => setN (Reg.lan_DESKEW p y.1) (mx - y.2) a) d0))
  | _ => d0

/-- A lane shows its deskew event: the first opens the window, its LANDING 0; the last lane to land ends the
measurement. -/
def deskewLanding (p k pos : Nat) (d : Dev) : Dev :=
  let x := d.port p
  if !x.armed || x.landed.any (fun y => y.1 == k) || decide (d.laneCount p ≤ k) then d
  else
    let at' := if x.windowOpen then pos % 128 else 0
    let d1 := setN (Reg.lan_LANDING p k) at'
      (setPort p (fun x => { x with windowOpen := true, landed := x.landed ++ [(k, at')] }) d)
    if (d1.port p).landed.length = d.laneCount p then deskewFinish p d1 else d1

/-- The 128-word window closes. -/
def deskewWindowEnd (p : Nat) (d : Dev) : Dev := if (d.port p).windowOpen then deskewFinish p d else d

/-- The lane is watched for loss of lock (R67). -/
def Dev.watched (d : Dev) (p k : Nat) : Bool :=
  d.runs (.port (Fin.ofNat 4 p)) && decide (k < d.laneCount p) && decide ((d.port p).rx = 3) && d.aligned p &&
  ((d.port p).step == .idle || (d.port p).step == .verify)

/-- A watched lane loses lock (R67). With REALIGN_AUTO the port is to stop at its next EOF; one that has stopped is searched
anew (R68). -/
def lockLost (p k cause : Nat) (d : Dev) : Dev :=
  if !(d.watched p k) || decide (d.get (Reg.lan_LANE_ALIGN p k) = 2) then d
  else
    let d1 := setStatus p 1 true (setN (Reg.lan_LANE_ALIGN p k) 2 d)
    let d2 := post (senEv p 1) k cause (d.get (Reg.lan_SLIP_POS p k)) d1
    if (d.port p).realignRaw.isSome then startSearch p d2
    else if d.flag (Reg.sen_REALIGN_AUTO p) then setPort p (fun x => { x with realigning := true }) d2
    else d2

/-- Lane numbers and counts of the ALIGN blocks of a stripe, by physical lane. -/
def alignedBlocks (blocks : List StripeBlock) : List (Option (Nat × Nat)) :=
  blocks.map (fun b => match b with
    | .align n c => some (n, c)
    | _ => none)

/-- A sync header received on a lane: 16 or more invalid among 64 lose the lock (R67). -/
def headerSeen (p k : Nat) (good : Bool) (d : Dev) : Dev :=
  let h := (good :: (nth (d.port p).lanes k).heads).take 64
  let d1 := setLane p k (fun l => { l with heads := h }) d
  if 16 ≤ h.countP (fun g => !g) then lockLost p k 3 (setLane p k (fun l => { l with heads := [] }) d1) else d1

/-- A 66-bit block received on a lane, its header and its payload as sent (R48, R53): INVERT undone, then descrambled. -/
def receiveBlock (p k : Nat) (raw : Nat × Nat) (d : Dev) : StripeBlock × Dev :=
  let inv := d.flag (Reg.lan_INVERT p k)
  let header := if inv then 3 - raw.1 % 4 else raw.1 % 4
  let r := descramble (nth (d.port p).lanes k).descr (if inv then 2 ^ 64 - 1 - raw.2 % 2 ^ 64 else raw.2 % 2 ^ 64)
  (blockOf header r.1, headerSeen p k (header == 1 || header == 2) (setLane p k (fun l => { l with descr := r.2 }) d))

/-- An ALIGN stripe (R54): while the port is aligned, a lane that does not carry ALIGN loses lock; while it is being
aligned, a lane number that differs from LOGICAL fails it (R66). -/
def alignStripe (p : Nat) (blocks : List (Option (Nat × Nat))) (d : Dev) : Dev :=
  match (d.port p).step with
  | .idle | .verify => onLanes p (fun k a => match blocks.getD k none with
      | some _ => a
      | none => lockLost p k 3 a) d
  | .failed => d
  | _ =>
    match (List.range (d.laneCount p)).find? (fun k => match blocks.getD k none with
        | some b => b.1 != d.get (Reg.lan_LOGICAL p k)
        | none => false) with
    | some k => alignFail p k 4 d
    | none => d

/-! ## Power states of the receive lanes -/

/-- The state in which the modes hold the receive lanes of an enabled port (R72). -/
def Dev.rxHeld (d : Dev) (mode p : Nat) : Nat :=
  if captureMode mode then 3 - d.get (Reg.sen_RX_POWER_REQ p)
  else if mode = mTHERMAL then 0
  else if mode = mBOOT ∨ mode = mSTANDBY then 1
  else 2

/-- The state in which the receive lanes stay in a mode: of a disabled port OFF (Table 3.6, R72). -/
def Dev.rxWanted (d : Dev) (mode p : Nat) : Nat := if d.flag (Reg.sen_PORT_ENABLE p) then d.rxHeld mode p else 0

/-- The mode whose unit states are being brought about: the target of a transition, or the current mode. -/
def Dev.aim (d : Dev) : Nat := if d.target = 0 then d.mode else d.target

/-- A test control of SERVICE holds the lane ACTIVE: a loop, a pattern or a dwell (R72, assumption 62). -/
def Dev.laneTest (d : Dev) (p k : Nat) : Bool :=
  d.mode == mSERVICE && d.flag (Reg.sen_PORT_ENABLE p) &&
    (d.get (Reg.lan_LOOP p k) != 0 || d.get (Reg.lan_PRBS_SEL p k) != 0 || (nth (d.port p).lanes k).dwelling)

/-- The state of a receive lane: its group's, ACTIVE under a test control, OFF outside the group (R47, R70, R72). -/
def Dev.laneState (d : Dev) (p k : Nat) : Nat :=
  if d.laneCount p ≤ k then 0 else if d.laneTest p k then 3 else (d.port p).rx

/-- What DEEP and OFF do not keep: alignment, slip position, deskew and equaliser (Table 3.6, assumption 63). -/
def laneForget (p k : Nat) (d : Dev) : Dev :=
  let d1 := setLane p k (fun l => { l with dwelling := false, found := false, seg := none, absent := 0, descr := 0, heads := [] }) d
  let d2 := setN (Reg.lan_LANE_ALIGN p k) 0 (setN (Reg.lan_SLIP_POS p k) 0 (setN (Reg.lan_DESKEW p k) 0 (setN (Reg.lan_LANDING p k) 0xFF d1)))
  adapt p k { ctle := 0, dfe := [], eyeMv := 0 } d2

/-- Every lane brought to its state, with EV 0x0806 for each that changes. -/
def syncLanes (p : Nat) (d : Dev) : Dev :=
  (List.range 64).foldl (fun a k =>
    let old := a.get (Reg.lan_LANE_POWER p k)
    let st := a.laneState p k
    let b := if old = st then a else post (senEv p 6) k (old * 256 + st) 0 (setN (Reg.lan_LANE_POWER p k) st a)
    if st < 2 then laneForget p k b else b) d

/-- The receive lanes enter a state; DEEP and OFF lose the alignment (Table 3.6). -/
def rxEnter (p st : Nat) (d : Dev) : Dev :=
  let d1 := syncLanes p (setPort p (fun x => { x with rx := st, goal := none, waking := false }) d)
  if 2 ≤ st then d1
  else setStatus p 0 false (setPort p (fun x => { x with
    step := .idle, armed := false, windowOpen := false, packet := none, nextLane := 0 }) d1)

/-- The receive lanes asked for state `st` (R70, R71): down at the next EOF, or at once between frames; a wake request
during that is deferred, `ref` being the event that recorded it; up by a wake. -/
def rxGo (p st : Nat) (ref : Option Nat) (d : Dev) : Dev :=
  let x := d.port p
  match x.goal with
  | some g =>
    if g < st then setPort p (fun x => { x with deferred := some (x.deferred.getD ref) }) d
    else setPort p (fun x => { x with goal := some st, deferred := none }) d
  | none =>
    if st < x.rx then
      (if d.inFrame p then setPort p (fun x => { x with goal := some st }) d else rxEnter p st d)
    else if x.rx < st then
      (if st = 3 then setPort p (fun x => { x with waking := true }) d else rxEnter p st d)
    else setPort p (fun x => { x with waking := false }) d

/-- The port's EOF as the lanes see it: a shut-down of the lanes completes, a deferred wake starts them again with EV
0x0220 (R71), and a port to be realigned stops and is searched again (R68). -/
def lanesEof (p : Nat) (d : Dev) : Dev :=
  let x := d.port p
  let d1 := match x.goal with
    | none => d
    | some g =>
      let d1 := rxEnter p g d
      match x.deferred with
      | none => d1
      | some r =>
        let d2 := postDeferral p (Reg.sen_RX_POWER_REQ p) r (setPort p (fun x => { x with deferred := none }) d1)
        rxGo p (d2.rxWanted d2.aim p) none d2
  if (d1.port p).realigning && (d1.port p).realignRaw.isNone && decide ((d1.port p).rx = 3) then
    startSearch p (setPort p (fun x => { x with realignRaw := some d.time.raw }) d1)
  else d1

/-- The exit latency of the receive lanes has elapsed (R70): ACTIVE, then verified or searched again. -/
def rxWoken (p : Nat) (d : Dev) : Dev :=
  if !(d.port p).waking then d
  else
    let kept := decide ((d.port p).rx = 2) &&
      (List.range (d.laneCount p)).all (fun k => d.get (Reg.lan_LANE_ALIGN p k) == 1)
    let d1 := rxEnter p 3 d
    if kept then startVerify p d1 else startSearch p d1

/-- A sideband's exit latency has elapsed. -/
def sbWoken (p i : Nat) (d : Dev) : Dev :=
  if (d.sb p i).waking then sbEnter p i 3 (setSb p i (fun l => { l with waking := false }) d) else d

/-- PORT_REALIGNED (R68): the restart, at which firmware sends TRAIN MODE 0x00; ARG1 is the number the next frame
takes. -/
def realigned (p : Nat) (d : Dev) : Dev :=
  let x := d.port p
  match x.realignRaw with
  | none => d
  | some r =>
    if x.realigning && d.aligned p && decide (x.step = .idle) then
      post (senEv p 5) 0xFFFF (satU32 (usOfCycles (d.time.raw - r))) (nth d.itk (d.lead p)).frames
        (sendTrain p 0 (setPort p (fun x => { x with realigning := false, realignRaw := none }) d))
    else d

/-! ## Pattern checkers (R74) -/

/-- The two taps of a pattern's recurrence; the training word repeats with its own width. -/
def prbsTaps (sel w : Nat) : Nat × Nat :=
  if sel = 1 then (7, 6) else if sel = 2 then (15, 14) else if sel = 3 then (23, 18) else if sel = 4 then (31, 28)
  else (w, 0)

/-- The `w` latest bits are a rotation of the training word, sent most significant bit first. -/
def trainingSeen (w word : Nat) (r : List Bool) : Bool :=
  let bits := (List.range w).map (fun i => bit word i == 1)
  (List.range w).any (fun k => r.take w == bits.drop k ++ bits.take k)

/-- The bit that follows the latest bits `r` (newest first). -/
def prbsNext (taps : Nat × Nat) (r : List Bool) : Bool :=
  let a := r.getD (taps.1 - 1) false
  if taps.2 = 0 then a else Bool.xor a (r.getD (taps.2 - 1) false)

/-- One received bit: lock after 64 error-free bits, unlock after 64 errors within 1,024; the pair counts the bit and
its error when locked. `ok` is what the bits that seed the checker must satisfy. -/
def prbsBit (taps : Nat × Nat) (ok : List Bool → Bool) (x : Prbs) (b : Bool) : Prbs × Nat × Nat :=
  let exp := prbsNext taps x.reg
  if x.locked then
    let errs := if exp = b then x.errs else x.seen :: x.errs
    let recent := errs.filter (fun t => decide (x.seen < t + 1024))
    if 64 ≤ recent.length then
      ({ x with locked := false, good := 0, errs := [], seen := 0, reg := [] }, 1, if exp = b then 0 else 1)
    else
      ({ x with reg := (exp :: x.reg).take 31, errs := recent, seen := x.seen + 1 }, 1, if exp = b then 0 else 1)
  else
    let good := if taps.1 ≤ x.reg.length ∧ exp = b ∧ ok x.reg then x.good + 1 else 0
    let x1 := { x with reg := (b :: x.reg).take 31, good := good }
    (if 64 ≤ good then { x1 with locked := true, errs := [], seen := 0 } else x1, 0, 0)

/-- A run of received bits: the checker after it, the bits counted and the errors counted. -/
def prbsRun (taps : Nat × Nat) (ok : List Bool → Bool) (x : Prbs) (bits : List Bool) : Prbs × Nat × Nat :=
  bits.foldl (fun acc b =>
    let r := prbsBit taps ok acc.1 b
    (r.1, acc.2.1 + r.2.1, acc.2.2 + r.2.2)) (x, 0, 0)

/-- The next `n` bits of a pattern after the latest bits `r`: the bits, oldest first, and the latest bits then (R73). -/
def prbsGen (taps : Nat × Nat) : Nat → List Bool → List Bool × List Bool
  | 0, r => ([], r)
  | n + 1, r =>
    let b := prbsNext taps r
    let g := prbsGen taps n ((b :: r).take 31)
    (b :: g.1, g.2)

end Sys2Proof.Machine
end

