-- ==== Sys2Proof/Machine/Pixels.lean ====
section
/-! DEFINITION. The arithmetic of the front-ends, stages 2 to 8 of Table 4.1 (R84 to R91), and of the focus statistics
(R121, R122). -/

namespace Sys2Proof.Machine

/-- A port's front-end settings, as a frame is processed with them (Table 4.6). -/
structure PixCfg where
  width : Nat
  height : Nat
  readouts : Nat
  w : Nat
  cfa : Nat
  fmt : Nat
  linShift : Nat
  groups : Nat
  lin : List (List Byte)
  ratio : List Nat
  sat : List Nat
  band : List Nat
  nw : List Nat
  obFirst : Nat
  obCount : Nat
  blackFixed : Int
  colBlack : List Byte
  defects : List Byte
  step : Nat
  hot : Bool
  hotThresh : Nat
  flatMode : Nat
  flatBlock : List Byte
  flatTable : Nat
  flatSource : List Byte

/-- The settings of the front-end of port `p`; a gang uses its leading port's. `table` is the pound address of its
per-pixel flat-field table. -/
def pixCfg (d : Dev) (p table : Nat) : PixCfg :=
  { width := d.get (Reg.itk_WIDTH p), height := d.get (Reg.itk_HEIGHT p)
    readouts := d.get (Reg.itk_READOUT_COUNT p), w := d.wordWidth p, cfa := d.get (Reg.itk_CFA p)
    fmt := d.get (Reg.itk_OUT_FORMAT p), linShift := d.get (Reg.itk_LIN_SHIFT p)
    groups := d.get (Reg.itk_ADC_GROUPS p)
    lin := [d.bytes (Reg.itk_LIN_TABLE p 0), d.bytes (Reg.itk_LIN_TABLE p 1), d.bytes (Reg.itk_LIN_TABLE p 2)]
    ratio := [0x3F800000, d.get (Reg.itk_RATIO p 0), d.get (Reg.itk_RATIO p 1)]
    sat := [d.get (Reg.itk_SAT p 0), d.get (Reg.itk_SAT p 1), d.get (Reg.itk_SAT p 2)]
    band := [d.get (Reg.itk_BAND p 0), d.get (Reg.itk_BAND p 1)]
    nw := [d.get (Reg.itk_NW p 0), d.get (Reg.itk_NW p 1), d.get (Reg.itk_NW p 2)]
    obFirst := d.get (Reg.itk_OB_FIRST p), obCount := d.get (Reg.itk_OB_COUNT p)
    blackFixed := toInt 32 (d.get (Reg.itk_BLACK_FIXED p)), colBlack := d.bytes (Reg.itk_COL_BLACK p)
    defects := d.bytes (Reg.itk_DEFECT_LIST p), step := d.get (Reg.itk_DEFECT_STEP p)
    hot := d.flag (Reg.itk_HOT_ENABLE p), hotThresh := d.get (Reg.itk_HOT_THRESH p)
    flatMode := d.get (Reg.itk_FLAT_MODE p), flatBlock := d.bytes (Reg.itk_FLAT_BLOCK p), flatTable := table
    flatSource := d.bytes (Reg.itk_FLAT_PIXEL_SOURCE p) }

/-! ## Linearisation and merge -/

/-- Knot j of a table (R84); an empty table is the identity, 16 × j. -/
def knot (table : List Byte) (g j : Nat) : Nat :=
  if table = [] then 16 * j else rdLe table ((g * 4097 + j) * 4) 4 % 2 ^ 24

/-- A code of w bits linearised (R84). -/
def linearise (table : List Byte) (g w s : Nat) : Nat :=
  let s16 := s * 2 ^ (16 - w)
  let j := s16 / 16
  let k0 : Int := knot table g j
  let k1 : Int := knot table g (j + 1)
  (clampI 0 0xFFFFFF (k0 + ((k1 - k0) * ((s16 % 16 : Nat) : Int) + 8) / 16)).toNat

/-- A U8.16 value as binary32 (exact). -/
def u816 (v : Nat) : FVal := fr (((v : Nat) : Rat) / 65536)

/-- The first readout below its SAT, at most the last (R85). -/
def mergePick (sat : List Nat) : List Nat → Nat → Nat
  | v :: v' :: vs, i => if sat.getD i 0 ≤ v then mergePick sat (v' :: vs) (i + 1) else i
  | _, i => i

/-- The exposure merge of one pixel's readouts (R85). -/
def merge (c : PixCfg) (v : List Nat) : Nat :=
  match v with
  | [x] => x
  | _ =>
    let i := mergePick c.sat v 0
    let vi := v.getD i 0
    let x := fmul (u816 vi) (f32v (c.ratio.getD i 0))
    let edge : Int := (c.sat.getD i 0 : Int) - (c.band.getD i 0 : Nat)
    let out :=
      if i + 1 < v.length ∧ edge < (vi : Int) then
        let e := fsub (u816 (c.sat.getD i 0)) (u816 (c.band.getD i 0))
        let t := fdiv (fsub (u816 vi) e) (u816 (c.band.getD i 0))
        let y := fmul (u816 (v.getD (i + 1) 0)) (f32v (c.ratio.getD (i + 1) 0))
        let p := fmul (fsub (fr 1) t) (f32v (c.nw.getD i 0))
        let q := fmul t (f32v (c.nw.getD (i + 1) 0))
        fdiv (fadd (fmul p x) (fmul q y)) (fadd p q)
      else x
    match fmul out (fr 65536) with
    | .nan => 0
    | .inf neg => if neg then 0 else 0xFFFFFF
    | .fin neg m => if neg then 0 else min (roundEven m) 0xFFFFFF

/-- A row of merged values from its readouts. -/
def mergeRow (c : PixCfg) (ros : List (List Nat)) : List Nat :=
  (List.range c.width).map (fun x =>
    merge c ((List.range c.readouts).map (fun i =>
      linearise (c.lin.getD i []) (x % max 1 c.groups) c.w ((ros.getD i []).getD x 0))))

/-! ## Black -/

/-- The merged rows of a frame: row number and values. -/
abbrev Merged := List (Nat × List Nat)

/-- b_row of R86: the rounded mean over the optical-black columns of the row and up to 63 rows before it. -/
def rowBlack (c : PixCfg) (m : Merged) (r : Nat) : Int :=
  if c.obCount = 0 then c.blackFixed
  else
    let rows := m.filter (fun x => decide (x.1 ≤ r) && decide (r < x.1 + 64))
    let s := sumN (rows.map (fun x => sumN ((x.2.drop c.obFirst).take c.obCount)))
    let k := c.obCount * rows.length
    if k = 0 then 0 else ((2 * s + k) / (2 * k) : Nat)

/-- COL_BLACK of a column. -/
def colBlack (c : PixCfg) (x : Nat) : Int := toInt 32 (rdLe c.colBlack (4 * x) 4)

/-- Rows of signed values, by row number. -/
abbrev Signed := List (Nat × List Int)

/-- The values leaving stage 4 (R86). -/
def blackStage (c : PixCfg) (m : Merged) : Signed :=
  m.map (fun x =>
    let b := rowBlack c m x.1
    (x.1, (x.2.zipIdx).map (fun v => (v.1 : Int) - b - colBlack c v.2)))

/-! ## Defect replacement -/

/-- The value at a place, absent outside the frame and in rows that did not complete. -/
def Signed.at (m : Signed) (r c : Int) : Option Int :=
  if r < 0 ∨ c < 0 then none
  else (m.find? (fun x => (x.1 : Int) == r)).bind (fun x => x.2[c.toNat]?)

/-- The pixel is in the defect list (R87). -/
def PixCfg.listed (c : PixCfg) (r x : Int) : Bool :=
  (List.range (c.defects.length / 4)).any (fun i => (rdLe c.defects (4 * i) 4 : Int) == r * 65536 + x)

/-- An unlisted pixel that exceeds its unlisted neighbours by more than HOT_THRESH (R87). -/
def PixCfg.isHot (c : PixCfg) (m : Signed) (r x : Int) : Bool :=
  c.hot && !(c.listed r x) &&
  match m.at r x with
  | none => false
  | some v =>
    let s : Int := c.step
    let nb := ([(r, x - s), (r, x + s), (r - s, x), (r + s, x)].filter (fun k => !(c.listed k.1 k.2))).filterMap
      (fun k => m.at k.1 k.2)
    match nb with
    | [] => false
    | n :: ns => decide (ns.foldl max n + (c.hotThresh : Int) < v)

/-- The lower median of a list. -/
def lowerMedian (l : List Int) : Int := ((l.mergeSort (fun a b => decide (a ≤ b))).getD ((l.length - 1) / 2) 0)

/-- The median of three. -/
def median3 (a b c : Int) : Int := max (min a b) (min (max a b) c)

/-- The replacement of a listed or hot pixel (R87). -/
def PixCfg.replace (c : PixCfg) (m : Signed) (r x v : Int) : Int :=
  let s : Int := c.step
  let get := fun (k : Int × Int) =>
    if c.listed k.1 k.2 || c.isHot m k.1 k.2 then none else m.at k.1 k.2
  let pairs := [((r, x - s), (r, x + s)), ((r - s, x), (r + s, x)), ((r - s, x - s), (r + s, x + s)),
    ((r - s, x + s), (r + s, x - s))].filterMap (fun pq =>
      match get pq.1, get pq.2 with
      | some a, some b => some (a, b, [a, b])
      | some a, none => some (a, a, [a])
      | none, some b => some (b, b, [b])
      | none, none => none)
  match pairs with
  | [] => v
  | p :: ps =>
    let best := ps.foldl (fun (a : Int × Int × List Int) b =>
      if (b.1 - b.2.1).natAbs < (a.1 - a.2.1).natAbs then b else a) p
    median3 best.1 best.2.1 (lowerMedian ((p :: ps).flatMap (fun y => y.2.2)))

/-- Stage 5 of one pixel. -/
def PixCfg.defectAt (c : PixCfg) (m : Signed) (r x : Nat) (v : Int) : Int :=
  if c.listed r x || c.isHot m r x then c.replace m r x v else v

/-- Hot pixels of the frame (HOT_COUNT, R87). -/
def PixCfg.hotCount (c : PixCfg) (m : Signed) : Nat :=
  sumN (m.map (fun row => ((List.range row.2.length).filter (fun (x : Nat) => c.isHot m (row.1 : Int) (x : Int))).length))

/-! ## Flat-field -/

/-- G[j][i] of block mode as a rational; an empty table is unity. -/
def PixCfg.blockGain (c : PixCfg) (i j : Nat) : FVal :=
  if c.flatBlock = [] then fr 1
  else fr ((rdLe c.flatBlock (2 * (j * ceilDiv c.width 16 + i)) 2 : Nat) / 16384)

/-- A coordinate of R88 clamped to the table: its integer and fractional parts. -/
def flatCoord (pos n : Nat) : Nat × FVal :=
  let u : Rat := max 0 (min ((((pos : Nat) : Rat) - 15 / 2) / 16) (((n - 1 : Nat) : Int) : Rat))
  let i := min (ratFloor u).toNat (n - 2)
  (i, if 1 < n then fr (u - ((i : Nat) : Rat)) else fr 0)

/-- A binary32 result rounded half-even to a whole unit. -/
def wholeOf (v : FVal) : Int := ratRoundEven v.toRat

/-- Stage 6 of one pixel (R88); `word` is its 24-bit per-pixel entry. -/
def PixCfg.flatAt (c : PixCfg) (word : Nat → Nat → Nat) (r x : Nat) (v : Int) : Int :=
  if c.flatMode = 1 then
    let bx := ceilDiv c.width 16
    let by' := ceilDiv c.height 16
    let u := flatCoord x bx
    let w := flatCoord r by'
    let i1 := min (u.1 + 1) (bx - 1)
    let j1 := min (w.1 + 1) (by' - 1)
    let lerp := fun (a b t : FVal) => fadd a (fmul t (fsub b a))
    let top := lerp (c.blockGain u.1 w.1) (c.blockGain i1 w.1) u.2
    let bot := lerp (c.blockGain u.1 j1) (c.blockGain i1 j1) u.2
    wholeOf (fmul (fr (v : Rat)) (lerp top bot w.2))
  else if c.flatMode = 2 then
    let e := word r x
    let g := fr (((e % 4096 : Nat) : Rat) / 1024)
    let o := fr ((toInt 12 (e / 4096) * 4 : Int) : Rat)
    wholeOf (fadd (fmul (fr (v : Rat)) g) o)
  else v

/-! ## Output formats -/

/-- Seusk Log of a U8.16 value, exactly (R91): with q = value + 16, the code is round(3276.75 × log2(q / 16)) and
log2(q^65535) decides it by its integer part. -/
def seuskLog (v : Nat) : Nat :=
  min (((Nat.log2 ((v + 16) ^ 65535) - 262140) / 10 + 1) / 2) 65535

/-- One sample of an output format other than PASS (R90), as 16 bits. -/
def outSample (fmt shift : Nat) (v : Int) : Nat :=
  let h : Int := if shift = 0 then 0 else 2 ^ (shift - 1)
  if fmt = 2 then ofInt 16 (clampI (-32768) 32767 ((v + h) / 2 ^ shift))
  else
    let u := (max v 0).toNat
    if fmt = 1 then min ((u + h.toNat) / 2 ^ shift) 65535 else seuskLog (min u 0xFFFFFF)

/-- The values of the rows that leave stage 6, for the rows named. -/
def stage6 (c : PixCfg) (word : Nat → Nat → Nat) (m : Signed) (rows : List Nat) : Signed :=
  (m.filter (fun x => rows.contains x.1)).map (fun row =>
    (row.1, row.2.zipIdx.map (fun v => c.flatAt word row.1 v.2 (c.defectAt m row.1 v.2 v.1))))

/-! ## Focus statistics -/

/-- g of R121 at a place: the clipped value shifted right by 8, or in PASS readout 0's code at 16 bits. -/
abbrev GPlane := Int → Int → Option Nat

/-- g from the values that leave stage 6. -/
def gOf (m : Signed) : GPlane := fun r c => (m.at r c).map (fun v => (clampI 0 0xFFFFFF v).toNat / 256)

/-- The greens of a cell of the mosaic: cell side and places (R121). -/
def greens (cfa : Nat) : Nat × List (Nat × Nat) :=
  let g2 := fun (k : Nat) => if k = 1 ∨ k = 4 then [(0, 1), (1, 0)] else [(0, 0), (1, 1)]
  if cfa = 0 then (1, [(0, 0)])
  else if cfa ≤ 4 then (2, g2 cfa)
  else (4, (g2 (cfa - 4)).flatMap (fun k =>
    [(2 * k.1, 2 * k.2), (2 * k.1, 2 * k.2 + 1), (2 * k.1 + 1, 2 * k.2), (2 * k.1 + 1, 2 * k.2 + 1)]))

/-- G[i][j]: the rounded mean of the cell's greens, absent when one of them is. -/
def planeAt (cfa : Nat) (g : GPlane) (i j : Int) : Option Nat :=
  let s := greens cfa
  let vs := s.2.map (fun k => g (i * (s.1 : Int) + (k.1 : Int)) (j * (s.1 : Int) + (k.2 : Int)))
  if vs.any (fun v => v.isNone) then none
  else
    let n := s.2.length
    some ((2 * sumN (vs.map (fun v => v.getD 0)) + n) / (2 * n))

/-- d(x) of R122. -/
def cored (coring : Nat) (x : Int) : Nat := x.natAbs - coring

/-- A sum that saturates at 64 bits. -/
def sat64 (n : Nat) : Nat := min n (2 ^ 64 - 1)

/-- The whole support of the measure at a plane sample, as values (R122); absent when any part is. -/
def support (measure cfa : Nat) (g : GPlane) (i j : Int) : Option (List Int) :=
  let at' := fun (a b : Int) => planeAt cfa g (i + a) (j + b)
  let offs : List (Int × Int) :=
    if measure = 0 then [(0, 0), (0, -2), (0, -1), (0, 1), (0, 2), (-2, 0), (-1, 0), (1, 0), (2, 0)]
    else if measure = 1 then [(0, 0), (-1, -1), (-1, 0), (-1, 1), (0, -1), (0, 1), (1, -1), (1, 0), (1, 1)]
    else [(0, 0)]
  let vs := offs.map (fun o => at' o.1 o.2)
  if vs.any (fun v => v.isNone) then none else some (vs.map (fun v => ((v.getD 0 : Nat) : Int)))

/-- The sharpness term of a sample from its support. -/
def sharpTerm (measure coring : Nat) (v : List Int) : Nat :=
  let a := fun i => v.getD i 0
  if measure = 0 then
    let dh := (4 * a 0 - a 1 - a 2 - a 3 - a 4) / 4
    let dv := (4 * a 0 - a 5 - a 6 - a 7 - a 8) / 4
    cored coring dh ^ 2 + cored coring dv ^ 2
  else if measure = 1 then
    let gx := (a 3 + 2 * a 5 + a 8) - (a 1 + 2 * a 4 + a 6)
    let gy := (a 6 + 2 * a 7 + a 8) - (a 1 + 2 * a 2 + a 3)
    cored coring gx ^ 2 + cored coring gy ^ 2
  else 0

/-- SHARP, SUM, SUMSQ and COUNT of a window (R122). -/
def windowStats (f : FocusCfg) (cfa : Nat) (g : GPlane) (win : Nat) : Nat × Nat × Nat × Nat :=
  let n := (greens cfa).1
  let x := win / 2 ^ 48
  let y := win / 2 ^ 32 % 65536
  let wd := win / 65536 % 65536
  let ht := win % 65536
  let is := (List.range (ceilDiv (y + ht) n)).filter (fun i => decide (y ≤ i * n) && decide ((i + 1) * n ≤ y + ht))
  let js := (List.range (ceilDiv (x + wd) n)).filter (fun j => decide (x ≤ j * n) && decide ((j + 1) * n ≤ x + wd))
  let r := is.foldl (fun acc (i : Nat) => js.foldl (fun (acc : Nat × Nat × Nat × Nat) (j : Nat) =>
    match support f.measure cfa g i j with
    | none => acc
    | some v =>
      let c := (v.getD 0 0).toNat
      (sat64 (acc.1 + sharpTerm f.measure f.coring v), sat64 (acc.2.1 + c), sat64 (acc.2.2.1 + c * c),
       acc.2.2.2 + 1)) acc) (0, 0, 0, 0)
  if f.measure = 2 then
    let sharp := if r.2.1 = 0 then 0 else (r.2.2.2 * r.2.2.1 - r.2.1 * r.2.1) / (r.2.2.2 * r.2.1)
    (sat64 sharp, r.2)
  else r

end Sys2Proof.Machine
end

