-- ==== Sys2Proof/Machine/SeqOps.lean ====
section
/-! DEFINITION. The settings sequencer (R108 to R117): records, write windows, misses, re-targeting and the
applied-groups vector. The port is always the leading port of a gang (R110). -/

namespace Sys2Proof.Machine

/-- The sequencer of port `p`. -/
def Dev.seq (d : Dev) (p : Nat) : Sequencer := nth d.seqr p

/-- The sequencer of port `p` changed. -/
def setSeq (p : Nat) (f : Sequencer → Sequencer) (d : Dev) : Dev := { d with seqr := updAt p f d.seqr }

/-- Group `g` is used (R108). -/
def Dev.groupUsed (d : Dev) (p g : Nat) : Bool := d.get (Reg.grp_CHANNEL p g) != 0

/-- L of a group. -/
def Dev.latency (d : Dev) (p g : Nat) : Nat := d.get (Reg.grp_LATENCY p g)

/-- The bytes of a write: TEMPLATE with the value's low VALUE_LEN bytes at VALUE_OFFSET (R108). -/
def Dev.groupBytes (d : Dev) (p g value : Nat) : List Byte :=
  let t := d.bytes (Reg.grp_TEMPLATE p g)
  let off := d.get (Reg.grp_VALUE_OFFSET p g)
  let v := leBytes (d.get (Reg.grp_VALUE_LEN p g)) value
  let v' := if d.flag (Reg.grp_VALUE_BIG_ENDIAN p g) then v.reverse else v
  putB (padTo (max t.length (off + v'.length)) t) off v'

/-- A group write offered on its channel (R108, R114). -/
def offerGroup (p g value : Nat) (o : Owner) (d : Dev) : Dev :=
  let b := d.groupBytes p g value
  if d.get (Reg.grp_CHANNEL p g) = 1 then
    let n := d.get (Reg.grp_BUS p g)
    twSync n (twOffer n (twSettings (d.get (Reg.grp_TARGET p g)) b o) d)
  else sbOffer p { ty := 0x10, payload := b, owner := o, tb := 0 } d

/-- The landing frame of a record: the greatest target of its groups. -/
def SetRec.landing (r : SetRec) : Nat := r.groups.foldl (fun m x => max m x.target) 0

/-- Some write of the record is still to come or under way. -/
def SetRec.open? (r : SetRec) : Bool :=
  r.groups.any (fun x => match x.st with | .waiting => true | .running _ => true | _ => false)

/-- Two records share a group. -/
def SetRec.shares (a b : SetRec) : Bool := a.groups.any (fun x => b.groups.any (fun y => x.g == y.g))

/-- PENDING brought up to date. -/
def syncPending (p : Nat) (d : Dev) : Dev := setN (Reg.seq_PENDING p) (d.seq p).recs.length d

/-- The record with serial number `uid` changed. -/
def setRec (p uid : Nat) (f : SetRec → SetRec) (d : Dev) : Dev :=
  setSeq p (fun q => { q with recs := q.recs.map (fun r => if r.uid = uid then f r else r) }) d

/-- A group of a record changed. -/
def setGroup (p uid g : Nat) (f : GroupWrite → GroupWrite) : Dev → Dev :=
  setRec p uid (fun r => { r with groups := r.groups.map (fun x => if x.g = g then f x else x) })

/-- The record, if it is still pending. -/
def Dev.record? (d : Dev) (p uid : Nat) : Option SetRec := (d.seq p).recs.find? (fun r => r.uid == uid)

/-- The group of a pending record. -/
def Dev.groupOf? (d : Dev) (p uid g : Nat) : Option GroupWrite :=
  (d.record? p uid).bind (fun r => r.groups.find? (fun x => x.g == g))

/-- A write governs group `g` from head count `h` on (R109), an uncertain miss from frame `n` on (R117). -/
def govern (p g h n : Nat) (e : Applied) : Dev → Dev :=
  setSeq p (fun q => { q with gov := { g := g, since := h, frame := n, entry := e } :: q.gov })

/-- The head frame count begins anew at `new` where it would have come to `old` (R80): what is to govern counts by it. -/
def regovern (p old new : Nat) : Dev → Dev :=
  setSeq p (fun q => { q with gov := q.gov.map (fun x => { x with since := x.since + new - old }) })

/-- The mask of some groups. -/
def groupMask (l : List GroupWrite) : Nat := sumN (l.map (fun x => 2 ^ x.g))

/-- A record that can no longer land is dropped once no write of it is open; one of which no write was done has ended
unwritten. -/
def closeRec (p uid : Nat) (d : Dev) : Dev :=
  match d.record? p uid with
  | none => d
  | some r =>
    if !r.open? && r.groups.any (fun x => x.st == .dropped) then
      let d1 := syncPending p (setSeq p (fun q => { q with recs := q.recs.filter (fun x => x.uid != uid) }) d)
      if r.groups.any (fun y => y.st == .done) then d1 else { d1 with recEnds := d1.recEnds ++ [(p, r.id)] }
    else d

/-- Later pending records that share a group are moved to keep the rule of R113, each with EV 0x1002 (R116): `done` are
the records before, in acceptance order. A record whose writes have all started stays. -/
def moveLater (p : Nat) : List SetRec → List SetRec → Dev → Dev
  | _, [], d => d
  | done, r :: rs, d =>
    let need := (done.filter (fun x => x.shares r)).foldl (fun m x => max m (x.landing + 1)) 0
    if r.landing < need ∧ r.groups.any (fun x => x.st == .waiting) then
      let r' := { r with groups := r.groups.map (fun x => if x.st = .waiting then { x with target := need } else x) }
      moveLater p (done ++ [r']) rs (post 0x1002 p r.id need (setRec p r.uid (fun _ => r') d))
    else moveLater p (done ++ [r]) rs d

/-- A miss of group `g` (R115, R116): EV 0x1006; an uncertain miss marks the group from the missed frame on; then the
record is re-targeted, or abandoned for its unwritten groups after RETRY_LIMIT. -/
def missGroup (p uid g kind : Nat) (d : Dev) : Dev :=
  match d.record? p uid, d.groupOf? p uid g with
  | some r, some x =>
    let d1 := post 0x1006 p r.id (g * 256 + kind) (inc32 (Reg.grp_MISSED p g) d)
    let d2 := if kind = 2 then
        govern p g 0 x.target { uid := uid, id := 0xFFFFFFFF, value := 0 } d1
      else d1
    let misses := x.misses + 1
    let spent := decide (d.get (Reg.seq_RETRY_LIMIT p) ≤ misses) || r.groups.any (fun y => y.st == .dropped)
    if spent then
      let lost := r.groups.filter (fun y => y.g == g || y.st == .waiting)
      let d3 := setRec p uid (fun r => { r with groups := r.groups.map (fun y =>
        if y.g = g ∨ y.st = .waiting then { y with st := .dropped } else y) }) d2
      closeRec p uid (post 0x1004 p r.id (groupMask lost) d3)
    else
      let f := r.landing + 1
      let r' := { r with groups := r.groups.map (fun y =>
        if y.g = g then { y with st := .waiting, target := f, misses := misses }
        else if y.st = .waiting then { y with target := f } else y) }
      let d3 := post 0x1002 p r.id f (setRec p uid (fun _ => r') d2)
      let rs := (d3.seq p).recs
      moveLater p (rs.takeWhile (fun y => y.uid != uid) ++ [r']) ((rs.dropWhile (fun y => y.uid != uid)).drop 1) d3
  | _, _ => d

/-- A pending record lands once every group of it has succeeded and its frame has begun: EV 0x1003 (R114). -/
def landRec (p uid : Nat) (d : Dev) : Dev :=
  match d.record? p uid with
  | none => d
  | some r =>
    if r.landing < (nth d.itk p).frames && r.groups.all (fun x => x.st == .done) then
      syncPending p (setSeq p (fun q => { q with recs := q.recs.filter (fun x => x.uid != uid) })
        (post 0x1003 p r.id r.landing (setN (Reg.seq_LAST_LANDED p) r.id d)))
    else d

/-- The write of a group is done in its window: it succeeds and governs from head count h + L (R109, R114). -/
def groupDone (p uid g h : Nat) (d : Dev) : Dev :=
  match d.record? p uid, d.groupOf? p uid g with
  | some r, some x =>
    landRec p uid (closeRec p uid (govern p g (h + d.latency p g) 0 { uid := uid, id := r.id, value := x.value }
      (setGroup p uid g (fun y => { y with st := .done, misses := 0 }) d)))
  | _, _ => d

/-- The frame `n` in progress at port `p`. -/
def Dev.asm? (d : Dev) (p n : Nat) : Option Asm := (nth d.itk p).asms.find? (fun a => a.frame == n)

/-- The frame `n` in progress at port `p` changed. -/
def setAsm (p n : Nat) (f : Asm → Asm) (d : Dev) : Dev :=
  { d with itk := updAt p (fun x => { x with asms := x.asms.map (fun a => if a.frame = n then f a else a) }) d.itk }

/-- The state of a group's write window in a frame in progress: 0 unopened, 1 open, 2 closed. -/
def Dev.window (d : Dev) (p n g : Nat) : Nat := ((d.asm? p n).map (fun a => a.windows.getD g 0)).getD 2

/-- The state of a group's write window set. -/
def setWindow (p n g v : Nat) : Dev → Dev := setAsm p n (fun a => { a with windows := a.windows.set g v })

/-- A stored-value write of R111 ends: a success makes the entry read 0; a miss logs EV 0x1006 (R115) and is retried while
attempts are left. -/
def storedEnd (p g outcome : Nat) (d : Dev) : Dev :=
  let left := (((d.seq p).stored.find? (fun x => x.1 == g)).map (·.2)).getD 0
  let drop := setSeq p (fun q => { q with stored := q.stored.filter (fun x => x.1 != g) })
  let miss := fun (e : Dev) => post 0x1006 p 0 (g * 256 + outcome) (inc32 (Reg.grp_MISSED p g) e)
  if left = 0 then d
  else if outcome = 0 then
    govern p g 0 0 { uid := 0, id := 0, value := d.get (Reg.grp_STORED_VALUE p g) } (drop d)
  else if 1 < left then
    offerGroup p g (d.get (Reg.grp_STORED_VALUE p g)) (.stored p g)
      (setSeq p (fun q => { q with stored := q.stored.map (fun x => if x.1 = g then (g, left - 1) else x) }) (miss d))
  else
    govern p g 0 0 { uid := 0, id := 0xFFFFFFFF, value := 0 } (post 0x1004 p 0 (2 ^ g) (drop (miss d)))

/-- The end of a write told to its sequencer (R114, R115). -/
def endWrite (e : Ending) (d : Dev) : Dev :=
  match e.owner with
  | .record p uid g =>
    (match d.groupOf? p uid g with
     | none => d
     | some x =>
       if 0 < x.late then setGroup p uid g (fun y => { y with late := y.late - 1 }) d
       else match x.st with
         | .running n =>
           (match d.asm? p n with
            | some a =>
              if e.outcome = 0 then groupDone p uid g a.headCount d else missGroup p uid g e.outcome d
            | none => d)
         | _ => d)
  | .stored p g => storedEnd p g e.outcome d
  | _ => d

/-- Ends that wait are told to their sequencers; `fuel` bounds the rounds, since a retried write may end at once. -/
def tellEnds : Nat → Dev → Dev
  | 0, d => d
  | n + 1, d =>
    match d.ends with
    | [] => d
    | e :: es => tellEnds n (endWrite e { d with ends := es })

/-- All waiting ends told. -/
def settle (d : Dev) : Dev := tellEnds 4096 d

/-- The window of group `g` opens in frame `n`: the writes aimed at it start (R114). -/
def openWindow (p g n : Nat) (d : Dev) : Dev :=
  let d1 := setWindow p n g 1 d
  (d.seq p).recs.foldl (fun a r =>
    match r.groups.find? (fun x => x.g == g) with
    | some x =>
      if x.st = .waiting ∧ x.target = n + d.latency p g then
        offerGroup p g x.value (.record p r.uid g) (setGroup p r.uid g (fun y => { y with st := .running n }) a)
      else a
    | none => a) d1

/-- A queued write is taken back when its window closes: a clean miss (1), or an uncertain one (2) where an attempt of it had
data acknowledged before it lost arbitration (R115). -/
def withdrawQueued (p g : Nat) (o : Owner) (d : Dev) : Option Nat × Dev :=
  if d.get (Reg.grp_CHANNEL p g) = 1 then
    let n := d.get (Reg.grp_BUS p g)
    (((d.bus n).queue.find? (fun x => x.owner == o)).map (fun x => if x.seen = 0 then 1 else 2),
     setBus n (fun b => { b with queue := b.queue.filter (fun x => x.owner != o) }) d)
  else
    (((d.sb p 1).queue.find? (fun x => x.owner == o)).map (fun _ => 1),
     setSb p 1 (fun l => { l with queue := l.queue.filter (fun x => x.owner != o) }) d)

/-- The window of group `g` closes: a write not done is missed, uncertain when it is in progress (R115). -/
def closeWindow (p g n : Nat) (d : Dev) : Dev :=
  let d1 := setWindow p n g 2 d
  (d.seq p).recs.foldl (fun a r =>
    match a.groupOf? p r.uid g with
    | some x =>
      (match x.st with
       | .running m =>
         if m ≠ n then a else
         match withdrawQueued p g (.record p r.uid g) a with
         | (some kind, b) => missGroup p r.uid g kind b
         | (none, _) => missGroup p r.uid g 2 (setGroup p r.uid g (fun y => { y with late := y.late + 1 }) a)
       | _ => a)
    | none => a) d1

/-- The applied entry of group `g` for frame `n` of head count `h`: the newest write that governs it (R109, R117). -/
def Sequencer.entryFor (q : Sequencer) (g h n : Nat) : Applied :=
  match q.gov.find? (fun x => x.g == g && decide (x.since ≤ h) && decide (x.frame ≤ n)) with
  | some x => x.entry
  | none => { uid := 0, id := 0, value := 0 }

/-- MIXED (Table 5.4): of a record that is landing, pending or with a write that is yet to govern, some groups govern the frame
whose vector is `vec` and others do not. -/
def Sequencer.mixed (q : Sequencer) (vec : List Applied) (h : Nat) : Bool :=
  let here := fun (uid id g : Nat) => (vec.getD g default).uid == uid && (vec.getD g default).id == id
  q.recs.any (fun r => r.groups.any (fun x => here r.uid r.id x.g) && !(r.groups.all (fun x => here r.uid r.id x.g))) ||
  q.gov.any (fun x => x.entry.uid != 0 && x.entry.id != 0xFFFFFFFF && decide (h < x.since) &&
    (List.range 8).any (fun g => here x.entry.uid x.entry.id g))

/-- A frame begins (R114, R117): the vector is fixed, records that land are logged, and windows that open at the
beginning open. -/
def seqFrameBegin (p n h : Nat) (d : Dev) : Dev :=
  let q := d.seq p
  let vec := (List.range 8).map (fun g =>
    if d.groupUsed p g then q.entryFor g h n else { uid := 0, id := 0, value := 0 })
  let d1 := setAsm p n (fun a => { a with applied := vec, mixed := q.mixed vec h }) (setSeq p (fun q => { q with cur := vec }) d)
  let d2 := (List.range 8).foldl (fun a g => setN (Reg.grp_GOVERNING p g) (vec.getD g default).id a) d1
  let d3 := q.recs.foldl (fun a r => landRec p r.uid a) d2
  (List.range 8).foldl (fun a g =>
    if a.groupUsed p g && a.get (Reg.grp_WINDOW_FIRST p g) == 0 then openWindow p g n a else a) d3

/-- A row has completed in every readout: windows open and close (R108). `complete` says of a row whether it has
completed. -/
def seqRow (p n row : Nat) (complete : Nat → Bool) (d : Dev) : Dev :=
  let opened := (List.range 8).foldl (fun a g =>
    if a.groupUsed p g && decide (0 < row) && a.get (Reg.grp_WINDOW_FIRST p g) == row &&
      a.window p n g == 0 then openWindow p g n a else a) d
  (List.range 8).foldl (fun a g =>
    if a.groupUsed p g && a.window p n g == 1 && complete (a.get (Reg.grp_WINDOW_LAST p g)) then
      closeWindow p g n a else a) (settle opened)

/-- The frame ends: open windows close, and writes whose window never opened are clean misses (R108, R115). -/
def seqFrameEnd (p n : Nat) (d : Dev) : Dev :=
  let d1 := (List.range 8).foldl (fun a g =>
    if a.window p n g = 1 then closeWindow p g n a else a) d
  let unopened := (List.range 8).filter (fun g => d1.groupUsed p g && d1.window p n g == 0)
  let d2 := unopened.foldl (fun a g => (a.seq p).recs.foldl (fun b r =>
    match b.groupOf? p r.uid g with
    | some x => if x.st = .waiting ∧ x.target = n + b.latency p g then missGroup p r.uid g 1 b else b
    | none => b) a) d1
  settle (setAsm p n (fun a => { a with windows := List.replicate 8 2 }) d2)

/-- The sequencer stops at a mode change (R112): writes in progress are uncertain misses, queued ones are taken back, and every
pending record is abandoned for its unwritten groups, in acceptance order. -/
def seqStop (p : Nat) (d : Dev) : Dev :=
  let q := d.seq p
  let d1 := q.recs.foldl (fun a r =>
    let run := r.groups.filter (fun x => match x.st with | .running _ => true | _ => false)
    let a1 := run.foldl (fun b x =>
      match withdrawQueued p x.g (.record p r.uid x.g) b with
      | (some 1, c) => c
      | (_, c) => post 0x1006 p r.id (x.g * 256 + 2) (inc32 (Reg.grp_MISSED p x.g) c)) a
    let lost := r.groups.filter (fun x => x.st != .done && x.st != .dropped)
    let a2 := post 0x1004 p r.id (groupMask lost) a1
    if q.cur.any (fun e => e.uid == r.uid && e.uid != 0) then a2 else { a2 with recEnds := a2.recEnds ++ [(p, r.id)] }) d
  syncPending p (setSeq p (fun q => { q with recs := [], stored := [] }) d1)

/-- Entry to a capture mode: firmware writes each used group's STORED_VALUE (R111). -/
def seqStored (p : Nat) (d : Dev) : Dev :=
  let used := (List.range 8).filter (fun g => d.groupUsed p g)
  let lim := d.get (Reg.seq_RETRY_LIMIT p)
  let d1 := setSeq p (fun q => { q with gov := [], cur := [], stored := used.map (fun g => (g, lim)) }) d
  settle (used.foldl (fun a g => offerGroup p g (a.get (Reg.grp_STORED_VALUE p g)) (.stored p g) a) d1)

/-! ## SUBMIT -/

/-- The groups of a record's mask. -/
def maskGroups (m : Nat) : List Nat := (List.range 8).filter (fun g => bit m g == 1)

/-- The earliest frame whose window of group `g` has not opened. -/
def Dev.nextWindow (d : Dev) (p g : Nat) : Nat :=
  match (nth d.itk p).asms.find? (fun a => a.windows.getD g 0 == 0) with
  | some a => a.frame
  | none => (nth d.itk p).frames

/-- The earliest frame of a record (R113). -/
def Dev.earliest (d : Dev) (p mask : Nat) : Nat :=
  (maskGroups mask).foldl (fun m g => max m (d.nextWindow p g + d.latency p g)) 0

/-- The reason for which a submission is rejected (R112). -/
def submitReason (p : Nat) (b : List Byte) (d : Dev) : Option Nat :=
  let id := rdLe b 0 4
  let mask := rdLe b 4 1
  let next := bit (rdLe b 5 1) 0 = 1
  let target := rdLe b 8 8
  if !(captureMode d.mode) || d.lead p != p then some 6
  else if id = 0 ∨ id = 0xFFFFFFFF then some 1
  else if mask = 0 ∨ (maskGroups mask).any (fun g => !(d.groupUsed p g)) then some 5
  else if 16 ≤ (d.seq p).recs.length then some 4
  else if !next && decide (target < d.earliest p mask) then some 2
  else if !next && decide ((nth d.itk p).frames - 1 + 65536 < target) then some 3
  else none

/-- An accepted record with its landing frame (R113), EV 0x1001. -/
def acceptRecord (p : Nat) (b : List Byte) (d : Dev) : Dev :=
  let id := rdLe b 0 4
  let gs := maskGroups (rdLe b 4 1)
  let uid := (d.seq p).nextUid
  let mk := fun f => ({ uid := uid, id := id, groups := gs.map (fun g =>
    { g := g, value := rdLe b (0x10 + 8 * g) 8, target := f, st := .waiting, misses := 0, late := 0 }) } : SetRec)
  let base := max (d.earliest p (rdLe b 4 1)) (if bit (rdLe b 5 1) 0 = 1 then 0 else rdLe b 8 8)
  let f := ((d.seq p).recs.filter (fun r => r.shares (mk 0))).foldl (fun m r => max m (r.landing + 1)) base
  post 0x1001 p id f (syncPending p (setSeq p (fun q =>
    { q with recs := q.recs ++ [mk f], nextUid := uid + 1 }) d))

/-- A write of SUBMIT (R112). -/
def writeSubmit (w : Writer) (p : Nat) (b : List Byte) : State → WRes :=
  entryWrite w (Reg.seq_SUBMIT p) (.bytes b)
    (fun s =>
      if rdLe b 5 1 / 2 ≠ 0 ∨ rdLe b 6 2 ≠ 0 then refuse stRANGE
      else match submitReason p b s.dev with
        | some r => some (stREFUSED, post 0x1005 p (rdLe b 0 4) r)
        | none => none)
    (fun _ => onDev (acceptRecord p b))

/-- SUBMIT (R112). -/
def execSubmit (w : Writer) (p : Fin 4) (rec : List Byte) (s : State) : Host.Outcome State Fault Refusal :=
  .next (finishWrite s (writeSubmit w p.val rec s))

end Sys2Proof.Machine
end

