-- ==== Sys2Proof/Machine/FrameOps.lean ====
section
/-! DEFINITION. Frames in the front-ends: beginning, rows, faults and end (R79 to R101), burst capture (R102 to R104),
frame records (R118 to R120) and statistics blocks (R123, R124). The port is always the leading port of a gang. -/

namespace Sys2Proof.Machine

/-- The front-end of port `p`. -/
def Dev.intake (d : Dev) (p : Nat) : Intake := nth d.itk p

/-- The front-end of port `p` changed. -/
def setItk (p : Nat) (f : Intake → Intake) (d : Dev) : Dev := { d with itk := updAt p f d.itk }

/-- Event code `x` of a front-end (R106). -/
def itkEv (p x : Nat) : Nat := (0x0C + p) * 256 + x

/-- `n` at word `v`, low 32 bits. -/
def lo32 (n : Nat) : Nat := n % 2 ^ 32

/-! ## Slots -/

/-- SLOT_BYTES (R92). -/
def slotBytes (c : PixCfg) : Nat :=
  let data := if c.fmt = 0 then ceilDiv (c.width * c.height * c.readouts * c.w) 8 else c.width * c.height * 2
  256 + roundUp data 256

/-- SLOTS_FREE brought up to date. -/
def syncSlots (p : Nat) (d : Dev) : Dev :=
  let x := d.intake p
  setN (Reg.itk_SLOTS_FREE p) (x.slotCount - (x.slots.filter (fun s => s.st != 0)).length) d

/-- The index of the slot with the least stamp among those that satisfy `ok`. -/
def oldestSlot (ok : Slot → Bool) (l : List Slot) : Option Nat :=
  (l.zipIdx.foldl (fun (b : Option (Nat × Nat)) x =>
    if ok x.1 then
      (match b with
       | none => some (x.1.stamp, x.2)
       | some y => if x.1.stamp < y.1 then some (x.1.stamp, x.2) else b)
    else b) none).map (·.2)

/-- The frames before this number may be overwritten in a burst ring: all before the trigger, else those before
T − BURST_PRE (R102). -/
def Dev.burstFrom (d : Dev) (p : Nat) : Option Nat :=
  (d.intake p).burst.trigFrame.map (fun t => t - d.get (Reg.itk_BURST_PRE p))

/-- The slot that the next frame takes (R93, R102): a slot never taken, the oldest FREE slot, or where the mode allows
it the oldest HELD slot. -/
def Dev.slotFor (d : Dev) (p : Nat) : Option Nat :=
  let x := d.intake p
  if x.slots.length < x.slotCount then some x.slots.length
  else match oldestSlot (fun s => s.st == 0) x.slots with
    | some i => some i
    | none =>
      if d.mode = mPREVIEW ∨ d.mode = mCALIBRATE then oldestSlot (fun s => s.st == 2 && s.running == 0) x.slots
      else if d.mode = mBURST then
        oldestSlot (fun s => s.st == 2 && (match d.burstFrom p with
          | none => true
          | some f => decide (s.frame < f))) x.slots
      else none

/-- A slot becomes FILLING for a frame. -/
def takeSlot (p i n : Nat) (d : Dev) : Dev :=
  let s : Slot := { st := 1, stamp := (d.intake p).stamp, frame := n, sofTb := tbNow d, holds := 0, running := 0 }
  syncSlots p (setItk p (fun x =>
    { x with stamp := x.stamp + 1, slots := if i < x.slots.length then x.slots.set i s else x.slots ++ [s] }) d)

/-- A consumer of a slot's frame added. -/
def holdSlot (p i n : Nat) : Dev → Dev :=
  setItk p (fun x => { x with slots := x.slots.modify i (fun s => if s.frame = n then { s with holds := s.holds + 1 } else s) })

/-- A consumer releases a slot; the last makes it FREE, outside BURST and the OFFLOAD of what BURST holds (R93, R102). -/
def releaseSlot (p i n : Nat) (d : Dev) : Dev :=
  let free := d.mode != mBURST && d.mode != mOFFLOAD
  syncSlots p (setItk p (fun x => { x with
    stamp := x.stamp + 1
    slots := x.slots.modify i (fun s =>
      if s.frame = n ∧ s.st = 2 then
        (if s.holds ≤ 1 ∧ free then { s with st := 0, holds := 0, stamp := x.stamp } else { s with holds := s.holds - 1 })
      else s) }) d)

/-- The pound address of slot `i`. -/
def Dev.slotAddr (d : Dev) (p i : Nat) : Nat := d.get (Reg.itk_RING_BASE p) + i * d.get (Reg.itk_SLOT_BYTES p)

/-! ## Frame records -/

/-- SENSOR_TEMP in 1/16 °C, or 0x8000 (R118). -/
def Dev.sensorTemp (d : Dev) (p : Nat) : Nat :=
  let i := d.get (Reg.seq_TEMP_AIN p)
  if 16 ≤ i then 0x8000
  else
    match fadd (fmul (f32v (d.get (Reg.seq_TEMP_GAIN p))) (f32v (d.get (Reg.ain_AIN_VOLTS i))))
        (f32v (d.get (Reg.seq_TEMP_OFFSET p))) with
    | .fin neg q =>
      let v := ratRoundEven ((if neg then -q else q) * 16)
      if -32768 < v ∧ v ≤ 32767 then ofInt 16 v else 0x8000
    | _ => 0x8000

/-- STATUS bits of Table 5.4. -/
abbrev fDROPPED : Nat := 0
abbrev fMALFORMED : Nat := 1
abbrev fLATE : Nat := 2
abbrev fOVERFLOW : Nat := 3
abbrev fUNPAIRED : Nat := 4
abbrev fPOISON : Nat := 5
abbrev fSKIPPED : Nat := 6
abbrev fDARK : Nat := 7
abbrev fNOTLOSSLESS : Nat := 8
abbrev fFLOOR : Nat := 9
abbrev fMIXED : Nat := 10
abbrev fSTATSINC : Nat := 11
abbrev fUNCERTAIN : Nat := 12

/-- A word with the bits of a list set. -/
def flags (l : List (Nat × Bool)) : Nat := sumN (l.map (fun x => if x.2 then 2 ^ x.1 else 0))

/-- A structure with its CRC-32C appended. -/
def withCrc (b : List Byte) : List Byte := b ++ leBytes 4 (crc32c b)

/-- The 256-byte frame record (Table 5.3). -/
def recordBytes (d : Dev) (p : Nat) (a : Asm) (c : PixCfg) (valid status : Nat) : List Byte :=
  let fixed := ascii "LFRM" ++ leBytes 2 1 ++ leBytes 1 p ++ leBytes 1 c.readouts ++ leBytes 8 a.frame ++
    leBytes 8 a.sofTb ++ leBytes 8 (tbNow d) ++ leBytes 8 a.trigTb ++ leBytes 4 valid ++ leBytes 4 status
  let vec := (List.range 8).flatMap (fun g => leBytes 4 (a.applied.getD g default).id)
  let vals := (List.range 8).flatMap (fun g => leBytes 8 (a.applied.getD g default).value)
  let slot := a.slot.map (fun i => d.slotAddr p i)
  let stats := match a.slot with
    | some i => if a.focus.enable then d.get (Reg.foc_STATS_BASE p) + 4096 * i else 0
    | none => 0
  withCrc (padTo 252 (fixed ++ vec ++ vals ++ leBytes 2 a.temp ++ leBytes 2 a.headField ++ zeros 4 ++ leBytes 8 stats ++
    leBytes 8 (a.partner.getD (2 ^ 64 - 1)) ++ leBytes 8 (slot.getD 0) ++ zeros 8 ++ leBytes 2 c.width ++
    leBytes 2 c.height ++ leBytes 1 c.fmt ++ leBytes 1 c.cfa ++ leBytes 1 c.w ++ zeros 1 ++ leBytes 4 a.skipped ++
    leBytes 4 a.dark ++ leBytes 4 a.epoch))

/-- Where the record of a frame goes: to its slot, or to the next place of the drop-record area (R94, R118). -/
def Dev.recordAddr (d : Dev) (p : Nat) (slot : Option Nat) : Nat :=
  match slot with
  | some i => d.slotAddr p i
  | none => d.get (Reg.frm_DROP_RECORD_BASE p) + 256 * (d.intake p).dropIdx

/-- The record written to the slot, or to the drop-record area (R94, R118); LAST_FRAME_RECORD reads it (R120). -/
def writeRecord (p : Nat) (a : Asm) (b : List Byte) (s : State) : State :=
  onDev (fun d =>
      setItk p (fun x => { x with dropIdx := if a.slot.isSome then x.dropIdx else (x.dropIdx + 1) % 64 })
        (setB (Reg.frm_LAST_FRAME_RECORD p) b d))
    (poundWrite (s.dev.recordAddr p a.slot) b s)

/-- A later update of a record in its slot (R119): flags set and AMTAN_SIZE written, only while the slot still holds the
frame and the record's own line is not poisoned. -/
def updateRecord (p i n : Nat) (set : Nat) (amtan : Option Nat) (s : State) : State :=
  let a := s.dev.slotAddr p i
  let r := poundRead a 256 s
  if r.2 || rdLe r.1 8 8 != n || rdLe r.1 6 1 != p then s
  else
    let b1 := putB r.1 0x2C (leBytes 4 (Nat.lor (rdLe r.1 0x2C 4) set))
    let b2 := match amtan with
      | some v => putB b1 0xB0 (leBytes 4 v)
      | none => b1
    poundWrite a (withCrc (b2.take 252)) s

/-! ## Rows -/

/-- The merged rows of a frame in progress (rows written as zeros left out). -/
def mergedRows (c : PixCfg) (a : Asm) : Merged :=
  (a.rows.filter (fun r => !r.readouts.isEmpty)).map (fun r => (r.row, mergeRow c r.readouts))

/-- The value of `n` bits of each sample, least significant bit first. -/
def packLsb (w : Nat) (l : List Nat) : Nat := (l.zipIdx).foldl (fun a x => a + (x.1 % 2 ^ w) * 2 ^ (w * x.2)) 0

/-- Row `r` of a frame in PASS format, put at its bit position (R90). -/
def writePass (c : PixCfg) (base r : Nat) (samples : List Nat) (s : State) : State :=
  let bits := c.width * c.readouts * c.w
  let o := r * bits
  let a := base + 256 + o / 8
  let n := ceilDiv (o % 8 + bits) 8
  let old := leNat (poundRead a n s).1
  let low := old % 2 ^ (o % 8)
  let high := old / 2 ^ (o % 8 + bits)
  poundWrite a (leBytes n (low + packLsb c.w samples * 2 ^ (o % 8) + high * 2 ^ (o % 8 + bits))) s

/-- The per-pixel flat-field entry of a place, read from the pound (R88): of the table that FLATBUILD made, or else of the one
that firmware has loaded from FLAT_PIXEL_SOURCE, whose contents are free (R89, assumption 92). A poisoned line gives gain 1.0
and offset 0 (Table 11.2). -/
def flatWord (c : PixCfg) (s : State) (r x : Nat) : Nat :=
  if c.flatTable = 0 then Config.flatPixel c.flatSource (r * c.width + x) % 2 ^ 24
  else
    let w := poundRead (c.flatTable + 3 * (r * c.width + x)) 3 s
    if w.2 then 0x400 else leNat w.1

/-- The rows whose corrected values a newly complete row can change: those of the black window and within the reach of
defect replacement. -/
def touchedRows (c : PixCfg) (a : Asm) (r : Nat) : List Nat :=
  (a.rows.map (fun x => x.row)).filter (fun q => decide (r ≤ q + 2 * c.step) && decide (q ≤ r + 63 + 2 * c.step))

/-- The rows of a frame written to its slot after row `r` has completed (stages 2 to 8; R79). -/
def writeRows (c : PixCfg) (p : Nat) (a : Asm) (r : Nat) (s : State) : State :=
  match a.slot with
  | none => s
  | some i =>
    let base := s.dev.slotAddr p i
    if c.fmt = 0 then
      (match a.rows.find? (fun x => x.row == r) with
       | some x => writePass c base r (x.readouts.flatten) s
       | none => s)
    else
      let m := blackStage c (mergedRows c a)
      let zero := a.rows.any (fun x => x.row == r && x.readouts.isEmpty)
      let s1 := if zero then poundWrite (base + 256 + r * c.width * 2) (zeros (c.width * 2)) s else s
      (stage6 c (flatWord c s) m (touchedRows c a r)).foldl (fun t row =>
        poundWrite (base + 256 + row.1 * c.width * 2)
          (row.2.flatMap (fun v => leBytes 2 (outSample c.fmt c.linShift v))) t) s1

/-- Bytes of an output row. -/
def PixCfg.rowBytes (c : PixCfg) : Nat := if c.fmt = 0 then ceilDiv (c.width * c.readouts * c.w) 8 else c.width * 2

/-- ROWS_VALID: complete rows counted upward from row 0 (R81). -/
def rowsValid (rows : List FullRow) : Nat → Nat → Nat
  | 0, n => n
  | k + 1, n => if rows.any (fun x => x.row == n) then rowsValid rows k (n + 1) else n

/-- ROWS_VALID of a frame in progress. -/
def Asm.valid (a : Asm) : Nat := rowsValid a.rows a.rows.length 0

/-! ## Statistics -/

/-- The g plane of a frame over the rows below `lim` (R121). -/
def gPlane (c : PixCfg) (s : State) (rows : List FullRow) (lim : Nat) : GPlane :=
  if c.fmt = 0 then
    fun r x =>
      if r < 0 ∨ x < 0 ∨ (lim : Int) ≤ r then none
      else ((rows.find? (fun y => (y.row : Int) == r)).bind (fun y => (y.readouts.getD 0 [])[x.toNat]?)).map
        (fun v => v * 2 ^ (16 - c.w))
  else
    let m := blackStage c ((rows.filter (fun r => !r.readouts.isEmpty)).map (fun r => (r.row, mergeRow c r.readouts)))
    gOf (stage6 c (flatWord c s) m ((List.range lim)))

/-- The statistics block (Table 5.5). -/
def statsBytes (p frame ready rows state : Nat) (f : FocusCfg) (applied : List Nat)
    (win : Nat → Nat × Nat × Nat × Nat) : List Byte :=
  let head := ascii "LFST" ++ leBytes 1 1 ++ leBytes 1 p ++ leBytes 1 f.windows.length ++ leBytes 1 f.measure ++
    leBytes 8 frame ++ leBytes 8 ready ++ leBytes 4 rows ++ leBytes 1 state ++ zeros 3 ++
    (List.range 8).flatMap (fun g => leBytes 4 (applied.getD g 0))
  let ws := f.windows.flatMap (fun w =>
    let r := win w
    leBytes 8 r.1 ++ leBytes 8 r.2.1 ++ leBytes 8 r.2.2.1 ++ leBytes 4 r.2.2.2 ++ zeros 4)
  padTo 4096 (withCrc (padTo 0x840 (head ++ ws)))

/-- A write of a frame's statistics block, with EV 0x1201 (R124). -/
def writeStats (c : PixCfg) (p frame slot rows state : Nat) (f : FocusCfg) (full : List FullRow) (applied : List Nat)
    (s : State) : State :=
  let b := statsBytes p frame (tbNow s.dev) rows state f applied (windowStats f c.cfa (gPlane c s full rows))
  onDev (post 0x1201 p (lo32 frame) state) (poundWrite (s.dev.get (Reg.foc_STATS_BASE p) + 4096 * slot) b s)

/-- The windows in use: WINDOWS, whose default is the whole frame (Table 5.7). -/
def Dev.focusWindows (d : Dev) (p : Nat) : List Nat :=
  let b := d.bytes (Reg.foc_WINDOWS p)
  let n := d.get (Reg.foc_WINDOW_COUNT p)
  if b = [] then
    ((d.get (Reg.itk_WIDTH p) / 2 * 2) * 65536 + d.get (Reg.itk_HEIGHT p) / 2 * 2) :: List.replicate (n - 1) 0
  else (List.range n).map (fun i => rdLe b (8 * i) 8)

/-- The focus settings that the next frame takes (R123). -/
def Dev.focusCfg (d : Dev) (p : Nat) : FocusCfg :=
  { enable := d.flag (Reg.foc_STATS_ENABLE p), measure := d.get (Reg.foc_MEASURE p), windows := d.focusWindows p
    coring := d.get (Reg.foc_CORING p), partialRow := d.get (Reg.foc_PARTIAL_ROW p) }

/-- The settings of a port's front-end with its flat-field table. -/
def Dev.pix (d : Dev) (p : Nat) : PixCfg := pixCfg d p (d.intake p).flatTable

/-- The settings that a frame takes when it begins. -/
def Dev.livePix (d : Dev) (p : Nat) : LivePix :=
  { blackFixed := d.get (Reg.itk_BLACK_FIXED p), hot := d.flag (Reg.itk_HOT_ENABLE p), hotThresh := d.get (Reg.itk_HOT_THRESH p) }

/-- The settings with which a frame is processed: those that it took. -/
def Dev.pixAs (d : Dev) (p : Nat) (l : LivePix) : PixCfg :=
  { d.pix p with blackFixed := toInt 32 l.blackFixed, hot := l.hot, hotThresh := l.hotThresh }

/-! ## Pairing (R101) -/

/-- The port a port pairs with, if any, and the window. -/
def Dev.pairOf (d : Dev) (p : Nat) : Option (Nat × Nat) :=
  let own := d.get (Reg.itk_PAIR_PORT p)
  let other := (List.range 4).find? (fun q => d.get (Reg.itk_PAIR_PORT q) == p && q != p)
  if own < 4 then
    let q := own
    let both := d.get (Reg.itk_PAIR_PORT q) = p
    some (q, d.get (Reg.itk_PAIR_WINDOW (if both then min p q else p)))
  else other.map (fun q => (q, d.get (Reg.itk_PAIR_WINDOW q)))

/-- The nearest candidate of the other port; the lower frame number on a tie. -/
def nearest (trig window : Nat) (l : List Asm) : Option Asm :=
  (l.filter (fun a => a.partner.isNone && decide ((tbDiff a.trigTb trig).natAbs ≤ window))).foldl
    (fun b a => match b with
      | none => some a
      | some x =>
        let da := (tbDiff a.trigTb trig).natAbs
        let dx := (tbDiff x.trigTb trig).natAbs
        if da < dx ∨ (da = dx ∧ a.frame < x.frame) then some a else b) none

/-- The pairing of a frame that ends (R101): its partner, whether it is UNPAIRED, and the units after it. -/
def pairFrame (p : Nat) (a : Asm) (d : Dev) : Option (Nat × Nat) × Bool × Dev :=
  match a.partner, d.pairOf p with
  | some n, _ => (some (n, a.partnerSof.getD 0), false, d)
  | none, none => (none, false, d)
  | none, some (q, w) =>
    match nearest a.trigTb w (d.intake q).asms with
    | some b => (some (b.frame, b.sofId), false, setAsm q b.frame (fun x => { x with partner := some a.frame, partnerSof := some a.sofId }) d)
    | none => (none, true, post (itkEv p 6) 0xFFFF (lo32 a.frame) (d.get (Reg.itk_PAIR_PORT p)) d)

/-! ## Burst capture -/

/-- The port captures in BURST (R102). -/
def Dev.capturing (d : Dev) (p : Nat) : Bool :=
  d.mode == mBURST && d.lead p == p && (d.intake p).hasRing && (d.intake p).burst.armed

/-- The burst of port `p` changed. -/
def setBurst (p : Nat) (f : Burst → Burst) : Dev → Dev := setItk p (fun x => { x with burst := f x.burst })

/-- Every capturing port has logged EV 0x0C05 (R103). -/
def Dev.burstDone (d : Dev) : Bool :=
  let ps := (List.range 4).filter (fun p => d.capturing p)
  !ps.isEmpty && ps.all (fun p => (d.intake p).burst.complete)

/-- Frames held of a burst whose trigger frame is `t`, ahead of it (R102): all since the capture began, if fewer than
BURST_PRE. -/
def Dev.preHeld (d : Dev) (p t : Nat) : Nat := min (t - (d.intake p).burst.base) (d.get (Reg.itk_BURST_PRE p))

/-- Every frame up to T + BURST_POST − 1 has begun and ended: capture stops (R102), and EV 0x0C05 is logged (R103). -/
def burstCheck (p : Nat) (d : Dev) : Dev :=
  match d.capturing p, (d.intake p).burst.trigFrame with
  | true, some t =>
    let x := d.intake p
    let last := t + d.get (Reg.itk_BURST_POST p)
    if last ≤ x.frames ∧ x.asms.all (fun a => decide (last ≤ a.frame)) ∧ !x.burst.complete then
      let d1 := post (itkEv p 5) 0xFFFF (d.preHeld p t + d.get (Reg.itk_BURST_POST p)) (lo32 t)
        (setBurst p (fun b => { b with stopped := true, complete := true }) d)
      if d1.burstDone && d1.flag Reg.mode_BURST_AUTO_OFFLOAD then { d1 with forced := d1.forced ++ [4] } else d1
    else d
  | _, _ => d

/-- The first frame whose SOF TB is at or after a trigger TB (R102): of those held or in progress, else the next
(assumption 97). -/
def Intake.frameFrom (x : Intake) (tb : Nat) : Nat :=
  let l := x.slots.map (fun s => (s.frame, s.sofTb)) ++ x.asms.map (fun a => (a.frame, a.sofTb))
  (l.filter (fun y => decide (x.burst.base ≤ y.1) && decide (0 ≤ tbDiff y.2 tb))).foldl (fun m y => min m y.1) x.frames

/-- A firing of the trigger source (R103): the first after arming fixes T, later ones are counted. -/
def fireTrigger (p tb : Nat) (frame : Option Nat) (d : Dev) : Dev :=
  if !(d.capturing p) then d
  else match (d.intake p).burst.fired with
    | some _ => inc32 (Reg.itk_TRIG_IGNORED p) d
    | none =>
      let t := frame.getD ((d.intake p).frameFrom tb)
      burstCheck p (post (itkEv p 4) 0xFFFF (lo32 t) (d.get (Reg.itk_TRIG_SOURCE p))
        (setN (Reg.itk_TRIG_FRAME p) t (setN (Reg.itk_TRIG_PRE_HELD p) (d.preHeld p t)
          (setBurst p (fun b => { b with fired := some tb, trigFrame := some t }) d))))

/-- The window of the level detector clipped to the frame: x, y, width, height (R104). -/
def levelRect (d : Dev) (p : Nat) (c : PixCfg) : Nat × Nat × Nat × Nat :=
  let v := d.get (Reg.itk_LEVEL_WINDOW p)
  let x := field v 63 48
  let y := field v 47 32
  (x, y, min (field v 31 16) (c.width - x), min (field v 15 0) (c.height - y))

/-- The output-format samples of a row of a frame, all readouts in PASS. -/
def outRow (c : PixCfg) (s : State) (base r : Nat) : List (List Int) :=
  if c.fmt = 0 then
    let bits := c.width * c.readouts * c.w
    let o := r * bits
    let v := leNat (poundRead (base + 256 + o / 8) (ceilDiv (o % 8 + bits) 8) s).1 / 2 ^ (o % 8)
    (List.range c.readouts).map (fun i => (List.range c.width).map (fun x =>
      ((v / 2 ^ (c.w * (i * c.width + x)) % 2 ^ c.w : Nat) : Int)))
  else
    let b := (poundRead (base + 256 + r * c.width * 2) (c.width * 2) s).1
    [(List.range c.width).map (fun x => if c.fmt = 2 then toInt 16 (rdLe b (2 * x) 2) else (rdLe b (2 * x) 2 : Int))]

/-- Rows below a row that must have come before its samples are final: those that defect replacement looks at (R87). -/
def PixCfg.reach (c : PixCfg) : Nat := if c.fmt = 0 ∨ (c.defects = [] ∧ !c.hot) then 0 else 2 * c.step

/-- The level detector after a row has been written, or with the frame at its end (R104): the frame is evaluated once its
window's rows are all written in their final form, and a crossing fires the trigger with the frame as T. -/
def levelCheck (c : PixCfg) (p n : Nat) (ended : Bool) (s : State) : State :=
  match s.dev.asm? p n with
  | none => s
  | some a =>
    let w := levelRect s.dev p c
    if !(s.dev.capturing p) || s.dev.get (Reg.itk_TRIG_SOURCE p) != 4 || a.levelDone || w.2.2.1 == 0 || w.2.2.2 == 0 ||
      !((List.range (if ended then w.2.2.2 else min (w.2.2.2 + c.reach) (c.height - w.2.1))).all (fun k =>
        a.rows.any (fun r => r.row == w.2.1 + k))) || (ended && decide (a.valid < w.2.1 + w.2.2.2)) then s
    else
      match a.slot with
      | none => s
      | some i =>
        let base := s.dev.slotAddr p i
        let vals := (List.range w.2.2.2).flatMap (fun k =>
          (outRow c s base (w.2.1 + k)).flatMap (fun l => (l.drop w.1).take w.2.2.1))
        let mean : Rat := ((sumI vals : Int) : Rat) / ((vals.length : Nat) : Rat)
        let th : Rat := ((s.dev.get (Reg.itk_LEVEL_THRESHOLD p) : Nat) : Rat)
        let falling := s.dev.flag (Reg.itk_LEVEL_FALLING p)
        let crosses := match (s.dev.intake p).burst.prevMean with
          | none => false
          | some m => if falling then decide (mean < th) && decide (th ≤ m) else decide (th ≤ mean) && decide (m < th)
        let d1 := setAsm p n (fun a => { a with levelDone := true })
          (setBurst p (fun b => { b with prevMean := some mean }) s.dev)
        { s with dev := if crosses then fireTrigger p a.sofTb (some n) d1 else d1 }

/-! ## Beginning, rows, end -/

/-- The port accepts frames: running, aligned, its lanes ACTIVE, none of its gang stopped for a realignment, and its burst
not complete (R71, R68, R102). -/
def Dev.accepts (d : Dev) (p : Nat) : Bool :=
  let x := d.intake p
  let q := d.port p
  decide (x.run = 1) && x.hasRing && decide (q.rx = 3) && d.aligned p && (d.members p).all (fun m => (d.port m).realignRaw.isNone) &&
    !x.burst.stopped

/-- H after a frame whose count field of `b` bits reads `f`, and the frames skipped (R80). -/
def headAfter (head : Option (Nat × Nat)) (b f : Nat) : Nat × Nat :=
  match head with
  | none => (f, 0)
  | some (h, prev) =>
    let dd := (f + 2 ^ b - prev % 2 ^ b) % 2 ^ b
    (h + dd, dd - 1)

/-- H of the next frame of a front-end and the frames skipped: at the first frame after entry to a capture mode it takes the
field's value, and the sequencer counts on from there (R80, R109). -/
def headNext (p b f : Nat) (d : Dev) : (Nat × Nat) × Dev :=
  let x := d.intake p
  let h := headAfter x.head b f
  if x.rehead then ((f, 0), regovern p h.1 f d) else (h, d)

/-- An encode stream takes one input per frame of its view's source (R230): the frame is noted until its input comes. -/
def encAwait (src : Nat) (w : EncWait) (d : Dev) : Dev :=
  { d with hevc := d.hevc.mapIdx (fun s h =>
      if s < 8 && d.get (Reg.hev_HEVC_MODE s) == 1 && d.runs (.hevc (Fin.ofNat 8 s)) &&
          d.get (Reg.view_VIEW_SOURCE (d.get (Reg.hev_VIEW s))) == src then
        { h with awaits := h.awaits ++ [w] }
      else h) }

/-- The consumers told that a frame has ended, and the EOF of the port and of the members of its gang (R71, R68, R102). -/
def afterEnd (p : Nat) (info : FrameInfo) (d : Dev) : Dev :=
  (d.members p).foldl (fun e m => lanesEof m e)
    (burstCheck p (encAwait p { frame := info.frame, sofTb := info.sofTb, eofTb := info.eofTb } { d with ended := d.ended ++ [info] }))

/-- A frame ends (R96, R97): the settings windows close, the pairing is decided, the record is written, and EV 0x0C03
and EV 0x0C02 are posted. `fault` holds the flags of the faults found, `drop` whether it is DROPPED. -/
def endFrame (p n fault : Nat) (drop : Bool) (s0 : State) : State :=
  match s0.dev.asm? p n with
  | none => s0
  | some a0 =>
    let c := s0.dev.pixAs p a0.live
    let s := levelCheck c p n true s0
    let d1 := seqFrameEnd p n s.dev
    let a := (d1.asm? p n).getD a0
    let valid := a.valid
    let pr := pairFrame p a d1
    let unc := a.applied.any (fun e => e.id == 0xFFFFFFFF)
    let status := Nat.lor fault (flags [(fDROPPED, drop), (fUNPAIRED, pr.2.1), (fSKIPPED, decide (0 < a.skipped)),
      (fDARK, decide (0 < a.dark)), (fMIXED, a.mixed),
      (fSTATSINC, a.focus.enable && decide (valid < c.height)), (fUNCERTAIN, unc)])
    let a1 := { a with partner := pr.1.map (·.1) }
    let s1 := writeRecord p a1 (recordBytes pr.2.2 p a1 c valid status) { s with dev := pr.2.2 }
    let hot := if c.fmt = 0 ∨ a.slot = none then 0 else c.hotCount (blackStage c (mergedRows c a))
    let d2 := addW 64 (Reg.itk_HOT_COUNT p) hot s1.dev
    let d3 := if drop then post (itkEv p 3) 0xFFFF (lo32 n) valid (inc64 (Reg.itk_DROPPED_COUNT p) d2) else d2
    let d4 := post (itkEv p 2) 0xFFFF (lo32 n) status d3
    let ids := a.applied.map (fun e => e.id)
    let info : FrameInfo := { port := p, frame := n, slot := a.slot, rowsValid := valid, status := status
                              sofTb := a.sofTb, eofTb := tbNow d4, eofRaw := d4.time.raw, trigTb := a.trigTb
                              partner := a1.partner, partnerSof := pr.1.map (·.2), sofId := a.sofId, recAt := s.dev.recordAddr p a.slot, applied := ids }
    let fin : List FinalStats := match a.slot with
      | some i => if a.focus.enable then
          [{ frame := n, slot := i, rows := a.rows, rowsValid := valid, live := a.live, focus := a.focus, applied := ids }] else []
      | none => []
    let d5 := setItk p (fun x => { x with
      asms := x.asms.filter (fun y => y.frame != n)
      tail := some (a.headField, a.sofLanes)
      stamp := x.stamp + 1
      slots := (match a.slot with
        | some i => x.slots.modify i (fun s => { s with st := 2, holds := s.holds + 1, stamp := x.stamp })
        | none => x.slots)
      stats := x.stats ++ fin }) d4
    { s1 with dev := afterEnd p info d5 }

/-- A frame begins (R80, R93, R94): its number, head count, slot, trigger time and settings vector are fixed; without a
slot it ends at once. `b` bits of head count field read `field`; `lane` has sent SOF or FS. -/
def beginFrame (p b field lane : Nat) (s : State) : State :=
  let r := headNext p b field s.dev
  let hh := r.1
  let d := r.2
  let x := d.intake p
  let n := x.frames
  let slot := d.slotFor p
  let trig := if d.flag (Reg.itk_TRIGGERED p) then (d.trigTime p).getD (tbNow d) else tbNow d
  let a : Asm :=
    { frame := n, headCount := hh.1, headField := field, sofTb := tbNow d, sofRaw := d.time.raw
      epoch := d.get Reg.tb_TB_EPOCH, trigTb := trig, slot := slot, rows := [], sofLanes := [lane], eofLanes := []
      groupRaw := [], partner := none, partnerSof := none, sofId := d.posts, applied := [], mixed := false, temp := d.sensorTemp p, live := d.livePix p
      focus := d.focusCfg p
      windows := List.replicate 8 0, levelDone := false, skipped := 0, dark := 0 }
  let d1 := setItk p (fun x => { x with
    frames := n + 1, head := some (hh.1, field), rehead := false, asms := x.asms ++ [a], parts := [], segs := [], last := [] }) d
  let d2 := match slot with
    | some i => takeSlot p i n d1
    | none => d1
  let d3 := post (itkEv p 1) 0xFFFF (lo32 n) (slot.getD 0xFFFFFFFF) (setN (Reg.itk_FRAME_NUMBER p) n d2)
  let d4 := if 0 < hh.2 then post (itkEv p 7) 0xFFFF hh.2 (lo32 n) d3 else d3
  let s1 := { s with dev := settle (seqFrameBegin p n hh.1 d4) }
  match slot with
  | some _ => s1
  | none => endFrame p n (2 ^ fOVERFLOW) true s1

/-- A row becomes complete in every readout (R81): it is processed and written, the settings windows see it, and the
partial statistics and the level detector follow. `group` is its segment group. -/
def rowDone (p n row group : Nat) (readouts : List (List Nat)) (s : State) : State :=
  let now := s.dev.time.raw
  let d1 := setAsm p n (fun a => { a with
    rows := a.rows ++ [{ row := row, readouts := readouts }]
    groupRaw := (group, now) :: a.groupRaw.filter (fun x => x.1 != group) }) s.dev
  match d1.asm? p n with
  | none => s
  | some a =>
    let c := d1.pixAs p a.live
    let s1 := writeRows c p a row { s with dev := d1 }
    let s2 := onDev (fun d => seqRow p n row (fun r => a.rows.any (fun x => x.row == r))
      (match a.slot with
       | some i => poundAsk rqIntake (d.slotAddr p i + 256 + row * c.rowBytes) c.rowBytes d
       | none => d)) s1
    let s3 := if a.focus.enable && decide (0 < a.focus.partialRow) && a.focus.partialRow == row then
        (match a.slot with
         | some i => writeStats c p n i row 1 a.focus a.rows (a.applied.map (fun e => e.id)) s2
         | none => s2)
      else s2
    levelCheck c p n false s3

/-- STATS_FINAL_WRITE: the oldest final block that waits is written, STATE 0x02, or 0x03 when rows are missing (R124). -/
def finalStats (p : Nat) (s : State) : State :=
  match (s.dev.intake p).stats with
  | [] => s
  | f :: fs =>
    let c := s.dev.pixAs p f.live
    writeStats c p f.frame f.slot f.rowsValid (if f.rowsValid < c.height then 3 else 2) f.focus f.rows f.applied
      (onDev (setItk p (fun x => { x with stats := fs })) s)

end Sys2Proof.Machine
end

