-- ==== Sys2Proof/Machine/ScanOps.lean ====
section
/-! DEFINITION. The scan and strobe unit (R449 to R475): encoders, the tracking loop, line slots and passes, scan frames
in the front-end, overspeed and abort, and the firing of strobe groups. -/

namespace Sys2Proof.Machine

/-- The scan unit changed. -/
def setScan (f : Scan → Scan) (d : Dev) : Dev := { d with scan := f d.scan }

/-- Encoder `e`. -/
def Dev.encoder (d : Dev) (e : Nat) : Encoder := nth d.enc e

/-- Encoder `e` changed. -/
def setEnc (e : Nat) (f : Encoder → Encoder) (d : Dev) : Dev := { d with enc := updAt e f d.enc }

/-- A free number of the manual's (Config.freeNat), one draw further. -/
def freeDraw (d : Dev) : Nat × Dev := (Config.freeNat d.free, (draw d).2)

/-! ## Encoders and the tracking loop -/

/-- Position P in CLK_PER cycle `j` of a tick, in 1/65,536 counts, clamped so that |P − c| < 1 (R452). -/
def Encoder.posAt (x : Encoder) (j : Nat) : Int :=
  let q := (x.p + x.v * ((j : Nat) : Rat) / 400) * 65536
  let t : Int := if q < 0 then -(ratFloor (-q)) else ratFloor q
  clampI (x.c * 65536 - 65535) (x.c * 65536 + 65535) t

/-- The place of a pair of levels in the quadrature cycle: A rises with B low first (R450). -/
def quadPhase (a b : Bool) : Nat := if a then (if b then 2 else 1) else (if b then 3 else 0)

/-- An illegal sample (R450): counted, and EV 0x3408 at most once per millisecond. -/
def encIllegal (e : Nat) (d : Dev) : Dev :=
  let d1 := inc64 (Reg.enc_ENC_ERRORS e) (setEnc e (fun x => { x with illegal := x.illegal + 1 }) d)
  let x := d1.encoder e
  let quiet := match x.errRaw with
    | some r => decide ((d.time.raw + 2 ^ 64 - r) % 2 ^ 64 < 1200000)
    | none => false
  if quiet then d1
  else post 0x3408 e x.illegal (ofInt 32 x.c)
    (setEnc e (fun x => { x with illegal := 0, errRaw := some d.time.raw }) d1)

/-- Accepted levels of A and B (R450). -/
def encLevels (e : Nat) (a b : Bool) (d : Dev) : Dev :=
  let x := d.encoder e
  let step := (quadPhase a b + 4 - quadPhase x.a x.b) % 4
  let d1 := setEnc e (fun x => { x with a := a, b := b }) d
  if step = 2 then encIllegal e d1
  else if step = 0 then d1
  else
    let up := decide (step = 1) != d.flag (Reg.enc_ENC_INVERT e)
    let c := toInt 48 (ofInt 48 (x.c + (if up then 1 else -1)))
    setN (Reg.enc_ENC_POSITION e) (ofInt 64 c) (setEnc e (fun x => { x with c := c }) d1)

/-- A rising index edge (R451); in SCAN the encoder remembers that it has seen one since entry (R458). -/
def encIndex (e : Nat) (d : Dev) : Dev :=
  let x := d.encoder e
  let latch := setN (Reg.enc_ENC_INDEX_POS e) (ofInt 64 x.c)
  let first := decide (d.mode = mSCAN) && !x.indexed
  let seen := setEnc e (fun x => { x with indexed := x.indexed || first })
  match d.get (Reg.enc_ENC_INDEX_MODE e) with
  | 1 =>
    if first then seen (setN (Reg.enc_ENC_POSITION e) 0 (setEnc e (fun x => { x with c := 0 }) d))
    else if x.indexed then latch d
    else d
  | 2 => seen (latch d)
  | _ => seen d

/-- One tick of the tracking loop (R452, R453). -/
def trackTick (e : Nat) (d : Dev) : Dev :=
  let x := d.encoder e
  let w := 2 * ratPi * f32Rat (d.get (Reg.enc_LOOP_BW_HZ e)) / 1000000
  let pp := x.p + x.v
  let err : Rat := (x.c : Rat) - pp
  let y := { x with
    p := pp + 2 * (7071 / 10000) * w * err
    v := x.v + w * w * err
    e := err
    lockRun := if -(1 / 2) < err ∧ err < 1 / 2 then min 1024 (x.lockRun + 1) else 0 }
  let old := d.get (Reg.enc_TRACK_STATE e)
  let st := if err ≤ -2 ∨ 2 ≤ err then 0 else if y.lockRun = 1024 then 1 else old
  let d1 := setN (Reg.enc_TRACK_POS e) (ofInt 64 (y.posAt 0))
    (setN (Reg.enc_TRACK_VEL e) (f32OfRat (y.v * 1000000)) (setEnc e (fun _ => y) d))
  if st = old then d1
  else post 0x3409 e st (satI32 (ratFloor (err * 65536))) (setN (Reg.enc_TRACK_STATE e) st d1)

/-! ## Strobe firing (R466 to R470) -/

/-- CLK_PER cycles in a number of nanoseconds. -/
def perOfNs (ns : Nat) : Nat := ns * 2 / 5

/-- The present CLK_PER cycle. -/
def Dev.perNow (d : Dev) : Nat := d.time.raw / 3

/-- A firing group of a pattern entry that fires: its channels that fire, their current units, DELAY and WIDTH. -/
structure StrobeReq where
  g : Nat
  channels : List Nat
  units : Nat
  delay : Nat
  width : Nat

/-- The groups of an entry whose channels lie in banks that `on` accepts (R467), in order of nominal start, then of group
(R470). -/
def strobeGroups (d : Dev) (on : Nat → Bool) (e : List Byte) : List StrobeReq :=
  let mask := rdLe e 0 8 + 2 ^ 64 * rdLe e 8 8
  let units := d.bytes Reg.stb_CURRENT_UNITS
  let groups := d.bytes Reg.stb_CHANNEL_GROUP
  let l := (List.range 16).filterMap (fun g =>
    let ch := (List.range 128).filter (fun k => bit mask k == 1 && rdLe groups k 1 == g &&
      on (k / 16))
    let w := rdLe e (0x12 + 4 * g) 2
    if w = 0 || ch.isEmpty then none
    else some ({ g := g, channels := ch, units := sumN (ch.map (fun k => rdLe units k 1))
                 delay := rdLe e (0x10 + 4 * g) 2, width := w } : StrobeReq))
  l.mergeSort (fun a b => decide (a.delay ≤ b.delay))

/-- The groups of an entry that fire. -/
def strobeReqs (d : Dev) (e : List Byte) : List StrobeReq := strobeGroups d (fun k => d.runs (.bank (Fin.ofNat 8 k))) e

/-- The sum of current units on at an instant; a pulse that ends there counts as off. -/
def unitsOn (ps : List StbPulse) (t : Nat) : Nat :=
  sumN ((ps.filter (fun x => decide (x.start ≤ t) && decide (t < x.stop))).map (fun x => x.units))

/-- `u` more units stay within the limit from `s` for `w` cycles. -/
def strobeFits (limit : Nat) (ps : List StbPulse) (s w u : Nat) : Bool :=
  (s :: (ps.map (fun x => x.start)).filter (fun t => decide (s < t) && decide (t < s + w))).all
    (fun t => decide (unitsOn ps t + u ≤ limit))

/-- One group scheduled (R470): the pulses so far with its own, and the mask of groups cut or omitted. -/
def scheduleGroup (limit stagger window t : Nat) (acc : List StbPulse × Nat) (r : StrobeReq) : List StbPulse × Nat :=
  let stop := t + window
  let fitsAt := fun s => decide (s < stop) && strobeFits limit acc.1 s r.width r.units
  let s? := if fitsAt (t + r.delay) then some (t + r.delay)
    else ((List.range (window / max 1 stagger + 1)).map (fun k => t + k * stagger)).find?
      (fun s => decide (t + r.delay < s) && fitsAt s)
  match s? with
  | none => (acc.1, acc.2 + 2 ^ r.g)
  | some s =>
    (acc.1 ++ [{ group := r.g, channels := r.channels, units := r.units, start := s, stop := min stop (s + r.width) }],
     if stop < s + r.width then acc.2 + 2 ^ r.g else acc.2)

/-- The strobe pattern of a firing started: the mask of groups cut or omitted, the highest sum of units on, and the
units after it. -/
def fireStrobes (entry : List Byte) (d : Dev) : Nat × Nat × Dev :=
  let t := d.perNow
  let live := d.scan.pulses.filter (fun x => decide (t < x.stop))
  let r := (strobeReqs d entry).foldl (scheduleGroup (min (d.get Reg.stb_PEAK_LIMIT) (d.get Reg.stb_STROBE_PEAK_FUSED)) (perOfNs (d.get Reg.stb_STAGGER_NS))
    (perOfNs (d.get Reg.stb_STROBE_WINDOW_NS)) t) (live, 0)
  let new := r.1.drop live.length
  let peak := (t :: new.map (fun x => x.start)).foldl (fun m s => max m (unitsOn r.1 s)) 0
  (r.2, peak, new.foldl (fun a x => emit .strobe x.group (x.start :: x.stop :: x.channels) [] a)
    (setScan (fun c => { c with pulses := r.1 }) d))

/-- The pattern entry of index `i` taken from the chip; none when it is not there or was read poisoned (R469). -/
def takePattern (i : Nat) (d : Dev) : Option (List Byte) × Dev :=
  let l := d.scan.onChip
  let k := l.findIdx (fun x => x.1 == i)
  (((l[k]?).bind (·.2)), setScan (fun c => { c with onChip := l.eraseIdx k }) d)

/-- A firing of the strobes with entry `i` (R469, R470): EV 0x3406 and EV 0x3407 once per scan frame `frame`. It answers
whether the line fires dark, its clipped groups and its peak. -/
def fireEntry (i frame slot : Nat) (d : Dev) : Bool × Nat × Nat × Dev :=
  let e := takePattern i d
  match e.1 with
  | none =>
    let d1 := inc64 Reg.scan_LINES_DARK e.2
    (true, 0, unitsOn (d1.scan.pulses) d1.perNow,
      if d1.scan.darkLogged then d1
      else setScan (fun c => { c with darkLogged := true }) (post 0x3406 0xFFFF (lo32 frame) (lo32 slot) d1))
  | some b =>
    let f := fireStrobes b e.2
    if f.1 = 0 then (false, 0, f.2.1, f.2.2)
    else
      let d1 := inc64 Reg.stb_CLIPPED_LINES f.2.2
      (false, f.1, f.2.1,
        if d1.scan.clipLogged then d1
        else setScan (fun c => { c with clipLogged := true }) (post 0x3407 0xFFFF (lo32 frame) f.1 d1))

/-- MIN_CYCLE in nanoseconds (R464). -/
def Dev.minCycle (d : Dev) : Nat :=
  max (d.get Reg.scan_SENSOR_CYCLE_NS) (d.get Reg.stb_STROBE_WINDOW_NS + d.get Reg.stb_STROBE_RECOVERY_NS)

/-- A firing now comes less than MIN_CYCLE after the latest one. -/
def Dev.tooSoon (d : Dev) : Bool :=
  match d.scan.fireRaw with
  | none => false
  | some r => decide (((d.time.raw + 2 ^ 64 - r) % 2 ^ 64) * 10 < d.minCycle * 12)

/-- PATTERN_FETCH: entry `i` arrives from the pound (R469). -/
def patternFetch (i : Nat) (s : State) : State :=
  if i < s.dev.get Reg.stb_PATTERN_LINES then
    let r := poundRead (s.dev.patternBase + 80 * i) 80 s
    onDev (setScan (fun c => { c with onChip := c.onChip ++ [(i, if r.2 then none else some r.1)] })) s
  else s

/-- A strobe-sync pulse (R472). -/
def strobeSync (d : Dev) : Dev :=
  let n := d.get Reg.stb_PATTERN_LINES
  if d.mode != mCALIBRATE || d.get Reg.stb_STROBE_SOURCE != 1 || !d.hasScan || n == 0 then d
  else if d.tooSoon then inc64 Reg.scan_LINES_SKIPPED d
  else
    let i := d.scan.syncIdx % n
    let fd := freeDraw d
    (fireEntry i fd.1 i (setScan (fun c => { c with syncIdx := i + 1, fireRaw := some d.time.raw }) fd.2)).2.2.2

/-! ## Slots and scan frames -/

/-- The port of the scan. -/
def Dev.scanPort (d : Dev) : Nat := d.get Reg.scan_SCAN_PORT
/-- N, the rows of a scan frame. -/
def Dev.scanN (d : Dev) : Nat := d.get Reg.scan_SCAN_LINES
/-- The scan is bidirectional. -/
def Dev.bidir (d : Dev) : Bool := d.get Reg.scan_SCAN_DIR == 1

/-- The position of slot `i` in a direction, in 1/65,536 counts (R454, R455). -/
def Dev.slotPos (d : Dev) (i : Nat) (forward : Bool) : Int :=
  toInt 64 (d.get Reg.scan_START_POS) + (i : Int) * (d.get Reg.scan_LINE_PITCH : Int) +
    (if d.bidir && !forward then toInt 32 (d.get Reg.scan_REV_OFFSET) else toInt 32 (d.get Reg.scan_FWD_OFFSET))

/-- More scan frames are to begin. -/
def Dev.moreFrames (d : Dev) : Bool :=
  let m := d.get Reg.scan_SCAN_FRAMES
  m == 0 || decide (d.scan.consumed < m)

/-- The address of the line record of a row of a slot (R460). -/
def Dev.lineRecAddr (d : Dev) (slot row : Nat) : Nat := d.get Reg.scan_LINE_REC_BASE + (slot * d.scanN + row) * 32

/-- A scan frame begins at its first slot (R461), with its line records zero (R460). Rows of the frame before may still
be arriving. -/
def scanBegin (s : State) : State :=
  let p := s.dev.scanPort
  let x := s.dev.intake p
  let n := x.frames
  let mark := fun (cur : Option Nat) => setScan (fun c =>
    { c with passes := c.passes + 1, cur := cur, darkLogged := false, clipLogged := false })
  if !(s.dev.accepts p) then onDev (mark none) s
  else
    let field := match x.head with
      | none => 0
      | some h => (h.2 + 1) % 65536
    let s1 := beginFrame p 16 field 0 s
    let s2 := onDev (fun d => mark (some n) (setItk p (fun y =>
      { y with parts := x.parts, segs := x.segs, last := x.last }) d)) s1
    match (s2.dev.asm? p n).bind (fun a => a.slot) with
    | some i => poundWrite (s2.dev.lineRecAddr i 0) (zeros (32 * s2.dev.scanN)) s2
    | none => s2

/-- The frame of the scan frame in progress, while the front-end holds it. -/
def Dev.scanAsm (d : Dev) : Option Asm := d.scan.cur.bind (fun n => d.asm? d.scanPort n)

/-- SCAN_DONE once SCAN_FRAMES scan frames have been taken and have ended (R458). -/
def scanDoneCheck (d : Dev) : Dev :=
  let m := d.get Reg.scan_SCAN_FRAMES
  if d.scan.live && m != 0 && decide (m ≤ d.scan.consumed) && (d.intake d.scanPort).asms.isEmpty then
    post 0x3403 0xFFFF (lo32 d.scan.consumed) 0 (setN Reg.scan_SCAN_STATE 4 (setScan (fun c => { c with live := false }) d))
  else d

/-- The end of a scan frame that has all its rows (R461), or that was cut off and whose fired lines have their rows
(R463). -/
def scanEndCheck (n : Nat) (s : State) : State :=
  let p := s.dev.scanPort
  match s.dev.asm? p n with
  | none => onDev scanDoneCheck s
  | some a =>
    if s.dev.scanN ≤ a.rows.length then onDev scanDoneCheck (endFrame p n 0 false s)
    else if s.dev.scan.stopping = some n && s.dev.scan.lines.all (fun l => l.frame != n) then endFrame p n 0 true s
    else s

/-- The bytes of a line record (Table 18.2). -/
def lineRec (d : Dev) (pos : Int) (slot flags clipped peak : Nat) : List Byte :=
  leBytes 8 (tbNow d) ++ leBytes 8 (ofInt 64 pos) ++ leBytes 4 slot ++ leBytes 2 flags ++
    leBytes 2 (d.scan.passes - 1) ++ leBytes 2 clipped ++ leBytes 2 peak ++ leBytes 4 (d.scan.cur.getD 0)

/-- The row of a slot. -/
def Dev.rowOfSlot (d : Dev) (i : Nat) : Nat := if d.bidir then i else i % max 1 d.scanN

/-- A line record written to the ring of records, while the scan frame has a slot. -/
def writeLineRec (row : Nat) (b : List Byte) (s : State) : State :=
  match s.dev.scanAsm.bind (fun a => a.slot) with
  | some i => poundWrite (s.dev.lineRecAddr i row) b s
  | none => s

/-- The row of a slot that is skipped: every sample 0 (R461). -/
def zeroRow (row : Nat) (s : State) : State :=
  match s.dev.scanAsm with
  | some a => rowDone s.dev.scanPort a.frame row 0 [] s
  | none => s

/-- The slot is consumed and the next in pass order becomes current (R456); the last of a scan frame completes it. -/
def consumeSlot (s : State) : State :=
  let d := s.dev
  let c := d.scan
  let n := c.cur
  let last := decide (d.scanN ≤ c.taken + 1)
  let slot := if !d.bidir then c.slot + 1
    else if last then c.slot else if c.forward then c.slot + 1 else c.slot - 1
  let s1 := onDev (fun d => setN Reg.scan_LINE_SLOT slot (setScan (fun c => { c with
    slot := slot
    taken := if last then 0 else c.taken + 1
    consumed := if last then c.consumed + 1 else c.consumed
    waitTurn := last && d.bidir }) d)) s
  match n with
  | some k => scanEndCheck k s1
  | none => onDev scanDoneCheck s1

/-- The first slot of a scan frame begins it. -/
def openFrame (s : State) : State := if s.dev.scan.taken = 0 then scanBegin s else s

/-- Flags common to the line records: VALID, REVERSE. -/
def Dev.lineFlags (d : Dev) : Nat := 1 + (if d.bidir && !d.scan.forward then 2 ^ 5 else 0)

/-- A reversal skip of a slot (R457): it appears only in its line record. -/
def reversalSkip (pos : Int) (s : State) : State :=
  let s1 := openFrame s
  let i := s1.dev.scan.slot
  let row := s1.dev.rowOfSlot i
  consumeSlot (zeroRow row (writeLineRec row (lineRec s1.dev pos i (s1.dev.lineFlags + 2 ^ 6) 0 0) s1))

/-- Firing stops (R463): the frame in progress is cut off. -/
def scanStop (st : Nat) (s : State) : State :=
  let cut := if s.dev.scan.taken = 0 then none else s.dev.scan.cur
  let s1 := onDev (fun d => setN Reg.scan_SCAN_STATE st (setScan (fun c => { c with live := false, stopping := cut }) d)) s
  match cut with
  | some n => scanEndCheck n s1
  | none => s1

/-- The pulse of a fired line on TP_n (R459). A pin whose generator is armed is left to it: R475 states no result. -/
def lineTrigger (d : Dev) : Dev :=
  let o := d.get Reg.scan_TRIG_OUT
  if o = 0 then (sendTrigger d.scanPort 2 d).2
  else
    let n := o - 0x10
    let stop := d.time.raw + cyclesOfNs (d.get Reg.scan_TRIG_WIDTH_NS)
    if d.flag (Reg.tpg_TPG_ARM n) then d
    else emit .pin n [1] [] { d with tpg := updAt n (fun g =>
      { g with pulse := some { stop := stop, route := 1, invert := false } }) d.tpg }

/-- A line fired (R459). -/
def fireLine (pos : Int) (s : State) : State :=
  let d := s.dev
  let i := d.scan.slot
  let row := d.rowOfSlot i
  let frame := d.scan.cur.getD 0
  let idx := if !d.bidir && d.flag Reg.stb_PATTERN_WRAP then i % max 1 (d.get Reg.stb_PATTERN_LINES) else i
  let f := fireEntry idx frame i (lineTrigger d)
  let fl := d.lineFlags + 2 + (if f.1 then 2 ^ 3 else 0) + (if f.2.1 = 0 then 0 else 2 ^ 4)
  let d1 := inc64 Reg.scan_LINES_FIRED (setScan (fun c => { c with
    lines := c.lines ++ [{ frame := frame, row := row, raw := d.time.raw }], skips := 0
    fireRaw := some d.time.raw }) f.2.2.2)
  let d2 := match d1.scan.cur with
    | some n => if f.1 then setAsm d.scanPort n (fun a => { a with dark := a.dark + 1 }) d1 else d1
    | none => d1
  consumeSlot (writeLineRec row (lineRec d pos i fl f.2.1 f.2.2.1) { s with dev := d2 })

/-- A line skipped for overspeed (R464); a run of ABORT_SKIPS aborts the scan (R465). -/
def skipLine (pos : Int) (s : State) : State :=
  let d := s.dev
  let i := d.scan.slot
  let row := d.rowOfSlot i
  let d1 := inc64 Reg.scan_LINES_SKIPPED (if d.scan.skips = 0 then
    post 0x3404 0xFFFF (lo32 i) (ofInt 32 (pos / 65536)) d else d)
  let d2 := setScan (fun c => { c with skips := c.skips + 1 }) (match d1.scan.cur with
    | some n => setAsm d.scanPort n (fun a => { a with skipped := a.skipped + 1 }) d1
    | none => d1)
  let lim := d.get Reg.scan_ABORT_SKIPS
  let s1 := consumeSlot (zeroRow row (writeLineRec row (lineRec d pos i (d.lineFlags + 4) 0 0) { s with dev := d2 }))
  if lim ≠ 0 ∧ lim ≤ d2.scan.skips then
    onDev (fun d => post 0x3405 0xFFFF (lo32 i) lim { d with forced := d.forced ++ [5] }) (scanStop 5 s1)
  else s1

/-- SLOT_TRIGGER in CLK_PER cycle `j` of the tick (R456): where P has reached the current slot in the direction in
force, the slot is consumed. -/
def slotTrigger (j : Nat) (s : State) : State :=
  let d := s.dev
  let c := d.scan
  let pos := (d.encoder (d.get Reg.scan_SCAN_ENCODER)).posAt j
  let l := d.slotPos c.slot c.forward
  let reached := if c.forward then decide (l ≤ pos) else d.bidir && decide (pos ≤ l)
  if c.live && c.dirKnown && !c.waitTurn && d.moreFrames && reached then
    let s1 := openFrame s
    if s1.dev.tooSoon then skipLine pos s1 else fireLine pos s1
  else s

/-- The scan starts (R458): EV 0x3401. -/
def scanStart (source : Nat) (d : Dev) : Dev :=
  if d.mode = mSCAN ∧ d.target = 0 ∧ d.get Reg.scan_SCAN_STATE = 1 ∧ source = d.get Reg.scan_START_SOURCE then
    let c := (d.encoder (d.get Reg.scan_SCAN_ENCODER)).c
    post 0x3401 0xFFFF source (tbNow d % 2 ^ 32) (setN Reg.scan_LINES_FIRED 0 (setN Reg.scan_LINE_SLOT 0
      (setN Reg.scan_SCAN_STATE 2 (setScan (fun x => { x with
        live := true, forward := true, dirKnown := !d.bidir, far := c, start := c, slot := 0, waitTurn := false
        passes := 0, taken := 0, cur := none, consumed := 0, stopping := none, skips := 0, fireRaw := none }) d))))
  else d

/-- The pass ends at a reversal, and the next begins in the new direction (R457, bidirectional). -/
def turnPass (pos : Int) (forward : Bool) (s : State) : State :=
  let d := s.dev
  let c := d.scan
  let left := if c.waitTurn || !d.moreFrames then 0 else d.scanN - c.taken
  let s1 := (List.range left).foldl (fun t _ => reversalSkip pos t) s
  let s2 := onDev (setScan (fun c => { c with
    forward := forward, waitTurn := false, slot := if forward then 0 else d.scanN - 1 })) s1
  if !s2.dev.moreFrames then onDev (setScan (fun c => { c with waitTurn := true })) s2
  else
    let order := if forward then List.range d.scanN else (List.range d.scanN).reverse
    let behind := (order.takeWhile (fun i =>
      if forward then decide (d.slotPos i true ≤ pos) else decide (pos ≤ d.slotPos i false))).length
    let s3 := (List.range behind).foldl (fun t _ => reversalSkip pos t) s2
    onDev (fun d => setN Reg.scan_LINE_SLOT d.scan.slot d) s3

/-- The scan follows a new count (R455, R457). -/
def scanFollow (e j : Nat) (s : State) : State :=
  let d := s.dev
  let x := d.scan
  if !x.live || d.get Reg.scan_SCAN_ENCODER != e then s
  else
    let c := (d.encoder e).c
    let h : Int := d.get Reg.scan_DIR_HYST
    if !x.dirKnown then
      (if (c - x.start).natAbs < h.natAbs then s
       else
         let fwd := decide (x.start < c)
         let slot := if fwd then 0 else d.scanN - 1
         onDev (fun d => setN Reg.scan_LINE_SLOT slot (setScan (fun y =>
           { y with dirKnown := true, forward := fwd, far := c, slot := slot }) d)) s)
    else
      let far := if x.forward then max x.far c else min x.far c
      let behind := if x.forward then far - c else c - far
      if behind ≤ h then onDev (setScan (fun y => { y with far := far })) s
      else
        let fwd := !x.forward
        let d1 := post 0x3402 0xFFFF (b2n fwd) (ofInt 32 c) (setScan (fun y => { y with far := c }) d)
        if d.bidir then turnPass ((d.encoder e).posAt j) fwd { s with dev := d1 }
        else { s with dev := setN Reg.scan_SCAN_STATE (if fwd then 2 else 3) (setScan (fun y => { y with forward := fwd }) d1) }

/-- ENCODER_EDGE (R450, R457). -/
def encoderEdge (e : Nat) (a b : Bool) (j : Nat) (s : State) : State := scanFollow e j (onDev (encLevels e a b) s)

/-! ## Rows of scan frames (R461) -/

/-- A complete row arrives: it is the row of the oldest fired line without one, else it is stray. -/
def scanRow (readouts : List (List Nat)) (s : State) : State :=
  match s.dev.scan.lines with
  | [] => onDev (inc64 Reg.scan_STRAY_ROWS) s
  | l :: ls =>
    let p := s.dev.scanPort
    let s1 := onDev (setScan (fun c => { c with lines := ls })) s
    match s1.dev.asm? p l.frame with
    | some _ => scanEndCheck l.frame (rowDone p l.frame l.row 0 readouts s1)
    | none => s1

/-- The oldest fired line of a frame in progress whose row is late (R461). -/
def Dev.scanLateLine (d : Dev) : Option LineWait :=
  let p := d.scanPort
  let ns := d.get (Reg.itk_ROW_TIMEOUT p) * d.get (Reg.itk_ROW_PERIOD_NS p)
  d.scan.lines.find? (fun l => (d.asm? p l.frame).isSome && ns != 0 &&
    decide (cyclesOfNs ns ≤ (d.time.raw + 2 ^ 64 - l.raw) % 2 ^ 64))

/-- A late row ends its frame with LATE; a frame cut off ends without a fault flag (R461, R463). -/
def scanLate (s : State) : State :=
  match s.dev.scanLateLine with
  | none => s
  | some l =>
    let cut := decide (s.dev.scan.stopping = some l.frame)
    onDev scanDoneCheck (endFrame s.dev.scanPort l.frame (if cut then 0 else 2 ^ fLATE) true s)

end Sys2Proof.Machine
end

