-- ==== Sys2Proof/Machine/Develop.lean ====
section
/-! DEFINITION. The DEVELOP route, stages 1 to 10 (R166 to R181), in binary32 arithmetic, one operation after another in
the order the manual writes them. -/

namespace Sys2Proof.Machine

/-! ## Mosaics in the pound -/

/-- Byte address and length of the samples [c0, c1) of a row. -/
def Mosaic.span (m : Mosaic) (r c0 c1 : Nat) : Nat × Nat :=
  if m.packed then
    let o := r * m.w * m.readouts * m.bits
    (m.base + (o + c0 * m.bits) / 8, ceilDiv ((o + c0 * m.bits) % 8 + (c1 - c0) * m.bits) 8)
  else (m.base + (r * m.w + c0) * 2, (c1 - c0) * 2)

/-- The stored code of a sample; readout 0 of a packed row. -/
def Mosaic.code (m : Mosaic) (s : State) (r c : Nat) : Nat :=
  if m.valid ≤ r then 0
  else
    let sp := m.span r c (c + 1)
    let v := leNat (poundRead sp.1 sp.2 s).1
    if m.packed then v / 2 ^ (((r * m.w * m.readouts + c) * m.bits) % 8) % 2 ^ m.bits else v

/-- Some line that holds the samples [c0, c1) of the rows [r0, r1) is poisoned. -/
def Mosaic.poisoned (m : Mosaic) (s : State) (r0 r1 c0 c1 : Nat) : Bool :=
  (List.range (min r1 m.valid - r0)).any (fun k =>
    let sp := m.span (r0 + k) c0 c1
    (poundRead sp.1 sp.2 s).2)

/-- Tile columns and rows of a frame (R130). -/
def tileCols (w : Nat) : Nat := ceilDiv w 256
/-- Tile rows of a frame. -/
def tileRows (h : Nat) : Nat := ceilDiv h 128

/-- The rectangle of tile `i`: first row, row after the last, first column, column after the last (R130). -/
def tileRect (w h i : Nat) : Nat × Nat × Nat × Nat :=
  let tc := max 1 (tileCols w)
  let r := i / tc * 128
  let c := i % tc * 256
  (r, min h (r + 128), c, min w (c + 256))

/-- The tile with its apron of 8 samples, cut at the frame's edges. -/
def apronRect (w h i : Nat) : Nat × Nat × Nat × Nat :=
  let t := tileRect w h i
  (t.1 - 8, min h (t.2.1 + 8), t.2.2.1 - 8, min w (t.2.2.2 + 8))

/-! ## Grids -/

/-- A rectangle of values. -/
structure Grid (α : Type) where
  r0 : Nat
  c0 : Nat
  w : Nat
  cells : Array α

/-- The values of `f` over rows [r0, r1) and columns [c0, c1). -/
def Grid.make {α : Type} (rc : Nat × Nat × Nat × Nat) (f : Nat → Nat → α) : Grid α :=
  { r0 := rc.1, c0 := rc.2.2.1, w := rc.2.2.2 - rc.2.2.1
    cells := ((List.range (rc.2.1 - rc.1)).flatMap (fun r =>
      (List.range (rc.2.2.2 - rc.2.2.1)).map (fun c => f (rc.1 + r) (rc.2.2.1 + c)))).toArray }

/-- The value at a place of the rectangle. -/
def Grid.at {α : Type} (g : Grid α) (d : α) (r c : Nat) : α := g.cells.getD ((r - g.r0) * g.w + (c - g.c0)) d

/-- A coordinate reflected about the edge samples of `n` (R171). -/
def mirror (n : Nat) (k : Int) : Nat :=
  let a := if k < 0 then -k else k
  let b := if (n : Int) ≤ a then 2 * ((n : Int) - 1) - a else a
  (clampI 0 ((n : Int) - 1) b).toNat

/-- A colour sample. -/
abbrev Rgb := FVal × FVal × FVal

/-- Each channel mapped. -/
def Rgb.map (f : FVal → FVal) (x : Rgb) : Rgb := (f x.1, f x.2.1, f x.2.2)

/-- Channel 0, 1 or 2. -/
def Rgb.ch (x : Rgb) (i : Nat) : FVal := if i = 0 then x.1 else if i = 1 then x.2.1 else x.2.2

/-- Zero. -/
abbrev f0 : FVal := .fin false 0

/-! ## Parameter sets (R182, R183) -/

/-- The value of an entry in a parameter set; entries not listed have their defaults. -/
def bankVal (b : Regs) (k : Nat) : Val := (b.find k).getD (defaultVal k)

/-- A number of a parameter set. -/
def bankN (b : Regs) (k : Nat) : Nat :=
  match bankVal b k with
  | .num n => n
  | .bytes _ => 0

/-- Bytes of a parameter set. -/
def bankB (b : Regs) (k : Nat) : List Byte :=
  match bankVal b k with
  | .num _ => []
  | .bytes l => l

/-- Element `i` of an array of F32 in a parameter set. -/
def bankF (b : Regs) (k i : Nat) : FVal := f32v (rdLe (bankB b k) (4 * i) 4)

/-! ## Stages 1 and 2 -/

/-- The colour of a sample: 0 R, 1 G1, 2 G2, 3 B (R170). -/
def cfaColour (cfa r c : Nat) : Nat :=
  if cfa = 0 then 1
  else
    let k := if cfa ≤ 4 then cfa else cfa - 4
    let q := if cfa ≤ 4 then 2 * (r % 2) + c % 2 else 2 * (r / 2 % 2) + c / 2 % 2
    ((if k = 1 then [0, 1, 2, 3] else if k = 2 then [1, 0, 3, 2] else if k = 3 then [2, 3, 0, 1] else [3, 2, 1, 0])
      : List Nat).getD q 1

/-- U of R169: the LOG16 code in readout-0 saturation units. -/
def log16Value (code : Nat) : FVal :=
  if code = 0 then f0
  else fr (ratPow 2 ((20 * ((code : Nat) : Rat)) / 65535 - 12) - pow2 (-12))

/-- Stage 1 (R169). -/
def unpackSample (m : Mosaic) (shift : Nat) (passBlack : FVal) (code : Nat) : FVal :=
  if m.fmt = 3 then log16Value code
  else if m.fmt = 1 then fr ((((code : Nat) : Int) : Rat) * pow2 ((shift : Int) - 16))
  else if m.fmt = 2 then fr (((toInt 16 code : Int) : Rat) * pow2 ((shift : Int) - 16))
  else fsub (fr ((((code * 2 ^ (16 - m.bits) : Nat) : Int) : Rat) * pow2 (-16))) passBlack

/-! ## Stage 3: demosaic -/

/-- Green at a place (R171, pass a). -/
def greenAt (cfa : Nat) (m : Int → Int → FVal) (r c : Nat) : FVal :=
  let i : Int := r
  let j : Int := c
  let s := m i j
  let col := cfaColour cfa r c
  if col = 1 ∨ col = 2 then s
  else
    let half := fr (1 / 2)
    let quarter := fr (1 / 4)
    let ab := fun (x : FVal) => match x with | .fin _ q => FVal.fin false q | .inf _ => .inf false | .nan => .nan
    let s2 := fadd s s
    let gh := fadd (fmul half (fadd (m i (j - 1)) (m i (j + 1))))
      (fmul quarter (fsub s2 (fadd (m i (j - 2)) (m i (j + 2)))))
    let gv := fadd (fmul half (fadd (m (i - 1) j) (m (i + 1) j)))
      (fmul quarter (fsub s2 (fadd (m (i - 2) j) (m (i + 2) j))))
    let dh := fadd (fadd (ab (fsub (m i (j - 1)) (m i (j + 1)))) (ab (fsub s2 (fadd (m i (j - 2)) (m i (j + 2))))))
      (fmul half (fadd (ab (fsub (m (i - 1) (j - 1)) (m (i - 1) (j + 1))))
        (ab (fsub (m (i + 1) (j - 1)) (m (i + 1) (j + 1))))))
    let dv := fadd (fadd (ab (fsub (m (i - 1) j) (m (i + 1) j))) (ab (fsub s2 (fadd (m (i - 2) j) (m (i + 2) j)))))
      (fmul half (fadd (ab (fsub (m (i - 1) (j - 1)) (m (i + 1) (j - 1))))
        (ab (fsub (m (i - 1) (j + 1)) (m (i + 1) (j + 1))))))
    let eps := fr (pow2 (-20))
    let wh := fdiv (fr 1) (fadd dh eps)
    let wv := fdiv (fr 1) (fadd dv eps)
    fdiv (fadd (fmul wh gh) (fmul wv gv)) (fadd wh wv)

/-- Red (own 0) or blue (own 3) at a place (R171, pass b): `g` is green there, `d` the residuals. -/
def chromaAt (cfa own : Nat) (m d : Int → Int → FVal) (g : FVal) (r c : Nat) : FVal :=
  let i : Int := r
  let j : Int := c
  let col := cfaColour cfa r c
  if col = own then m i j
  else if col = 3 - own then
    fadd g (fmul (fr (1 / 4)) (fadd (fadd (d (i - 1) (j - 1)) (d (i - 1) (j + 1)))
      (fadd (d (i + 1) (j - 1)) (d (i + 1) (j + 1)))))
  else if cfaColour cfa r (c + 1) = own then fadd g (fmul (fr (1 / 2)) (fadd (d i (j - 1)) (d i (j + 1))))
  else fadd g (fmul (fr (1 / 2)) (fadd (d (i - 1) j) (d (i + 1) j)))

/-- The bilinear value of a colour at a cell of the half-resolution mosaic of a quad pattern (R172); `own` is 0 for red,
3 for blue. -/
def quadChroma (cfa own : Nat) (q : Int → Int → FVal) (r c : Nat) : FVal :=
  let i : Int := r
  let j : Int := c
  let col := cfaColour cfa r c
  if col = own then q i j
  else if col = 3 - own then
    fmul (fr (1 / 4)) (fadd (fadd (fadd (q (i - 1) (j - 1)) (q (i - 1) (j + 1))) (q (i + 1) (j - 1))) (q (i + 1) (j + 1)))
  else if cfaColour cfa r (c + 1) = own then fmul (fr (1 / 2)) (fadd (q i (j - 1)) (q i (j + 1)))
  else fmul (fr (1 / 2)) (fadd (q (i - 1) j) (q (i + 1) j))

/-- Green at a cell of the half-resolution mosaic (R172). -/
def quadGreen (cfa : Nat) (q : Int → Int → FVal) (r c : Nat) : FVal :=
  let i : Int := r
  let j : Int := c
  let col := cfaColour cfa r c
  if col = 1 ∨ col = 2 then q i j
  else fmul (fr (1 / 4)) (fadd (fadd (fadd (q i (j - 1)) (q i (j + 1))) (q (i - 1) j)) (q (i + 1) j))

/-- The rectangle grown by `n` on each side, cut at the frame. -/
def grow (w h n : Nat) (t : Nat × Nat × Nat × Nat) : Nat × Nat × Nat × Nat :=
  (t.1 - n, min h (t.2.1 + n), t.2.2.1 - n, min w (t.2.2.2 + n))

/-- Stages 1 to 3 over a tile and 4 samples around it: RGB per sample. `bank` holds the stage 1 and 2 entries of view
`v`. -/
def stage3 (s : State) (m : Mosaic) (shift : Nat) (bank : Regs) (v i : Nat) : Grid Rgb :=
  let t := tileRect m.w m.h i
  let pb := f32v (bankN bank (Reg.view_PASS_BLACK v))
  let wb := Grid.make (grow m.w m.h 8 t) (fun r c =>
    fmul (unpackSample m shift pb (m.code s r c)) (bankF bank (Reg.view_WB_GAINS v) (cfaColour m.cfa r c)))
  let mo : Int → Int → FVal := fun r c => wb.at f0 (mirror m.h r) (mirror m.w c)
  if m.cfa = 0 then Grid.make (grow m.w m.h 4 t) (fun r c => let x := mo r c; (x, x, x))
  else if m.cfa ≤ 4 then
    let g := Grid.make (grow m.w m.h 6 t) (fun r c => greenAt m.cfa mo r c)
    let d : Int → Int → FVal := fun r c =>
      let r' := mirror m.h r
      let c' := mirror m.w c
      let col := cfaColour m.cfa r' c'
      if col = 1 ∨ col = 2 then f0 else fsub (mo r' c') (g.at f0 r' c')
    Grid.make (grow m.w m.h 4 t) (fun r c =>
      let gg := g.at f0 r c
      (chromaAt m.cfa 0 mo d gg r c, gg, chromaAt m.cfa 3 mo d gg r c))
  else
    let k := m.cfa - 4
    let hh := m.h / 2
    let hw := m.w / 2
    let q : Int → Int → FVal := fun r c =>
      let i : Int := mirror hh r
      let j : Int := mirror hw c
      fmul (fr (1 / 4)) (fadd (fadd (mo (2 * i) (2 * j)) (mo (2 * i) (2 * j + 1)))
        (fadd (mo (2 * i + 1) (2 * j)) (mo (2 * i + 1) (2 * j + 1))))
    Grid.make (grow m.w m.h 4 t) (fun r c =>
      (quadChroma k 0 q (r / 2) (c / 2), quadGreen k q (r / 2) (c / 2), quadChroma k 3 q (r / 2) (c / 2)))

/-! ## Stages 4 to 7 -/

/-- Stage 4 (R173). -/
def stage4 (b : Regs) (v : Nat) (x : Rgb) : Rgb :=
  let mm := fun i => bankF b (Reg.view_MATRIX v) i
  let row := fun (k : Nat) =>
    fadd (fadd (fadd (fmul (mm (3 * k)) x.1) (fmul (mm (3 * k + 1)) x.2.1)) (fmul (mm (3 * k + 2)) x.2.2))
      (bankF b (Reg.view_OFFSET v) k)
  (row 0, row 1, row 2)

/-- f of R174. -/
def rollOff (k w y : FVal) : FVal :=
  if FVal.lt k y then
    fadd k (fdiv (fsub y k) (fadd (fr 1) (fdiv (fsub y k) (fsub w k))))
  else y

/-- Stage 5 (R174). -/
def stage5 (b : Regs) (v : Nat) (x0 : Rgb) : Rgb :=
  let x := x0.map (fun y => fmul y (f32v (bankN b (Reg.view_EXPOSURE_GAIN v))))
  let k := f32v (bankN b (Reg.view_KNEE v))
  let w := f32v (bankN b (Reg.view_WHITE v))
  match bankN b (Reg.view_ROLLOFF_MODE v) with
  | 0 => x.map (rollOff k w)
  | 1 =>
    let p := fmax (fmax x.1 x.2.1) x.2.2
    if FVal.lt k p then
      let q := fdiv (rollOff k w p) p
      x.map (fun y => fmul y q)
    else x
  | _ => x

/-- Knot x_u of the log-spaced grid (R175). -/
def knotX (u : Nat) : Rat := pow2 (((u / 128 : Nat) : Int) - 24) * (1 + (((u % 128 : Nat) : Int) : Rat) / 128)

/-- A value looked up in a table of 4,096 entries (R175). -/
def logLookup (t : Nat → FVal) (x : FVal) : FVal :=
  if !(FVal.le (fr (pow2 (-24))) x) then t 0
  else if FVal.le (fr 255) x then t 4095
  else
    let n := f32.encode x
    let e : Int := ((n / 2 ^ 23 % 256 : Nat) : Int) - 127
    let f := n % 2 ^ 23
    let u := (e + 24).toNat * 128 + f / 2 ^ 16
    let a := t u
    fadd a (fmul (fr ((((f % 2 ^ 16 : Nat) : Int) : Rat) * pow2 (-16))) (fsub (t (u + 1)) a))

/-- Table `k` of the shapers; the default is T[u] = x_u. -/
def shaperT (b : Regs) (v k u : Nat) : FVal :=
  let t := bankB b (Reg.view_SHAPER v)
  if t = [] then fr (knotX u) else f32v (rdLe t ((k * 4096 + u) * 4) 4)

/-- An element of the 3-D LUT (R176); the default is the identity. -/
def lutAt (b : Regs) (v i j k : Nat) : Rgb :=
  let t := bankB b (Reg.view_LUT v)
  if t = [] then
    let q := fun (n : Nat) => fr ((((n : Nat) : Int) : Rat) / 64)
    (q i, q j, q k)
  else
    let o := ((k * 65 + j) * 65 + i) * 6
    (f16.decode (rdLe t o 2), f16.decode (rdLe t (o + 2) 2), f16.decode (rdLe t (o + 4) 2))

/-- Tetrahedral interpolation in the LUT (R176). -/
def lutLookup (b : Regs) (v : Nat) (x0 : Rgb) : Rgb :=
  let x := x0.map (fun y => fmin (fmax y f0) (fr 1))
  let cell := fun (y : FVal) =>
    let f := fmul y (fr 64)
    let i := (min (ratFloor f.toRat) 63).toNat
    (i, fsub f (fr (((i : Nat) : Int) : Rat)))
  let rr := cell x.1
  let gg := cell x.2.1
  let bb := cell x.2.2
  let i := rr.1
  let j := gg.1
  let k := bb.1
  let dr := rr.2
  let dg := gg.2
  let db := bb.2
  let ge := fun (a b : FVal) => FVal.le b a
  let c0 := lutAt b v i j k
  let c7 := lutAt b v (i + 1) (j + 1) (k + 1)
  let pick : Rgb × Rgb × FVal × FVal × FVal :=
    if ge dr dg && ge dg db then (lutAt b v (i + 1) j k, lutAt b v (i + 1) (j + 1) k, dr, dg, db)
    else if ge dr db && ge db dg then (lutAt b v (i + 1) j k, lutAt b v (i + 1) j (k + 1), dr, db, dg)
    else if ge db dr && ge dr dg then (lutAt b v i j (k + 1), lutAt b v (i + 1) j (k + 1), db, dr, dg)
    else if ge dg dr && ge dr db then (lutAt b v i (j + 1) k, lutAt b v (i + 1) (j + 1) k, dg, dr, db)
    else if ge dg db && ge db dr then (lutAt b v i (j + 1) k, lutAt b v i (j + 1) (k + 1), dg, db, dr)
    else (lutAt b v i j (k + 1), lutAt b v i (j + 1) (k + 1), db, dg, dr)
  let ch := fun (n : Nat) =>
    let a := pick.1.ch n
    let p := pick.2.1.ch n
    fadd (fadd (fadd (c0.ch n) (fmul pick.2.2.1 (fsub a (c0.ch n)))) (fmul pick.2.2.2.1 (fsub p a)))
      (fmul pick.2.2.2.2 (fsub (c7.ch n) p))
  (ch 0, ch 1, ch 2)

/-- Stage 6 (R176). -/
def stage6v (b : Regs) (v : Nat) (x : Rgb) : Rgb :=
  let y : Rgb := if bankN b (Reg.view_SHAPER_ENABLE v) = 0 then x
    else (logLookup (shaperT b v 0) x.1, logLookup (shaperT b v 1) x.2.1, logLookup (shaperT b v 2) x.2.2)
  if bankN b (Reg.view_LUT_ENABLE v) = 0 then y else lutLookup b v y

/-- A rational limited to 0 … 1. -/
def unit01 (q : Rat) : Rat := if q < 0 then 0 else if 1 < q then 1 else q

/-- The output transfers of Table 7.2 at a knot. -/
def transferAt (code : Nat) (pqNits hlgScale x : Rat) : Rat :=
  match code with
  | 1 =>
    let l := unit01 x
    if l < 18 / 1000 then 45 / 10 * l else 1099 / 1000 * ratPow l (45 / 100) - 99 / 1000
  | 2 =>
    let y := ratPow (unit01 (x * pqNits / 10000)) (2610 / 16384)
    ratPow ((3424 / 4096 + 2413 / 128 * y) / (1 + 2392 / 128 * y)) (2523 / 32)
  | 3 =>
    let e := unit01 (x * hlgScale)
    if e ≤ 1 / 12 then ratSqrt (3 * e)
    else 17883277 / 100000000 * ratLn (12 * e - 28466892 / 100000000) + 55991073 / 100000000
  | _ => unit01 ((ratLog2 (x + pow2 (-12)) + 12) / 20)

/-- Entry `u` of the transfer table in force (R177): rendered by firmware for codes 0x01 to 0x04, else as written. A
table never written is the one rendered last, whose code stands in its place. -/
def transferT (b : Regs) (v u : Nat) : FVal :=
  let rendered := fun (code : Nat) => fr (transferAt code (f32Rat (bankN b (Reg.view_PQ_REF_NITS v)))
    (f32Rat (bankN b (Reg.view_HLG_SCALE v))) (knotX u))
  let code := bankN b (Reg.view_TRANSFER v)
  if code ≠ 5 then rendered code
  else match bankVal b (Reg.view_TRANSFER_TABLE v) with
    | .num c => rendered c
    | .bytes t => f32v (rdLe t (4 * u) 4)

/-- Stage 7 (R177). -/
def stage7 (b : Regs) (v : Nat) (x : Rgb) : Rgb :=
  if bankN b (Reg.view_TRANSFER v) = 0 then x else x.map (logLookup (transferT b v))

/-! ## Stage 8: crop and scale -/

/-- A view's geometry (R178). -/
structure Geom where
  cx : Nat
  cy : Nat
  cw : Nat
  ch : Nat
  outW : Nat
  outH : Nat
  stepX : Nat
  stepY : Nat
deriving DecidableEq, Repr

/-- The nearest whole number to a quotient, halves upward. -/
def roundDiv (a b : Nat) : Nat := if b = 0 then 0 else (2 * a + b) / (2 * b)

/-- The geometry of view `v` for a source of w × h samples (R178). -/
def Dev.geom (d : Dev) (v w h : Nat) : Geom :=
  let c := d.get (Reg.view_CROP v)
  let outH := d.get (Reg.view_OUT_HEIGHT v)
  let cx := if c = 0 then 0 else field c 63 48
  let cy := if c = 0 then 0 else field c 47 32
  let cw := if c = 0 then w else field c 31 16
  let ch := if c = 0 then h else field c 15 0
  let stepY := roundDiv (65536 * ch) outH
  let dq := f32Rat (d.get (Reg.view_DESQUEEZE v))
  let stepX := if dq = 0 then 0 else (ratFloor (((stepY : Nat) : Int) / dq + 1 / 2)).toNat
  { cx := cx, cy := cy, cw := cw, ch := ch, outW := cw * 65536 / stepX / 2 * 2, outH := outH
    stepX := stepX, stepY := stepY }

/-- The geometry is one that R178 accepts. -/
def Geom.ok (g : Geom) : Bool :=
  let ok := fun (n : Nat) => decide (0 < n) && decide (n ≤ 16 * 65536) && decide (65536 ≤ 2 * n)
  decide (0 < g.outH) && ok g.stepX && ok g.stepY

/-- Integer position and phase of output coordinate `o` (R179). -/
def scalePos (origin step o : Nat) : Int × Nat :=
  let p : Int := (origin : Int) * 65536 + (((2 * o + 1) * step / 2 : Nat) : Int) - 32768
  (p / 65536, (p % 65536).toNat / 1024)

/-- A tap of the Seusk COEFF set, which the manual does not list: free in every phase, but for the sum of 16,384 that the
manual states (R185); a free phase that has another sum is replaced by the unit tap. -/
def seuskTap (phase k : Nat) : Int :=
  let t := fun (i : Nat) => toInt 16 (Config.coeffTap phase i % 65536)
  if (List.range 8).foldl (fun a i => a + t i) 0 = 16384 then t k else if k = 3 then 16384 else 0

/-- An entry of the Seusk FC_THRESH set, which the manual does not list: free, but ascending (R185). -/
def seuskThresh (i : Nat) : Nat :=
  let t := fun (j : Nat) => Config.fcThresh j % 2 ^ 32
  if (List.range 14).all (fun j => FVal.le (f32v (t j)) (f32v (t (j + 1)))) then t i else 0

/-- A tap of the scaler; the default set is Seusk's. -/
def coeffAt (d : Dev) (v phase k : Nat) : FVal :=
  let t := d.bytes (Reg.view_COEFF v)
  let c : Int := if t = [] then seuskTap phase k else toInt 16 (rdLe t ((phase * 8 + k) * 2) 2)
  fr ((c : Rat) / 16384)

/-- A sum of eight products in order of k. -/
def taps (f : Nat → FVal) : FVal := (List.range 7).foldl (fun a k => fadd a (f (k + 1))) (f 0)

/-- Stage 8 at an output pixel (R179). `at'` gives R′G′B′ at a mosaic place. -/
def scaleAt (d : Dev) (v : Nat) (g : Geom) (at' : Nat → Nat → Rgb) (x y : Nat) : Rgb :=
  let px := scalePos g.cx g.stepX x
  let py := scalePos g.cy g.stepY y
  let col := fun (k : Nat) => (clampI g.cx ((g.cx : Int) + g.cw - 1) (px.1 - 3 + k)).toNat
  let row := fun (k : Nat) => (clampI g.cy ((g.cy : Int) + g.ch - 1) (py.1 - 3 + k)).toNat
  let hor := fun (n r : Nat) => taps (fun k => fmul (coeffAt d v px.2 k) ((at' r (col k)).ch n))
  let ver := fun (n : Nat) => taps (fun k => fmul (coeffAt d v py.2 k) (hor n (row k)))
  (ver 0, ver 1, ver 2)

/-- The place (n_x, n_y) of an output pixel, clamped to the crop rectangle: its row and column. -/
def pixelSite (g : Geom) (x y : Nat) : Nat × Nat :=
  ((clampI g.cy ((g.cy : Int) + g.ch - 1) (scalePos g.cy g.stepY y).1).toNat,
   (clampI g.cx ((g.cx : Int) + g.cw - 1) (scalePos g.cx g.stepX x).1).toNat)

/-! ## Stage 9: overlays -/

/-- A U16 colour value (R180). -/
def colour16 (n : Nat) : FVal := fr ((((n : Nat) : Int) : Rat) / 65535)

/-- False colour (R180): `x4` is the stage 4 output times EXPOSURE_GAIN. -/
def falseColour (b : Regs) (v : Nat) (x4 : Rgb) : Rgb :=
  let w := fun i => bankF b (Reg.view_LUMA_WEIGHTS v) i
  let l := fadd (fadd (fmul (w 0) x4.1) (fmul (w 1) x4.2.1)) (fmul (w 2) x4.2.2)
  let th := bankB b (Reg.view_FC_THRESH v)
  let band := ((List.range 15).filter (fun i =>
    FVal.le (if th = [] then f32v (seuskThresh i) else f32v (rdLe th (4 * i) 4)) l)).length
  let cs := bankB b (Reg.view_FC_COLOURS v)
  let c := fun (k : Nat) => colour16 (if cs = [] then Config.fcColour band k % 65536 else rdLe cs ((band * 3 + k) * 2) 2)
  (c 0, c 1, c 2)

/-- The Sobel response of R180 exceeds the threshold at a place of stage 3's green. -/
def peaking (b : Regs) (v : Nat) (g : Int → Int → FVal) (r c : Nat) : Bool :=
  let at' := fun (i j : Int) => g ((r : Int) + i) ((c : Int) + j)
  let side := fun (x y z : FVal) => fadd (fadd x (fmul (fr 2) y)) z
  let gx := fsub (side (at' (-1) 1) (at' 0 1) (at' 1 1)) (side (at' (-1) (-1)) (at' 0 (-1)) (at' 1 (-1)))
  let gy := fsub (side (at' 1 (-1)) (at' 1 0) (at' 1 1)) (side (at' (-1) (-1)) (at' (-1) 0) (at' (-1) 1))
  FVal.lt (f32v (bankN b (Reg.view_PEAK_THRESH v))) (fadd (fmul gx gx) (fmul gy gy))

/-- Frame line `k` over a pixel (R180). -/
def frameLine (b : Regs) (v k x y : Nat) (p : Rgb) : Rgb :=
  let t := sliceB (bankB b (Reg.view_FRAME_LINES v)) (16 * k) 16
  let rect := rdLe t 0 8
  let x0 := field rect 63 48
  let y0 := field rect 47 32
  let x1 := x0 + field rect 31 16
  let y1 := y0 + field rect 15 0
  let thick := rdLe t 8 1
  if x0 ≤ x ∧ x < x1 ∧ y0 ≤ y ∧ y < y1 ∧ min (min (x - x0) (x1 - 1 - x)) (min (y - y0) (y1 - 1 - y)) < thick then
    let a := fr ((((rdLe t 9 1 : Nat) : Int) : Rat) / 255)
    let mix := fun (p : FVal) (n : Nat) =>
      fadd (fmul p (fsub (fr 1) a)) (fmul (colour16 (rdLe t (10 + 2 * n) 2)) a)
    (mix p.1 0, mix p.2.1 1, mix p.2.2 2)
  else p

/-- Stage 9 (R180). -/
def stage9 (b : Regs) (v : Nat) (g : Int → Int → FVal) (x3 : Nat → Nat → Rgb) (site : Nat × Nat) (x y : Nat) (p : Rgb) :
    Rgb :=
  let mask := bankN b (Reg.view_OVERLAY_MASK v)
  let gain := f32v (bankN b (Reg.view_EXPOSURE_GAIN v))
  let p1 := if bit mask 0 = 1 then
      falseColour b v ((stage4 b v (x3 site.1 site.2)).map (fun y => fmul y gain)) else p
  let pc := bankN b (Reg.view_PEAK_COLOUR v)
  let p2 := if bit mask 1 = 1 && peaking b v g site.1 site.2 then
      (colour16 (field pc 47 32), colour16 (field pc 31 16), colour16 (field pc 15 0)) else p1
  if bit mask 2 = 1 then (List.range 4).foldl (fun q k => frameLine b v k x y q) p2 else p2

/-! ## Stage 10: packing -/

/-- Kr and Kb of YCC_MATRIX (R181). -/
def yccK (m : Nat) : FVal × FVal := if m = 0 then (fr (2126 / 10000), fr (722 / 10000)) else (fr (2627 / 10000), fr (593 / 10000))

/-- Y′, Cb and Cr of a pixel (R181). -/
def toYcc (m : Nat) (x0 : Rgb) : FVal × FVal × FVal :=
  let x := x0.map (fun y => fmin (fmax y f0) (fr 1))
  let k := yccK m
  let y := fadd (fadd (fmul k.1 x.1) (fmul (fsub (fsub (fr 1) k.1) k.2) x.2.1)) (fmul k.2 x.2.2)
  (y, fdiv (fsub x.2.2 y) (fsub (fr 2) (fmul (fr 2) k.2)), fdiv (fsub x.1 y) (fsub (fr 2) (fmul (fr 2) k.1)))

/-- A value rounded down and limited. -/
def codeOf (v : FVal) (lo hi : Int) : Nat := (clampI lo hi (ratFloor v.toRat)).toNat

/-- A narrow-range luma-like code of 10, 12 or 16 bits. -/
def narrowY (bits : Nat) (y : FVal) : Nat :=
  let k := 2 ^ (bits - 10)
  let a := fadd (fr 64) (fmul (fr 876) y)
  codeOf (fadd (if bits = 10 then a else fmul (fr (((k : Nat) : Int) : Rat)) a) (fr (1 / 2))) (4 * k) (1020 * k - 1)

/-- A narrow-range chroma code of 10 or 12 bits. -/
def narrowC (bits : Nat) (c : FVal) : Nat :=
  let k := 2 ^ (bits - 10)
  let a := fadd (fr 512) (fmul (fr 896) c)
  codeOf (fadd (if bits = 10 then a else fmul (fr (((k : Nat) : Int) : Rat)) a) (fr (1 / 2))) (4 * k) (1020 * k - 1)

/-- A full-range code of N bits. -/
def fullCode (n : Nat) (v : FVal) : Nat :=
  codeOf (fadd (fmul (fr (((2 ^ n - 1 : Nat) : Int) : Rat)) v) (fr (1 / 2))) 0 (2 ^ n - 1)

/-- A binary16 code, limited to ±65504. -/
def halfCode (v : FVal) : Nat := f16.encode (fmin (fmax v (fr (-65504))) (fr 65504))

/-- Bytes of a packed row before padding (Table 7.3). -/
def packedRow (packing w : Nat) : Nat :=
  if packing ≤ 1 then w / 2 * 4 * 2 else if packing ≤ 3 then w * 6 else w * 8

/-- Bytes of a row of the view buffer. -/
def viewPitch (packing w : Nat) : Nat := roundUp (packedRow packing w) 256

/-- The words that a pixel contributes to its row: offset from the row's start and value (Table 7.3). A pair takes its
chroma from the even pixel. -/
def pixelWords (packing ycc range x : Nat) (p : Rgb) : List (Nat × Nat) :=
  if packing ≤ 1 then
    let bits := if packing = 0 then 10 else 12
    let q := toYcc ycc p
    let o := x / 2 * 8
    if x % 2 = 0 then [(o, narrowC bits q.2.1), (o + 2, narrowY bits q.1), (o + 4, narrowC bits q.2.2)]
    else [(o + 6, narrowY bits q.1)]
  else if packing ≤ 3 then
    let bits := if packing = 2 then 12 else 16
    let f := fun (v : FVal) =>
      let u := fmin (fmax v f0) (fr 1)
      if range = 0 then narrowY bits u else fullCode bits u
    [(x * 6, f p.1), (x * 6 + 2, f p.2.1), (x * 6 + 4, f p.2.2)]
  else [(x * 8, halfCode p.1), (x * 8 + 2, halfCode p.2.1), (x * 8 + 4, halfCode p.2.2), (x * 8 + 6, halfCode (fr 1))]

/-- The zeros behind a row, written with its last pixel (R181). -/
def rowPad (packing addr : Nat) (g : Geom) (x y : Nat) (s : State) : State :=
  let n := packedRow packing g.outW
  if x + 1 = g.outW then poundWrite (addr + y * viewPitch packing g.outW + n) (zeros (viewPitch packing g.outW - n)) s else s

/-- A pixel written to a view buffer. -/
def writePixel (d : Dev) (v addr : Nat) (g : Geom) (x y : Nat) (p : Rgb) (s : State) : State :=
  let packing := d.get (Reg.view_PACKING v)
  let row := addr + y * viewPitch packing g.outW
  rowPad packing addr g x y ((pixelWords packing (d.get (Reg.view_YCC_MATRIX v)) (d.get (Reg.view_RANGE v)) x p).foldl
    (fun t w => poundWrite (row + w.1) (leBytes 2 w.2) t) s)

/-- The output pixels of a tile: those whose site lies in it (R179). -/
def tilePixels (g : Geom) (t : Nat × Nat × Nat × Nat) : List (Nat × Nat) :=
  let rows := (List.range g.outH).filter (fun y =>
    let n := (pixelSite g 0 y).1
    decide (t.1 ≤ n) && decide (n < t.2.1))
  let cols := (List.range g.outW).filter (fun x =>
    let n := (pixelSite g x 0).2
    decide (t.2.2.1 ≤ n) && decide (n < t.2.2.2))
  rows.flatMap (fun y => cols.map (fun x => (x, y)))

/-- What a view lane of a job writes: view, buffer address, parameter set, and whether overlays run (R180). -/
structure ViewLane where
  v : Nat
  addr : Nat
  bank : Regs
  overlays : Bool

/-- A view lane's output pixels of a tile written, from R′G′B′ per pixel. -/
def writeLane (d : Dev) (l : ViewLane) (g : Geom) (t : Nat × Nat × Nat × Nat) (f : Nat → Nat → Rgb) (s : State) : State :=
  (tilePixels g t).foldl (fun a xy => writePixel d l.v l.addr g xy.1 xy.2 (f xy.1 xy.2) a) s

/-- 0.5. -/
abbrev fHalf : FVal := .fin false (1 / 2)

/-- The words of a mid-grey pixel (R166): Y′ = Cb = Cr = 0.5 before quantisation, or R′ = G′ = B′ = 0.5. -/
def greyWords (packing range x : Nat) : List (Nat × Nat) :=
  if packing ≤ 1 then
    let bits := if packing = 0 then 10 else 12
    let o := x / 2 * 8
    if x % 2 = 0 then [(o, narrowC bits fHalf), (o + 2, narrowY bits fHalf), (o + 4, narrowC bits fHalf)]
    else [(o + 6, narrowY bits fHalf)]
  else pixelWords packing 0 range x (fHalf, fHalf, fHalf)

/-- A view lane's output pixels of a poisoned tile (R166). -/
def greyLane (d : Dev) (l : ViewLane) (g : Geom) (t : Nat × Nat × Nat × Nat) (s : State) : State :=
  let packing := d.get (Reg.view_PACKING l.v)
  (tilePixels g t).foldl (fun a xy =>
    rowPad packing l.addr g xy.1 xy.2 ((greyWords packing (d.get (Reg.view_RANGE l.v)) xy.1).foldl
      (fun u w => poundWrite (l.addr + xy.2 * viewPitch packing g.outW + w.1) (leBytes 2 w.2) u) a)) s

/-- One DEVELOP job of a mosaic source: tile `i` for each view lane (R163). It answers whether the source read was
poisoned (R166). -/
def developTile (m : Mosaic) (i : Nat) (lanes : List ViewLane) (s : State) : Bool × State :=
  let d := s.dev
  let t := tileRect m.w m.h i
  let ap := apronRect m.w m.h i
  if m.poisoned s ap.1 ap.2.1 ap.2.2.1 ap.2.2.2 then
    (true, lanes.foldl (fun a l => greyLane d l (d.geom l.v m.w m.h) t a) s)
  else
    match lanes with
    | [] => (false, s)
    | l0 :: _ =>
      let x3 := stage3 s m m.shift l0.bank l0.v i
      let z : Rgb := (f0, f0, f0)
      let green : Int → Int → FVal := fun r c => (x3.at z (mirror m.h r) (mirror m.w c)).2.1
      (false, lanes.foldl (fun a l =>
        let g := d.geom l.v m.w m.h
        let x7 := Grid.make (grow m.w m.h 4 t) (fun r c =>
          stage7 l.bank l.v (stage6v l.bank l.v (stage5 l.bank l.v (stage4 l.bank l.v (x3.at z r c)))))
        writeLane d l g t (fun x y =>
          let p := scaleAt d l.v g (x7.at z) x y
          if l.overlays then stage9 l.bank l.v green (x3.at z) (pixelSite g x y) x y p else p) a) s)

end Sys2Proof.Machine
end

