-- ==== Sys2Proof/Machine/Amtan.lean ====
section
/-! DEFINITION. The Amtan codec: planes and blocks (R191, R192), prediction and reconstruction (R196 to R198), entropy
coding (R199 to R201), the encoder's decisions and the floor (R202, R203, R210), and the decoder (R194, R213, R214). -/

namespace Sys2Proof.Machine

/-! ## Planes and blocks -/

/-- Planes of a tile (R191). -/
def planeCount (cfa : Nat) : Nat := if cfa = 0 then 1 else 4

/-- Rows and columns of a plane of an h × w tile. -/
def planeSize (cfa h w : Nat) : Nat × Nat := if cfa = 0 then (h, w) else (h / 2, w / 2)

/-- The tile place of a plane sample (R191). -/
def planeSite (cfa p r c : Nat) : Nat × Nat :=
  if cfa = 0 then (r, c)
  else if cfa ≤ 4 then (2 * r + p / 2, 2 * c + p % 2)
  else (4 * (r / 2) + 2 * (p / 2) + r % 2, 4 * (c / 2) + 2 * (p % 2) + c % 2)

/-- A block: its plane, first row and column, rows and columns, and whether it begins a block row (R192). -/
structure Block where
  p : Nat
  r0 : Nat
  c0 : Nat
  h : Nat
  w : Nat
  first : Bool
deriving DecidableEq, Repr, Inhabited

/-- The blocks of a tile in block order (R192). -/
def blocksOf (cfa h w : Nat) : List Block :=
  let z := planeSize cfa h w
  (List.range (planeCount cfa)).flatMap (fun p =>
    (List.range (ceilDiv z.1 8)).flatMap (fun i =>
      (List.range (ceilDiv z.2 16)).map (fun j =>
        { p := p, r0 := 8 * i, c0 := 16 * j, h := min 8 (z.1 - 8 * i), w := min 16 (z.2 - 16 * j)
          first := decide (j = 0) })))

/-- The plane places of a block in raster order. -/
def Block.sites (b : Block) : List (Nat × Nat) :=
  (List.range b.h).flatMap (fun i => (List.range b.w).map (fun j => (b.r0 + i, b.c0 + j)))

/-! ## Prediction, residuals and codes -/

/-- The INTRA prediction from the reconstruction of a plane of `w` columns (R196). -/
def intraPred (px : Array Nat) (w bits r c : Nat) : Int :=
  let at' := fun (i j : Nat) => ((px.getD (i * w + j) 0 : Nat) : Int)
  if r = 0 ∧ c = 0 then ((2 ^ (bits - 1) : Nat) : Int)
  else if r = 0 then at' r (c - 1)
  else if c = 0 then at' (r - 1) c
  else
    let a := at' r (c - 1)
    let b := at' (r - 1) c
    let d := at' (r - 1) (c - 1)
    if max a b ≤ d then min a b else if d ≤ min a b then max a b else a + b - d

/-- ec of R198. -/
def quantE (e : Int) (q : Nat) : Int :=
  let m : Int := ((e.natAbs + q) / (2 * q + 1) : Nat)
  if e < 0 then -m else m

/-- xr of R198. -/
def reconX (pred ec : Int) (q bits : Nat) : Nat := (clampI 0 ((2 ^ bits : Nat) - 1 : Int) (pred + ec * ((2 * q + 1 : Nat) : Int))).toNat

/-- m of R199. -/
def zigzag (e : Int) : Nat := if e < 0 then (-2 * e - 1).toNat else (2 * e).toNat

/-- The value that m stands for. -/
def unzigzag (m : Nat) : Int := if m % 2 = 0 then ((m / 2 : Nat) : Int) else -(((m + 1) / 2 : Nat) : Int)

/-- The smallest k ≥ 0 with N × 2^k ≥ A (R199), at most `fuel`. -/
def riceK (a n : Nat) : Nat → Nat
  | 0 => 0
  | f + 1 => if a ≤ n then 0 else riceK a (2 * n) f + 1

/-- A piece of coded data: a value and its number of bits, most significant first. -/
abbrev Piece := Nat × Nat

/-- The Rice code of m with parameter k (R199). -/
def riceCode (m k bits : Nat) : List Piece :=
  let u := m / 2 ^ k
  if u < 24 then [((2 ^ u - 1) * 2, u + 1), (m % 2 ^ k, k)] else [(2 ^ 24 - 1, 24), (m, bits + 1)]

/-- Bits of some pieces. -/
def bitsOf (l : List Piece) : Nat := sumN (l.map (·.2))

/-- The adaptive state of a plane (R200). -/
structure Rice where
  a : Nat
  n : Nat
deriving DecidableEq, Repr, Inhabited

/-- A and N at a plane's start. -/
def Rice.start (bits : Nat) : Rice := { a := max 2 ((2 ^ bits + 32) / 64), n := 1 }

/-- A and N after a residual. -/
def Rice.step (x : Rice) (m : Nat) : Rice :=
  let y : Rice := { a := x.a + m, n := x.n + 1 }
  if y.n = 64 then { a := y.a / 2, n := 32 } else y

/-- k in a state. -/
def Rice.k (x : Rice) : Nat := riceK x.a x.n 64

/-! ## The encoder -/

/-- What a tile is coded with: sample bits, CFA, size, P picture, quantiser limits, Q_BASE and bit budget R. -/
structure TileCfg where
  bits : Nat
  cfa : Nat
  h : Nat
  w : Nat
  pPic : Bool
  qMin : Nat
  qMax : Nat
  qBase : Nat
  budget : Nat
deriving DecidableEq, Repr

/-- A coded block: its bits, the reconstruction of its plane and the adaptive state after it, and whether it is SKIP. -/
structure BlockOut where
  pieces : List Piece
  px : Array Nat
  rice : Rice
  skip : Bool

/-- The rounded mean of samples (R202). -/
def roundedMean (l : List Int) : Int := (sumI l + ((l.length / 2 : Nat) : Int)) / ((l.length : Nat) : Int)

/-- Residuals of a block in sample order: the ec values and the reconstruction after them. -/
def residuals (c : TileCfg) (q w : Nat) (pred : Array Nat → Nat → Nat → Int) (src : Nat → Nat → Nat) (b : Block)
    (px : Array Nat) : List Int × Array Nat :=
  b.sites.foldl (fun (acc : List Int × Array Nat) rc =>
    let p := pred acc.2 rc.1 rc.2
    let ec := quantE ((src rc.1 rc.2 : Int) - p) q
    (acc.1 ++ [ec], acc.2.set! (rc.1 * w + rc.2) (reconX p ec q c.bits))) ([], px)

/-- The Rice codes of a block's residuals and the state after them (R199, R200). -/
def codeResiduals (bits : Nat) (x : Rice) (l : List Int) : List Piece × Rice :=
  l.foldl (fun (acc : List Piece × Rice) e =>
    let m := zigzag e
    (acc.1 ++ riceCode m acc.2.k bits, acc.2.step m)) ([], x)

/-- ZERO and the residuals. -/
def codeBlockBody (bits : Nat) (x : Rice) (l : List Int) : List Piece × Rice :=
  if l.all (· == 0) then ([(1, 1)], x)
  else
    let r := codeResiduals bits x l
    ((0, 1) :: r.1, r.2)

/-- Every sample of a block set. -/
def fillBlock (w : Nat) (b : Block) (v : Nat → Nat → Nat) (px : Array Nat) : Array Nat :=
  b.sites.foldl (fun a rc => a.set! (rc.1 * w + rc.2) (v rc.1 rc.2)) px

/-- A block coded outside floor mode (R202). `src` and `ref` give plane samples. -/
def codeBlock (c : TileCfg) (q w : Nat) (src ref : Nat → Nat → Nat) (b : Block) (px : Array Nat) (x : Rice) : BlockOut :=
  let xs := b.sites.map (fun rc => (src rc.1 rc.2 : Int))
  let within := fun (l : List Int) => l.all (fun e => decide (e.natAbs ≤ q))
  let diffs := b.sites.map (fun rc => (src rc.1 rc.2 : Int) - (ref rc.1 rc.2 : Int))
  let mean := roundedMean xs
  if c.pPic && within diffs then
    { pieces := [(2, 2)], px := fillBlock w b ref px, rice := x, skip := true }
  else if within (xs.map (fun v => v - mean)) then
    { pieces := [(3, 2), (mean.toNat, c.bits)], px := fillBlock w b (fun _ _ => mean.toNat) px, rice := x, skip := false }
  else
    let i := residuals c q w (fun a r k => intraPred a w c.bits r k) src b px
    let ib := codeBlockBody c.bits x i.1
    let intra : BlockOut := { pieces := (0, 2) :: ib.1, px := i.2, rice := ib.2, skip := false }
    if !c.pPic then intra
    else
      let mm : Int := (2 ^ c.bits : Nat) - 1
      let o := clampI (-mm) mm (roundedMean diffs)
      let j := residuals c q w (fun _ r k => clampI 0 mm ((ref r k : Int) + o)) src b px
      let jb := codeBlockBody c.bits x j.1
      let inter : BlockOut :=
        { pieces := (1, 2) :: riceCode (zigzag o) (c.bits - 8) c.bits ++ jb.1, px := j.2, rice := jb.2, skip := false }
      if bitsOf inter.pieces < bitsOf intra.pieces then inter else intra

/-- A tile as the encoder works: coded pieces, committed bits, the quantiser, the first floor block, the plane in
progress with its state, finished planes, and what the header and the cost table need. -/
structure EncSt where
  pieces : List Piece
  u : Nat
  q : Nat
  floor : Option Nat
  plane : Nat
  px : Array Nat
  rice : Rice
  recs : List (Array Nat)
  lossy : Bool
  allSkip : Bool
  qHigh : Nat
  qLast : Nat

/-- The quantiser of the row that block `j` begins (R195, R203). -/
def nextQ (c : TileCfg) (n j u q : Nat) : Nat :=
  let t := c.budget * j / n
  let q1 := if j = 0 then q else if 106 * t < 100 * u then q + 1 else if 100 * u < 88 * t then q - 1 else q
  min c.qMax (max c.qMin q1)

/-- Block `j` of `n` (R210). `gray` makes every block FLAT mid-grey (R217). -/
def encodeStep (c : TileCfg) (gray : Bool) (n w : Nat) (src ref : Nat → Nat → Nat → Nat) (s : EncSt) (jb : Nat × Block) :
    EncSt :=
  let j := jb.1
  let b := jb.2
  let z := planeSize c.cfa c.h c.w
  let s1 := if b.p = s.plane then s
    else { s with plane := b.p, recs := s.recs ++ [s.px], px := Array.replicate (z.1 * z.2) 0, rice := Rice.start c.bits }
  let begins := b.first && s1.floor.isNone
  let q := if begins then nextQ c n j s1.u s1.q else s1.q
  let delta : Int := if j = 0 then 0 else (q : Int) - (s1.q : Int)
  let head : List Piece := if begins then [(ofInt 3 delta, 3)] else []
  let o : BlockOut := if gray then
      { pieces := [(3, 2), (2 ^ (c.bits - 1), c.bits)], px := fillBlock w b (fun _ _ => 2 ^ (c.bits - 1)) s1.px
        rice := s1.rice, skip := false }
    else codeBlock c q w (src b.p) (ref b.p) b s1.px s1.rice
  let cost := bitsOf head + bitsOf o.pieces
  if s1.floor.isNone && decide (s1.u + cost + 18 * (n - 1 - j) ≤ c.budget) then
    { s1 with pieces := s1.pieces ++ head ++ o.pieces, u := s1.u + cost, q := q, px := o.px, rice := o.rice
              lossy := s1.lossy || decide (0 < q), allSkip := s1.allSkip && o.skip, qHigh := max s1.qHigh q, qLast := q }
  else
    let dc := (roundedMean (b.sites.map (fun rc => (src b.p rc.1 rc.2 : Int)))).toNat
    { s1 with pieces := s1.pieces ++ [(3, 2), (dc, c.bits)], u := s1.u + 2 + c.bits
              floor := some (s1.floor.getD j), px := fillBlock w b (fun _ _ => dc) s1.px, allSkip := false }

/-- Pieces packed most significant bit first, the last byte filled with zeros (R194). -/
def packPieces (l : List Piece) : List Byte :=
  let r := l.foldl (fun (a : Nat × Nat) p => (a.1 * 2 ^ p.2 + p.1 % 2 ^ p.2, a.2 + p.2)) (0, 0)
  let n := ceilDiv r.2 8
  beBytes n (r.1 * 2 ^ (8 * n - r.2))

/-- A coded tile: the payload (R188, R193), its cost entry (R208) and its reconstruction in tile places. -/
structure TileOut where
  payload : List Byte
  flags : Nat
  bits : Nat
  qLast : Nat
  qHigh : Nat
  floor : Nat
  recon : List (Nat × Nat × Nat)

/-- One CODE job's tile. `src` and `ref` give tile samples; `poison` is R217. -/
def encodeTile (c : TileCfg) (index : Nat) (poison : Bool) (src ref : Nat → Nat → Nat) : TileOut :=
  let z := planeSize c.cfa c.h c.w
  let bs := blocksOf c.cfa c.h c.w
  let at' := fun (f : Nat → Nat → Nat) (p r k : Nat) => let t := planeSite c.cfa p r k; f t.1 t.2
  let s0 : EncSt := { pieces := [], u := 0, q := c.qBase, floor := none, plane := 0
                      px := Array.replicate (z.1 * z.2) 0, rice := Rice.start c.bits, recs := []
                      lossy := false, allSkip := true, qHigh := 0, qLast := min c.qMax (max c.qMin c.qBase) }
  let e := (bs.zipIdx.map (fun x => (x.2, x.1))).foldl
    (encodeStep c poison bs.length z.2 (at' src) (at' ref)) s0
  let floor := e.floor.getD 0xFFFF
  let flags := flags [(0, e.floor.isSome), (1, e.lossy), (2, e.allSkip), (3, poison)]
  let head := ascii "AMTT" ++ leBytes 2 index ++ leBytes 1 (c.qBase * 16 + flags) ++ zeros 1 ++ leBytes 2 floor ++
    zeros 2 ++ leBytes 4 e.u
  let recs := e.recs ++ [e.px]
  { payload := padMul 32 (head ++ packPieces e.pieces), flags := flags, bits := e.u, qLast := e.qLast, qHigh := e.qHigh
    floor := floor
    recon := (List.range (planeCount c.cfa)).flatMap (fun p => (List.range z.1).flatMap (fun r =>
      (List.range z.2).map (fun k =>
        let t := planeSite c.cfa p r k
        (t.1, t.2, (recs.getD p #[]).getD (r * z.2 + k) 0)))) }

/-! ## The decoder -/

/-- A bit reader: the bits of the coded data and the position; reads beyond BIT_COUNT fail (R214). -/
structure BitRd where
  data : Array Byte
  pos : Nat
  count : Nat

/-- One bit. -/
def BitRd.bit (x : BitRd) : Option (Nat × BitRd) :=
  if x.pos < x.count then
    some (((x.data.getD (x.pos / 8) 0).toNat / 2 ^ (7 - x.pos % 8)) % 2, { x with pos := x.pos + 1 })
  else none

/-- `n` bits, most significant first. -/
def BitRd.take (x : BitRd) : Nat → Option (Nat × BitRd)
  | 0 => some (0, x)
  | n + 1 =>
    match x.bit with
    | none => none
    | some b =>
      match b.2.take n with
      | none => none
      | some r => some (b.1 * 2 ^ n + r.1, r.2)

/-- One-bits up to `fuel`, and the zero-bit that ends them when fewer. -/
def BitRd.ones (x : BitRd) : Nat → Option (Nat × BitRd)
  | 0 => some (0, x)
  | f + 1 =>
    match x.bit with
    | none => none
    | some b => if b.1 = 0 then some (0, b.2) else (b.2.ones f).map (fun r => (r.1 + 1, r.2))

/-- A Rice code read (R199): an escaped m of 2^(B+1) − 1 is invalid, and no sample takes more than B + 25 bits (R214). -/
def BitRd.rice (x : BitRd) (k bits : Nat) : Option (Nat × BitRd) :=
  match x.ones 24 with
  | none => none
  | some u =>
    let r := if u.1 < 24 then (u.2.take k).map (fun t => (u.1 * 2 ^ k + t.1, t.2)) else u.2.take (bits + 1)
    match r with
    | none => none
    | some m =>
      if (24 ≤ u.1 ∧ m.1 = 2 ^ (bits + 1) - 1) ∨ x.pos + bits + 25 < m.2.pos then none else some m

/-- A tile as the decoder works. -/
structure DecSt where
  rd : BitRd
  q : Nat
  plane : Nat
  px : Array Nat
  rice : Rice
  recs : List (Array Nat)

/-- The samples of an INTRA or INTER block. -/
def decodeSamples (c : TileCfg) (w : Nat) (zero : Bool) (q : Nat) (pred : Array Nat → Nat → Nat → Int) (b : Block)
    (s : DecSt) : Option DecSt :=
  b.sites.foldl (fun (a : Option DecSt) rc =>
    match a with
    | none => none
    | some t =>
      let p := pred t.px rc.1 rc.2
      let put := fun (e : Int) => t.px.set! (rc.1 * w + rc.2) (reconX p e q c.bits)
      if zero then some { t with px := put 0 }
      else
        match t.rd.rice t.rice.k c.bits with
        | none => none
        | some m => some { t with rd := m.2, px := put (unzigzag m.1), rice := t.rice.step m.1 }) (some s)

/-- Block `j` (R194). -/
def decodeStep (c : TileCfg) (floor w : Nat) (ref : Nat → Nat → Nat → Nat) (a : Option DecSt) (jb : Nat × Block) :
    Option DecSt :=
  match a with
  | none => none
  | some s =>
    let j := jb.1
    let b := jb.2
    let z := planeSize c.cfa c.h c.w
    let s1 := if b.p = s.plane then s
      else { s with plane := b.p, recs := s.recs ++ [s.px], px := Array.replicate (z.1 * z.2) 0, rice := Rice.start c.bits }
    let s2? := if b.first && decide (j < floor) then
        (s1.rd.take 3).map (fun t => { s1 with
          rd := t.2, q := (clampI c.qMin c.qMax ((s1.q : Int) + toInt 3 t.1)).toNat })
      else some s1
    match s2? with
    | none => none
    | some s2 =>
      match s2.rd.take 2 with
      | none => none
      | some md =>
        let s3 := { s2 with rd := md.2 }
        let mm : Int := (2 ^ c.bits : Nat) - 1
        if md.1 = 3 then
          (s3.rd.take c.bits).map (fun t => { s3 with rd := t.2, px := fillBlock w b (fun _ _ => t.1) s3.px })
        else if floor ≤ j ∨ ((md.1 = 1 ∨ md.1 = 2) ∧ !c.pPic) then none
        else if md.1 = 2 then some { s3 with px := fillBlock w b (ref b.p) s3.px }
        else
          let o? : Option (Int × BitRd) := if md.1 = 1 then
              (s3.rd.rice (c.bits - 8) c.bits).map (fun t => (unzigzag t.1, t.2)) else some (0, s3.rd)
          match o? with
          | none => none
          | some o =>
            match o.2.bit with
            | none => none
            | some zb =>
              let pred : Array Nat → Nat → Nat → Int := if md.1 = 1
                then fun _ r k => clampI 0 mm ((ref b.p r k : Int) + o.1)
                else fun x r k => intraPred x w c.bits r k
              decodeSamples c w (decide (zb.1 = 1)) s3.q pred b { s3 with rd := zb.2 }

/-- The samples of a tile from its payload; none when the tile is bad (R214). `c.qBase` and `c.budget` are not used. -/
def decodeTile (c : TileCfg) (index : Nat) (payload : List Byte) (ref : Nat → Nat → Nat) : Option (List (Nat × Nat × Nat)) :=
  let qf := rdLe payload 6 1
  let floor := rdLe payload 8 2
  let count := rdLe payload 12 4
  let bs := blocksOf c.cfa c.h c.w
  let z := planeSize c.cfa c.h c.w
  if sliceB payload 0 4 ≠ ascii "AMTT" ∨ rdLe payload 4 2 ≠ index % 65536 then none
  else if (bit qf 0 = 1) ≠ (floor ≠ 0xFFFF) ∨ (bs.length ≤ floor ∧ floor ≠ 0xFFFF) ∨ 8 * (payload.length - 16) < count then none
  else
    let s0 : DecSt := { rd := { data := (payload.drop 16).toArray, pos := 0, count := count }, q := qf / 16, plane := 0
                        px := Array.replicate (z.1 * z.2) 0, rice := Rice.start c.bits, recs := [] }
    let at' := fun (p r k : Nat) => let t := planeSite c.cfa p r k; ref t.1 t.2
    match (bs.zipIdx.map (fun x => (x.2, x.1))).foldl (decodeStep c floor z.2 at') (some s0) with
    | none => none
    | some e =>
      if e.rd.pos ≠ count then none
      else
        let recs := e.recs ++ [e.px]
        some ((List.range (planeCount c.cfa)).flatMap (fun p => (List.range z.1).flatMap (fun r =>
          (List.range z.2).map (fun k =>
            let t := planeSite c.cfa p r k
            (t.1, t.2, (recs.getD p #[]).getD (r * z.2 + k) 0)))))

/-! ## Pictures -/

/-- P0 of a picture of n tiles (R188). -/
def picP0 (n : Nat) : Nat := roundUp (64 + 12 * n) 32

/-- The 64 bytes of a header. -/
def PicHead.bytes (x : PicHead) : List Byte :=
  withCrc (padTo 60 (ascii "AMTP" ++ leBytes 1 1 ++ leBytes 1 x.ty ++ leBytes 1 x.bits ++ leBytes 1 x.cfa ++
    leBytes 2 x.w ++ leBytes 2 x.h ++ leBytes 1 x.fmt ++ leBytes 1 x.qMin ++ leBytes 1 x.qMax ++ leBytes 1 x.port ++
    leBytes 2 (tileCols x.w) ++ leBytes 2 (tileRows x.h) ++ leBytes 1 x.stream ++ zeros 3 ++ leBytes 8 x.frame ++
    leBytes 8 x.tb ++ leBytes 4 x.id ++ leBytes 4 x.refId ++ leBytes 4 x.budget))

/-- The fields of a header. -/
def PicHead.read (b : List Byte) : PicHead :=
  { ty := rdLe b 5 1, bits := rdLe b 6 1, cfa := rdLe b 7 1, w := rdLe b 8 2, h := rdLe b 10 2, fmt := rdLe b 12 1
    qMin := rdLe b 13 1, qMax := rdLe b 14 1, port := rdLe b 15 1, stream := rdLe b 20 1, frame := rdLe b 24 8
    tb := rdLe b 32 8, id := rdLe b 40 4, refId := rdLe b 44 4, budget := rdLe b 48 4 }

/-- WIDTH and HEIGHT suit the CFA (R191). -/
def cfaSizeOk (cfa w h : Nat) : Bool :=
  if cfa = 0 then true else if cfa ≤ 4 then w % 2 == 0 && h % 2 == 0 else w % 4 == 0 && h % 4 == 0

/-- Every field lies inside Table 8.1, and the tile counts agree (R213). -/
def PicHead.fieldsOk (x : PicHead) (b : List Byte) : Bool :=
  decide (x.ty ≤ 1) && decide (10 ≤ x.bits) && decide (x.bits ≤ 16) && decide (x.cfa ≤ 8) &&
  (x.fmt == 0 || x.fmt == 1 || x.fmt == 3) && decide (x.qMin ≤ 15) && decide (x.qMin ≤ x.qMax) && decide (x.qMax ≤ 15) &&
  decide (x.port ≤ 3) && decide (x.stream ≤ 7) && decide (0 < x.w) && decide (0 < x.h) &&
  (x.ty == 1 || x.refId == 0xFFFFFFFF) && (x.fmt == 0 || x.bits == 16) &&
  rdLe b 0x10 2 == tileCols x.w && rdLe b 0x12 2 == tileRows x.h && cfaSizeOk x.cfa x.w x.h

/-- The reason for which an offered picture is rejected (R213, Table 8.9); `fits` is the destination's check. -/
def rejectReason (b : List Byte) (fits : PicHead → Bool) : Option Nat :=
  let x := PicHead.read b
  if sliceB b 0 4 ≠ ascii "AMTP" ∨ rdLe b 4 1 ≠ 1 then some 1
  else if crc32c (sliceB b 0 60) ≠ rdLe b 60 4 then some 2
  else if !(x.fieldsOk b) then some 3
  else if !(fits x) then some 4
  else if b.length < picP0 (tileCols x.w * tileRows x.h) then some 5
  else none

/-- The payload that a directory entry names: none when the entry lies outside the picture or its CRC fails (R214). -/
def tilePayload (pic : List Byte) (i : Nat) : Option (List Byte) :=
  let e := sliceB pic (64 + 12 * i) 12
  let off := rdLe e 0 4
  let size := rdLe e 4 3
  if off % 32 ≠ 0 ∨ size < 32 ∨ size % 32 ≠ 0 ∨ pic.length < off + size then none
  else
    let p := sliceB pic off size
    if crc32c p = rdLe e 8 4 then some p else none

end Sys2Proof.Machine
end

