-- ==== Sys2Proof/Machine/Tiles.lean ====
section
/-! DEFINITION. The STATS route (R156, R157) and the FLATBUILD route (R158, R159), tile by tile. -/

namespace Sys2Proof.Machine

/-- A sample of a frame as the STATS route reads it (R156). -/
def Mosaic.statSample (m : Mosaic) (s : State) (r c : Nat) : Int :=
  if m.fmt = 2 then toInt 16 (m.code s r c) else (m.code s r c : Int)

/-- The plane of a sample of a tile at (r, c) of the tile (R191). -/
def planeOf (cfa r c : Nat) : Nat :=
  if cfa = 0 then 0 else if cfa ≤ 4 then 2 * (r % 2) + c % 2 else 2 * (r / 2 % 2) + c / 2 % 2

/-- The places of a tile in raster order, in frame coordinates. -/
def tileSites (t : Nat × Nat × Nat × Nat) : List (Nat × Nat) :=
  (List.range (t.2.1 - t.1)).flatMap (fun r => (List.range (t.2.2.2 - t.2.2.1)).map (fun c => (t.1 + r, t.2.2.1 + c)))

/-- The sample is a defect candidate (R157). -/
def isCandidate (w h step thresh : Nat) (at' : Nat → Nat → Int) (r c : Nat) : Bool :=
  let v := at' r c
  let row := fun (k : Nat) => if k < h then some (at' k c) else none
  let col := fun (k : Nat) => if k < w then some (at' r k) else none
  let left := if step ≤ c then col (c - step) else none
  let right := col (c + step)
  let up := if step ≤ r then row (r - step) else none
  let down := row (r + step)
  let pick := fun (a b : Option Int) => (a.getD (b.getD v))
  let m := lowerMedian [pick left right, pick right left, pick up down, pick down up]
  decide (thresh < (v - m).natAbs)

/-- Counts of the 64 bins (R157). -/
def histOf (base : Int) (shift : Nat) (l : List Int) : List Nat :=
  (l.foldl (fun (a : Array Nat) v =>
    let k := (clampI 0 63 ((v - base) / ((2 ^ shift : Nat) : Int))).toNat
    a.set! k (a.getD k 0 + 1)) (Array.replicate 64 0)).toList

/-- One plane's part of a tile statistics record (Table 6.9). -/
def planeStats (base : Int) (shift : Nat) (l : List Int) : List Byte :=
  let lo := l.foldl min (l.headD 0)
  let hi := l.foldl max (l.headD 0)
  leBytes 4 l.length ++ zeros 4 ++ leBytes 8 (ofInt 64 (sumI l)) ++
    leBytes 8 (sat64 (sumI (l.map (fun v => v * v))).toNat) ++ leBytes 4 (ofInt 32 lo) ++ leBytes 4 (ofInt 32 hi) ++
    (histOf base shift l).flatMap (leBytes 4)

/-- A tile statistics record (Table 6.9). -/
def statsRecord (i frame planes fl defects : Nat) (parts : List (List Byte)) (list : List Nat) : List Byte :=
  withCrc (padTo 0x4FC (padTo 0x4A0 (padTo 0x20 (ascii "LTST" ++ leBytes 4 i ++ leBytes 8 frame ++ leBytes 1 planes ++
    leBytes 1 fl ++ leBytes 2 (min defects 65535)) ++ parts.flatten) ++ padTo 64 (list.flatMap (leBytes 4))))

/-- One STATS job: its record written at `dst`; the answer says whether the source was poisoned (R157). -/
def statsTile (m : Mosaic) (frame i step thresh : Nat) (base : Int) (shift dst : Nat) (s : State) : Bool × State :=
  let t := tileRect m.w m.h i
  let ap := apronRect m.w m.h i
  let n := planeCount m.cfa
  if m.poisoned s ap.1 ap.2.1 ap.2.2.1 ap.2.2.2 then
    (true, poundWrite dst (statsRecord i frame n 1 0 [] []) s)
  else
    let sites := tileSites t
    let g := Grid.make ap (fun r c => m.statSample s r c)
    let at' := g.at 0
    let cands := sites.filter (fun x => isCandidate m.w m.h step thresh at' x.1 x.2)
    let parts := (List.range n).map (fun p =>
      planeStats base shift ((sites.filter (fun x => planeOf m.cfa (x.1 - t.1) (x.2 - t.2.2.1) == p)).map
        (fun x => at' x.1 x.2)))
    (false, poundWrite dst (statsRecord i frame n (if 16 < cands.length then 2 else 0) cands.length parts
      ((cands.take 16).map (fun x => x.1 * 65536 + x.2))) s)

/-! ## FLATBUILD -/

/-- An I64 in the pound. -/
def readI64 (a : Nat) (s : State) : Int := toInt 64 (leNat (poundRead a 8 s).1)

/-- A DARK or FLAT job: each sample's linear value added to the accumulator (R158). -/
def fbAccumulate (m : Mosaic) (i acc : Nat) (s : State) : State :=
  (tileSites (tileRect m.w m.h i)).foldl (fun t x =>
    let a := acc + 8 * (x.1 * m.w + x.2)
    let v := m.statSample s x.1 x.2 * ((2 ^ m.shift : Nat) : Int)
    poundWrite a (leBytes 8 (ofInt 64 (readI64 a t + v))) t) s

/-- d and f of a pixel (R159). -/
def fbMean (acc frames w r c : Nat) (s : State) : FVal :=
  fdiv (fmul (fr ((readI64 (acc + 8 * (r * w + c)) s : Int) : Rat)) (fr (pow2 (-16)))) (fr (((frames : Nat) : Int) : Rat))

/-- s of a pixel (R159). -/
def fbSignal (dark flat nd nf w r c : Nat) (s : State) : FVal :=
  fsub (fbMean flat nf w r c s) (fbMean dark nd w r c s)

/-- A pass-1 job: for each plane, the binary32 sum of s in raster order, as a code, and the pixel count (R159). -/
def fbPass1 (cfa w h i dark flat nd nf : Nat) (s : State) : List (Nat × Nat × Nat) :=
  let t := tileRect w h i
  (List.range (planeCount cfa)).map (fun p =>
    let l := (tileSites t).filter (fun x => planeOf cfa (x.1 - t.1) (x.2 - t.2.2.1) == p)
    let sum := l.foldl (fun a x => fadd a (fbSignal dark flat nd nf w x.1 x.2 s)) f0
    (p, f32.encode sum, l.length))

/-- The plane means M_c, as F32 codes (R159): sums and counts of all tiles in tile order, in binary64. -/
def fbMeans (sums : List (Nat × Nat × Nat × Nat)) : List Nat :=
  let r64 := fun (v : FVal) => f64.decode (f64.encode v)
  (List.range 4).map (fun p =>
    let l := sums.filter (fun x => x.2.1 == p)
    let total := l.foldl (fun a x => r64 (FVal.add a (f32v x.2.2.1))) f0
    let n := sumN (l.map (fun x => x.2.2.2))
    if n = 0 then 0 else f32.encode (r64 (FVal.div total (FVal.ofRat (((n : Nat) : Int) : Rat)))))

/-- A pass-2 job (R159): the table entries written, the candidates found and the clamped gains counted. -/
def fbPass2 (cfa w h i dark flat nd nf table : Nat) (minSignal : FVal) (means : List Nat) (s : State) :
    List Nat × Nat × State :=
  let t := tileRect w h i
  (tileSites t).foldl (fun (a : List Nat × Nat × State) x =>
    let st := a.2.2
    let m := f32v (means.getD (planeOf cfa (x.1 - t.1) (x.2 - t.2.2.1)) 0)
    let sg := fbSignal dark flat nd nf w x.1 x.2 st
    let good := FVal.lt (fmul minSignal m) sg
    let g := if good then fdiv m sg else fr 1
    let whole := ratRoundEven (fmul g (fr 1024)).toRat
    let gain := (clampI 0 4095 whole).toNat
    let d := fbMean dark nd w x.1 x.2 st
    let off := clampI (-2048) 2047 (ratRoundEven
      (fmul (fmul d.neg (fdiv (fr (((gain : Nat) : Int) : Rat)) (fr 1024))) (fr 16384)).toRat)
    (if good then a.1 else a.1 ++ [x.1 * 65536 + x.2],
     if 4095 < whole then a.2.1 + 1 else a.2.1,
     poundWrite (table + 3 * (x.1 * w + x.2)) (leBytes 3 (gain + ofInt 12 off * 4096)) st)) ([], 0, s)

end Sys2Proof.Machine
end

