-- ==== Sys2Proof/Machine/PoolOps.lean ====
section
/-! DEFINITION. Picture pools: marks, pool commands and the checks at every picture start (R221 to R227). -/

namespace Sys2Proof.Machine

/-- Pool `k`. -/
def Dev.pool (d : Dev) (k : Nat) : Pool := nth d.pools k

/-- A pool changed. -/
def setPool (k : Nat) (f : Pool → Pool) (d : Dev) : Dev := { d with pools := updAt k f d.pools }

/-- Marks of Table 9.2. -/
abbrev kFREE : Nat := 0
abbrev kENCSHORT : Nat := 1
abbrev kENCLONG : Nat := 2
abbrev kDECSHORT : Nat := 3
abbrev kDECLONG : Nat := 4
abbrev kAMTREF : Nat := 5
abbrev kOUTPUT : Nat := 6
abbrev kGENERATED : Nat := 7

/-- FREE is set exactly when every other mark is clear and the pin count is zero; a buffer that becomes FREE has no
latest picture (R223). -/
def PoolBuf.norm (b : PoolBuf) : PoolBuf :=
  if b.marks / 2 = 0 ∧ b.pins = 0 then { b with marks := 1, pic := 0 } else { b with marks := b.marks / 2 * 2 }

/-- The buffer is FREE. -/
def PoolBuf.free (b : PoolBuf) : Bool := bit b.marks kFREE == 1

/-- The buffer carries a mark. -/
def PoolBuf.has (b : PoolBuf) (i : Nat) : Bool := bit b.marks i == 1

/-- A buffer as it is registered. -/
def PoolBuf.fresh : PoolBuf := { marks := 1, tag := 0, pins := 0, pic := 0 }

/-- A buffer changed, with FREE as R223 has it. -/
def setBuf (k i : Nat) (f : PoolBuf → PoolBuf) : Dev → Dev :=
  setPool k (fun x => { x with bufs := x.bufs.modify i (fun b => (f b).norm) })

/-- Buffer `i` of pool `k`, when it is allocated. -/
def Dev.buf? (d : Dev) (k i : Nat) : Option PoolBuf := (d.pool k).bufs[i]?

/-- The owner is an HEVC stream in the given mode: 1 encode, 2 decode (Table 9.13). -/
def Dev.ownerHevc (d : Dev) (k mode : Nat) : Bool :=
  let o := (d.pool k).owner
  decide (0x20 ≤ o) && decide (o < 0x28) && d.get (Reg.hev_HEVC_MODE (o - 0x20)) == mode

/-- The owner is an Amtan stream. -/
def Dev.ownerAmtan (d : Dev) (k : Nat) : Bool :=
  decide (0x10 ≤ (d.pool k).owner) && decide ((d.pool k).owner < 0x18)

/-- A pool command (Table 9.3). -/
structure PoolCmd where
  op : Nat
  pool : Nat
  buf : Nat
  set : Nat
  clear : Nat
  tag : Nat
  arg : Nat
deriving DecidableEq, Repr

/-- A pool command from its 16 bytes. -/
def PoolCmd.read (b : List Byte) : PoolCmd :=
  { op := rdLe b 0 1, pool := rdLe b 1 1, buf := rdLe b 2 1, set := rdLe b 3 1, clear := rdLe b 4 1
    tag := rdLe b 8 4, arg := rdLe b 12 4 }

/-- The marks after a MARK command: CLEAR before SET (R224). -/
def markAfter (marks clear set : Nat) : Nat := Nat.lor (marks - Nat.land marks clear) set

/-- The rule of Table 9.4 that a MARK command on buffer `b` breaks. -/
def markRule (d : Dev) (c : PoolCmd) (b : PoolBuf) : Option Nat :=
  let m := markAfter b.marks c.clear c.set
  let sets := fun i => bit c.set i == 1
  let both := fun i j => bit m i == 1 && bit m j == 1
  let isRef := (List.range 5).any (fun i => sets (i + 1))
  let others := ((d.pool c.pool).bufs.zipIdx).any (fun x => x.1.has kAMTREF && x.2 != c.buf)
  if both kENCSHORT kENCLONG || both kDECSHORT kDECLONG then some 2
  else if (sets kENCSHORT || sets kENCLONG) && !(d.ownerHevc c.pool 1) then some 3
  else if (sets kDECSHORT || sets kDECLONG) && !(d.ownerHevc c.pool 2) then some 3
  else if sets kAMTREF && !(d.ownerAmtan c.pool) then some 3
  else if isRef && !(b.has kGENERATED) && b.pic != 1 then some 4
  else if sets kAMTREF && others then some 5
  else none

/-- Pools may be registered: during a mode transition, or in SERVICE (R224). -/
def Dev.mayAllocate (d : Dev) : Bool := d.target != 0 || d.mode == mSERVICE

/-- The rule of Table 9.4 that a command breaks (R225). -/
def poolRule (d : Dev) (c : PoolCmd) : Option Nat :=
  let p := d.pool c.pool
  if c.op = 1 then
    if bit c.set kFREE = 1 ∨ bit c.set kOUTPUT = 1 then some 1
    else match d.buf? c.pool c.buf with
      | none => some 8
      | some b => markRule d c b
  else if c.op = 2 then
    match d.buf? c.pool c.buf with
    | none => some 8
    | some b => if b.free then none else some 6
  else if c.op = 3 then
    if p.bufs = [] then some 8 else if p.bufs.any (fun b => decide (0 < b.pins)) then some 7 else none
  else
    if 8 ≤ c.pool then some 8
    else if d.mayAllocate && decide (1 ≤ c.arg) && decide (c.arg ≤ 64) then none else some 7

/-- The planes of a buffer: offset, pitch, width and height in samples (R222). -/
def Pool.planes (p : Pool) : List (Nat × Nat × Nat × Nat) :=
  if p.chroma = 0 then [(0, 2 * p.w, p.w, p.h)]
  else
    let w := roundUp p.w 8
    let h := roundUp p.h 8
    let cw := if p.chroma = 3 then w else w / 2
    let ch := if p.chroma = 1 then h / 2 else h
    let pitch := roundUp (2 * w) 256
    let cp := roundUp (2 * cw) 256
    [(0, pitch, w, h), (pitch * h, cp, cw, ch), (pitch * h + cp * ch, cp, cw, ch)]

/-- Bytes that a buffer of this geometry needs. -/
def Pool.need (p : Pool) : Nat := p.planes.foldl (fun a x => max a (x.1 + x.2.1 * x.2.2.2)) 0

/-- Pound address of buffer `i`. -/
def Pool.addr (p : Pool) (i : Nat) : Nat := p.base + i * p.bytes

/-- A buffer with mid-grey, 2^(depth − 1), in every sample of every plane (R224). -/
def fillGrey (p : Pool) (i : Nat) (s : State) : State :=
  p.planes.foldl (fun t x =>
    (List.range x.2.2.2).foldl (fun u r =>
      poundWrite (p.addr i + x.1 + r * x.2.1) (List.replicate x.2.2.1 (leBytes 2 (2 ^ (p.depth - 1)))).flatten u) t) s

/-- EV 0x1D01 MARK_FAULT and the pool's count (R225, R227). -/
def markFault (k arg0 rule : Nat) (d : Dev) : Dev :=
  post 0x1D01 k arg0 rule (if k < 8 then inc64 (Reg.pool_MARK_FAULTS k) d else d)

/-- A pool command is applied in full, or refused and changes nothing (R224, R225). -/
def poolCmd (c : PoolCmd) (s : State) : State :=
  match poolRule s.dev c with
  | some r => onDev (fun d => setN Reg.plg_POOL_CMD_STATUS r (markFault c.pool (c.buf * 256 + c.op) r d)) s
  | none =>
    let s1 := if c.op = 2 then fillGrey (s.dev.pool c.pool) c.buf s else s
    onDev (fun d =>
      setN Reg.plg_POOL_CMD_STATUS 0
        (if c.op = 1 then
          setBuf c.pool c.buf (fun b => { b with
            marks := markAfter b.marks c.clear c.set, tag := if c.set = 0 then b.tag else c.tag }) d
        else if c.op = 2 then setBuf c.pool c.buf (fun b => { b with marks := Nat.lor b.marks (2 ^ kGENERATED) }) d
        else if c.op = 3 then
          setPool c.pool (fun x => { x with bufs := x.bufs.map (fun b => ({ b with marks := 0 }).norm) }) d
        else setPool c.pool (fun x => { x with bufs := List.replicate c.arg PoolBuf.fresh }) d)) s1

/-- Firmware's MARK command. -/
def fwMark (k buf clear set tag : Nat) : State → State :=
  poolCmd { op := 1, pool := k, buf := buf, set := set, clear := clear, tag := tag, arg := 0 }

/-- Firmware's GENERATE command. -/
def fwGenerate (k buf : Nat) : State → State :=
  poolCmd { op := 2, pool := k, buf := buf, set := 0, clear := 0, tag := 0, arg := 0 }

/-- The lowest FREE buffer of a pool: the one firmware chooses. -/
def Dev.freeBuf (d : Dev) (k : Nat) : Option Nat :=
  let l := (d.pool k).bufs
  let i := l.findIdx PoolBuf.free
  if i < l.length then some i else none

/-- The check of R226 at a picture's start: whether the target is FREE, and the references that pass. A target that fails
stops the picture; otherwise the target takes OUTPUT_PENDING and a pin, each passing reference a pin, and each failing
reference is logged (R227). -/
def pictureStart (k target : Nat) (refs : List Nat) (okRef : PoolBuf → Bool) (d : Dev) : Bool × List Nat × Dev :=
  match d.buf? k target with
  | none => (false, [], markFault k (target * 256) 0x10 d)
  | some b =>
    if !b.free then (false, [], markFault k (target * 256) 0x10 d)
    else
      let rs := refs.eraseDups
      let good := fun r => match d.buf? k r with
        | some x => okRef x
        | none => false
      let pass := rs.filter good
      let d1 := (rs.filter (fun r => !(good r))).foldl (fun e r => markFault k (r * 256) 0x11 e) d
      let d2 := setBuf k target (fun x => { x with
        marks := 2 ^ kOUTPUT, pins := x.pins + 1, pic := 0 }) d1
      (true, pass, pass.foldl (fun e r => setBuf k r (fun x => { x with pins := x.pins + 1 }) e) d2)

/-- A picture completes: its pins are released, and the target remembers how it ended (1 complete, 2 overflow). -/
def pictureEnd (k target : Nat) (refs : List Nat) (pic : Nat) (d : Dev) : Dev :=
  refs.foldl (fun e r => setBuf k r (fun x => { x with pins := x.pins - 1 }) e)
    (setBuf k target (fun x => { x with pins := x.pins - 1, pic := pic }) d)

/-- Accesses of a picture outside its buffers' bounds: discarded or clamped, and logged (R227). -/
def boundFaults (k : Nat) (bufs : List Nat) (d : Dev) : Dev := bufs.foldl (fun e b => markFault k (b * 256) 0x12 e) d

/-! ## Commands -/

/-- A client's POOL_CMD is accepted in SERVICE only (R224). -/
def poolCmdRule (w : Writer) (s : State) : Option (Nat × (Dev → Dev)) :=
  match w with
  | .firmware => none
  | .client _ _ => if s.dev.mode == mSERVICE then none else refuse stMODE

/-- A write of POOL_CMD: reserved fields set are out of range (R11), which counts before the mode (R419). -/
def writePoolCmd (w : Writer) (b : List Byte) : State → WRes :=
  entryWrite w Reg.plg_POOL_CMD (.bytes b)
    (fun s =>
      let c := PoolCmd.read b
      if c.op = 0 ∨ 4 < c.op ∨ sliceB b 5 3 ≠ zeros 3 ∨ (c.op ≠ 4 ∧ c.arg ≠ 0) then refuse stRANGE
      else if c.op = 4 ∧ (c.arg = 0 ∨ 64 < c.arg) then refuse stRANGE
      else poolCmdRule w s)
    (fun _ => poolCmd (PoolCmd.read b))

/-- A pool command's bytes (Table 9.3). -/
def poolBytes (op k buf set clear tag arg : Nat) : List Byte :=
  leBytes 1 op ++ leBytes 1 k ++ leBytes 1 buf ++ leBytes 1 set ++ leBytes 1 clear ++ zeros 3 ++ leBytes 4 tag ++
    leBytes 4 arg

/-- POOL_CMD_MARK (R224). -/
def execPoolCmdMark (w : Writer) (k : Fin 8) (buf clear set tag : Nat) (s : State) : Host.Outcome State Fault Refusal :=
  .next (finishWrite s (writePoolCmd w (poolBytes 1 k buf set clear tag 0) s))

/-- POOL_CMD_GENERATE (R224). -/
def execPoolCmdGenerate (w : Writer) (k : Fin 8) (buf set tag : Nat) (s : State) : Host.Outcome State Fault Refusal :=
  .next (finishWrite s (writePoolCmd w (poolBytes 2 k buf set 0 tag 0) s))

/-- POOL_CMD_RESET_POOL (R224). -/
def execPoolCmdResetPool (w : Writer) (k : Fin 8) (s : State) : Host.Outcome State Fault Refusal :=
  .next (finishWrite s (writePoolCmd w (poolBytes 3 k 0 0 0 0 0) s))

/-- Firmware's registration of a pool's geometry with ALLOCATE: width, height, chroma and depth as in the entry GEOMETRY
(R222, R224). -/
def allocGeometry (k geometry base : Nat) (d : Dev) : Dev :=
  setPool k (fun x =>
    let y := { x with base := base, w := field geometry 63 48, h := field geometry 47 32
                      chroma := field geometry 15 8, depth := field geometry 7 0 }
    { y with bytes := roundUp y.need 256 }) d

/-- POOL_CMD_ALLOCATE (R224): firmware registers the geometry with the count; a client's 16 bytes carry the count, and
the geometry stands. -/
def execPoolCmdAllocate (w : Writer) (k : Fin 8) (geometry base count : Nat) (s : State) :
    Host.Outcome State Fault Refusal :=
  let b := poolBytes 4 k 0 0 0 0 count
  let s1 := match w with
    | .firmware => if (poolRule s.dev (PoolCmd.read b)).isNone then onDev (allocGeometry k geometry base) s else s
    | .client _ _ => s
  .next (finishWrite s1 (writePoolCmd w b s1))

end Sys2Proof.Machine
end

