-- ==== Sys2Proof/Machine/ViewOps.lean ====
section
/-! DEFINITION. Views: staging, banks and commits (R182 to R184), buffers and publication (R164, R165), and the inputs
that HEVC encode streams take from them (R230, R231). -/

namespace Sys2Proof.Machine

/-- View `v`. -/
def Dev.view (d : Dev) (v : Nat) : View := nth d.views v

/-- A view changed. -/
def setView (v : Nat) (f : View → View) (d : Dev) : Dev := { d with views := updAt v f d.views }

/-- The event code of view `v` (R186). -/
def viewEv (v x : Nat) : Nat := (0x18 + v) * 256 + x

/-- The view runs, and takes up frames. -/
def Dev.viewRuns (d : Dev) (v : Nat) : Bool := d.runs (.view (Fin.ofNat 4 v))

/-- The views whose source is `src`, that run. -/
def Dev.viewsOf (d : Dev) (src : Nat) : List Nat :=
  (List.range 4).filter (fun v => d.viewRuns v && d.get (Reg.view_VIEW_SOURCE v) == src)

/-- The staging copy of view `v`: its staged entries as the store holds them (R182). -/
def Dev.staging (d : Dev) (v : Nat) : Regs :=
  d.regs.filter (fun x => decide (0x1800 + 0x100 * v < x.1 / 256) && decide (x.1 / 256 ≤ 0x1805 + 0x100 * v) &&
    ((rowOf x.1).map (·.staged)).getD false)

/-- A route of frame jobs that is not finished uses bank `b` of view `v`. -/
def Dev.bankUsed (d : Dev) (v b : Nat) : Bool :=
  d.brg.works.any (fun w => w.views.any (fun u => u.v == v && u.bank == b))

/-- The bank that does not govern. -/
def View.spare (x : View) : Nat := 1 - x.cur

/-- Staging opens again once no commit waits and the bank replaced is free (R183). -/
def viewSweep (v : Nat) (d : Dev) : Dev :=
  let x := d.view v
  if x.closed && x.commit.isNone && !(d.bankUsed v x.spare) then setView v (fun y => { y with closed := false }) d else d

/-- `viewSweep` for every view. -/
def viewsSweep (d : Dev) : Dev := (List.range 4).foldl (fun e v => viewSweep v e) d

/-- A frame is taken up for a view: a commit whose aim it meets takes effect when its bank is loaded, and is late when an
earlier frame met it (R183, R184). The IDs of pending records that frames taken up have named are kept. -/
def viewTakeUp (v frame : Nat) (ids : List Nat) (d : Dev) : Dev :=
  let x := d.view v
  let src := d.get (Reg.view_VIEW_SOURCE v)
  let up := setView v (fun y => { y with
    upLast := some frame, upIds := ids ++ y.upIds.filter (fun i => !(ids.contains i) && (d.seq src).recs.any (fun r => r.id == i)) })
  match x.commit with
  | none => up d
  | some c =>
    let aimed := c.missed || (if c.byRecord then ids.contains c.value else decide (c.value ≤ frame))
    if !aimed then up d
    else if !c.loaded then up (setView v (fun y => { y with commit := some { c with missed := true } }) d)
    else
      let d1 := setView v (fun y => { y with cur := c.bank, commit := none }) d
      viewSweep v (up (post (viewEv v 1) 0xFFFF (lo32 frame) ((if c.byRecord then 2 else 1) + (if c.missed then 256 else 0))
        (setN (Reg.view_ACTIVE_FRAME v) frame d1)))

/-- Record commits of views of port `p` whose record ended unwritten are withdrawn (R184). -/
def withdrawFor (p id : Nat) (d : Dev) : Dev :=
  (List.range 4).foldl (fun e v =>
    match (e.view v).commit with
    | some c =>
      if c.byRecord && c.value == id && e.get (Reg.view_VIEW_SOURCE v) == p then
        viewSweep v (post (viewEv v 2) 0xFFFF id 0 (setView v (fun y => { y with commit := none }) e))
      else e
    | none => e) d

/-- The records that ended with no group written are told to the views (R184). -/
def recordEnds (d : Dev) : Dev := d.recEnds.foldl (fun e x => withdrawFor x.1 x.2 e) { d with recEnds := [] }

/-- `settle`, and what the ends of records mean to the views. -/
def settleAll (d : Dev) : Dev := recordEnds (settle d)

/-! ## Buffers -/

/-- The oldest buffer of a view's ring that is neither the latest published, being written, nor being read (R164). -/
def View.pick (x : View) : Option Nat :=
  let ok := x.bufs.zipIdx.filter (fun b => b.1.st != 1 && b.1.readers == 0 && x.latest != some b.2)
  (ok.foldl (fun (a : Option (ViewBuf × Nat)) b =>
    match a with
    | none => some b
    | some c => if b.1.stamp < c.1.stamp then some b else a) none).map (·.2)

/-- A buffer of a view changed. -/
def setViewBuf (v i : Nat) (f : ViewBuf → ViewBuf) : Dev → Dev :=
  setView v (fun x => { x with bufs := x.bufs.modify i f })

/-- Pound address of a view's buffer. -/
def Dev.viewAddr (d : Dev) (v i : Nat) : Nat :=
  d.get (Reg.view_BUFFER_BASE v) + i * d.get (Reg.view_BUFFER_BYTES v)

/-- A frame that the view never publishes (R165). -/
def viewRepeat (v : Nat) : Dev → Dev := inc64 (Reg.view_REPEAT_COUNT v)

/-- A buffer assigned to a frame (R164). -/
def viewAssign (v i frame sofTb : Nat) (d : Dev) : Dev :=
  setView v (fun x => { x with stamp := x.stamp + 1 })
    (setViewBuf v i (fun b => { b with st := 1, stamp := (d.view v).stamp, frame := frame, sofTb := sofTb }) d)

/-- A buffer returns to the ring without being published. -/
def viewReturn (v i : Nat) (d : Dev) : Dev :=
  setView v (fun x => { x with stamp := x.stamp + 1 })
    (setViewBuf v i (fun b => { b with st := 0, stamp := (d.view v).stamp }) d)

/-! ## Encode inputs -/

/-- HEVC stream `s`. -/
def Dev.hev (d : Dev) (s : Nat) : Hevc := d.hevc.getD s Hevc.reset

/-- An HEVC stream changed. -/
def setHev (s : Nat) (f : Hevc → Hevc) (d : Dev) : Dev := { d with hevc := updAt s f d.hevc }

/-- EV 0x1E04 ENC_STALL with the count (R230, R231, R238). -/
def encStall (s frame reason : Nat) (d : Dev) : Dev :=
  post 0x1E04 s (lo32 frame) reason (inc64 (Reg.hev_STALLS s) d)

/-- The order of the B pictures of a group of 2, 4 or 8, as offset and layer (R239). -/
def dyadic (g : Nat) : List (Nat × Nat) :=
  if g = 8 then [(4, 1), (2, 2), (1, 3), (3, 3), (6, 2), (5, 3), (7, 3)]
  else if g = 4 then [(2, 1), (1, 2), (3, 2)]
  else [(1, 1)]

/-- A task for one input: its input number stands in `poc` until the picture starts. -/
def encTask (s kind layer : Nat) (keep : Bool) (x : Nat × EncIn) : PicTask :=
  { s := s, inp := x.2, kind := kind, layer := layer, keep := keep, poc := x.1, au := none, target := 0 }

/-- One group of hierarchical B from its inputs in order (R239). An IDR_N_LP anchor follows pictures coded as P, since
none may lead it. -/
def hierGroup (d : Dev) (s g : Nat) (l : List (Nat × EncIn)) : List PicTask :=
  match l.getLast? with
  | none => []
  | some a =>
    let iraps := decide (d.get (Reg.hev_INTRA_PERIOD s) ≤ a.1 - (d.hev s).base)
    if iraps && d.get (Reg.hev_IRAP_TYPE s) == 0 then
      (l.dropLast.map (encTask s 2 0 true)) ++ [encTask s 0 0 true a]
    else
      encTask s (if iraps then 0 else 2) 0 true a ::
        (dyadic g).filterMap (fun o => (l[o.1 - 1]?).map (encTask s 3 o.2 (decide (2 ^ o.2 < g))))

/-- Picture commands are queued in the order planned, at most four of a stream at a time (R233). -/
def encIssue (s : Nat) (d : Dev) : Dev :=
  let room := 4 - (d.hevcQ.filter (fun t => t.s == s)).length
  let l := (d.hev s).planned
  { setHev s (fun y => { y with planned := l.drop room }) d with hevcQ := d.hevcQ ++ l.take room }

/-- Inputs taken become planned pictures, in coding order (R233, R239). -/
def encPlan (s : Nat) : Nat → Dev → Dev
  | 0, d => d
  | n + 1, d =>
    let h := d.hev s
    match h.inputs with
    | [] => d
    | x :: xs =>
      if d.get (Reg.hev_GOP_MODE s) ≠ 2 then
        let mode := d.get (Reg.hev_GOP_MODE s)
        encPlan s n (setHev s (fun y => { y with
          inputs := xs, planned := y.planned ++ [encTask s (if mode = 0 then 1 else 2) 0 (mode == 1) x] }) d)
      else
        let g := d.get (Reg.hev_GOP_SIZE s)
        if h.anchor.isNone then
          encPlan s n (setHev s (fun y => { y with
            inputs := xs, anchor := some x.1, base := x.1, planned := y.planned ++ [encTask s 0 0 true x] }) d)
        else if g ≤ h.inputs.length then
          let grp := h.inputs.take g
          let ts := hierGroup d s g grp
          let last := (grp.getLast?.map (·.1)).getD 0
          encPlan s n (setHev s (fun y => { y with
            inputs := h.inputs.drop g, anchor := some last, planned := y.planned ++ ts
            base := if ts.any (fun t => t.kind == 0) then last else y.base }) d)
        else d

/-- A stream that stops codes the inputs whose anchor never arrived as P pictures in input order (R240). -/
def encPlanRest (s : Nat) (d : Dev) : Dev :=
  let ts := (d.hev s).inputs.map (encTask s (if d.get (Reg.hev_GOP_MODE s) = 0 then 1 else 2) 0 true)
  encIssue s (setHev s (fun y => { y with inputs := [], planned := y.planned ++ ts }) d)

/-- The pool of stream `s` (R221). -/
def Dev.hevPool (d : Dev) (s : Nat) : Nat := d.get (Reg.hev_POOL s)

/-- CTU columns and rows of the encode picture of stream `s`: 64 × 64 over the padded view picture. -/
def Dev.encCtus (d : Dev) (s : Nat) : Nat × Nat :=
  let p := d.pool (d.hevPool s)
  (ceilDiv (roundUp p.w 8) 64, ceilDiv (roundUp p.h 8) 64)

/-- Slices of an encode picture (Table 9.5). -/
def Dev.encSlices (d : Dev) (s : Nat) : Nat :=
  let r := d.get (Reg.hev_SLICE_ROWS s)
  if r = 0 then 1 else ceilDiv (d.encCtus s).2 r

/-- Bytes of an output buffer: OUT_BUFFER_BYTES, or for 0 twice the luma samples in whole 4 KiB, and the slice header
table (Table 9.13). -/
def Dev.encBufBytes (d : Dev) (s : Nat) : Nat :=
  let e := d.get (Reg.hev_OUT_BUFFER_BYTES s)
  let p := d.pool (d.hevPool s)
  if e = 0 then roundUp (2 * (p.w * p.h)) 4096 + 128 * d.encSlices s else e

/-- Pound address of a stream's input ring slot: the ring follows the output buffers and their CTU records. -/
def Dev.encSlotAddr (d : Dev) (s i : Nat) : Nat :=
  let n := d.get (Reg.hev_OUT_BUFFERS s)
  d.get (Reg.hev_OUT_RING_BASE s) + n * d.encBufBytes s + n * 0x20000 +
    i * d.get (Reg.view_BUFFER_BYTES (d.get (Reg.hev_VIEW s)))

/-- An encode stream takes its input for a frame from view buffer `i` (R230, R231). -/
def encTake (s : Nat) (w : EncWait) (rep : Bool) (i : Nat) (t : State) : State :=
  let d := t.dev
  let h := d.hev s
  let v := d.get (Reg.hev_VIEW s)
  let note := fun (e : Dev) =>
    post 0x1E01 s (lo32 w.frame) (b2n rep) (if rep then inc64 (Reg.hev_REPEATS s) e else e)
  let inp : EncIn := { frame := w.frame, sofTb := w.sofTb, rep := rep, buf := i, slot := none }
  if d.get (Reg.hev_GOP_MODE s) ≠ 2 then
    onDev (fun e => encIssue s (encPlan s 4096
      (setHev s (fun y => { y with taken := y.taken + 1, inputs := y.inputs ++ [(y.taken, inp)] })
        (setViewBuf v i (fun b => { b with readers := b.readers + 1 }) (note e))))) t
  else
    let k := h.ring.findIdx (fun x => !x)
    if h.ring.length ≤ k then onDev (encStall s w.frame 2) t
    else
      let bytes := (poundRead (d.viewAddr v i) (d.get (Reg.view_BUFFER_BYTES v)) t).1
      onDev (fun e => encIssue s (encPlan s 4096
        (setHev s (fun y => { y with taken := y.taken + 1, ring := y.ring.set k true
                                     inputs := y.inputs ++ [(y.taken, { inp with slot := some k })] }) (note e))))
        (poundWrite (d.encSlotAddr s k) bytes t)

/-- The stream takes inputs: it runs as an encode stream. -/
def Dev.encRuns (d : Dev) (s : Nat) : Bool :=
  d.get (Reg.hev_HEVC_MODE s) == 1 && d.runs (.hevc (Fin.ofNat 8 s))

/-- The view has published frame `frame` in buffer `i`: each encode stream that still waits for that frame takes it
(R230). -/
def encPublish (v frame i : Nat) (t : State) : State :=
  (List.range 8).foldl (fun (a : State) s =>
    if a.dev.encRuns s && a.dev.get (Reg.hev_VIEW s) == v then
      match (a.dev.hev s).awaits.find? (fun x => x.frame == frame) with
      | some w => encTake s w false i
          (onDev (setHev s (fun y => { y with awaits := y.awaits.filter (fun x => x.frame != frame) })) a)
      | none => a
    else a) t

/-- INPUT_DELAY_NS after a frame's EOF the view's latest published buffer is taken as a REPEAT input (R230). -/
def encExpiry (s : Nat) (t : State) : State :=
  let d := t.dev
  let v := d.get (Reg.hev_VIEW s)
  let due := fun (x : EncWait) =>
    tbDue ((x.eofTb + d.get (Reg.hev_INPUT_DELAY_NS s) * 65536) % 2 ^ 64) (tbNow d)
  if !(d.encRuns s) then t
  else match (d.hev s).awaits.find? due with
    | none => t
    | some w =>
      let t1 := onDev (setHev s (fun y => { y with awaits := y.awaits.filter (fun x => x.frame != w.frame) })) t
      match (d.view v).latest with
      | some i =>
        if (d.hev s).pubMark < (d.view v).pubs then encTake s w true i t1
        else onDev (fun e => encStall s w.frame 1
          (post 0x1E01 s (lo32 w.frame) 1 (inc64 (Reg.hev_REPEATS s) e))) t1
      | none => onDev (fun e => encStall s w.frame 1
          (post 0x1E01 s (lo32 w.frame) 1 (inc64 (Reg.hev_REPEATS s) e))) t1

/-- Every view that a developed frame fed publishes it; a frame that is not newer is superseded (R164, R165). -/
def viewPublish (u : ViewUse) (frame : Nat) (t : State) : State :=
  let v := u.v
  let x := t.dev.view v
  if (match x.published with
      | some l => decide (frame ≤ l)
      | none => false) then
    onDev (fun d => viewReturn v u.buf (viewRepeat v (inc64 (Reg.view_SUPERSEDED v) d))) t
  else
    let d0 := match x.latest with
      | some i => setViewBuf v i (fun b => { b with st := 0 }) t.dev
      | none => t.dev
    let d1 := setViewBuf v u.buf (fun b => { b with st := 2, stamp := x.stamp }) d0
    let d2 := setN (Reg.view_LAST_FRAME v) frame (setView v (fun y => { y with
      latest := some u.buf, published := some frame, pubs := y.pubs + 1, pubRaw := some t.dev.time.raw
      prev := if y.pubRaw = some t.dev.time.raw then y.prev else y.latest.map (fun i => (i, y.pubs)), stamp := y.stamp + 1 }) d1)
    encPublish v frame u.buf { t with dev := d2 }

/-- The size of the frames that a view develops. -/
def Dev.sourceSize (d : Dev) (v : Nat) : Nat × Nat :=
  let src := d.get (Reg.view_VIEW_SOURCE v)
  if src < 4 then (d.get (Reg.itk_WIDTH src), d.get (Reg.itk_HEIGHT src))
  else if src < 0x20 then
    let p := d.get (Reg.amt_STREAM_PORT (src - 0x10))
    match (nth d.amt (src - 0x10)).geom with
    | w :: h :: _ => (w, h)
    | _ => (d.get (Reg.itk_WIDTH p), d.get (Reg.itk_HEIGHT p))
  else
    let x := d.pool (d.hevPool (src - 0x20))
    if x.owner = src ∧ x.bufs ≠ [] then (x.w, x.h)
    else (d.get (Reg.hev_DEC_MAX_WIDTH (src - 0x20)), d.get (Reg.hev_DEC_MAX_HEIGHT (src - 0x20)))

/-- A view's geometry for its source. -/
def Dev.viewGeom (d : Dev) (v : Nat) : Geom := d.geom v (d.sourceSize v).1 (d.sourceSize v).2

/-- The geometry is one that R178 accepts, as far as the size of the source is known. -/
def Dev.viewGeomOk (d : Dev) (v : Nat) : Bool :=
  (d.sourceSize v).1 == 0 || (d.sourceSize v).2 == 0 || (d.viewGeom v).ok

/-! ## Commands -/

/-- A staged entry is written while staging is open (R182, R183); TRANSFER_TABLE only with TRANSFER 0x05. Choosing a
rendered curve renders the table (R177). -/
def stagedRule (v k : Nat) (val : Val) (d : Dev) : Option (Nat × (Dev → Dev)) :=
  let f := fun (key : Nat) (b : List Byte) => if key = k then (match val with | .bytes x => x | .num _ => b) else b
  let n := fun (key : Nat) => if key = k then (match val with | .num x => x | .bytes _ => 0) else d.get key
  if (d.view v).closed then refuse stREFUSED
  else if k = Reg.view_TRANSFER_TABLE v ∧ d.get (Reg.view_TRANSFER v) ≠ 5 then refuse stREFUSED
  else if (k = Reg.view_KNEE v ∨ k = Reg.view_WHITE v) ∧
      !(FVal.lt (f32v (n (Reg.view_KNEE v))) (f32v (n (Reg.view_WHITE v)))) then refuse stREFUSED
  else if k = Reg.view_FC_THRESH v ∧
      !((List.range 14).all (fun i => FVal.le (f32v (rdLe (f k []) (4 * i) 4)) (f32v (rdLe (f k []) (4 * i + 4) 4)))) then
    refuse stRANGE
  else if k = Reg.view_FRAME_LINES v ∧ (List.range 4).any (fun i => decide (16 < rdLe (f k []) (16 * i + 8) 1)) then
    refuse stRANGE
  else none

/-- A write of a staged entry. -/
def writeStaged (w : Writer) (v k : Nat) (val : Val) : State → WRes :=
  entryWrite w k val
    (fun s =>
      match w with
      | .firmware => none
      | .client _ _ => stagedRule v k val s.dev)
    (fun _ => onDev (fun d =>
      let d1 := setV k val d
      if k = Reg.view_TRANSFER v then
        match val with
        | .num n => if 1 ≤ n ∧ n ≤ 4 then setV (Reg.view_TRANSFER_TABLE v) (.num n) d1 else d1
        | .bytes _ => d1
      else d1))

/-- The view whose record holds key `k`. -/
def viewOfKey (k : Nat) : Nat := (k / 256 - 0x1800) / 0x100

/-- STAGED_WRITE (R182); a key that names no staged entry is none of this command's. -/
def execStagedWrite (w : Writer) (key : Nat) (v : Val) (s : State) : Host.Outcome State Fault Refusal :=
  .next (if 0x1800 ≤ key / 256 ∧ key / 256 < 0x1C00 ∧ ((rowOf key).map (·.staged)).getD false then
    finishWrite s (writeStaged w (viewOfKey key) key v s) else s)

/-- A commit is refused while another is pending or no bank is free (R183). -/
def commitRule (v : Nat) (d : Dev) : Option (Nat × (Dev → Dev)) :=
  let x := d.view v
  if x.commit.isSome || d.bankUsed v x.spare then refuse stREFUSED else none

/-- A commit accepted (R183, R184). -/
def commitSet (v : Nat) (byRecord : Bool) (value : Nat) (d : Dev) : Dev :=
  let x := d.view v
  let missed := if byRecord then x.upIds.contains value
    else (match x.upLast with
      | some f => decide (value ≤ f)
      | none => false)
  setView v (fun y => { y with closed := true, commit := some { byRecord := byRecord, value := value, bank := y.spare
                                                                loaded := false, missed := missed } }) d

/-- A write of COMMIT_FRAME. -/
def writeCommitFrame (w : Writer) (v frame : Nat) : State → WRes :=
  entryWrite w (Reg.view_COMMIT_FRAME v) (.num frame) (fun s => commitRule v s.dev)
    (fun _ => onDev (commitSet v false frame))

/-- A write of COMMIT_RECORD: the ID must be pending on the view's source port (R183). -/
def writeCommitRecord (w : Writer) (v id : Nat) : State → WRes :=
  entryWrite w (Reg.view_COMMIT_RECORD v) (.num id)
    (fun s =>
      let src := s.dev.get (Reg.view_VIEW_SOURCE v)
      if 4 ≤ src ∨ !((s.dev.seq src).recs.any (fun r => r.id == id)) then refuse stREFUSED else commitRule v s.dev)
    (fun _ => onDev (commitSet v true id))

/-- A write of COMMIT_CANCEL: TRUE withdraws a commit not in effect, with EV 0x1802 ARG0 0 (R183, Table 7.6). -/
def writeCommitCancel (w : Writer) (v : Nat) (b : Bool) : State → WRes :=
  entryWrite w (Reg.view_COMMIT_CANCEL v) (.num (b2n b)) noRule
    (fun _ => onDev (fun d =>
      if b && (d.view v).commit.isSome then
        viewSweep v (post (viewEv v 2) 0xFFFF 0 0 (setView v (fun y => { y with commit := none }) d))
      else d))

/-- COMMIT_FRAME (R183). -/
def execCommitFrame (w : Writer) (v : Fin 4) (frame : Nat) (s : State) : Host.Outcome State Fault Refusal :=
  .next (finishWrite s (writeCommitFrame w v frame s))

/-- COMMIT_RECORD (R183). -/
def execCommitRecord (w : Writer) (v : Fin 4) (id : Nat) (s : State) : Host.Outcome State Fault Refusal :=
  .next (finishWrite s (writeCommitRecord w v id s))

/-- COMMIT_CANCEL (R183). -/
def execCommitCancel (w : Writer) (v : Fin 4) (s : State) : Host.Outcome State Fault Refusal :=
  .next (finishWrite s (writeCommitCancel w v true s))

/-- VIEW_BANK_LOADED: firmware has copied the staging copy into the commit's bank (R183, R184). -/
def execViewBankLoaded (v : Fin 4) (s : State) : Host.Outcome State Fault Refusal :=
  .next (onDev (fun d =>
    match (d.view v).commit with
    | some c =>
      if c.loaded then d
      else setView v (fun y => { y with banks := y.banks.set c.bank (d.staging v), commit := some { c with loaded := true } }) d
    | none => d) s)

/-- ENC_INPUT_DELAY_EXPIRY (R230). -/
def execEncInputDelayExpiry (s : Fin 8) (t : State) : Host.Outcome State Fault Refusal := .next (encExpiry s t)

end Sys2Proof.Machine
end

