-- ==== Sys2Proof/Machine/JobOps.lean ====
section
/-! DEFINITION. Jobs: posting to the basins, their order, taking and stealing, the weir and the cluster clocks
(R129 to R153). -/

namespace Sys2Proof.Machine

/-- The barges' state changed. -/
def setBrg (f : Barges → Barges) (d : Dev) : Dev := { d with brg := f d.brg }

/-- Clusters that jobs are posted to: enabled, and not being shut down (R135, R153). -/
def Dev.postClusters (d : Dev) : List Nat := (List.range 8).filter (fun c => d.runs (.cluster (Fin.ofNat 8 c)))

/-- Clusters that count as enabled while stealing and the ceiling run: a cluster being shut down too (R153). -/
def Dev.liveClusters (d : Dev) : List Nat :=
  (List.range 8).filter (fun c => match (d.unit (.cluster (Fin.ofNat 8 c))).phase with
    | .running => true
    | .stopping => true
    | _ => false)

/-- The basin of cluster `c`. -/
def Dev.basin (d : Dev) (c : Nat) : List Job := d.brg.basins.getD c []

/-- A basin changed. -/
def setBasin (c : Nat) (f : List Job → List Job) (d : Dev) : Dev :=
  setBrg (fun b => { b with basins := b.basins.modify c f }) d

/-- There is room in a basin for a job of a class (R136). -/
def Dev.room (d : Dev) (c cls : Nat) : Bool :=
  let l := d.basin c
  decide (l.length < 1024) &&
    (cls == 0 || decide ((l.filter (fun j => j.cls != 0)).length < 1024 - d.get Reg.job_BASIN_C0_RESERVE))

/-- The cluster that owns the tile row of a job (R135). `tw` of a work's frame gives its tile columns. -/
def Dev.ownerOf (d : Dev) (tile w h : Nat) : Option Nat :=
  let l := d.postClusters
  l[(tile / max 1 (tileCols w)) * l.length / max 1 (tileRows h)]?

/-- The estimate for a route and cluster in units of 2^−8 µJ (R148). -/
def Dev.estimate (d : Dev) (route c : Nat) : Nat := (d.brg.est.getD (route - 1) []).getD c 0

/-- Work `id`, when it is under way. -/
def Dev.work? (d : Dev) (id : Nat) : Option Work := d.brg.works.find? (fun w => w.id == id)

/-- A work changed. -/
def setWork (id : Nat) (f : Work → Work) : Dev → Dev :=
  setBrg (fun b => { b with works := b.works.map (fun w => if w.id = id then f w else w) })

/-- BACKLOG reads the backlog's length. -/
def syncBacklog (d : Dev) : Dev := setN Reg.job_BACKLOG d.brg.backlog.length d

/-- One job posted to the basin that owns its tile row, with its energy estimate and posting number; false when it finds
no room (R135, R136, R148). -/
def postJob (j : Job) (d : Dev) : Bool × Dev :=
  match (d.work? j.work).bind (fun w => d.ownerOf j.tile w.mosaic.w w.mosaic.h) with
  | none => (false, d)
  | some c =>
    if d.room c j.cls then
      let j' := { j with seq := d.brg.postSeq, energy := d.estimate j.route c * (j.tw * j.th) / 32768 }
      (true, setBrg (fun b => { b with postSeq := (b.postSeq + 1) % 2 ^ 32 }) (setBasin c (fun l => l ++ [j']) d))
    else (false, d)

/-- Jobs posted in order; those that find no room are given back. -/
def postJobs : List Job → Dev → List Job × Dev
  | [], d => ([], d)
  | j :: js, d =>
    let r := postJob j d
    let rest := postJobs js r.2
    (if r.1 then rest.1 else j :: rest.1, rest.2)

/-- The backlog is posted highest class first, within a class in the order taken up (R136). -/
def backlogPost (d : Dev) : Dev :=
  let l := (List.range 4).flatMap (fun c => d.brg.backlog.filter (fun j => j.cls == c))
  let r := postJobs l d
  syncBacklog (setBrg (fun b => { b with backlog := r.1 }) r.2)

/-- Jobs of a work posted, the rest to the backlog. -/
def offerJobs (l : List Job) (d : Dev) : Dev :=
  let r := postJobs l (backlogPost d)
  syncBacklog (setBrg (fun b => { b with backlog := b.backlog ++ r.1 }) r.2)

/-! ## The order of a basin -/

/-- Job `a` comes before job `b` (R138). -/
def Job.before (a b : Job) : Bool :=
  if a.cls ≠ b.cls then decide (a.cls < b.cls)
  else if a.deadline ≠ b.deadline then decide (tbDiff a.deadline b.deadline < 0)
  else decide (toInt 32 (a.seq + 2 ^ 32 - b.seq % 2 ^ 32) < 0)

/-- The head of a basin (R138). -/
def headOf : List Job → Option Job
  | [] => none
  | j :: js =>
    match headOf js with
    | none => some j
    | some k => if k.before j then some k else some j

/-- A job taken from a basin. -/
def takeFrom (c : Nat) (j : Job) : Dev → Dev := setBasin c (fun l => l.erase j)

/-- A basin's jobs in basin order. -/
def basinOrder (l : List Job) : List Job := l.mergeSort (fun a b => !(b.before a))

/-! ## The weir -/

/-- Units of 2^−8 µJ in a number of joules. -/
def unitsOfJ (q : Rat) : Int := ratFloor (q * 256000000)

/-- DEPTH. -/
def Dev.weirDepth (d : Dev) : Int := unitsOfJ (f32Rat (d.get Reg.weir_WEIR_DEPTH_J))

/-- The weir admits the job (R146); from PWR_FAIL until reset it refuses every C1 to C3 job (R512). -/
def Dev.admits (d : Dev) (j : Job) : Bool :=
  if j.cls ≠ 0 && d.holdup then false
  else if j.cls = 0 then decide (-(unitsOfJ (f32Rat (d.get Reg.weir_WEIR_OVERDRAFT_J))) ≤ d.brg.level - j.energy)
  else decide ((j.energy : Int) ≤ d.brg.level)

/-- Jobs running on a slot are counted: in PREVIEW and CALIBRATE such a slot is not taken (R93). -/
def slotRun (j : Job) (f : Nat → Nat) (d : Dev) : Dev :=
  match d.work? j.work with
  | some w =>
    (match w.slot with
     | some i => setItk w.port (fun x => { x with slots := x.slots.modify i (fun s =>
         if s.frame = w.frame then { s with running := f s.running } else s) }) d
     | none => d)
  | none => d

/-- A barge gets the job of a basin, or the weir refuses it (R145, R146): whether it was admitted. -/
def dispatch (barge c : Nat) (j : Job) (d : Dev) : Bool × Dev :=
  if d.admits j then
    (true, fabricAsk barge (j.src / 256 + 256 * j.tile) (ceilDiv (2 * j.tw * j.th) 256) <| slotRun j (· + 1) <| setBrg (fun b => { b with
      level := b.level - j.energy, running := b.running.set barge (some j)
      high := b.high && decide (d.weirDepth < 2 * (b.level - j.energy))
      starved := if j.cls = 0 then false else b.starved }) (takeFrom c j d))
  else if j.cls = 0 then
    (false, if d.brg.starved then d else
      post 0x1430 0xFFFF (ofInt 32 (d.brg.level / 256)) (j.energy / 256) (setBrg (fun b => { b with starved := true }) d))
  else (false, setBrg (fun b => { b with refused := true }) d)

/-- The clock of cluster `c` is stopped by the ceiling (R152). -/
def Dev.gated (d : Dev) (c : Nat) : Bool := bit (d.get Reg.weir_CEILING_GATED) c == 1

/-- Barge `b` may take a job: its cluster runs, or still counts as enabled while it shuts down (R153), its clock is not
stopped, and it holds no job. -/
def Dev.bargeIdle (d : Dev) (b : Nat) : Bool :=
  d.liveClusters.contains (b / 8) && !(d.gated (b / 8)) && (d.brg.running.getD b none).isNone

/-- An idle barge asks for its own basin's head (R139). -/
def takeOwn (b : Nat) (d : Dev) : Dev :=
  if d.bargeIdle b then
    match headOf (d.basin (b / 8)) with
    | some j => (dispatch b (b / 8) j d).2
    | none => d
  else d

/-- The barge that the steal arbiter serves: the first waiting one after the barge last served (R140). -/
def Dev.stealer (d : Dev) : Option Nat :=
  ((List.range 64).map (fun k => (d.brg.rr + 1 + k) % 64)).find? (fun b => d.bargeIdle b && d.basin (b / 8) == [])

/-- The victim of a steal: among basins of at least two jobs, the one whose head comes first by class and deadline, then
the lowest cluster (R140). -/
def Dev.victim (d : Dev) : Option (Nat × Job) :=
  d.liveClusters.foldl (fun (a : Option (Nat × Job)) c =>
    if 2 ≤ (d.basin c).length then
      match headOf (d.basin c), a with
      | some j, none => some (c, j)
      | some j, some x =>
        if j.cls < x.2.cls ∨ (j.cls = x.2.cls ∧ tbDiff j.deadline x.2.deadline < 0) then some (c, j) else a
      | none, _ => a
    else a) none

/-- One grant of the steal arbiter, subject to the weir (R140). -/
def stealGrant (d : Dev) : Dev :=
  match d.stealer, d.victim with
  | some b, some (c, j) =>
    let r := dispatch b c j d
    if r.1 then setBrg (fun x => { x with rr := b }) (inc64 Reg.job_STEALS r.2) else r.2
  | _, _ => d

/-- The last `n` of a list with one more. -/
def window (n : Nat) (l : List Nat) (x : Nat) : List Nat := (l ++ [x]).drop (l.length + 1 - n)

/-- Power in watts of a window of tick energies over 1 ms, as an F32 code. -/
def windowW (l : List Nat) : Nat := f32OfRat ((((sumN l : Nat) : Int) : Rat) / 256 / 1000)

/-- A 10 µs tick (R145): the bucket is refilled at the budget scaled by h × r, less the base energy. -/
def weirTick (base : Nat) (d : Dev) : Dev :=
  let depth := d.weirDepth
  let refill := ratFloor (f32Rat (d.get Reg.weir_WEIR_BUDGET_W) * 2560 * d.brg.headroom)
  let b := max (-depth) (min depth (d.brg.level + refill - base))
  let d1 := setBrg (fun x => { x with
    level := b
    ticks := x.ticks + 1, refusedTicks := x.refusedTicks + (if x.refused then 1 else 0), refused := false
    high := x.high && decide (depth < 2 * b)
    baseWin := window 100 x.baseWin base, bargeWin := window 100 x.bargeWin x.bargeTick, bargeTick := 0 }) d
  setN Reg.weir_WEIR_LEVEL_J (f32OfRat ((b : Rat) / 256000000))
    (setN Reg.weir_BASE_POWER_W (windowW d1.brg.baseWin) (setN Reg.weir_BARGE_POWER_W (windowW d1.brg.bargeWin) d1))

/-! ## Cluster clocks and the ceiling -/

/-- The clock step of a cluster. -/
def Dev.clockStep (d : Dev) (c : Nat) : Nat := field (d.get Reg.weir_CLOCK_STEP) (2 * c + 1) (2 * c)

/-- The fastest step that CLUSTER_CLOCK_MAX allows. -/
def Dev.clockMax (d : Dev) (c : Nat) : Nat := min 2 (field (d.get Reg.weir_CLUSTER_CLOCK_MAX) (2 * c + 1) (2 * c))

/-- A clock changes, with EV 0x1432 CLOCK_STEP (R150). -/
def clockSet (c step : Nat) (d : Dev) : Dev :=
  let old := d.clockStep c
  if old = step then d
  else post 0x1432 c (old * 256 + step) 0
    (setN Reg.weir_CLOCK_STEP (setField (d.get Reg.weir_CLOCK_STEP) (2 * c + 1) (2 * c) step) d)

/-- VDD_ENG for a step, in mV (R150). -/
def stepMv (step : Nat) : Nat := if step = 0 then 850 else if step = 1 then 750 else 650

/-- VDD_ENG in mV for the fastest cluster that runs or starts (R150); as commanded while there is none. -/
def Dev.vengMv (d : Dev) : Nat :=
  let l := (List.range d.nClusters).filter (fun c => decide ((d.unit (.cluster (Fin.ofNat 8 c))).phase ≠ .off))
  if l = [] ∧ d.boot.vengSet ≠ 0 then d.boot.vengSet
  else stepMv ((if l = [] then List.range d.nClusters else l).foldl (fun a c => min a (nth d.brg.goal c)) 2)

/-- Firmware commands VDD_ENG over PMBus (R541): VOUT_COMMAND, then READ_VOUT. The data format is the regulator's, which
the manual does not give: its bytes are free (assumption 34). -/
def vengCommand (mv : Nat) (d : Dev) : Dev :=
  let n := d.get Reg.clk_VENG_BUS
  let a := d.get Reg.clk_VENG_ADDR
  let x := draw d
  let d1 := { x.2 with boot := { d.boot with vengSet := mv, vengRaw := some d.time.raw } }
  twSync n (twOffer n (twFirmware a [0x8B] 2 1) (twOffer n (twFirmware a ([0x21] ++ leBytes 2 (Config.freeNat x.1)) 0 1) d1))

/-- The rail follows the clusters once boot has commanded it (R150). -/
def vengSync (d : Dev) : Dev :=
  if d.boot.vengSet = 0 ∨ d.boot.vengSet = d.vengMv then d else vengCommand d.vengMv d

/-- A cluster is brought to a step: lowered at once, raised only once firmware has confirmed the rail (R150). -/
def clockAim (c step : Nat) (d : Dev) : Dev :=
  let d1 := setBrg (fun b => { b with goal := b.goal.set c step }) d
  vengSync (if d.clockStep c < step then clockSet c step d1 else d1)

/-- With CLOCK_AUTO FALSE clusters run at the fastest step allowed; with TRUE none runs faster (R151). -/
def clockApply (d : Dev) : Dev :=
  d.liveClusters.foldl (fun e c =>
    clockAim c (if e.flag Reg.weir_CLOCK_AUTO then max (e.brg.goal.getD c 0) (e.clockMax c) else e.clockMax c) e) d

/-- The review at the end of a millisecond (R151). -/
def clockReview (d : Dev) : Dev :=
  let b := d.brg
  let d1 := setBrg (fun x => { x with ticks := 0, refusedTicks := 0, high := decide (d.weirDepth < 2 * b.level) }) d
  if d.flag Reg.weir_CLOCK_AUTO then
    d.liveClusters.foldl (fun e c =>
      let s := e.clockStep c
      if b.ticks < 2 * b.refusedTicks then clockAim c (max (min 2 (s + 1)) (e.clockMax c)) e
      else if b.high && decide (0 < b.ticks) then clockAim c (max (s - 1) (e.clockMax c)) e
      else e) d1
  else d1

/-- The regulator confirms what was commanded (R541). -/
def vengConfirm (d : Dev) : Dev :=
  if d.boot.vengRaw.isSome then
    setN Reg.clk_VENG_MV d.boot.vengSet { d with boot := { d.boot with vengRaw := none, vengOk := true } }
  else d

/-- The rail is confirmed: the cluster's clock is raised to its goal, if the rail suits it (R150). -/
def clockRaise (c : Nat) (d : Dev) : Dev :=
  let d1 := vengConfirm d
  let g := d1.brg.goal.getD c 0
  if g < d1.clockStep c ∧ stepMv g ≤ d1.get Reg.clk_VENG_MV then clockSet c g d1 else d1

/-- One comparison of the 1 ms average, in mW, with the fused ceiling of 110.0 W (R19, R152). -/
def ceilingCheck (avg : Nat) (d : Dev) : Dev :=
  let top : Rat := 110000
  let g := d.get Reg.weir_CEILING_GATED
  let a : Rat := ((avg : Nat) : Int)
  if top < a then
    let d1 := setBrg (fun b => { b with calm := 0 }) d
    match (d.liveClusters.filter (fun c => !(d.gated c))).getLast? with
    | some c => post 0x1431 c 1 avg (setN Reg.weir_CEILING_GATED (setBit g c true) d1)
    | none => d1
  else if a < top * 95 / 100 then
    let n := d.brg.calm + 1
    match (List.range 8).find? (fun c => d.gated c) with
    | some c =>
      if 10 ≤ n then post 0x1431 c 0 avg (setN Reg.weir_CEILING_GATED (setBit g c false) (setBrg (fun b => { b with calm := 0 }) d))
      else setBrg (fun b => { b with calm := n }) d
    | none => setBrg (fun b => { b with calm := min n 10 }) d
  else setBrg (fun b => { b with calm := 0 }) d

/-- The jobs left in a disabled cluster's basin move, in basin order, to the clusters that now own their tile rows
(R153). -/
def moveBasin (c : Nat) (d : Dev) : Dev :=
  let l := basinOrder (d.basin c)
  let r := postJobs l (setBasin c (fun _ => []) d)
  syncBacklog (setBrg (fun b => { b with backlog := r.1 ++ b.backlog }) r.2)

/-- A barge of the cluster holds a job. -/
def Dev.clusterBusy (d : Dev) (c : Nat) : Bool :=
  (List.range 8).any (fun k => (d.brg.running.getD (8 * c + k) none).isSome)

/-- A job's descriptor (Table 6.1). -/
def Job.bytes (j : Job) : List Byte :=
  leBytes 1 j.route ++ leBytes 1 j.cls ++ leBytes 1 j.port ++ leBytes 1 j.flags ++ leBytes 4 j.tile ++ leBytes 8 j.frame ++
    leBytes 8 j.src ++ leBytes 8 j.dst ++ leBytes 8 j.deadline ++ leBytes 4 j.energy ++ leBytes 2 j.tw ++ leBytes 2 j.th ++
    leBytes 8 j.counter ++ leBytes 4 j.param ++ leBytes 4 j.seq

/-! ## Commands -/

/-- BACKLOG_POST (R136). -/
def execBacklogPost (s : State) : Host.Outcome State Fault Refusal := .next (onDev backlogPost s)

/-- BARGE_TAKE_HEAD (R139). -/
def execBargeTakeHead (barge : Fin 64) (s : State) : Host.Outcome State Fault Refusal := .next (onDev (takeOwn barge) s)

/-- STEAL_GRANT (R140). -/
def execStealGrant (s : State) : Host.Outcome State Fault Refusal := .next (onDev stealGrant s)

/-- WEIR_TICK (R145): `base` is the energy measured outside the barges over the tick, in units of 2^−8 µJ. -/
def execWeirTick (base : Nat) (s : State) : Host.Outcome State Fault Refusal := .next (onDev (weirTick base) s)

/-- CLOCK_REVIEW (R151). -/
def execClockReview (s : State) : Host.Outcome State Fault Refusal := .next (onDev clockReview s)

/-- CLOCK_RAISE_CONFIRMED (R150). -/
def execClockRaiseConfirmed (c : Fin 8) (s : State) : Host.Outcome State Fault Refusal := .next (onDev (clockRaise c) s)

/-- CEILING_CHECK (R152): `avg` is the 1 ms average in mW. -/
def execCeilingCheck (avg : Nat) (s : State) : Host.Outcome State Fault Refusal := .next (onDev (ceilingCheck avg) s)

end Sys2Proof.Machine
end

