-- ==== Sys2Proof/Machine/WorkOps.lean ====
section
/-! DEFINITION. Taking up a frame: its routes, jobs, Amtan picture and view buffers (R132 to R137, R156, R158, R164,
R204 to R211). -/

namespace Sys2Proof.Machine

/-- Where completion counters stand in the firmware reserve: one U32 per route and frame (R133, assumption 30). -/
def Dev.counterBase (d : Dev) : Nat := d.reserveBase + 0x80000000

/-- A mosaic frame in its slot. -/
def Dev.slotMosaic (d : Dev) (p i valid : Nat) : Mosaic :=
  let c := d.pix p
  { base := d.slotAddr p i + 256, w := c.width, h := c.height, cfa := c.cfa, fmt := c.fmt
    bits := if c.fmt = 0 then c.w else 16, readouts := c.readouts, shift := c.linShift, packed := c.fmt == 0, valid := valid }

/-- A route of one frame with nothing found yet. -/
def Work.fresh (route cls port : Nat) (m : Mosaic) (info : FrameInfo) : Work :=
  { id := 0, route := route, cls := cls, port := port, frame := info.frame, left := 0, counter := 0, slot := info.slot
    mosaic := m, views := [], stream := 0, head := default, target := none, ref := none, budgets := [], base := 0
    picLen := 0, tiles := [], costs := [], bad := 0, poison := false, dead := false, late := false, info := info }

/-- The deadline offset of a class (R134). -/
def Dev.deadlineNs (d : Dev) (cls : Nat) : Nat :=
  if cls = 0 then d.get Reg.job_DEADLINE_C0_NS else if cls = 1 then d.get Reg.job_DEADLINE_C1_NS
  else if cls = 2 then d.get Reg.job_DEADLINE_C2_NS else d.get Reg.job_DEADLINE_C3_NS

/-- The room a CODE work keeps for a tile's payload: no sample takes more than B + 25 bits (the step guard of R214), and
a block's other elements take at most 2 + 1 + B + 1 bits more. -/
def tileMax (bits : Nat) : Nat := 32 * ceilDiv (32768 * (bits + 25) + 256 * 64 + 128) 256

/-- The room for a put-together picture of `n` tiles. -/
def codeSpan (bits n : Nat) : Nat := picP0 n + n * tileMax bits

/-- Where the payload of tile `i` is written before the picture is put together: behind the picture's own room, each tile
in what its budget or `tileMax` gives. -/
def codePlace (m : Mosaic) (base : Nat) (bs : List (Nat × Nat)) (i : Nat) : Nat :=
  base + codeSpan m.bits bs.length + sumN ((bs.take i).map (fun b => min b.1 (tileMax m.bits)))

/-- Where the budget table of a picture stands; its cost table follows (R208, R209). -/
def codeTables (m : Mosaic) (base n : Nat) : Nat := base + 2 * codeSpan m.bits n

/-- The destination of a tile's job. -/
def Work.dst (w : Work) (d : Dev) (i : Nat) : Nat :=
  if w.route = 1 then (match w.views with
    | u :: _ => d.viewAddr u.v u.buf
    | [] => 0)
  else if w.route = 2 then codePlace w.mosaic w.base w.budgets i
  else if w.route = 3 then (match w.target with
    | some t => (d.pools.getD (d.get (Reg.amt_POOL w.stream)) default).addr t
    | none => 0)
  else if w.route = 4 then (match w.slot with
    | some k => d.get (Reg.tst_TSTATS_BASE w.port) + k * d.get (Reg.tst_TSTATS_BYTES w.port) + 1280 * i
    | none => 0)
  else if d.fb.phase = 2 then d.fb.flatBase
  else if d.fb.phase = 3 then d.get Reg.fb_FB_TABLE_BASE
  else d.fb.darkBase

/-- The job of one tile (Table 6.1). -/
def Work.job (w : Work) (d : Dev) (deadline i : Nat) : Job :=
  let t := tileRect w.mosaic.w w.mosaic.h i
  let tw := t.2.2.2 - t.2.2.1
  let th := t.2.1 - t.1
  { route := w.route, cls := w.cls, port := w.port
    flags := (if tw < 256 ∨ th < 128 then 2 else 0) + (if w.route = 1 ∨ w.route = 4 then 1 else 0)
    tile := i, frame := w.frame, src := w.mosaic.base, dst := w.dst d i, deadline := deadline, energy := 0, tw := tw, th := th
    counter := w.counter
    param := if w.route = 1 then sumN (w.views.map (fun u => 2 ^ u.v)) else if w.route ≤ 3 then w.stream else 0
    seq := 0, work := w.id }

/-- A route of a frame begins: its counter is set to TC × TR and its jobs are posted in tile order (R133, R135). A slot
is held for it. `eof` is the TB its deadline counts from. -/
def postWork (w : Work) (eof : Nat) (s : State) : State :=
  let d := s.dev
  let n := tileCols w.mosaic.w * tileRows w.mosaic.h
  let id := d.brg.nextWork
  let w1 := { w with id := id, left := n, counter := d.counterBase + 4 * (id % 65536) }
  let d1 := setBrg (fun b => { b with works := b.works ++ [w1], nextWork := id + 1 }) d
  let d2 := match w1.slot with
    | some i => holdSlot w1.port i w1.frame d1
    | none => d1
  let deadline := (eof + d.deadlineNs w1.cls * 65536) % 2 ^ 64
  onDev (offerJobs ((List.range n).map (fun i => w1.job d2 deadline i)))
    (poundWrite w1.counter (leBytes 4 n) { s with dev := d2 })

/-! ## CODE -/

/-- Amtan stream `s`. -/
def Dev.amts (d : Dev) (s : Nat) : AmtStream := nth d.amt s

/-- An Amtan stream changed. -/
def setAmt (s : Nat) (f : AmtStream → AmtStream) (d : Dev) : Dev := { d with amt := updAt s f d.amt }

/-- The pool of an Amtan stream, when one is allocated (R221). -/
def Dev.amtPool (d : Dev) (s : Nat) : Option Nat :=
  (List.range 8).find? (fun k => (d.pool k).owner == 0x10 + s && (d.pool k).bufs != [])

/-- The pool's AMT_REF buffer. -/
def Dev.amtRef (d : Dev) (k : Nat) : Option Nat :=
  let l := (d.pool k).bufs
  let i := l.findIdx (fun b => b.has kAMTREF)
  if i < l.length then some i else none

/-- The budget of a picture: PICTURE_BUDGET, or for 0 a third of the raw frame rounded down to 4,096 (R211), and never
less than the least that R211 allows. -/
def pictureBudget (entry raw n : Nat) : Nat :=
  max (picP0 n + 608 * n) (if entry = 0 then raw / 3 / 4096 * 4096 else entry)

/-- The budget table of a picture: BUDGET and Q_BASE per tile (R209). -/
def budgets (mode init budget n : Nat) (cost : List (Nat × Nat × Nat)) : List (Nat × Nat) :=
  let use := mode = 0 ∧ cost.length = n
  let ws := if use then cost.map (fun c =>
      let w := max c.1 4608
      (if c.2.2 ≠ 0xFFFF then w + w / 4 else w, c.2.1))
    else List.replicate n (1, init)
  let total := sumN (ws.map (·.1))
  let spare := budget - picP0 n - 608 * n
  ws.map (fun w => (608 + 32 * ((spare * w.1) / (32 * max 1 total)), w.2))

/-- P_ENABLE as the next I picture takes it: TRUE acts only with a pool to hold the reconstruction, which an entry to a
mode gives (R221; assumption 161). -/
def Dev.amtP (d : Dev) (s : Nat) : Bool := d.flag (Reg.amt_P_ENABLE s) && (d.amtPool s).isSome

/-- The first cause of R204 after P_ENABLE that makes a picture an I picture, with its code of Table 8.11. -/
def iListed (d : Dev) (s : Nat) (frame : Nat) (geom : List Nat) : Option Nat :=
  let a := d.amts s
  let q := (d.get (Reg.amt_Q_MIN s), d.get (Reg.amt_Q_MAX s))
  if a.lastFrame.isNone then some 6
  else if a.interval ≤ a.sinceI then some 1
  else if a.lastFrame.map (· + 1) ≠ some frame then some 2
  else if a.geom ≠ geom then some 3
  else if a.limits ≠ some q then some 4
  else if a.force then some 5
  else none

/-- Whether a picture is an I picture, and the cause that EV 0x1C05 names: 0 where none is logged, because the stream has
P_ENABLE FALSE from this picture on, or because P_ENABLE alone made it one (R204, R218). -/
def iCause (d : Dev) (s : Nat) (frame : Nat) (geom : List Nat) : Option Nat :=
  let c := iListed d s frame geom
  if (d.amts s).pOn && c.isNone then none else some (if d.amtP s then c.getD 0 else 0)

/-- Bytes of a frame's samples. -/
def Mosaic.rawBytes (m : Mosaic) : Nat := if m.packed then ceilDiv (m.w * m.h * m.readouts * m.bits) 8 else m.w * m.h * 2

/-- Bits of a stored row. -/
def Mosaic.rowBits (m : Mosaic) : Nat := if m.packed then m.w * m.readouts * m.bits else m.w * 16

/-- The frame is one that the CODE route accepts (R207). -/
def Mosaic.codable (m : Mosaic) : Bool := m.fmt == 1 || m.fmt == 3 || (m.fmt == 0 && m.readouts == 1)

/-- The pool pictures of a coded frame: target, and reference of a P picture; none when the target fails its check and the
picture is not coded (R205, R226, R227). -/
def codeBuffers (s : Nat) (isP : Bool) (d : Dev) : Option (Option Nat × Option Nat) × Dev :=
  match (if (d.amts s).pOn then d.amtPool s else none) with
  | none => (some (none, none), d)
  | some k =>
    let target := (d.freeBuf k).getD 0
    let refs := if isP then (d.amtRef k).toList else []
    let r := pictureStart k target refs (fun b => b.has kAMTREF) d
    (if r.1 then some (some target, r.2.1.head?) else none, r.2.2)

/-- A frame's CODE route for stream `s` (R204 to R211): the answer is the number of the work, when the picture is
coded. -/
def takeUpCode (s cls : Nat) (m : Mosaic) (info : FrameInfo) (t : State) : Option Nat × State :=
  let d := t.dev
  let n := tileCols m.w * tileRows m.h
  let geom := [m.w, m.h, m.bits, m.cfa, m.fmt]
  let cause := iCause d s info.frame geom
  let d1 := if cause.isSome then
      setAmt s (fun a => { a with
        pOn := d.amtP s, interval := d.get (Reg.amt_I_INTERVAL s), force := false }) d
    else d
  let a := d1.amts s
  let budget := pictureBudget (d.get (Reg.amt_PICTURE_BUDGET s)) m.rawBytes n
  let base := a.base + (a.regions % max 1 a.regionCount) * a.bytes
  let bt := budgets (d.get (Reg.amt_BUDGET_MODE s)) (d.get (Reg.amt_Q_BASE_INIT s)) budget n a.cost
  let bufs := codeBuffers s cause.isNone d1
  match bufs.1 with
  | none => (none, { t with dev := bufs.2 })
  | some (target, ref) =>
    let d2 := match cause with
      | some c => if c ≠ 0 then post 0x1C05 s a.next c bufs.2 else bufs.2
      | none => bufs.2
    let refId := match d.amtPool s with
      | some k => (match d.amtRef k with
          | some r => ((d.buf? k r).map (·.tag)).getD 0xFFFFFFFF
          | none => 0xFFFFFFFF)
      | none => 0xFFFFFFFF
    let head : PicHead :=
      { ty := if cause.isNone then 1 else 0, bits := m.bits, cfa := m.cfa, w := m.w, h := m.h, fmt := m.fmt
        qMin := d.get (Reg.amt_Q_MIN s), qMax := d.get (Reg.amt_Q_MAX s), port := info.port, stream := s
        frame := info.frame, tb := info.sofTb, id := a.next, refId := if cause.isNone then refId else 0xFFFFFFFF
        budget := budget }
    let table := codeTables m base n
    let d3 := setN (Reg.amt_BUDGET_TABLE s) table (setAmt s (fun x => { x with
      next := (x.next + 1) % 2 ^ 32, sinceI := if cause.isNone then x.sinceI + 1 else 0
      lastFrame := some info.frame, geom := geom, limits := some (head.qMin, head.qMax), regions := x.regions + 1 }) d2)
    let t1 := poundWrite table (bt.flatMap (fun b => leBytes 4 b.1 ++ leBytes 1 b.2 ++ zeros 3))
      (poundWrite base head.bytes { t with dev := d3 })
    let w := { Work.fresh 2 cls info.port m info with
      stream := s, head := head, target := target, ref := ref, budgets := bt, base := base }
    (some d3.brg.nextWork, postWork w info.eofTb t1)

/-! ## DEVELOP -/

/-- The view is bound to an output or the finder that runs. -/
def Dev.viewOnOutput (d : Dev) (v : Nat) : Bool :=
  (List.range 8).any (fun n => d.runs (.out (Fin.ofNat 8 n)) && d.get (Reg.out_OUT_VIEW n) == v && d.get (Reg.out_OUT_MODE n) != 0)

/-- The view feeds an HEVC encode stream that runs. -/
def Dev.viewOnHevc (d : Dev) (v : Nat) : Bool := (List.range 8).any (fun s => d.encRuns s && d.get (Reg.hev_VIEW s) == v)

/-- The class of a DEVELOP job that feeds views `l` (Table 6.2). -/
def Dev.developClass (d : Dev) (l : List Nat) : Nat :=
  if l.any d.viewOnOutput then 1 else if l.any d.viewOnHevc then 2 else 3

/-- Earlier frames of a port or stream whose C1 or C2 DEVELOP jobs are unfinished (R137). -/
def Dev.inFlight (d : Dev) (port stream : Nat) : Nat :=
  (d.brg.works.filter (fun w => w.route == 1 && w.port == port && w.stream == stream && !w.dead &&
    (w.cls == 1 || w.cls == 2))).length

/-- A frame's DEVELOP route (R137, R163 to R165, R183): `src` is the VIEW_SOURCE code. -/
def takeUpDevelop (src port : Nat) (m : Mosaic) (info : FrameInfo) (target : Option Nat) (drop : Bool) (t : State) : State :=
  let vs := t.dev.viewsOf src
  let d1 := vs.foldl (fun e v => viewTakeUp v info.frame info.applied e) t.dev
  let stream := if 4 ≤ src then src else 0
  let give := fun (e : Dev) => vs.foldl (fun x v => viewRepeat v x) e
  if vs = [] then t
  else if drop then { t with dev := give d1 }
  else
    let fed0 := vs.filter (fun v => (d1.view v).pick.isSome)
    let cls := d1.developClass fed0
    if cls ≤ 2 ∧ d1.get Reg.job_DEVELOP_IN_FLIGHT ≤ d1.inFlight port stream then { t with dev := give d1 }
    else
      let d2 := (vs.filter (fun v => !(fed0.contains v))).foldl (fun e v => viewRepeat v e) d1
      if fed0 = [] then { t with dev := d2 }
      else
        let uses := fed0.map (fun v => { v := v, buf := ((d1.view v).pick).getD 0, bank := (d1.view v).cur : ViewUse })
        let d3 := uses.foldl (fun e u => viewAssign u.v u.buf info.frame info.sofTb e) d2
        postWork { Work.fresh 1 cls port m info with views := uses, stream := stream, target := target } info.eofTb
          { t with dev := d3 }

/-! ## Taking up a frame -/

/-- The sequence number of a kept event, infinite while it is not numbered. -/
def State.seqOrLast (s : State) (id : Nat) : Nat := (s.arb.seqFor id).getD (2 ^ 64)

/-- A take is open, or opens in SCAN: frames are recorded into it (R362, R364). -/
def Dev.takeOpen (d : Dev) : Bool := (d.take.opening || !d.take.members.isEmpty) && !d.take.ended

/-- The frame is one that the recording service records (R41); in SCAN every frame is coded, and in OFFLOAD every held frame that the
offload service moves to magazines. -/
def State.records (s : State) (info : FrameInfo) : Bool :=
  let d := s.dev
  if d.mode = mSCAN then true
  else if d.mode = mOFFLOAD then d.takeOpen
  else if d.mode ≠ mRECORD || !d.takeOpen then false
  else
    let enter := match d.recEnter with
      | some i => s.seqOrLast i
      | none => 2 ^ 64
    let after := fun (i : Nat) => decide (enter < s.seqOrLast i)
    let before := fun (i : Nat) => match d.recLeave with
      | some j => decide (s.seqOrLast i < s.seqOrLast j)
      | none => true
    match info.partner, info.partnerSof with
    | some _, some q => after info.sofId && after q && (before info.sofId || before q)
    | _, _ => after info.sofId && before info.sofId

/-- The Amtan stream that codes port `p`. -/
def Dev.codeStream (d : Dev) (p : Nat) : Option Nat :=
  (List.range 8).find? (fun s => d.get (Reg.amt_STREAM_MODE s) == 1 && d.get (Reg.amt_STREAM_PORT s) == p)

/-- Stream `s` must wait for its reference to be coded (R206). -/
def Dev.codeWaits (d : Dev) (s : Nat) : Bool :=
  (d.amts s).pOn && d.brg.works.any (fun w => w.route == 2 && w.stream == s)

/-- The frame may be taken up now: it is the first of its port, and its stream does not wait. -/
def State.eligible (s : State) (before : List FrameInfo) (info : FrameInfo) : Bool :=
  !(before.any (fun x => x.port == info.port)) &&
  !(s.records info && (match s.dev.codeStream info.port with
    | some k => s.dev.codeWaits k
    | none => false))

/-- The frames that may be taken up, oldest first. -/
def State.eligibles (s : State) : List FrameInfo → List FrameInfo → List FrameInfo
  | _, [] => []
  | done, x :: xs => (if s.eligible done x then [x] else []) ++ s.eligibles (done ++ [x]) xs

/-- The next frame taken up: in order of their ends, and of frames that ended in one cycle the one whose SOF event stands
first (R99). -/
def State.nextFrame (s : State) : Option FrameInfo :=
  match s.eligibles [] s.dev.ended with
  | [] => none
  | x :: xs =>
    some ((xs.filter (fun y => y.eofRaw == x.eofRaw)).foldl
      (fun a y => if s.seqOrLast y.sofId < s.seqOrLast a.sofId then y else a) x)

/-- A frame noted for the recording service, with its slot held (R363); nothing is noted while no take is open. -/
def noteRecord (u : RecUnit) (d : Dev) : Dev :=
  if !d.takeOpen then d
  else
  let d1 := { d with recQ := d.recQ ++ [u] }
  match u.info.slot with
  | some i => holdSlot u.info.port i u.info.frame d1
  | none => d1

/-- The CODE route of a frame, and what the recording service is to write of it (R98, R207). A DROPPED frame is a gap under
DROP_POLICY 0x00; under 0x01 its rows from ROWS_VALID on are black, all of them where it found no slot. -/
def takeUpRecord (info : FrameInfo) (t : State) : State :=
  if !(t.records info) then t
  else
    let d := t.dev
    let p := info.port
    let drop := bit info.status fDROPPED == 1
    let cls := if d.mode = mOFFLOAD then 3 else 0
    let note := fun (kind work : Nat) (ready : Bool) (addr size bits : Nat) => onDev (noteRecord
      { info := info, kind := kind, work := work, ready := ready, addr := addr, size := size, bits := bits })
    if drop && d.get (Reg.itk_DROP_POLICY p) == 0 then note 0 0 true 0 0 0 t
    else
      let m := d.slotMosaic p (info.slot.getD 0) (if drop then info.rowsValid else (d.pix p).height)
      let raw := note 2 0 true m.base m.rawBytes (m.valid * (m.rowBits))
      match d.codeStream p with
      | some k =>
        if m.codable then
          let r := takeUpCode k cls m info t
          (match r.1 with
           | some id => note 1 id false 0 0 0 r.2
           | none => note 0 0 true 0 0 0 r.2)
        else raw t
      | none => raw t

/-- The current mode runs the STATS route (Table 2.2). -/
def Dev.runsStats (d : Dev) : Bool := d.mode == mPREVIEW || d.mode == mRECORD || d.mode == mSCAN || d.mode == mCALIBRATE

/-- The STATS route of a frame (R156). -/
def takeUpStats (info : FrameInfo) (t : State) : State :=
  match info.slot with
  | some i =>
    if t.dev.flag (Reg.tst_TSTATS_ENABLE info.port) && t.dev.runsStats then
      postWork (Work.fresh 4 3 info.port (t.dev.slotMosaic info.port i (t.dev.pix info.port).height) info) info.eofTb t
    else t
  | none => t

/-- The FLATBUILD route of a frame in a DARK or FLAT phase (R158). -/
def takeUpFlat (info : FrameInfo) (t : State) : State :=
  let f := t.dev.fb
  match info.slot with
  | some i =>
    if (f.phase = 1 ∨ f.phase = 2) ∧ 0 < f.left ∧ info.port = t.dev.get Reg.fb_FB_PORT ∧ bit info.status fDROPPED = 0 ∧
        t.dev.mode = mCALIBRATE then
      postWork (Work.fresh 5 3 info.port (t.dev.slotMosaic info.port i (t.dev.pix info.port).height) info) info.eofTb
        (onDev (fun d => { d with fb := { d.fb with left := d.fb.left - 1, last := info.frame } }) t)
    else t
  | none => t

/-- A frame taken up: CODE, DEVELOP, STATS, FLATBUILD; then the dispatcher's own hold on the slot ends (R135, R156). -/
def takeUpFrame (info : FrameInfo) (t : State) : State :=
  let p := info.port
  let drop := bit info.status fDROPPED == 1
  let t1 := takeUpRecord info (onDev (fun d => { d with ended := d.ended.erase info }) t)
  let m := t1.dev.slotMosaic p (info.slot.getD 0) (t1.dev.pix p).height
  let t2 := takeUpDevelop p p m info none (drop || info.slot.isNone) t1
  let t3 := takeUpFlat info (takeUpStats info t2)
  match info.slot with
  | some i => onDev (releaseSlot p i info.frame) t3
  | none => t3

/-! ## OFFLOAD: the frames that BURST holds -/

/-- What a frame held in slot `i` of port `p` brings to the dispatcher again, from its frame record (Table 5.3); `k` is its
place in the order of offload. -/
def State.heldInfo (s : State) (p i k : Nat) (x : Slot) : FrameInfo :=
  let a := s.dev.slotAddr p i
  let r := poundRead a 256 s
  let partner := rdLe r.1 0xA0 8
  { port := p, frame := x.frame, slot := some i
    rowsValid := if r.2 then (s.dev.pix p).height else rdLe r.1 0x28 4, status := if r.2 then 0 else rdLe r.1 0x2C 4
    sofTb := x.sofTb, eofTb := tbNow s.dev, eofRaw := k, trigTb := rdLe r.1 0x20 8
    partner := if r.2 ∨ partner = 2 ^ 64 - 1 then none else some partner, partnerSof := none, sofId := 0, recAt := a
    applied := (List.range 8).map (fun g => rdLe r.1 (0x30 + 4 * g) 4) }

/-- The held frames of BURST's capturing ports that have not been offloaded, by SOF_TB and port. -/
def Dev.heldFrames (d : Dev) : List (Nat × Nat × Slot) :=
  ((List.range 4).flatMap (fun p =>
    if !((d.intake p).burst.armed) then []
    else ((d.intake p).slots.zipIdx.filter (fun y => y.1.st == 2 &&
      !(d.offRead.any (fun z => decide (z.1 ≤ d.slotAddr p y.2) && decide (d.slotAddr p y.2 + d.get (Reg.itk_SLOT_BYTES p) ≤ z.2))))).map
        (fun y => (p, y.2, y.1)))).mergeSort (fun a b => decide (tbDiff a.2.2.sofTb b.2.2.sofTb ≤ 0))

/-- OFFLOAD is entered: the frames that are held and not yet offloaded come to the dispatcher again, each slot held for it
(Table 2.1, Table 6.2, assumption 122). -/
def offloadFrames (s : State) : State :=
  let l := s.dev.heldFrames.zipIdx.map (fun x => s.heldInfo x.1.1 x.1.2.1 x.2 x.1.2.2)
  onDev (fun d => l.foldl (fun e x => holdSlot x.port (x.slot.getD 0) x.frame e) { d with ended := l }) s

/-- FRAME_TAKE_UP (R135). -/
def execFrameTakeUp (s : State) : Host.Outcome State Fault Refusal :=
  .next (match s.nextFrame with
    | some info => takeUpFrame info s
    | none => s)

end Sys2Proof.Machine
end

