-- ==== Sys2Proof/Machine/DecodeView.lean ====
section
/-! DEFINITION. DEVELOP of a decoded H.265 picture: the inverse of the view's YCC_MATRIX at the stream's range, then
stages 8 to 10 (R163). -/

namespace Sys2Proof.Machine

/-- The sample of plane `i` at a place of a pool buffer. -/
def Pool.sample (p : Pool) (buf i : Nat) (s : State) (r c : Nat) : Nat :=
  let pl := p.planes.getD i (0, 0, 0, 0)
  leNat (poundRead (p.addr buf + pl.1 + (min r (pl.2.2.2 - 1)) * pl.2.1 + 2 * min c (pl.2.2.1 - 1)) 2 s).1

/-- A chroma code at a luma place: the co-sited one, or between the nearest ones. -/
def Pool.chromaCode (p : Pool) (buf i : Nat) (s : State) (r c : Nat) : Nat :=
  let hx := if p.chroma = 3 then 1 else 2
  let hy := if p.chroma = 1 then 2 else 1
  if r % hy = 0 ∧ c % hx = 0 ∧ hy = 1 then p.sample buf i s r (c / hx)
  else if hx = 1 then p.sample buf i s r c
  else Config.chromaUp [p.sample buf i s (r / hy) (c / hx), p.sample buf i s (r / hy) (c / hx + 1),
    p.sample buf i s (r / hy + 1) (c / hx), p.sample buf i s (r / hy + 1) (c / hx + 1)] (c % hx) (r % hy) % 2 ^ p.depth

/-- Y′ and a colour difference from their codes, at full or narrow range. -/
def ycOf (depth : Nat) (full chroma : Bool) (code : Nat) : FVal :=
  let x : Rat := ((code : Nat) : Int)
  let k : Rat := ((2 ^ (depth - 8) : Nat) : Int)
  let mx : Rat := ((2 ^ depth - 1 : Nat) : Int)
  if full then fr (if chroma then (x - (((2 ^ (depth - 1) : Nat) : Int) : Rat)) / mx else x / mx)
  else fr (if chroma then (x / k - 128) / 224 else (x / k - 16) / 219)

/-- R′G′B′ of a decoded pixel (R163). -/
def decodedPixel (d : Dev) (v : Nat) (p : Pool) (buf : Nat) (full gbr : Bool) (s : State) (r c : Nat) : Rgb :=
  if gbr then
    let y := fun i => ycOf p.depth full false (p.sample buf i s r c)
    (y 2, y 0, y 1)
  else
    let y := ycOf p.depth full false (p.sample buf 0 s r c)
    let cb := ycOf p.depth full true (p.chromaCode buf 1 s r c)
    let cr := ycOf p.depth full true (p.chromaCode buf 2 s r c)
    let k := yccK (d.get (Reg.view_YCC_MATRIX v))
    let red := fadd y (fmul (fsub (fr 2) (fmul (fr 2) k.1)) cr)
    let blue := fadd y (fmul (fsub (fr 2) (fmul (fr 2) k.2)) cb)
    (red, fdiv (fsub (fsub y (fmul k.1 red)) (fmul k.2 blue)) (fsub (fsub (fr 1) k.1) k.2), blue)

/-- One DEVELOP job of a decoded H.265 picture of w × h. -/
def developDecoded (p0 : Pool) (buf w h : Nat) (c : Coding) (i : Nat) (lanes : List ViewLane) (s : State) :
    Bool × State :=
  let d := s.dev
  let p := { p0 with chroma := c.chroma, depth := c.depth }
  let t := tileRect w h i
  let gr := grow w h 4 t
  let bad := p.planes.zipIdx.any (fun y =>
    let sx := if y.2 = 0 ∨ p.chroma = 3 then 1 else 2
    let sy := if y.2 ≠ 0 ∧ p.chroma = 1 then 2 else 1
    (List.range' (gr.1 / sy) (ceilDiv gr.2.1 sy - gr.1 / sy)).any (fun r =>
      (poundRead (p.addr buf + y.1.1 + r * y.1.2.1 + 2 * (gr.2.2.1 / sx)) (2 * (ceilDiv gr.2.2.2 sx - gr.2.2.1 / sx)) s).2))
  if bad then (true, lanes.foldl (fun a l => greyLane d l (d.geom l.v w h) t a) s)
  else
    let z : Rgb := (f0, f0, f0)
    (false, lanes.foldl (fun a l =>
      let x7 := Grid.make gr (fun y x => decodedPixel d l.v p buf c.full c.gbr s y x)
      let green : Int → Int → FVal := fun r c => (x7.at z (mirror h r) (mirror w c)).2.1
      let g := d.geom l.v w h
      writeLane d l g t (fun x y =>
        let px := scaleAt d l.v g (x7.at z) x y
        if l.overlays then stage9 l.bank l.v green (x7.at z) (pixelSite g x y) x y px else px) a) s)

end Sys2Proof.Machine
end

