-- ==== Sys2Proof/Machine/TileRun.lean ====
section
/-! DEFINITION. What a barge does with a job, and what follows when the last job of a route completes (R133, R145, R148,
R149, R157 to R159, R163 to R166, R190, R205, R210, R214 to R217, R245). -/

namespace Sys2Proof.Machine

/-! ## One tile -/

/-- The view lanes of a DEVELOP route. Overlays run only for a view that no HEVC encode stream names (R180). -/
def Work.lanes (w : Work) (d : Dev) : List ViewLane :=
  w.views.map (fun u =>
    { v := u.v, addr := d.viewAddr u.v u.buf, bank := (d.view u.v).banks.getD u.bank []
      overlays := !((List.range 8).any (fun s => d.get (Reg.hev_HEVC_MODE s) == 1 && d.get (Reg.hev_VIEW s) == u.v)) })

/-- A DEVELOP tile; a poisoned one is written mid-grey and counted in each view (R166). -/
def runDevelop (w : Work) (i : Nat) (s : State) : Bool × State :=
  let d := s.dev
  let ls := w.lanes d
  let r :=
    if 0x20 ≤ w.stream then
      developDecoded (d.pool (d.get (Reg.hev_POOL (w.stream - 0x20)))) (w.target.getD 0) w.mosaic.w w.mosaic.h
        w.mosaic.coding i ls s
    else if 0x10 ≤ w.stream then
      let sh := match ls with
        | l :: _ => bankN l.bank (Reg.view_UNPACK_SHIFT l.v)
        | [] => 0
      developTile { w.mosaic with shift := sh } i ls s
    else developTile w.mosaic i ls s
  (r.1, if r.1 then onDev (fun e => w.views.foldl (fun x u => inc64 (Reg.view_POISON_TILES u.v) x) e) r.2 else r.2)

/-- A sample of a pool buffer in mosaic order. -/
def mosaicSample (base w : Nat) (s : State) (r c : Nat) : Nat := leNat (poundRead (base + (r * w + c) * 2) 2 s).1

/-- Q_LAST and Q_HIGH of a tile's cost entry (R208): free when floor mode began with the tile's first block, where the
manual names no block row (assumption 37). -/
def costQ (o : TileOut) (d : Dev) : (Nat × Nat) × Dev :=
  if o.floor = 0 then ((Config.freeNat d.free % 16, Config.freeNat (d.free + 1) % 16), { d with free := d.free + 2 })
  else ((o.qLast, o.qHigh), d)

/-- A CODE tile: its payload in its region, its cost entry, and its reconstruction in the stream's pool (R205, R208,
R217). -/
def runCode (w : Work) (i : Nat) (s : State) : Work × Bool × State :=
  let d := s.dev
  let m := w.mosaic
  let t := tileRect m.w m.h i
  let th := t.2.1 - t.1
  let tw := t.2.2.2 - t.2.2.1
  let bad := m.poisoned s t.1 t.2.1 t.2.2.1 t.2.2.2
  let b := w.budgets.getD i (608, 0)
  let src := Grid.make t (fun r c => m.code s r c)
  let pool := match d.amtPool w.stream with
    | some k => d.pool k
    | none => default
  let ref : Nat → Nat → Nat := match w.ref with
    | some x => fun r c => mosaicSample (pool.addr x) m.w s (t.1 + r) (t.2.2.1 + c)
    | none => fun _ _ => 2 ^ (m.bits - 1)
  let cfg : TileCfg := { bits := m.bits, cfa := m.cfa, h := th, w := tw, pPic := w.head.ty == 1, qMin := w.head.qMin
                         qMax := w.head.qMax, qBase := b.2, budget := 8 * b.1 - 128 }
  let o := encodeTile cfg i bad (fun r c => src.at 0 (t.1 + r) (t.2.2.1 + c)) ref
  let q := costQ o d
  let s1 := poundWrite (w.dst d i) o.payload { s with dev := q.2 }
  let s2 := poundWrite (codeTables m w.base w.budgets.length + 8 * w.budgets.length + 8 * i)
    (leBytes 4 o.bits ++ leBytes 1 q.1.1 ++ leBytes 1 q.1.2 ++ leBytes 2 o.floor) s1
  let s3 := match w.target with
    | some x => o.recon.foldl (fun a y =>
        poundWrite (pool.addr x + ((t.1 + y.1) * m.w + t.2.2.1 + y.2.1) * 2) (leBytes 2 y.2.2) a) s2
    | none => s2
  ({ w with
      tiles := w.tiles ++ [(i, o.payload.length, o.flags)]
      costs := w.costs ++ [(i, o.bits, q.1.1, q.1.2, o.floor)] }, bad, s3)

/-- The payload of a tile of an offered picture, read from the pound: its bytes when the directory entry is good, and
whether the read returned POISON (R214). -/
def readTile (base len i : Nat) (s : State) : Option (List Byte) × Bool :=
  let e := (poundRead (base + 64 + 12 * i) 12 s).1
  let off := rdLe e 0 4
  let size := rdLe e 4 3
  if off % 32 ≠ 0 ∨ size < 32 ∨ size % 32 ≠ 0 ∨ len < off + size then (none, false)
  else
    let r := poundRead (base + off) size s
    if r.2 then (none, true) else if crc32c r.1 = rdLe e 8 4 then (some r.1, false) else (none, false)

/-- A DECODE tile: its samples, or the whole tile concealed from the stream's reference (R214). -/
def runDecode (w : Work) (i : Nat) (s : State) : Work × Bool × State :=
  let d := s.dev
  let h := w.head
  let t := tileRect h.w h.h i
  let pool := d.pool (d.get (Reg.amt_POOL w.stream))
  let cfg : TileCfg := { bits := h.bits, cfa := h.cfa, h := t.2.1 - t.1, w := t.2.2.2 - t.2.2.1, pPic := h.ty == 1
                         qMin := h.qMin, qMax := h.qMax, qBase := 0, budget := 0 }
  let grey := 2 ^ (h.bits - 1)
  let at' := fun (x : Option Nat) (r c : Nat) => match x with
    | some b => mosaicSample (pool.addr b) h.w s (t.1 + r) (t.2.2.1 + c)
    | none => grey
  let pay := readTile w.base w.picLen i s
  let samples := pay.1.bind (fun b => decodeTile cfg i b (at' w.ref))
  let conceal := if (d.amts w.stream).geom.take 2 = [h.w, h.h] then
      d.amtRef (d.get (Reg.amt_POOL w.stream)) else none
  let out : List (Nat × Nat × Nat) := match samples with
    | some l => l
    | none => (List.range cfg.h).flatMap (fun r => (List.range cfg.w).map (fun c => (r, c, at' conceal r c)))
  let s1 := match w.target with
    | some x => out.foldl (fun a y =>
        poundWrite (pool.addr x + ((t.1 + y.1) * h.w + t.2.2.1 + y.2.1) * 2) (leBytes 2 y.2.2) a) s
    | none => s
  ({ w with bad := w.bad + (if samples.isSome then 0 else 1) }, pay.2, s1)

/-- A FLATBUILD tile (R158, R159). -/
def runFlat (w : Work) (i : Nat) (s : State) : State :=
  let f := s.dev.fb
  let m := w.mosaic
  let nd := s.dev.get Reg.fb_FB_DARK_FRAMES
  let nf := s.dev.get Reg.fb_FB_FLAT_FRAMES
  if f.phase = 1 then fbAccumulate m i f.darkBase s
  else if f.phase = 2 then fbAccumulate m i f.flatBase s
  else if f.pass = 1 then
    onDev (fun d => { d with fb := { d.fb with
      sums := d.fb.sums ++ (fbPass1 m.cfa m.w m.h i f.darkBase f.flatBase nd nf s).map (fun x => (i, x)) } }) s
  else
    let means := s.dev.bytes Reg.fb_FB_PLANE_MEANS
    let r := fbPass2 m.cfa m.w m.h i f.darkBase f.flatBase nd nf (s.dev.get Reg.fb_FB_TABLE_BASE)
      (f32v (s.dev.get Reg.fb_FB_MIN_SIGNAL)) ((List.range 4).map (fun k => rdLe means (4 * k) 4)) s
    onDev (fun d => { d with fb := { d.fb with cands := d.fb.cands ++ r.1, clamped := d.fb.clamped + r.2.1 } }) r.2.2

/-- The tile of a job run: the work with what was found, whether the source was poisoned, and the state. -/
def runTile (w : Work) (i : Nat) (s : State) : Work × Bool × State :=
  let d := s.dev
  if w.dead then (w, false, s)
  else if w.route = 1 then
    let r := runDevelop w i s
    ({ w with poison := w.poison || r.1 }, r.1, r.2)
  else if w.route = 2 then
    let r := runCode w i s
    ({ r.1 with poison := w.poison || r.2.1 }, r.2.1, r.2.2)
  else if w.route = 3 then
    let r := runDecode w i s
    ({ r.1 with poison := w.poison || r.2.1 }, r.2.1, r.2.2)
  else if w.route = 4 then
    let r := statsTile w.mosaic w.frame i (d.get (Reg.itk_DEFECT_STEP w.port)) (d.get (Reg.tst_DETECT_THRESH w.port))
      (toInt 32 (d.get (Reg.tst_HIST_BASE w.port))) (d.get (Reg.tst_HIST_SHIFT w.port)) (w.dst d i) s
    (w, r.1, r.2)
  else
    let t := tileRect w.mosaic.w w.mosaic.h i
    let bad := w.frame != 0 && w.mosaic.poisoned s t.1 t.2.1 t.2.2.1 t.2.2.2
    (w, bad, runFlat w i s)

/-! ## Published decode pictures (R245) -/

/-- A DEVELOP route still reads buffer `b` for source `src`. -/
def Dev.readsBuf (d : Dev) (src b : Nat) : Bool :=
  d.brg.works.any (fun w => w.route == 1 && w.stream == src && w.target == some b)

/-- OUTPUT_PENDING is cleared from buffers published before the latest, once no DEVELOP job reads them (R245). -/
def sweepAmt (k : Nat) (s : State) : State :=
  let d := s.dev
  let pool := d.get (Reg.amt_POOL k)
  let gone := (d.amts k).old.filter (fun b => !(d.readsBuf (0x10 + k) b))
  onDev (setAmt k (fun a => { a with old := a.old.filter (fun b => !(gone.contains b)) }))
    (gone.foldl (fun t b => fwMark pool b (2 ^ kOUTPUT) 0 0 t) s)

/-- The same for an H.265 decode stream. -/
def sweepHevc (k : Nat) (s : State) : State :=
  let d := s.dev
  let pool := d.get (Reg.hev_POOL k)
  let gone := (d.hev k).old.filter (fun b => !(d.readsBuf (0x20 + k) b))
  onDev (setHev k (fun a => { a with old := a.old.filter (fun b => !(gone.contains b)) }))
    (gone.foldl (fun t b => fwMark pool b (2 ^ kOUTPUT) 0 0 t) s)

/-- The buffers released after a DEVELOP route has finished or been discarded. -/
def sweepSource (src : Nat) (s : State) : State :=
  if 0x20 ≤ src then sweepHevc (src - 0x20) s else if 0x10 ≤ src then sweepAmt (src - 0x10) s else s

/-- A decoded Amtan picture is shown to the views of its stream (R245). -/
def showAmt (k b : Nat) (h : PicHead) (s : State) : State :=
  let d := s.dev
  let pool := d.pool (d.get (Reg.amt_POOL k))
  let now := tbNow d
  let m : Mosaic := { base := pool.addr b, w := h.w, h := h.h, cfa := h.cfa, fmt := h.fmt, bits := h.bits, readouts := 1
                      shift := 0, packed := false, valid := h.h }
  let info : FrameInfo := { (default : FrameInfo) with port := 0xFF, frame := h.frame, slot := none, sofTb := h.tb, eofTb := now, applied := [] }
  let s1 := onDev (fun e => encAwait (0x10 + k) { frame := h.frame, sofTb := h.tb, eofTb := now }
    (setAmt k (fun a => { a with shown := some b, old := a.old ++ a.shown.toList }) e)) s
  sweepAmt k (takeUpDevelop (0x10 + k) 0xFF m info (some b) false s1)

/-! ## Offered pictures (R213, R215) -/

/-- A frame of decode stream `k` that no view develops: the views repeat, and encode streams await it (R165, R230). -/
def amtRepeat (k : Nat) (h : PicHead) (d : Dev) : Dev :=
  (d.viewsOf (0x10 + k)).foldl (fun e v => viewRepeat v e)
    (encAwait (0x10 + k) { frame := h.frame, sofTb := h.tb, eofTb := tbNow d } d)

/-- An offered picture is rejected (R213). One whose header is unreadable names no frame: the views repeat. -/
def rejectPicture (k reason : Nat) (pic : List Byte) (d : Dev) : Dev :=
  let h := PicHead.read pic
  let d1 := post 0x1C04 k (if reason ≤ 2 then 0xFFFFFFFF else h.id) reason (inc64 (Reg.amt_REJECTED k) d)
  if reason ≤ 2 then (d1.viewsOf (0x10 + k)).foldl (fun e v => viewRepeat v e) d1 else amtRepeat k h d1

/-- The DECODE jobs of the next offered picture are posted, when its reference is decoded (R213 to R216). -/
def startOffer (k : Nat) (s : State) : State :=
  let d := s.dev
  let a := d.amts k
  let pool := d.get (Reg.amt_POOL k)
  let fits := fun (h : PicHead) => decide (h.w ≤ (d.pool pool).w) && decide (h.h ≤ (d.pool pool).h) && (d.amtPool k).isSome
  match a.offers with
  | [] => s
  | pic :: rest =>
    let drop := onDev (setAmt k (fun x => { x with offers := rest })) s
    match rejectReason pic fits with
    | some r => onDev (rejectPicture k r pic) drop
    | none =>
      let h := PicHead.read pic
      if h.ty = 1 ∧ d.brg.works.any (fun w => w.route == 3 && w.stream == k) then s
      else
        let held := (d.amtRef pool).bind (fun b => (d.buf? pool b).map (fun x => (b, x.tag)))
        let good := h.ty = 1 ∧ held.map (·.2) = some h.refId
        let s1 :=
          if h.ty = 0 ∨ good then drop
          else
            let t := onDev (fun e => post 0x1C03 k h.id h.refId (inc64 (Reg.amt_MISSING_REF_COUNT k) e)) drop
            match d.freeBuf pool with
            | some b => fwGenerate pool b (onDev (setPool pool (fun p => { p with depth := h.bits })) t)
            | none => t
        let ref : Option Nat := if h.ty = 0 then none else if good then held.map (·.1) else d.freeBuf pool
        let target := (s1.dev.freeBuf pool).getD 0
        let chk := pictureStart pool target ref.toList (fun b => b.has kAMTREF || b.has kGENERATED) s1.dev
        if !chk.1 then { s1 with dev := amtRepeat k h chk.2.2 }
        else
          let base := a.base + (a.regions % max 1 a.regionCount) * a.bytes
          let m : Mosaic := { base := base, w := h.w, h := h.h, cfa := h.cfa, fmt := h.fmt, bits := h.bits, readouts := 1
                              shift := 0, packed := false, valid := h.h }
          let info : FrameInfo := { (default : FrameInfo) with port := 0xFF, frame := h.frame, sofTb := h.tb, eofTb := tbNow s.dev }
          let w := { Work.fresh 3 (if d.mode = mPLAYBACK then 1 else 3) 0xFF m info with
            stream := k, head := h, target := some target, ref := chk.2.1.head?, base := base, picLen := pic.length }
          postWork w (tbNow s.dev) (poundWrite base pic
            { s1 with dev := setAmt k (fun x => { x with regions := x.regions + 1 }) chk.2.2 })

/-- As many offered pictures as may start. -/
def startOffers (k : Nat) : Nat → State → State
  | 0, s => s
  | n + 1, s =>
    let t := startOffer k s
    if (t.dev.amts k).offers.length < (s.dev.amts k).offers.length then startOffers k n t else t

/-- The pictures that wait, started in turn. -/
def offerAll (k : Nat) (s : State) : State := startOffers k ((s.dev.amts k).offers.length + 1) s

/-! ## The end of a route -/

/-- A work leaves the list; its slot is released. -/
def dropWork (w : Work) (d : Dev) : Dev :=
  let d1 := setBrg (fun b => { b with works := b.works.filter (fun x => x.id != w.id) }) d
  match w.slot with
  | some i => releaseSlot w.port i w.frame d1
  | none => d1

/-- The instance that names a port, or none (Table 6.8). -/
def portInst (p : Nat) : Nat := if p = 0xFF then 0xFFFF else p

/-- The coded picture is put together: directory and payloads contiguous (R188, R190). Its size. -/
def assemble (w : Work) (s : State) : Nat × State :=
  let n := w.budgets.length
  let tiles := (List.range n).map (fun i => (w.tiles.find? (fun x => x.1 == i)).getD (i, 0, 0))
  let read := fun (x : Nat × Nat × Nat) =>
    (poundRead (codePlace w.mosaic w.base w.budgets x.1) x.2.1 s).1
  let p0 := picP0 n
  let r := tiles.foldl (fun (a : Nat × List Byte × State) x =>
    let b := read x
    (a.1 + x.2.1, a.2.1 ++ leBytes 4 a.1 ++ leBytes 3 x.2.1 ++ leBytes 1 x.2.2 ++ leBytes 4 (crc32c b),
      poundWrite (w.base + a.1) b a.2.2)) (p0, [], s)
  (r.1, poundWrite (w.base + 64) (padTo (p0 - 64) r.2.1) r.2.2)

/-- FRAME_CODED (R133, R205, R210, R119). -/
def endCode (w : Work) (s : State) : State :=
  let k := w.stream
  let a := assemble w s
  let floors := (w.tiles.filter (fun x => bit x.2.2 0 == 1)).length
  let n := w.budgets.length
  let cost := (List.range n).map (fun i =>
    match w.costs.find? (fun x => x.1 == i) with
    | some (_, bits, ql, _, fl) => (bits, ql, fl)
    | none => (0, 0, 0xFFFF))
  let set := flags [(fPOISON, w.poison), (fFLOOR, decide (0 < floors)), (fNOTLOSSLESS, decide (0 < floors) && w.head.qMax == 0)]
  let s1 := match w.slot with
    | some i => updateRecord w.port i w.frame set (some a.1) a.2
    | none => a.2
  let d1 := post 0x1410 (portInst w.port) (lo32 w.frame) a.1 (setAmt k (fun x => { x with cost := cost }) s1.dev)
  let d2 := if 0 < floors then
      post 0x1C01 k (lo32 w.frame) floors (addW 64 (Reg.amt_FLOOR_TILES k) floors (inc64 Reg.amtg_FLOOR_PICTURES d1)) else d1
  let d3 := setN (Reg.amt_COST_TABLE k) (codeTables w.mosaic w.base n + 8 * n) (setN (Reg.amt_LAST_PICTURE_ID k) w.head.id
    (setN (Reg.amt_LAST_SIZE k) a.1 (inc64 (Reg.amt_PICTURES k) d2)))
  let d4 := { d3 with recQ := d3.recQ.map (fun u =>
    if u.work = w.id ∧ u.kind = 1 then { u with ready := true, addr := w.base, size := a.1 } else u) }
  match w.target, d4.amtPool k with
  | some t, some pool =>
    let d5 := pictureEnd pool t w.ref.toList 1 d4
    let s2 : State := { s1 with dev := d5 }
    let s3 := match d5.amtRef pool with
      | some r => fwMark pool r (2 ^ kAMTREF) 0 0 s2
      | none => s2
    fwMark pool t (2 ^ kOUTPUT) (2 ^ kAMTREF) w.head.id s3
  | _, _ => { s1 with dev := d4 }

/-- FRAME_DEVELOPED: each view the frame fed publishes it (R133, R164). -/
def endDevelop (w : Work) (s : State) : State :=
  let mask := sumN (w.views.map (fun u => 2 ^ u.v))
  w.views.foldl (fun t u => viewPublish u w.frame t) (onDev (post 0x1411 (portInst w.port) (lo32 w.frame) mask) s)

/-- FRAME_DECODED: the picture becomes the stream's reference and is shown (R133, R214, R216). -/
def endDecode (w : Work) (s : State) : State :=
  let k := w.stream
  let pool := s.dev.get (Reg.amt_POOL k)
  match w.target with
  | none => s
  | some t =>
    let d1 := post 0x1412 k (lo32 w.frame) w.bad (addW 64 (Reg.amt_BAD_TILES k) w.bad s.dev)
    let d2 := if 0 < w.bad then post 0x1C02 k w.head.id w.bad d1 else d1
    let d3 := setN (Reg.amt_LAST_PICTURE_ID k) w.head.id (setN (Reg.amt_LAST_SIZE k) w.picLen (inc64 (Reg.amt_PICTURES k) d2))
    let d4 := pictureEnd pool t w.ref.toList 1 (setAmt k (fun a => { a with
      geom := [w.head.w, w.head.h, w.head.bits, w.head.cfa, w.head.fmt] }) d3)
    let s1 : State := { s with dev := d4 }
    let s2 := match d4.amtRef pool with
      | some r => fwMark pool r (2 ^ kAMTREF) 0 0 s1
      | none => s1
    let s3 := match w.ref with
      | some r => if ((d4.buf? pool r).map (fun b => b.has kGENERATED)).getD false then fwMark pool r (2 ^ kGENERATED) 0 0 s2 else s2
      | none => s2
    let s4 := fwMark pool t 0 (2 ^ kAMTREF) w.head.id s3
    offerAll k (showAmt k t w.head s4)

/-- A flat-field phase returns to idle. -/
def fbIdle (d : Dev) : Dev := setN Reg.fb_FB_PHASE 0 { d with fb := { d.fb with phase := 0, pass := 0, left := 0 } }

/-- The pass-2 route of BUILD, after the sums of pass 1 have given the plane means (R159). -/
def fbSecondPass (w : Work) (s : State) : State :=
  let sums := s.dev.fb.sums.mergeSort (fun a b => decide (a.1 ≤ b.1))
  let d1 := setB Reg.fb_FB_PLANE_MEANS ((fbMeans sums).flatMap (leBytes 4)) s.dev
  postWork { w with } (tbNow d1) { s with dev := { d1 with fb := { d1.fb with pass := 2, sums := [], cands := [], clamped := 0 } } }

/-- The end of pass 2: the candidate list is written in raster order, its first 1,048,576 entries, the table becomes the port's per-pixel table, and
EV 0x1414 is logged (R159). -/
def fbDone (w : Work) (s : State) : State :=
  let l := (s.dev.fb.cands.mergeSort (fun a b => decide (a ≤ b))).take 1048576
  let p := w.port
  let d1 := setB (Reg.itk_FLAT_PIXEL_SOURCE p) (ascii "FLATBUILD") (setN Reg.fb_FB_CANDIDATES l.length s.dev)
  let d2 := setItk p (fun x => { x with flatTable := s.dev.get Reg.fb_FB_TABLE_BASE }) d1
  onDev (fun d => fbIdle (post 0x1414 p l.length d.fb.clamped d))
    (poundWrite (d2.get Reg.fb_FB_CANDIDATE_BASE) (l.flatMap (leBytes 4)) { s with dev := d2 })

/-- The end of a FLATBUILD route: EV 0x1413 for each frame added (R133), that of the last one ending the phase (R158, R159). -/
def endFlat (w : Work) (s : State) : State :=
  let f := s.dev.fb
  if f.phase = 3 then (if f.pass = 1 then fbSecondPass w s else fbDone w s)
  else
    let key := if f.phase = 1 then Reg.fb_FB_DARK_FRAMES else Reg.fb_FB_FLAT_FRAMES
    let d1 := post 0x1413 w.port (lo32 w.frame) 5 (setN key (s.dev.get key + 1) s.dev)
    let done := (f.left = 0 ∨ 256 ≤ d1.get key) ∧ !(d1.brg.works.any (fun x => x.route == 5))
    { s with dev := if done then fbIdle d1 else d1 }

/-- The jobs of a discarded route are gone: its buffers return (R149). -/
def endDead (w : Work) (s : State) : State :=
  if w.route = 1 then onDev (fun d => w.views.foldl (fun e u => viewReturn u.v u.buf e) d) s
  else if w.route = 3 then
    match w.target with
    | some t =>
      let pool := s.dev.get (Reg.amt_POOL w.stream)
      offerAll w.stream (fwMark pool t (2 ^ kOUTPUT) 0 0 (onDev (pictureEnd pool t w.ref.toList 0) s))
    | none => s
  else s

/-- The last job of a route has completed or been discarded. -/
def endWork (w : Work) (s : State) : State :=
  let s0 := onDev (dropWork w) s
  let s1 :=
    if w.dead then endDead w s0
    else if w.route = 1 then endDevelop w s0
    else if w.route = 2 then endCode w s0
    else if w.route = 3 then endDecode w s0
    else if w.route = 4 then onDev (post 0x1413 w.port (lo32 w.frame) 4) s0
    else endFlat w s0
  sweepSource w.stream (onDev viewsSweep s1)

/-! ## A job completes -/

/-- The weir's credit and the new estimate (R145, R148). -/
def creditJob (barge energy : Nat) (j : Job) (d : Dev) : Dev :=
  let c := barge / 8
  let m : Int := (energy * 32768 / max 1 (j.tw * j.th) : Nat)
  let e : Int := d.estimate j.route c
  let e' := (e + (m - e) / 16).toNat
  setBrg (fun b => { b with
    level := max (-(d.weirDepth)) (b.level + j.energy - energy)
    high := b.high && decide (d.weirDepth < 2 * (b.level + j.energy - energy)), bargeTick := b.bargeTick + energy
    est := b.est.modify (j.route - 1) (fun l => l.set c e'), running := b.running.set barge none }) d

/-- A read of the slot's frame data returned POISON: the frame's record says so (R272). -/
def markSlot (w : Work) (s : State) : State :=
  match w.slot with
  | some i => updateRecord w.port i w.frame (flags [(fPOISON, true)]) none s
  | none => s

/-- JOB_COMPLETE on a barge whose clock runs (R133). -/
def completeJob (barge energy : Nat) (s : State) : State :=
  match s.dev.brg.running.getD barge none with
  | none => s
  | some j =>
    if s.dev.gated (barge / 8) then s
    else
      let s1 := onDev (fun d => fabricEnd barge (creditJob barge energy j (slotRun j (· - 1) d))) s
      match s1.dev.work? j.work with
      | none => s1
      | some w0 =>
        let r := runTile w0 j.tile s1
        let w := { r.1 with left := w0.left - 1 }
        let s2 := if r.2.1 then markSlot w (onDev (post 0x1422 barge (lo32 w.frame) j.tile) r.2.2) else r.2.2
        let s3 := poundWrite w.counter (leBytes 4 w.left) (onDev (setWork w.id (fun _ => w)) s2)
        if w.left = 0 then endWork w s3 else s3

/-- Jobs of a work that wait in a basin or in the backlog. -/
def Dev.waitingJobs (d : Dev) (id : Nat) : List Job := (d.brg.basins.flatten ++ d.brg.backlog).filter (fun j => j.work == id)

/-- The waiting jobs of a work are discarded; the running ones complete and their output is not used (R149). `late` tells
a passed deadline, which is logged, from a mode that is left (Table 2.6). -/
def discardWork (late : Bool) (w : Work) (s : State) : State :=
  let d := s.dev
  let n := (d.waitingJobs w.id).length
  let keep := fun (l : List Job) => l.filter (fun j => j.work != w.id)
  let w' := { w with dead := true, left := w.left - n }
  let d1 := syncBacklog (setWork w.id (fun _ => w') (setBrg (fun b => { b with
    basins := b.basins.map keep, backlog := keep b.backlog }) d))
  let vs := if w.route = 1 then w.views.map (·.v) else d.viewsOf (0x10 + w.stream)
  let d2 := vs.foldl (fun e v => viewRepeat v e) (if late then post 0x1420 (portInst w.port) (lo32 w.frame) w.cls d1 else d1)
  let s1 := poundWrite w.counter (leBytes 4 w'.left) { s with dev := d2 }
  if w'.left = 0 then endWork w' s1 else s1

/-- The oldest work that DEADLINE_MISS discards: C1 or C2 DEVELOP, or C1 DECODE, with a waiting job past its deadline. -/
def Dev.missed (d : Dev) : Option Work :=
  d.brg.works.find? (fun w => !w.dead && ((w.route == 1 && (w.cls == 1 || w.cls == 2)) || (w.route == 3 && w.cls == 1)) &&
    (d.waitingJobs w.id).any (fun j => tbDue j.deadline (tbNow d)))

/-- Every work past its deadline is discarded (R149). -/
def deadlineMiss : Nat → State → State
  | 0, s => s
  | n + 1, s => match s.dev.missed with
    | some w => deadlineMiss n (discardWork true w s)
    | none => s

/-- C0 jobs still waiting at their deadline: EV 0x1421 once per frame (R149). -/
def c0Late (d : Dev) : Dev :=
  d.brg.works.foldl (fun e w =>
    let l := e.waitingJobs w.id
    if w.cls = 0 ∧ !w.late ∧ l.any (fun j => tbDue j.deadline (tbNow e)) then
      post 0x1421 (portInst w.port) (lo32 w.frame) l.length (setWork w.id (fun x => { x with late := true }) e)
    else e) d

/-! ## Commands -/

/-- JOB_COMPLETE (R133): `energy` is what the barge's activity estimator measured, in units of 2^−8 µJ. -/
def execJobComplete (barge : Fin 64) (energy : Nat) (s : State) : Host.Outcome State Fault Refusal :=
  .next (completeJob barge energy s)

/-- DEADLINE_MISS (R149). -/
def execDeadlineMiss (s : State) : Host.Outcome State Fault Refusal := .next (deadlineMiss s.dev.brg.works.length s)

/-- C0_LATE (R149). -/
def execC0Late (s : State) : Host.Outcome State Fault Refusal := .next (onDev c0Late s)

/-- AMTAN_PICTURE_OFFERED (R213): taken by a decode stream in PLAYBACK; it waits behind a picture that waits. -/
def execAmtanPictureOffered (k : Fin 8) (pic : List Byte) (s : State) : Host.Outcome State Fault Refusal :=
  .next (if s.dev.get (Reg.amt_STREAM_MODE k) = 2 ∧ s.dev.mode = mPLAYBACK then
    offerAll k (onDev (setAmt k (fun a => { a with offers := a.offers ++ [pic] })) s) else s)

/-- A write of FORCE_I: TRUE makes the stream's next picture an I picture (R204). -/
def writeForceI (w : Writer) (k : Nat) (b : Bool) : State → WRes :=
  entryWrite w (Reg.amt_FORCE_I k) (.num (b2n b)) noRule
    (fun _ => onDev (fun d => if b then setAmt k (fun a => { a with force := true }) d else d))

/-- FORCE_I (R204). -/
def execForceI (w : Writer) (k : Fin 8) (s : State) : Host.Outcome State Fault Refusal :=
  .next (finishWrite s (writeForceI w k true s))

end Sys2Proof.Machine
end

