-- ==== Sys2Proof/Machine/JobCmds.lean ====
section
/-! DEFINITION. Writes to the barge, weir, flat-field, Amtan and view records (Tables 6.7, 6.10, 7.5, 8.10). -/

namespace Sys2Proof.Machine

/-- The conditions of a write of FB_PHASE (R158). -/
def fbRule (v : Nat) (d : Dev) : Option (Nat × (Dev → Dev)) :=
  let p := d.get Reg.fb_FB_PORT
  let fmt := d.get (Reg.itk_OUT_FORMAT p)
  if d.fb.phase ≠ 0 then refuse stBUSY
  else if v = 0 then none
  else if d.mode ≠ mCALIBRATE then refuse stMODE
  else if d.get (Reg.itk_FLAT_MODE p) ≠ 0 ∨ (fmt ≠ 1 ∧ fmt ≠ 2) then refuse stREFUSED
  else if v = 3 ∧ (d.get Reg.fb_FB_DARK_FRAMES = 0 ∨ d.get Reg.fb_FB_FLAT_FRAMES = 0) then refuse stREFUSED
  else none

/-- A DARK or FLAT phase starts: it takes FB_FRAMES frames, or as many as the accumulator still holds (R158). -/
def fbStart (v : Nat) (d : Dev) : Dev :=
  let key := if v = 1 then Reg.fb_FB_DARK_FRAMES else Reg.fb_FB_FLAT_FRAMES
  let n := min (d.get Reg.fb_FB_FRAMES) (256 - d.get key)
  if n = 0 then fbIdle d
  else setN Reg.fb_FB_PHASE v { d with fb := { d.fb with phase := v, pass := 0, left := n, last := 0 } }

/-- BUILD posts the jobs of pass 1; they have no frame source and carry FRAME_NUMBER 0 (R158, R159). -/
def fbBuild (s : State) : State :=
  let p := s.dev.get Reg.fb_FB_PORT
  let m := { s.dev.slotMosaic p 0 0 with base := 0 }
  let d1 := setN Reg.fb_FB_PHASE 3 { s.dev with fb := { s.dev.fb with phase := 3, pass := 1, sums := [], cands := [], clamped := 0 } }
  postWork (Work.fresh 5 3 p m { (default : FrameInfo) with port := p }) (tbNow d1) { s with dev := d1 }

/-- CLEAR zeroes both accumulators and both counts (R158). -/
def fbClear (s : State) : State :=
  let p := s.dev.get Reg.fb_FB_PORT
  let c := s.dev.pix p
  let z := zeros (8 * c.width * c.height)
  onDev (fun d => fbIdle (setN Reg.fb_FB_DARK_FRAMES 0 (setN Reg.fb_FB_FLAT_FRAMES 0 d)))
    (poundWrite s.dev.fb.flatBase z (poundWrite s.dev.fb.darkBase z s))

/-- A write of FB_PHASE (R158). -/
def writeFbPhase (w : Writer) (v : Nat) : State → WRes :=
  entryWrite w Reg.fb_FB_PHASE (.num v) (fun s => fbRule v s.dev)
    (fun _ s => if v = 1 ∨ v = 2 then onDev (fbStart v) s else if v = 3 then fbBuild s else if v = 4 then fbClear s else s)

/-- FB_PHASE_DARK (R158). -/
def execFbPhaseDark (w : Writer) (s : State) : Host.Outcome State Fault Refusal := .next (finishWrite s (writeFbPhase w 1 s))
/-- FB_PHASE_FLAT (R158). -/
def execFbPhaseFlat (w : Writer) (s : State) : Host.Outcome State Fault Refusal := .next (finishWrite s (writeFbPhase w 2 s))
/-- FB_PHASE_BUILD (R159). -/
def execFbPhaseBuild (w : Writer) (s : State) : Host.Outcome State Fault Refusal := .next (finishWrite s (writeFbPhase w 3 s))
/-- FB_PHASE_CLEAR (R158). -/
def execFbPhaseClear (w : Writer) (s : State) : Host.Outcome State Fault Refusal := .next (finishWrite s (writeFbPhase w 4 s))

/-- Writes to the weir: the budget stays at or below the ceiling, DEVELOP_IN_FLIGHT leaves every view enough buffers (R185), and clock settings act at once (R151, Table 6.7). -/
def writeWeir (w : Writer) (k : Nat) (v : Val) : State → WRes :=
  entryWrite w k v
    (fun s =>
      match v with
      | .num n =>
        if k = Reg.weir_WEIR_BUDGET_W ∧ !(FVal.le (f32v n) (f32v (s.dev.get Reg.weir_WEIR_CEILING_W))) then refuse stRANGE
        else if k = Reg.job_DEVELOP_IN_FLIGHT ∧ (List.range 4).any (fun v => decide (s.dev.get (Reg.view_VIEW_BUFFERS v) < n + 2)) then
          refuse stRANGE
        else none
      | .bytes _ => none)
    (fun _ => onDev (fun d =>
      if k = Reg.weir_CLUSTER_CLOCK_MAX then
        match v with
        | .num n => clockApply (setN k (sumN ((List.range 8).map (fun c => min 2 (field n (2 * c + 1) (2 * c)) * 4 ^ c))) d)
        | .bytes _ => d
      else if k = Reg.weir_CLOCK_AUTO then clockApply (setV k v d)
      else setV k v d))

/-- Writes to the arbitration entries: shares sum to 100, and ARB_MODE 0x02 is for SERVICE (R143, R144). -/
def fabRule (k : Nat) (v : Val) (d : Dev) : Option (Nat × (Dev → Dev)) :=
  match v with
  | .num n => if k = Reg.fab_ARB_MODE ∧ n = 2 ∧ d.mode ≠ mSERVICE then refuse stMODE else none
  | .bytes b =>
    if k = Reg.fab_CHANNEL_SHARES ∧ sumN (b.map (·.toNat)) ≠ 100 then refuse stREFUSED else none

/-- A write of ARB_MODE or CHANNEL_SHARES; ARB_MODE 0x02 is accepted in SERVICE instead of CONFIGURE (R144). -/
def writeFab (w : Writer) (k : Nat) (v : Val) (s : State) : WRes :=
  if k = Reg.fab_ARB_MODE ∧ v = .num 2 ∧ s.dev.mode = mSERVICE ∧ writeCheck s.dev w k v = some stMODE then
    .ok (onDev (fun d => setV k v (recordWrite w k v d)) (roomToRecord w s))
  else entryWrite w k v (fun t => fabRule k v t.dev) (fun _ => onDev (setV k v)) s

/-- The acceptance rules of an Amtan stream's entries (R211, R218). -/
def amtRule (s k : Nat) (v : Val) (d : Dev) : Option (Nat × (Dev → Dev)) :=
  match v with
  | .bytes _ => none
  | .num n =>
    let c := d.pix (d.get (Reg.amt_STREAM_PORT s))
    let tiles := tileCols c.width * tileRows c.height
    if k = Reg.amt_Q_MIN s ∧ d.get (Reg.amt_Q_MAX s) < n then refuse stREFUSED
    else if k = Reg.amt_Q_MAX s ∧ n < d.get (Reg.amt_Q_MIN s) then refuse stREFUSED
    else if k = Reg.amt_PICTURE_BUDGET s ∧ n ≠ 0 ∧ n < picP0 tiles + 608 * tiles then refuse stREFUSED
    else none

/-- A write of an Amtan stream's entry. -/
def writeAmt (w : Writer) (s k : Nat) (v : Val) : State → WRes :=
  if k = Reg.amt_FORCE_I s then (match v with
    | .num n => writeForceI w s (n != 0)
    | .bytes _ => entryWrite w k v noRule (fun _ => id))
  else entryWrite w k v (fun t => amtRule s k v t.dev) (fun _ => onDev (setV k v))

/-- The acceptance rules of a view's RWC entries: the buffers suffice for DEVELOP_IN_FLIGHT, and the geometry is one that
R178 accepts for the source's frames. -/
def viewRule (v k : Nat) (val : Val) (d : Dev) : Option (Nat × (Dev → Dev)) :=
  match val with
  | .bytes _ => none
  | .num n =>
    let e := setN k n d
    let geo := k = Reg.view_CROP v ∨ k = Reg.view_OUT_HEIGHT v ∨ k = Reg.view_DESQUEEZE v ∨ k = Reg.view_VIEW_SOURCE v
    if k = Reg.view_VIEW_BUFFERS v ∧ n < d.get Reg.job_DEVELOP_IN_FLIGHT + 2 then refuse stRANGE
    else if geo ∧ !(e.viewGeomOk v) then refuse stREFUSED
    else none

/-- A write of a view's entry (Table 7.5). -/
def writeView (w : Writer) (v k : Nat) (val : Val) : State → WRes :=
  match val with
  | .num n =>
    if k = Reg.view_COMMIT_FRAME v then writeCommitFrame w v n
    else if k = Reg.view_COMMIT_RECORD v then writeCommitRecord w v n
    else if k = Reg.view_COMMIT_CANCEL v then writeCommitCancel w v (n != 0)
    else if ((rowOf k).map (·.staged)).getD false then writeStaged w v k val
    else entryWrite w k val (fun s => viewRule v k val s.dev) (fun _ => onDev (setV k val))
  | .bytes _ =>
    if ((rowOf k).map (·.staged)).getD false then writeStaged w v k val
    else entryWrite w k val (fun s => viewRule v k val s.dev) (fun _ => onDev (setV k val))

end Sys2Proof.Machine
end

