-- ==== Sys2Proof/Machine/TimeCode.lean ====
section
/-! DEFINITION. Output rates (R250) and time code (R410). -/

namespace Sys2Proof.Machine

/-! ## Rates and time code -/

/-- NUM and DEN of a rate code (R250). -/
def rateOf (code : Nat) : Nat × Nat :=
  ([(24000, 1001), (24, 1), (25, 1), (30000, 1001), (30, 1), (50, 1), (60000, 1001), (60, 1)] : List (Nat × Nat)).getD code (60, 1)

/-- Drop-frame labels of a count at 30/1.001 (ST 12-1). -/
def dropFrame (n : Nat) : Nat :=
  let m := n % 17982
  n + 18 * (n / 17982) + (if 2 ≤ m then 2 * ((m - 2) / 1798) else 0)

/-- The count at 30/1.001 whose drop-frame label is second `s` of the day. -/
def dropCount (s : Nat) : Nat := s * 30 - 2 * (s / 60 - s / 600)

/-- Two BCD digits. -/
def bcd (n : Nat) : Nat := n / 10 % 10 * 16 + n % 10

/-- Hours, minutes, seconds and frames from the most significant byte down, of `fps` labels per second. -/
def bcdCode (fps n : Nat) : Nat :=
  let s := n / fps
  bcd (s / 3600 % 24) * 2 ^ 24 + bcd (s / 60 % 60) * 2 ^ 16 + bcd (s % 60) * 2 ^ 8 + bcd (n % fps)

/-- The time code of PTP time `p` in ns at a rate (R410). `offset` is TC_LOCAL_OFFSET_S less currentUtcOffset, `jam` is
DAILY_JAM_S. -/
def timeCode (rate : Nat) (offset : Int) (jam p : Nat) : Nat :=
  let day : Int := 86400 * 1000000000
  let t : Int := (p : Int) + 1000000000 * offset
  let r := rateOf rate
  let since := ((t - 1000000000 * jam) % day).toNat
  let n := since * r.1 / (r.2 * 1000000000)
  let whole := (t % day).toNat * r.1 / (r.2 * 1000000000)
  if rate = 0 then bcdCode 24 (jam * 24 + n)
  else if rate = 3 then bcdCode 30 (dropFrame ((dropCount (jam % 86400) + n) % 2589408))
  else if rate = 6 then bcdCode 30 (dropFrame ((dropCount (jam % 86400) + n / 2) % 2589408))
  else if rate = 5 ∨ rate = 7 then bcdCode (r.1 / 2) (whole / 2)
  else bcdCode r.1 whole

/-- The time code of a TB value at a rate; a TB later than now belongs to the epoch before. -/
def Dev.timeCodeAt (d : Dev) (rate tb : Nat) : Nat :=
  let ep := d.get Reg.tb_TB_EPOCH
  let ep' := if tbDiff tb (tbNow d) ≤ 0 ∧ tbNow d < tb then ep - 1 else ep
  timeCode rate (toInt 32 (d.get Reg.tc_TC_LOCAL_OFFSET_S) - d.net.utc) (d.get Reg.tc_DAILY_JAM_S) (ptpNs ep' tb)

end Sys2Proof.Machine
end

