-- ==== Sys2Proof/Machine/HevcHead.lean ====
section
/-! DEFINITION. What firmware gives an encode picture: input conversion (R232), parameter sets, SEI and slice headers as
H.265 byte-stream NAL units (R233, R234), and the QP of its rate control (R237). -/

namespace Sys2Proof.Machine

/-! ## Bit strings and NAL units -/

/-- u(n). -/
def uBits (n v : Nat) : List Bool := (List.range n).map (fun i => bit v (n - 1 - i) == 1)

/-- ue(v). -/
def ueBits (v : Nat) : List Bool :=
  let n := Nat.log2 (v + 1)
  List.replicate n false ++ uBits (n + 1) (v + 1)

/-- Bits as bytes, the first bit the most significant; the last byte is filled with zeros. -/
def packBits (l : List Bool) : List Byte :=
  (List.range (ceilDiv l.length 8)).map (fun i =>
    BitVec.ofNat 8 (sumN ((List.range 8).map (fun j => if l.getD (8 * i + j) false then 2 ^ (7 - j) else 0))))

/-- rbsp_trailing_bits or byte_alignment: a one, then zeros to the byte. -/
def trailed (l : List Bool) : List Byte := packBits (l ++ [true])

/-- Emulation prevention: a third byte of 0 to 3 after two zero bytes is preceded by 3 (R235). `z` counts the zero bytes
before. -/
def preventEmulation : Nat → List Byte → List Byte
  | _, [] => []
  | z, b :: bs =>
    if 2 ≤ z ∧ b.toNat ≤ 3 then 3 :: b :: preventEmulation (if b = 0 then 1 else 0) bs
    else b :: preventEmulation (if b = 0 then z + 1 else 0) bs

/-- A NAL unit in Annex B form: 4-byte start code, two-byte header of the given type in layer 0 and temporal sub-layer 0,
payload with emulation prevention (R234). -/
def nalUnit (ty : Nat) (rbsp : List Byte) : List Byte :=
  [0, 0, 0, 1, BitVec.ofNat 8 (2 * ty), 1] ++ preventEmulation 0 rbsp

/-! ## Parameter sets and SEI -/

/-- Chroma code and depth of a profile (Table 9.6). -/
def profileOf (p : Nat) : Nat × Nat :=
  if p = 1 then (1, 8) else if p = 3 then (2, 10) else if p = 4 then (2, 12) else if p = 5 then (3, 12) else (1, 10)

/-- MaxLumaPs of a general_level_idc (H.265 Table A.8); 0 for none. -/
def maxLumaPs (level : Nat) : Nat :=
  if level = 30 then 36864 else if level = 60 then 122880 else if level = 63 then 245760 else if level = 90 then 552960
  else if level = 93 then 983040 else if level = 120 ∨ level = 123 then 2228224
  else if level = 150 ∨ level = 153 ∨ level = 156 then 8912896 else if level = 180 ∨ level = 183 ∨ level = 186 then 35651584
  else 0

/-- general_profile_idc and the constraint flags of a profile (Table 9.6). -/
def profileIdc (p : Nat) : Nat := if p = 1 then 1 else if p = 2 then 2 else 4

/-- Level codes of H.265. -/
def levelCodes : List Nat := [30, 60, 63, 90, 93, 120, 123, 150, 153, 156, 180, 183, 186]

/-- general_level_idc of an encode stream: LEVEL, or for 0 the lowest that fits the picture (Table 9.13). -/
def Dev.encLevel (d : Dev) (s size : Nat) : Nat :=
  let e := d.get (Reg.hev_LEVEL s)
  if e ≠ 0 then e else (levelCodes.find? (fun l => decide (size ≤ maxLumaPs l))).getD 186

/-- profile_tier_level of a stream for one sub-layer. -/
def Dev.ptlBits (d : Dev) (s size : Nat) : List Bool :=
  let p := d.get (Reg.hev_PROFILE s)
  let idc := profileIdc p
  uBits 2 0 ++ uBits 1 (d.get (Reg.hev_TIER s)) ++ uBits 5 idc ++
    (List.range 32).map (fun j => j == idc || (idc == 1 && j == 2)) ++ [true, false, false, true] ++
    (if idc = 4 then [true, p == 3, false, p != 5, false, false, false, false, true] else List.replicate 9 false) ++
    List.replicate 35 false ++ uBits 8 (d.encLevel s size)

/-- The decoded picture buffer a sequence asks for: pictures held, less one, pictures reordered, and no latency limit. -/
def Dev.dpbBits (d : Dev) (s : Nat) : List Bool :=
  let g := d.get (Reg.hev_GOP_SIZE s)
  ueBits (d.get (Reg.hev_REF_COUNT s)) ++ ueBits (if d.get (Reg.hev_GOP_MODE s) = 2 then Nat.log2 (max 1 g) else 0) ++ ueBits 0

/-- The VPS of an encode stream (R233). -/
def Dev.vps (d : Dev) (s size : Nat) : List Byte :=
  nalUnit 32 (trailed (uBits 4 0 ++ [true, true] ++ uBits 6 0 ++ uBits 3 0 ++ [true] ++ uBits 16 0xFFFF ++ d.ptlBits s size ++
    [true] ++ d.dpbBits s ++ uBits 6 0 ++ ueBits 0 ++ [false, false]))

/-- The conformance window of a picture padded to multiples of 8 (R232): its flag and, in chroma units, its offsets. -/
def windowBits (chroma w h : Nat) : List Bool :=
  let sx := if chroma = 3 then 1 else 2
  let sy := if chroma = 1 then 2 else 1
  if w % 8 = 0 ∧ h % 8 = 0 then [false]
  else true :: (ueBits 0 ++ ueBits ((roundUp w 8 - w) / sx) ++ ueBits 0 ++ ueBits ((roundUp h 8 - h) / sy))

/-- matrix_coefficients of a stream: 0 for G, B, R, otherwise the view's matrix (Table 9.6, Table 7.5). -/
def Dev.matrixCode (d : Dev) (s : Nat) : Nat :=
  if d.get (Reg.hev_PROFILE s) = 5 then 0
  else if d.get (Reg.view_YCC_MATRIX (d.get (Reg.hev_VIEW s))) = 0 then 1 else 9

/-- The VUI: chroma sample location type 0 for 4:2:0 (R232), and under CBR the reference decoder's parameters. -/
def Dev.vuiBits (d : Dev) (s chroma : Nat) : List Bool :=
  let range := if chroma = 3 then d.get (Reg.view_RANGE (d.get (Reg.hev_VIEW s))) else 0
  [false, false, true] ++ uBits 3 5 ++ uBits 1 range ++ [true] ++ uBits 8 (Config.hevcChoice 0) ++ uBits 8 (Config.hevcChoice 1) ++
    uBits 8 (d.matrixCode s) ++ (if chroma = 1 then true :: (ueBits 0 ++ ueBits 0) else [false]) ++
    [false, false, false, false] ++ (if d.get (Reg.hev_RC_MODE s) = 1 then true :: Config.hrdBits s else [false]) ++ [false]

/-- The SPS of an encode stream (R229, R232, R233): 8 × 8 to 64 × 64 coding blocks, 4 × 4 to 32 × 32 transforms, AMP, SAO
and TMVP; 8 bits of POC in slice headers. -/
def Dev.sps (d : Dev) (s w h : Nat) : List Byte :=
  let c := profileOf (d.get (Reg.hev_PROFILE s))
  nalUnit 33 (trailed (uBits 4 0 ++ uBits 3 0 ++ [true] ++ d.ptlBits s (roundUp w 8 * roundUp h 8) ++ ueBits 0 ++ ueBits c.1 ++
    (if c.1 = 3 then [false] else []) ++ ueBits (roundUp w 8) ++ ueBits (roundUp h 8) ++ windowBits c.1 w h ++
    ueBits (c.2 - 8) ++ ueBits (c.2 - 8) ++ ueBits 4 ++ [true] ++ d.dpbBits s ++ ueBits 0 ++ ueBits 3 ++ ueBits 0 ++ ueBits 3 ++
    ueBits (Config.hevcChoice 2 % 4) ++ ueBits (Config.hevcChoice 3 % 4) ++ [false, true, true, false] ++ ueBits 0 ++
    [true, true, Config.hevcChoice 4 % 2 == 1, true] ++ d.vuiBits s c.1 ++ [false]))

/-- The PPS of an encode stream. -/
def pps (s : Nat) : List Byte := nalUnit 34 (trailed (ueBits 0 ++ ueBits 0 ++ Config.ppsBits s))

/-- A prefix SEI NAL unit with one message. -/
def seiUnit (ty : Nat) (payload : List Byte) : List Byte :=
  nalUnit 39 ([BitVec.ofNat 8 ty, BitVec.ofNat 8 payload.length] ++ payload ++ [0x80])

/-- Two BCD digits as a number. -/
def ofBcd (n : Nat) : Nat := n / 16 % 16 * 10 + n % 16

/-- The time code SEI message (payloadType 136) of a time code as TC_NOW shows it; drop-frame rates count as type 4. -/
def timeCodeSei (rate tc : Nat) : List Byte :=
  let ff := ofBcd (tc % 256)
  let ss := ofBcd (tc / 2 ^ 8 % 256)
  let mm := ofBcd (tc / 2 ^ 16 % 256)
  let hh := ofBcd (tc / 2 ^ 24 % 256)
  let drop := rate = 3 ∨ rate = 6
  let l := uBits 2 1 ++ [true, false] ++ uBits 5 (if drop then 4 else 0) ++ [true, false,
    decide (drop ∧ ss = 0 ∧ ff = 2 ∧ mm % 10 ≠ 0)] ++ uBits 9 ff ++ uBits 6 ss ++ uBits 6 mm ++ uBits 5 hh ++ uBits 5 0
  seiUnit 136 (trailed l)

/-- The bytes ahead of the first slice (R233): parameter sets at an IRAP picture, and prefix SEI. `n` names the picture's
free choices. -/
def Dev.encHead (d : Dev) (s w h n : Nat) (irap : Bool) (sofTb : Nat) : List Byte :=
  let rate := d.get Reg.tc_TC_RATE
  let cbr := d.get (Reg.hev_RC_MODE s) = 1
  (if irap then d.vps s (roundUp w 8 * roundUp h 8) ++ d.sps s w h ++ pps s else []) ++
    (if cbr ∧ irap then seiUnit 0 ((Config.seiBytes n 0).take 64) else []) ++
    (if cbr then seiUnit 1 ((Config.seiBytes n 1).take 64) else []) ++ timeCodeSei rate (d.timeCodeAt rate sofTb)

/-- nal_unit_type of a slice: an IDR_N_LP or CRA picture, a leading picture of a CRA, or a trailing one, kept or not. -/
def sliceNal (irap cra leading keep : Bool) : Nat :=
  if irap then (if cra then 21 else 20) else (if leading then 8 else 0) + b2n keep

/-- An entry's bytes in the slice header table: start code, NAL unit header and slice segment header with byte_alignment
and emulation prevention, 127 bytes at most (R234, R235). `addr` is the first CTU, of `ctus`; `kind` the picture's, `poc` its
POC; `n`, `i` name the free choices. -/
def sliceHeadOf (nal kind poc addr ctus n i : Nat) : List Byte :=
  nalUnit nal (trailed ([addr == 0] ++ (if 16 ≤ nal then [false] else []) ++ ueBits 0 ++
    (if addr = 0 then [] else uBits (Nat.log2 (2 * ctus - 1)) addr) ++
    ueBits (if kind ≤ 1 then 2 else if kind = 2 then 1 else 0) ++ (if nal = 20 then [] else uBits 8 poc) ++
    (Config.sliceBits n i).take 480))

/-! ## Input conversion (R232) -/

/-- A word of the input as the view buffer holds it (Table 7.3): Cb, Y and Cr, or R, G and B, as `c` = 0, 1, 2. -/
def inputWord (packing addr w : Nat) (s : State) (c y x : Nat) : Nat :=
  let a := addr + y * viewPitch packing w
  leNat (poundRead (if packing ≤ 1 then a + x / 2 * 8 + (if c = 1 then (if x % 2 = 0 then 2 else 6) else 2 * c)
    else a + x * 6 + 2 * c) 2 s).1

/-- 10 bits to 8. -/
def to8 (depth v : Nat) : Nat := if depth = 8 then min 255 ((v + 2) / 4) else v

/-- The planes the engine codes: converted to the profile's chroma and depth, and padded to multiples of 8 by repeating the
last column and row. -/
def inputPlanes (profile packing addr w h : Nat) (s : State) : List (List Nat) :=
  let c := profileOf profile
  let W := roundUp w 8
  let H := roundUp h 8
  let full := fun (k : Nat) => (List.range H).flatMap (fun y => (List.range W).map (fun x =>
    to8 c.2 (inputWord packing addr w s k (min y (h - 1)) (min x (w - 1)))))
  if c.1 = 3 then [full 1, full 2, full 0]
  else
    let half := fun (k : Nat) =>
      if c.1 = 1 then
        (List.range (H / 2)).flatMap (fun y => (List.range (W / 2)).map (fun x =>
          let i := 2 * min y (h / 2 - 1)
          let j := 2 * min x (ceilDiv w 2 - 1)
          to8 c.2 ((inputWord packing addr w s k i j + inputWord packing addr w s k (i + 1) j + 1) / 2)))
      else
        (List.range H).flatMap (fun y => (List.range (W / 2)).map (fun x =>
          to8 c.2 (inputWord packing addr w s k (min y (h - 1)) (2 * min x (ceilDiv w 2 - 1)))))
    [full 1, half 0, half 2]

/-- ACT of a CTU: the mean absolute deviation of its source luma, in 1/16 of a 10-bit code, saturating (R236). -/
def ctuAct (l : List Nat) (bits : Nat) : Nat :=
  let n := l.length
  let total := sumN l
  let dev := sumN (l.map (fun v => ((n * v : Nat) : Int) - (total : Int) |>.natAbs))
  min 65535 (dev * 16 * 2 ^ (12 - bits) / max 1 (n * n) / 4)

/-- ACT of each CTU of a luma plane of W × H, in raster order. -/
def ctuActs (luma : List Nat) (W H bits : Nat) : List Nat :=
  let a := luma.toArray
  (List.range (ceilDiv H 64)).flatMap (fun r => (List.range (ceilDiv W 64)).map (fun c =>
    ctuAct ((List.range (min 64 (H - 64 * r))).flatMap (fun y => (List.range (min 64 (W - 64 * c))).map (fun x =>
      a.getD ((64 * r + y) * W + 64 * c + x) 0))) bits))

/-! ## Rate control (R237) -/

/-- Bits of a picture predicted from an earlier one: proportional to 2^(−QP/6) and to the ratio of summed ACT. The
prediction is at most `limit`. -/
def predictFits (o : PicRate) (act qp limit : Nat) : Bool :=
  decide ((o.bits * act) ^ 6 * 2 ^ o.qp ≤ (limit * max 1 o.act) ^ 6 * 2 ^ qp)

/-- The prediction rounded up, below 2^40. -/
def predictBits (o : PicRate) (act qp : Nat) : Nat :=
  if predictFits o act qp 0 then 0
  else (List.range 40).foldl (fun a i => if predictFits o act qp (a + 2 ^ (39 - i)) then a else a + 2 ^ (39 - i)) 0 + 1

/-- Bits that BITRATE_KBPS gives between two TB instants. -/
def rateBits (kbps t0 t1 : Nat) : Nat := kbps * ((tbDiff t1 t0).toNat / 65536) / 1000000

/-- The reference decoder's buffer at an instant: one second at the rate at most, and full at the start. -/
def hrdAt (kbps : Nat) (st : Option (Nat × Nat)) (tb : Nat) : Nat :=
  match st with
  | none => kbps * 1000
  | some x => min (kbps * 1000) (x.1 + rateBits kbps x.2 tb)

/-- The buffer after a picture of `n` bits has been removed at its instant. -/
def hrdTake (kbps : Nat) (st : Option (Nat × Nat)) (tb n : Nat) : Option (Nat × Nat) := some (hrdAt kbps st tb - n, tb)

/-- A predicted size suits the stream's rate control: no underflow under CBR; under VBR the mean over 2 s at the rate at
most, and at most four times the picture's share. Pictures whose records are not yet read count as predicted. -/
def rateAllows (d : Dev) (s tb p : Nat) : Bool :=
  let h := d.hev s
  let kbps := d.get (Reg.hev_BITRATE_KBPS s)
  if d.get (Reg.hev_RC_MODE s) = 1 then
    decide (p ≤ hrdAt kbps (h.unread.foldl (fun a x => hrdTake kbps a x.tb x.pred) h.hrd) tb)
  else
    let near := fun (x : PicRate) => decide ((tbDiff tb x.tb).toNat < 2000000000 * 65536)
    let sum := sumN ((h.unread.filter near).map (·.pred)) + sumN ((h.rates.filter near).map (·.bits))
    let prev := ((h.unread.reverse ++ h.rates).head?).map (·.tb)
    decide (sum + p ≤ 2000 * kbps) && (match prev with
      | some t => decide (p ≤ 4 * rateBits kbps t tb)
      | none => true)

/-- The QP of a picture (R237) and the bits predicted for it: QP_CONST plus its layer; or a choice of firmware's among the
QPs whose prediction suits the rate, QP_MAX when none does. -/
def encQp (s layer kind act tb : Nat) (d : Dev) : (Nat × Nat) × Dev :=
  let lo := d.get (Reg.hev_QP_MIN s)
  let hi := d.get (Reg.hev_QP_MAX s)
  let old := (d.hev s).rates.find? (fun x => x.kind == kind && x.layer == layer)
  let pred := fun (q : Nat) => match old with
    | some o => predictBits o act q
    | none => 0
  if d.get (Reg.hev_RC_MODE s) = 0 then
    let q := max lo (min hi (d.get (Reg.hev_QP_CONST s) + layer))
    ((q, pred q), d)
  else
    let l := (List.range' lo (hi + 1 - lo)).filter (fun q => old.isNone || rateAllows d s tb (pred q))
    let r := freeDraw d
    let q := l.getD (r.1 % max 1 l.length) hi
    ((q, pred q), r.2)

/-- Firmware reads the records of the pictures coded before the latest start: the next choice but one sees them. -/
def rateRead (s : Nat) (d : Dev) : Dev :=
  let kbps := d.get (Reg.hev_BITRATE_KBPS s)
  setHev s (fun h => { h with
    hrd := h.unread.foldl (fun a x => hrdTake kbps a x.tb x.size) h.hrd
    rates := (h.unread.reverse ++ h.rates).take 4096, unread := [] }) d

end Sys2Proof.Machine
end

