-- ==== Sys2Proof/Machine/HevcOps.lean ====
section
/-! DEFINITION. The HEVC engine: coding and decoding pictures (R228 to R246). -/

namespace Sys2Proof.Machine

/-- CAPACITY: the output buffer less its header and slice header table (R234). -/
def Dev.encCapacity (d : Dev) (s : Nat) : Nat := d.encBufBytes s - 64 - 128 * d.encSlices s

/-- Pound address of output buffer `i`. -/
def Dev.encOutAddr (d : Dev) (s i : Nat) : Nat := d.get (Reg.hev_OUT_RING_BASE s) + i * d.encBufBytes s

/-- Pound address of the CTU records of the picture in output buffer `i`. -/
def Dev.encCtuAddr (d : Dev) (s i : Nat) : Nat :=
  d.get (Reg.hev_OUT_RING_BASE s) + d.get (Reg.hev_OUT_BUFFERS s) * d.encBufBytes s + i * 0x20000

/-! ## Encode -/

/-- The stream's short-term references: buffer and POC, as marked (R223). -/
def Dev.encRefs (d : Dev) (s : Nat) : List (Nat × Int) :=
  (d.pool (d.hevPool s)).bufs.zipIdx.filterMap (fun x =>
    if x.1.has kENCSHORT then some (x.2, toInt 32 x.1.tag) else none)

/-- Of some references, the one latest in output order and then those nearest to `poc`, `n` in all: the model's choice of
a reference picture set (R233, step 2). -/
def pickRefs (n : Nat) (poc : Int) (l : List (Nat × Int)) : List (Nat × Int) :=
  let top := l.foldl (fun (a : Option (Nat × Int)) x => match a with
    | some y => if y.2 < x.2 then some x else a
    | none => some x) none
  match top with
  | none => []
  | some t =>
    let rest := (l.filter (fun x => x.1 != t.1)).mergeSort (fun a b => decide ((a.2 - poc).natAbs ≤ (b.2 - poc).natAbs))
    (t :: rest).take n

/-- An input's buffer is released: the view's reader count, or the ring slot (R231). -/
def encRelease (s : Nat) (x : EncIn) (d : Dev) : Dev :=
  match x.slot with
  | some k => setHev s (fun h => { h with ring := h.ring.set k false }) d
  | none => setViewBuf (d.get (Reg.hev_VIEW s)) x.buf (fun b => { b with readers := b.readers - 1 }) d

/-- The output buffer header that firmware writes; hardware's fields are zero (Table 9.8). -/
def encHeader (s : Nat) (frame tb count poc slices qp ty head cap ctus : Nat) : List Byte :=
  ascii "HEVO" ++ leBytes 1 1 ++ leBytes 1 s ++ leBytes 2 0 ++ leBytes 8 frame ++ leBytes 8 tb ++ leBytes 4 count ++
    leBytes 4 poc ++ leBytes 2 slices ++ leBytes 1 qp ++ leBytes 1 ty ++ leBytes 4 head ++ leBytes 4 0 ++ leBytes 4 cap ++
    leBytes 8 ctus ++ leBytes 4 0 ++ zeros 4

/-- An encode picture starts (R233 steps 2 to 4): firmware chooses type, POC, references, QP, target and output buffer
and writes the output header; hardware checks. Without a released output buffer the picture is not coded (R238). -/
def encStart (t : PicTask) (rest : List PicTask) (s : State) : State :=
  let d := s.dev
  let k := t.s
  let h := d.hev k
  let pool := d.hevPool k
  match (List.range h.outs.length).find? (fun i => h.outs.getD i 0 == 0), d.freeBuf pool with
  | none, _ => onDev (fun e => encStall k t.inp.frame 3 (encRelease k t.inp { e with hevcQ := rest })) s
  | _, none => s
  | some out, some target =>
    let mode := d.get (Reg.hev_GOP_MODE k)
    let due := h.irap || (mode != 2 && decide (d.get (Reg.hev_INTRA_PERIOD k) ≤ t.poc - h.base))
    let kind := if due then 0 else t.kind
    let pocBase := if kind = 0 ∧ (d.get (Reg.hev_IRAP_TYPE k) = 0 ∨ h.count = 0) then t.poc else h.pocBase
    let poc : Int := (t.poc : Int) - pocBase
    let keep := t.keep && mode != 0
    let nRef := d.get (Reg.hev_REF_COUNT k)
    let have' := d.encRefs k
    let refs := if kind ≤ 1 then [] else pickRefs nRef poc have'
    let chk := pictureStart pool target (refs.map (·.1)) (fun b => b.has kENCSHORT || b.has kENCLONG) d
    let count := h.count
    let ns := d.encSlices k
    let cap := d.encCapacity k
    let ty := if kind ≤ 1 then 0 else if kind = 2 then 1 else 2
    let a := d.encOutAddr k out
    if !chk.1 then
      poundWrite (a + 6) (leBytes 2 0x10) (poundWrite a (encHeader k t.inp.frame t.inp.sofTb count (ofInt 32 poc) ns 0 ty 0 cap
        (d.encCtuAddr k out)) { s with dev := encRelease k t.inp { chk.2.2 with hevcQ := rest } })
    else
    let p := d.pool pool
    let v := d.get (Reg.hev_VIEW k)
    let pr := d.get (Reg.hev_PROFILE k)
    let source := inputPlanes pr (d.get (Reg.view_PACKING v)) (match t.inp.slot with
      | some i => d.encSlotAddr k i
      | none => d.viewAddr v t.inp.buf) p.w p.h s
    let acts := ctuActs (nth source 0) (roundUp p.w 8) (roundUp p.h 8) (profileOf pr).2
    let qpc := encQp k t.layer (if kind = 0 then 1 else kind) (sumN acts) t.inp.sofTb chk.2.2
    let qp := (qpc.1.1, qpc.2)
    let n := qp.2.free
    let z := d.encCtus k
    let nal := sliceNal (kind == 0) (d.get (Reg.hev_IRAP_TYPE k) == 1 && h.count != 0) (kind == 3 && decide (t.poc < h.base)) keep
    let slices := (List.range ns).map (fun i =>
      sliceHeadOf nal kind (ofInt 32 poc) (i * d.get (Reg.hev_SLICE_ROWS k) * z.1) (z.1 * z.2) n i)
    let head := d.encHead k p.w p.h n (kind == 0) t.inp.sofTb
    let d1 := rateRead k (draw qp.2).2
    let d2 := setHev k (fun y => { y with
      irap := false, count := (count + 1) % 2 ^ 32, pocBase := pocBase
      base := if kind = 0 then t.poc else y.base, outs := y.outs.set out 4 }) d1
    let run : PicRun :=
      { task := { t with kind := kind, keep := keep, poc := ofInt 32 poc }, target := target, refs := chk.2.1, out := out, count := count, qp := qp.1
        head := head, slices := slices, fault := decide (chk.2.1.length < refs.length), source := source, acts := acts
        pred := qpc.1.2, began := d.time.raw }
    let s1 := poundWrite a (encHeader k t.inp.frame t.inp.sofTb count (ofInt 32 poc) slices.length qp.1 ty head.length cap
      (d.encCtuAddr k out)) { s with dev := { d2 with engine := some run, hevcQ := rest } }
    let s2 := poundWrite (a + 64 + cap)
      (slices.flatMap (fun x => padTo 128 (leBytes 1 x.length ++ x))) s1
    let s3 := poundWrite (a + 64) (head.take cap) s2
    let stay := if kind = 0 then [] else if keep then pickRefs (nRef - 1) poc have' else have'
    (have'.filter (fun x => !(stay.any (fun y => y.1 == x.1)))).foldl
      (fun u x => fwMark pool x.1 (2 ^ kENCSHORT) 0 0 u) s3

/-- Zero bytes at the end of a list, at most two. -/
def tailZeros (l : List Byte) : Nat := min 2 ((l.reverse.takeWhile (fun b => b == 0)).length)

/-- The access unit of a coded picture: firmware's bytes, then each slice's header and data (R234, R235). -/
def accessUnit (head : List Byte) (slices data : List (List Byte)) : List Byte :=
  head ++ (slices.zip (data ++ List.replicate slices.length [])).flatMap (fun x => x.1 ++ preventEmulation (tailZeros x.1) x.2)

/-- The CTU records of a picture, in raster order (R236). -/
def ctuRecords (k : Nat) (run : PicRun) (r : EncResult) (d : Dev) : List Byte :=
  let z := d.encCtus k
  let rows := d.get (Reg.hev_SLICE_ROWS k)
  (List.range (z.1 * z.2)).flatMap (fun i =>
    let first := i = 0 ∨ (rows ≠ 0 ∧ i % (max 1 z.1 * rows) = 0)
    let c := r.ctus.getD i (0, 0)
    leBytes 4 c.1 ++ leBytes 2 (nth run.acts i) ++ leBytes 1 (c.2 % 4 + (if first then 4 else 0)) ++ leBytes 1 run.qp)

/-- A coded picture completes (R233 steps 5 to 7, R238). -/
def encDone (k : Nat) (run : PicRun) (r : EncResult) (s : State) : State :=
  let d := s.dev
  let pool := d.hevPool k
  let a := d.encOutAddr k run.out
  let cap := d.encCapacity k
  let au := accessUnit run.head run.slices r.slices
  let spilt := decide (cap < au.length)
  let total := min cap au.length
  let mark := run.fault || !r.bounds.isEmpty
  let status := flags [(0, true), (1, run.task.kind == 0), (2, run.task.inp.rep), (3, spilt), (4, mark), (5, r.poison)]
  let p := d.pool pool
  let s1 := poundWrite (a + 64) (au.take cap) (poundWrite (p.addr run.target) (r.recon.take p.bytes)
    (onDev (poundAsk rqHevc (a + 64) total) (onDev (poundAsk rqHevc (p.addr run.target) p.bytes) s)))
  let s2 := poundWrite (d.encCtuAddr k run.out) (ctuRecords k run r d) s1
  let s3 := poundWrite (a + 0x38) (leBytes 4 r.bits) (poundWrite (a + 0x28) (leBytes 4 total)
    (poundWrite (a + 6) (leBytes 2 status) s2))
  let d1 := boundFaults pool r.bounds s3.dev
  let d2 := encRelease k run.task.inp (pictureEnd pool run.target run.refs (if spilt then 2 else 1) d1)
  let d3 := post 0x1E02 k (run.out * 2 ^ 24 + run.count % 2 ^ 24) total (inc64 (Reg.hev_PICTURES k) { d2 with engine := none })
  let host := bit (d.get (Reg.hev_OUT_CONSUMER k)) 1 == 1
  let rtp := bit (d.get (Reg.hev_OUT_CONSUMER k)) 0 == 1 && d.flag (Reg.prx_PROXY_ENABLE k)
  let mask := if spilt then 0 else (if rtp then 1 else 0) + (if host then 2 else 0)
  let d4 := setHev k (fun h => { h with
    outs := h.outs.set run.out mask, irap := h.irap || spilt
    unread := h.unread ++ [{ kind := if run.task.kind = 0 then 1 else run.task.kind, layer := run.task.layer, bits := r.bits
                             qp := run.qp, act := sumN run.acts, tb := run.task.inp.sofTb, size := 8 * total, pred := run.pred }]
    proxy := if mask % 2 = 1 then h.proxy ++ [run.out] else h.proxy }) d3
  let d5 := if spilt then post 0x1E03 k run.count cap (inc64 (Reg.hev_OVERFLOWS k) d4) else d4
  let s4 : State := { s3 with dev := d5 }
  if run.task.keep && !spilt then fwMark pool run.target (2 ^ kOUTPUT) (2 ^ kENCSHORT) run.task.poc s4
  else fwMark pool run.target (2 ^ kOUTPUT) 0 0 s4

/-! ## Decode -/

/-- EV 0x1E08 SLICE_ERROR. -/
def sliceError (k poc reason : Nat) (d : Dev) : Dev := post 0x1E08 k poc reason d

/-- Firmware brings the decoded picture buffer to a reference picture set: pictures named are marked, others lose their
marks (Table 9.11 step 6). -/
def dpbMarks (k : Nat) (rps : List (Nat × Bool)) (s : State) : State :=
  let pool := s.dev.hevPool k
  let last := (s.dev.hev k).last
  (s.dev.pool pool).bufs.zipIdx.foldl (fun t x =>
    let b := x.1
    let isRef := b.has kDECSHORT || b.has kDECLONG || b.has kGENERATED
    let poc : Option Nat := if isRef then some b.tag else match last with
      | some l => if l.2 = x.2 then some l.1 else none
      | none => none
    match poc with
    | none => t
    | some c =>
      match rps.find? (fun y => y.1 == c) with
      | some y => fwMark pool x.2 (if y.2 then 2 ^ kDECSHORT else 2 ^ kDECLONG) (if y.2 then 2 ^ kDECLONG else 2 ^ kDECSHORT) c t
      | none => if isRef then fwMark pool x.2 (2 ^ kDECSHORT + 2 ^ kDECLONG + 2 ^ kGENERATED) 0 0 t else t) s

/-- The buffer of a decode pool that holds a picture of POC `c`. -/
def Dev.dpbOf (d : Dev) (k c : Nat) : Option Nat :=
  let l := (d.pool (d.hevPool k)).bufs
  let i := l.findIdx (fun b => (b.has kDECSHORT || b.has kDECLONG) && b.tag == c)
  if i < l.length then some i else none

/-- The missing pictures of a reference picture set are generated (R244). -/
def dpbMissing (k poc : Nat) (rps : List (Nat × Bool)) (s : State) : State :=
  rps.foldl (fun t y =>
    let pool := t.dev.hevPool k
    if (t.dev.dpbOf k y.1).isSome then t
    else
      match t.dev.freeBuf pool with
      | none => t
      | some b =>
        onDev (fun d => post 0x1E07 k poc y.1 (inc64 (Reg.hev_MISSING_REF_COUNT k) d))
          (fwMark pool b 0 (if y.2 then 2 ^ kDECLONG else 2 ^ kDECSHORT) y.1 (fwGenerate pool b t))) s

/-- Why a stream does not accept a picture's parameter set (Table 9.12): 3 for its size, 2 for its chroma or depth, which no
profile up to PROFILE holds. -/
def auReject (d : Dev) (k : Nat) (x : AuPicture) : Option Nat :=
  if d.get (Reg.hev_DEC_MAX_WIDTH k) < x.w ∨ d.get (Reg.hev_DEC_MAX_HEIGHT k) < x.h ∨ x.w < 64 ∨ x.h < 64 ∨ 16888 < x.w ∨
      16888 < x.h ∨ 35651584 < x.w * x.h then some 3
  else if (List.range (d.get (Reg.hev_PROFILE k))).any (fun i =>
      let p := profileOf (i + 1)
      decide (x.coding.depth ≤ p.2) && decide (8 ≤ x.coding.depth) &&
        (x.coding.chroma == p.1 || (decide (2 ≤ i) && decide (x.coding.chroma ≤ p.1)))) then none
  else some 2

/-- A picture found in an access unit: reference pictures, target, and its command queued (Table 9.11 step 2). Without a
FREE buffer it is not decoded. -/
def decQueue (k : Nat) (x : AuPicture) (s : State) : State :=
  let s0 := if x.idr then onDev (setHev k (fun h => { h with epoch := h.epoch + 1 })) s else s
  let s1 := dpbMissing k x.poc x.rps (dpbMarks k x.rps s0)
  let d := s1.dev
  let pool := d.hevPool k
  match d.freeBuf pool with
  | none =>
    { s1 with dev := post 0x1D02 pool (d.pool pool).owner (((d.buf? pool 0).map (·.marks)).getD 0) d }
  | some t =>
    let task : PicTask := { s := k, inp := default, kind := 0, layer := 0, keep := false, poc := x.poc, au := some x, target := t }
    { s1 with dev := setHev k (fun h => { h with busy := true }) ({ d with hevcQ := d.hevcQ ++ [task] }) }

/-- One access unit: what firmware's parse found is logged, and its picture queued (R241, Table 9.12). -/
def decUnit (k : Nat) (au : AccessUnit) (s : State) : State :=
  let d1 := au.sets.foldl (fun d x => post 0x1E09 k x.1 x.2 d) s.dev
  let d2 := au.slices.foldl (fun d x => sliceError k x.1 x.2 d) d1
  match au.picture with
  | some x => (match auReject d2 k x with
    | some r => { s with dev := sliceError k x.poc 1 (post 0x1E09 k 33 r d2) }
    | none => decQueue k x { s with dev := d2 })
  | none => { s with dev := d2 }

/-- Access units that wait are taken while no picture of the stream is under way. -/
def decUnits (k : Nat) : Nat → State → State
  | 0, s => s
  | n + 1, s =>
    let h := s.dev.hev k
    match h.aus with
    | [] => s
    | au :: rest =>
      if h.busy then s
      else decUnits k n (decUnit k au (onDev (setHev k (fun y => { y with aus := rest })) s))

/-- The access units that wait, taken in turn. -/
def decAll (k : Nat) (s : State) : State := decUnits k ((s.dev.hev k).aus.length + 1) s

/-- A decode picture starts (R226). A target that fails its check is not decoded (R227). -/
def decStart (t : PicTask) (x : AuPicture) (rest : List PicTask) (s : State) : State :=
  let d := s.dev
  let k := t.s
  let pool := d.hevPool k
  let refs := x.rps.filterMap (fun y => d.dpbOf k y.1)
  let chk := pictureStart pool t.target refs (fun b => b.has kDECSHORT || b.has kDECLONG || b.has kGENERATED) d
  if chk.1 then
    let run : PicRun := { task := t, target := t.target, refs := chk.2.1, out := 0, count := 0, qp := 0, head := [], slices := []
                          fault := decide (chk.2.1.length < refs.length), source := [], acts := [], pred := 0, began := d.time.raw }
    { s with dev := { chk.2.2 with hevcQ := rest, engine := some run } }
  else
    decAll k { s with dev := setHev k (fun h => { h with busy := false, status := 0x10 }) ({ chk.2.2 with hevcQ := rest }) }

/-- HEVC_PICTURE_START: the idle engine starts the first picture queued (R228, R233). -/
def pictureStartCmd (s : State) : State :=
  if s.dev.engine.isSome then s
  else match s.dev.hevcQ with
    | [] => s
    | t :: rest =>
      match t.au with
      | some x => decStart t x rest s
      | none => onDev (encIssue t.s) (encStart t rest s)

/-- The samples of a CTU written to the target, plane after plane, inside the picture. -/
def writeCtu (p : Pool) (buf w h : Nat) (c : DecCtu) (planes : List (List Nat)) (s : State) : State :=
  (planes.zip p.planes).zipIdx.foldl (fun t y =>
    let pl := y.1.2
    let sx := if y.2 = 0 ∨ p.chroma = 3 then 1 else 2
    let sy := if y.2 ≠ 0 ∧ p.chroma = 1 then 2 else 1
    let cw := c.size / sx
    (List.range (c.size / sy)).foldl (fun u r =>
      let row := c.y / sy + r
      let n := min cw (min (w / sx) pl.2.2.1 - c.x / sx)
      if row < min (h / sy) pl.2.2.2 then
        poundWrite (p.addr buf + pl.1 + row * pl.2.1 + 2 * (c.x / sx)) (((y.1.1.drop (r * cw)).take n).flatMap (leBytes 2)) u
      else u) t) s

/-- The co-located samples of a CTU in buffer `src`, or mid-grey (R243). -/
def ctuFrom (p : Pool) (src : Option Nat) (c : DecCtu) (s : State) : List (List Nat) :=
  p.planes.zipIdx.map (fun y =>
    let sx := if y.2 = 0 ∨ p.chroma = 3 then 1 else 2
    let sy := if y.2 ≠ 0 ∧ p.chroma = 1 then 2 else 1
    (List.range (c.size / sy)).flatMap (fun r => (List.range (c.size / sx)).map (fun q =>
      match src with
      | some b => p.sample b y.2 s (c.y / sy + r) (c.x / sx + q)
      | none => 2 ^ (p.depth - 1))))

/-- The stream's latest decoded picture that still carries DEC_SHORT or DEC_LONG (R243). -/
def Dev.lastRef (d : Dev) (k : Nat) : Option Nat :=
  (d.hev k).recent.find? (fun i => match d.buf? (d.hevPool k) i with
    | some b => b.has kDECSHORT || b.has kDECLONG
    | none => false)

/-- A pool as a picture of another chroma format or depth lies in it. -/
def Pool.coded (p : Pool) (c : Coding) : Pool := { p with chroma := c.chroma, depth := c.depth }

/-- A decode picture ends: its CTUs are written, those not decoded concealed; EV 0x1E05, and the next access unit is
taken (R241 to R243). -/
def decDone (k : Nat) (run : PicRun) (r : DecResult) (s : State) : State :=
  let d := s.dev
  let pool := d.hevPool k
  let x : AuPicture := run.task.au.getD
    { poc := 0, idr := false, shown := false, w := 0, h := 0, ctu := 64, coding := default, rps := [] }
  let p := (d.pool pool).coded x.coding
  let lost := r.ctus.filter (fun c => c.samples.isNone || c.grey)
  let source := fun (c : DecCtu) =>
    if c.grey then none
    else match c.list0 with
      | some poc => d.dpbOf k poc
      | none => d.lastRef k
  let s1 := r.ctus.foldl (fun t c =>
    match c.samples with
    | some l => if c.grey then writeCtu p run.target x.w x.h c (ctuFrom p none c s) t else writeCtu p run.target x.w x.h c l t
    | none => writeCtu p run.target x.w x.h c (ctuFrom p (source c) c s) t) s
  let outside := if r.ctus.any (fun c => decide (x.w ≤ c.x) || decide (x.h ≤ c.y)) then [run.target] else []
  let bounds := (r.bounds ++ outside).eraseDups
  let poison := r.poison || r.errs.contains 5 || r.ctus.any (·.grey)
  let errs := if poison && !r.errs.contains 5 then r.errs ++ [5] else r.errs
  let d1 := boundFaults pool bounds (errs.foldl (fun e y => sliceError k run.task.poc y e) s1.dev)
  let d2 := addW 64 (Reg.hev_CONCEALED_CTUS k) lost.length (inc64 (Reg.hev_PICTURES k)
    (pictureEnd pool run.target run.refs 1 { d1 with engine := none }))
  let d3 := post 0x1E05 k run.task.poc lost.length d2
  let d4 := setHev k (fun h => { h with
    busy := false, last := some (run.task.poc, run.target), recent := run.target :: h.recent.filter (fun b => b != run.target)
    status := flags [(0, true), (1, x.idr), (4, run.fault || !bounds.isEmpty), (5, poison)]
    outQ := if x.shown then
        h.outQ ++ [{ buf := run.target, epoch := h.epoch, poc := run.task.poc, w := x.w, h := x.h, coding := x.coding }]
      else h.outQ }) d3
  let s2 : State := { s1 with dev := d4 }
  decAll k (if x.shown then s2 else fwMark pool run.target (2 ^ kOUTPUT) 0 0 s2)

/-- The next picture of the output process: the earliest IDR period, then the lowest POC (R245). -/
def nextOutput (l : List DecOut) : Option DecOut :=
  l.foldl (fun (a : Option DecOut) x => match a with
    | none => some x
    | some y =>
      if x.epoch < y.epoch ∨ (x.epoch = y.epoch ∧ toInt 32 x.poc < toInt 32 y.poc) then some x else a) none

/-- IDR period and POC of the pictures to be output that are delivered and not yet decoded. -/
def Dev.undecoded (d : Dev) (k : Nat) : List (Nat × Nat) :=
  let h := d.hev k
  let task := fun (t : PicTask) => match t.au with
    | some x => if t.s = k ∧ x.shown then [(h.epoch, x.poc)] else []
    | none => []
  let later := h.aus.foldl (fun (a : Nat × List (Nat × Nat)) u => match u.picture with
    | some x =>
      let e := if x.idr then a.1 + 1 else a.1
      (e, if x.shown then a.2 ++ [(e, x.poc)] else a.2)
    | none => a) (h.epoch, [])
  d.hevcQ.flatMap task ++ (match d.engine with
    | some r => task r.task
    | none => []) ++ later.2

/-- The picture is output before that of IDR period `e` and POC `c`. -/
def DecOut.before (o : DecOut) (e c : Nat) : Bool := decide (o.epoch < e ∨ (o.epoch = e ∧ toInt 32 o.poc < toInt 32 c))

/-- HEVC_OUTPUT_PUBLISH: the picture due is published to the stream's views; when it is not decoded they repeat. Either is
a frame of the source, which encode streams await (R230, R245). -/
def hevcPublish (k : Nat) (s : State) : State :=
  let d := s.dev
  let h := d.hev k
  let n := h.published + 1
  let now := tbNow d
  let wait := fun (e : Dev) => encAwait (0x20 + k) { frame := n, sofTb := now, eofTb := now } (setHev k (fun y => { y with published := n }) e)
  match (nextOutput h.outQ).filter (fun o => (d.undecoded k).all (fun x => o.before x.1 x.2)) with
  | none => { s with dev := (d.viewsOf (0x20 + k)).foldl (fun e v => viewRepeat v e) (wait d) }
  | some o =>
    let p := d.pool (d.hevPool k)
    let m : Mosaic := { base := p.addr o.buf, w := o.w, h := o.h, cfa := 0, fmt := 0, bits := o.coding.depth, readouts := 1
                        shift := 0, packed := false, valid := o.h, coding := o.coding }
    let info : FrameInfo := { (default : FrameInfo) with port := 0xFF, frame := n, sofTb := now, eofTb := now }
    let s1 := onDev (fun e => wait (setHev k (fun y => { y with
      outQ := y.outQ.filter (fun z => z != o), shown := some o.buf, old := y.old ++ y.shown.toList }) e)) s
    sweepHevc k (takeUpDevelop (0x20 + k) 0xFF m info (some o.buf) false s1)

/-! ## Commands -/

/-- HEVC_PICTURE_START (R233). -/
def execHevcPictureStart (s : State) : Host.Outcome State Fault Refusal := .next (pictureStartCmd s)

/-- PICTURE_CODED (R233). -/
def execPictureCoded (k : Fin 8) (r : EncResult) (s : State) : Host.Outcome State Fault Refusal :=
  .next (match s.dev.engine with
    | some run => if run.task.s = k ∧ run.task.au.isNone then encDone k run r s else s
    | none => s)

/-- HEVC_ACCESS_UNIT (R241): taken by a decode stream that runs. -/
def execHevcAccessUnit (k : Fin 8) (au : AccessUnit) (s : State) : Host.Outcome State Fault Refusal :=
  .next (if s.dev.get (Reg.hev_HEVC_MODE k) = 2 ∧ s.dev.runs (.hevc k) then
    decAll k (onDev (setHev k (fun h => { h with aus := h.aus ++ [au] })) s) else s)

/-- PICTURE_DECODED (R241). -/
def execPictureDecoded (k : Fin 8) (r : DecResult) (s : State) : Host.Outcome State Fault Refusal :=
  .next (match s.dev.engine with
    | some run => if run.task.s = k ∧ run.task.au.isSome then decDone k run r s else s
    | none => s)

/-- The watchdog's budget in CLK_FAB cycles: WATCHDOG_MULT × 3,120 CLK_ENG cycles for each 64 × 64 samples of CTUs; four
CLK_ENG cycles are three of CLK_FAB (R242). -/
def Dev.watchdog (d : Dev) (k : Nat) (x : AuPicture) : Nat :=
  let area := ceilDiv x.w (max 1 x.ctu) * ceilDiv x.h (max 1 x.ctu) * x.ctu * x.ctu
  ceilDiv (d.get (Reg.hev_WATCHDOG_MULT k) * 3120 * area * 3) (4096 * 4)

/-- DEC_WATCHDOG (R242): once the budget has passed since the picture's start it is aborted; what was not decoded is
concealed. -/
def execDecWatchdog (k : Fin 8) (r : DecResult) (s : State) : Host.Outcome State Fault Refusal :=
  .next (match s.dev.engine with
    | some run =>
      if run.task.s = k ∧ run.task.au.any (fun x => decide (s.dev.watchdog k x ≤ s.dev.time.raw - run.began)) then
        decDone k run r (onDev (post 0x1E06 k run.task.poc (r.ctus.filter (fun c => c.samples.isSome)).length) s)
      else s
    | none => s)

/-- HEVC_OUTPUT_PUBLISH (R245). -/
def execHevcOutputPublish (k : Fin 8) (s : State) : Host.Outcome State Fault Refusal :=
  .next (if s.dev.get (Reg.hev_HEVC_MODE k) = 2 ∧ s.dev.runs (.hevc k) then hevcPublish k s else s)

/-- A consumer releases an output buffer; it returns to the ring once every consumer has (R246). -/
def outRelease (k i consumer : Nat) (d : Dev) : Dev :=
  setHev k (fun h => { h with outs := h.outs.modify i (fun m => if bit m consumer = 1 then m - 2 ^ consumer else m) }) d

/-- A write of OUT_RELEASE. -/
def writeOutRelease (w : Writer) (k i : Nat) : State → WRes :=
  entryWrite w (Reg.hev_OUT_RELEASE k) (.num i) noRule (fun _ => onDev (outRelease k i 1))

/-- OUT_RELEASE (R246). -/
def execOutRelease (w : Writer) (k : Fin 8) (buf : Nat) (s : State) : Host.Outcome State Fault Refusal :=
  .next (finishWrite s (writeOutRelease w k buf s))

/-- The acceptance rules of an HEVC stream's entries (R228, R239, Table 9.13). -/
def hevRule (s k : Nat) (v : Val) (d : Dev) : Option (Nat × (Dev → Dev)) :=
  match v with
  | .bytes _ => none
  | .num n =>
    if k = Reg.hev_HEVC_MODE s ∧ n = 2 ∧ !d.hasDecode then refuse stREFUSED
    else if k = Reg.hev_QP_MIN s ∧ d.get (Reg.hev_QP_MAX s) < n then refuse stRANGE
    else if k = Reg.hev_QP_MAX s ∧ n < d.get (Reg.hev_QP_MIN s) then refuse stRANGE
    else if k = Reg.hev_LEVEL s ∧ 186 < n then refuse stRANGE
    else if k = Reg.hev_INTRA_PERIOD s ∧ n % max 1 (d.get (Reg.hev_GOP_SIZE s)) ≠ 0 then refuse stRANGE
    else if k = Reg.hev_GOP_SIZE s ∧ d.get (Reg.hev_INTRA_PERIOD s) % max 1 n ≠ 0 then refuse stRANGE
    else none

/-- A write of an HEVC stream's entry. -/
def writeHev (w : Writer) (s k : Nat) (v : Val) : State → WRes :=
  match v with
  | .num n =>
    if k = Reg.hev_OUT_RELEASE s then writeOutRelease w s n
    else entryWrite w k v (fun t => hevRule s k v t.dev) (fun _ => onDev (setV k v))
  | .bytes _ => entryWrite w k v noRule (fun _ => onDev (setV k v))

/-- An encode stream starts: its inputs, GOP and output ring are empty (R230). -/
def hevcStart (k : Nat) (d : Dev) : Dev :=
  setHev k (fun h => { h with
    awaits := [], inputs := [], planned := [], rates := [], unread := [], hrd := none, taken := 0, base := 0, pocBase := 0, anchor := none, irap := true
    pubMark := (d.view (d.get (Reg.hev_VIEW k))).pubs, count := 0
    ring := List.replicate (d.get (Reg.hev_INPUT_SLOTS k)) false, outs := List.replicate (d.get (Reg.hev_OUT_BUFFERS k)) 0
    proxy := [], aus := [], outQ := [], epoch := 0, last := none, recent := [], status := 0, busy := false, published := 0, shown := none, old := [] }) d

/-- A stream's pictures are all coded or decoded: nothing of it waits, is queued or is in the engine. -/
def Dev.hevcIdle (d : Dev) (k : Nat) : Bool :=
  (d.hev k).inputs.isEmpty && (d.hev k).planned.isEmpty && !(d.hevcQ.any (fun t => t.s == k)) && (match d.engine with
    | some r => r.task.s != k
    | none => true)

/-- Bytes of an end-of-bitstream NAL unit in Annex B form (R240). -/
def endOfBitstream : List Byte := [0, 0, 0, 1, 0x4A, 0x01]

/-- The end of a stream's shut-down (R240): an end-of-bitstream NAL unit is appended to the last access unit of an encode
stream, and every mark of its pool is cleared. -/
def hevcStop (k : Nat) (s : State) : State :=
  let d := s.dev
  let h := d.hev k
  let pool := d.hevPool k
  let s1 :=
    if d.get (Reg.hev_HEVC_MODE k) = 1 ∧ 0 < h.count then
      let last := (List.range h.outs.length).find? (fun i =>
        rdLe (poundRead (d.encOutAddr k i) 64 s).1 0x18 4 == h.count - 1 && h.outs.getD i 0 != 0)
      match last with
      | some i =>
        let a := d.encOutAddr k i
        let n := rdLe (poundRead a 64 s).1 0x28 4
        if n + endOfBitstream.length ≤ d.encCapacity k then
          poundWrite (a + 0x28) (leBytes 4 (n + endOfBitstream.length)) (poundWrite (a + 64 + n) endOfBitstream s)
        else s
      | none => s
    else s
  if (d.pool pool).owner = 0x20 + k ∧ (d.pool pool).bufs ≠ [] then
    poolCmd { op := 3, pool := pool, buf := 0, set := 0, clear := 0, tag := 0, arg := 0 } s1
  else s1

end Sys2Proof.Machine
end

