-- ==== Sys2Proof/Machine/Sdi.lean ====
section
/-! DEFINITION. SDI (R251, R255, R257; SMPTE ST 292-1, 425-1, 425-5, 2081-1, 2082-1, 2082-12, 352, 12-2): the words of a frame
on one link, and their serial form. What the standards and not the manual lay down is assumption 211. -/

namespace Sys2Proof.Machine

/-! ## Words -/

/-- Bit 9 is the complement of bit 8. -/
def inv8 (v : Nat) : Nat := v % 512 + 512 * (1 - bit v 8)

/-- A byte with even parity in bit 8 and its complement in bit 9. -/
def parityWord (v : Nat) : Nat := inv8 (v % 256 + 256 * (sumN ((List.range 8).map (fun i => bit v i)) % 2))

/-- CRC-18, x^18 + x^5 + x^4 + 1, over 10-bit words, least significant bit first. -/
def crc18 (words : List Nat) : Nat :=
  words.foldl (fun c w => (List.range 10).foldl (fun c i =>
    if (bit c 0 + bit w i) % 2 = 1 then Nat.xor (c / 2) 0x23000 else c / 2) c) 0

/-- XYZ of a progressive line: V, and H = 1 for EAV. -/
def xyzWord (v h : Nat) : Nat :=
  512 + 128 * v + 64 * h + 32 * ((v + h) % 2) + 16 * h + 8 * v + 4 * ((v + h) % 2)

/-- An ancillary packet: flag, DID, SDID, count, words, checksum. -/
def ancPacket (did sdid : Nat) (udw : List Nat) : List Nat :=
  let body := parityWord did :: parityWord sdid :: parityWord udw.length :: udw
  [0, 0x3FF, 0x3FF] ++ body ++ [inv8 (sumN (body.map (· % 512)) % 512)]

/-- The ST 352 payload ID of a link: progressive at the rate code, 4:2:2 or 4:4:4, 10 or 12 bits, and the link's number. -/
def payloadId (mode rate packing link : Nat) : List Nat :=
  let byte1 := if mode = 1 then 0x89 else if mode = 2 then 0xC0 else if mode = 3 then 0xCE else Config.quadPayload % 256
  let pic := ([2, 3, 5, 6, 7, 9, 10, 11] : List Nat).getD rate 0
  ancPacket 0x41 0x01 ([byte1, 0xC0 + pic, if packing = 2 then 2 else 0, 64 * link + (if packing = 2 then 2 else 1)].map parityWord)

/-- An ST 12-2 packet of a time code, user bits zero: frames, seconds, minutes and hours, units and tens, each a nibble in
bits 7 to 4. `kind` is DBB1: 0 for ATC_LTC, 1 for ATC_VITC. -/
def atcPacket (kind tc : Nat) : List Nat :=
  let nibble := fun (i : Nat) => if i % 2 = 0 then tc / 16 ^ (i / 2) % 16 else 0
  ancPacket 0x60 0x60 ((List.range 16).map (fun i => parityWord (16 * nibble i + 8 * (if i < 8 then bit kind i else 0))))

/-! ## Lines -/

/-- The parameters of a stream: words a line, active words a line, the blanking word, and the packets of lines 9 and 10. -/
structure SdiStream where
  total : Nat
  active : Nat
  blank : Nat
  vitc : List Nat
  ltc : List Nat

/-- The active words of line `n`: lines 42 to 1121 carry the picture's rows. -/
def SdiStream.words (x : SdiStream) (row : Nat → List Nat) (n : Nat) : List Nat :=
  if 42 ≤ n ∧ n ≤ 1121 then row (n - 42) else List.replicate x.active x.blank

/-- A line: EAV, line number, the CRC of the words since the last SAV, the ancillary space, SAV and the active words. -/
def SdiStream.line (x : SdiStream) (row : Nat → List Nat) (n : Nat) : List Nat :=
  let v := if 42 ≤ n ∧ n ≤ 1121 then 0 else 1
  let head := [0x3FF, 0, 0, xyzWord v 1, inv8 (n % 128 * 4), 512 + n / 128 % 16 * 4]
  let c := crc18 (x.words row (if n = 1 then 1125 else n - 1) ++ head)
  let anc := if n = 9 then x.vitc else if n = 10 then x.ltc else []
  let room := x.total - x.active - 12
  head ++ [inv8 (c % 512), inv8 (c / 512)] ++ (anc ++ List.replicate (room - anc.length) x.blank).take room ++
    [0x3FF, 0, 0, xyzWord v 0] ++ x.words row n

/-- Sub-image `i` of the two-sample interleave: of each four samples two, of each two rows one (ST 425-5). `f` gives the
words of a pair of pixels by its column and row. -/
def subImage (i : Nat) (f : Nat → Nat → List Nat) (x y : Nat) : List Nat := f (2 * x + i % 2) (2 * y + i / 2)

/-- The two streams of a sub-image's row of `pairs` pixel pairs: luma and chroma of 4:2:2, or the two halves of 12-bit
4:4:4, of whose three samples each word takes three bits (ST 425-1). -/
def streamRow (rgb : Bool) (pairs : Nat) (f : Nat → Nat → List Nat) (second : Bool) (y : Nat) : List Nat :=
  (List.range pairs).flatMap (fun x =>
    let p := f x y
    if rgb then
      [0, 3].flatMap (fun k => (if second then [6, 0] else [9, 3]).map (fun lo =>
        inv8 (nth p k / 2 ^ lo % 8 * 64 + nth p (k + 1) / 2 ^ lo % 8 * 8 + nth p (k + 2) / 2 ^ lo % 8)))
    else if second then [nth p 0, nth p 2] else [nth p 1, nth p 3])

/-- Words of several streams in turn, one of each. -/
def interleave (l : List (List Nat)) : List Nat :=
  let a := l.map (·.toArray)
  (List.range ((l.map (·.length)).foldl max 0)).flatMap (fun i => a.map (fun s => s.getD i 0))

/-- The order in which the eight streams of 6G and 12G are sent, by sub-image and half. -/
def streamOrder : List (Nat × Bool) :=
  [(3, true), (1, true), (2, true), (0, true), (3, false), (1, false), (2, false), (0, false)]

/-- The words of a frame on a link, w pixels wide at the link: one image in 3G, four sub-images in 6G and 12G. `id` and `tc`
fill the ancillary packets of each luma stream. -/
def sdiWords (mode rate packing w link tc : Nat) (f : Nat → Nat → List Nat) : List Nat :=
  let fps := ([24, 24, 25, 30, 30, 50, 60, 60] : List Nat).getD rate 60
  let rgb := packing == 2
  let subs := if mode = 1 then 1 else 4
  let sw := if mode = 1 then w else w / 2
  let stream := fun (second : Bool) =>
    { total := (if mode = 2 then 74250000 else 148500000) / (1125 * fps), active := if rgb then 2 * sw else sw
      blank := if second then 0x200 else 0x40, vitc := if second then [] else atcPacket 1 tc
      ltc := if second then [] else payloadId mode rate packing link ++ atcPacket 0 tc : SdiStream }
  let lines := fun (i : Nat) (second : Bool) =>
    let g := if subs = 1 then f else subImage i f
    fun (n : Nat) => (stream second).line (streamRow rgb (sw / 2) g second) n
  (List.range' 1 1125).flatMap (fun n =>
    interleave (if subs = 1 then [lines 0 true n, lines 0 false n] else streamOrder.map (fun x => lines x.1 x.2 n)))

/-! ## Serial form -/

/-- A bit through the scrambler x^9 + x^4 + 1 and NRZI: `r` holds the nine scrambled bits before, the latest in bit 0, and the
line's level in bit 9. -/
def sdiBit (r b : Nat) : Nat :=
  let s := (b + bit r 3 + bit r 8) % 2
  (2 * r + s) % 512 + 512 * ((bit r 9 + s) % 2)

/-- The levels of a run of words, least significant bit first, packed eight to a byte from bit 0; and the register after
them. -/
def sdiSerial (r0 : Nat) (words : List Nat) : Nat × List Byte :=
  let r := words.foldl (fun (a : Nat × List Nat) w => (List.range 10).foldl (fun a i =>
    let r := sdiBit a.1 (bit w i)
    (r, bit r 9 :: a.2)) a) (r0, [])
  let l := r.2.reverse.toArray
  (r.1, (List.range (ceilDiv l.size 8)).map (fun i =>
    BitVec.ofNat 8 (sumN ((List.range 8).map (fun j => l.getD (8 * i + j) 0 * 2 ^ j)))))

/-- A pair of pixels of a view buffer (Table 7.3). -/
def bufferPair (packing addr w : Nat) (s : State) (x y : Nat) : List Nat :=
  let n := if packing ≤ 1 then 4 else 6
  let b := (poundRead (addr + y * viewPitch packing w + x * 2 * n) (2 * n) s).1
  (List.range n).map (fun k => rdLe b (2 * k) 2)

/-- A pair of black pixels: Y′ 64, Cb and Cr 512 at 10 bits, or 256 at 12 bits in 4:4:4 (R255). -/
def blackPair (packing : Nat) (_ _ : Nat) : List Nat := if packing = 2 then List.replicate 6 256 else [512, 64, 512, 64]

end Sys2Proof.Machine
end

