-- ==== Sys2Proof/Machine/OutputOps.lean ====
section
/-! DEFINITION. Video outputs and the finder link (R249 to R261). -/

namespace Sys2Proof.Machine

/-! ## Frame timing -/

/-- ALIGN of a rate: the latest TB, not later than now, at which PTP time is a whole number of frame periods and of
seconds (R252). -/
def Dev.alignFor (d : Dev) (rate : Nat) : Nat :=
  let step := (rateOf rate).2 * 1000000000
  ptpNs (d.get Reg.tb_TB_EPOCH) (tbNow d) / step * step * 65536 % 2 ^ 64

/-- T_k − ALIGN (R252). -/
def frameOffset (rate k : Nat) : Nat := k * (rateOf rate).2 * 65536000000000 / (rateOf rate).1

/-- T_k. -/
def Dev.frameTime (d : Dev) (rate k : Nat) : Nat := (d.align.getD rate 0 + frameOffset rate k) % 2 ^ 64

/-- The latest k whose T_k is not after now. -/
def Dev.frameIndex (d : Dev) (rate : Nat) : Nat :=
  let diff := (tbNow d + 2 ^ 64 - d.align.getD rate 0) % 2 ^ 64
  let r := rateOf rate
  ((diff + 1) * r.1 - 1) / (r.2 * 65536000000000)

/-- Output `n`. -/
def Dev.output (d : Dev) (n : Nat) : Output := nth d.outs n

/-- An output changed. -/
def setOutp (n : Nat) (f : Output → Output) (d : Dev) : Dev := { d with outs := updAt n f d.outs }

/-- Firmware computes ALIGN for every rate (R252, R409); the frame in progress of each output takes the number it has by the
new ALIGN. -/
def realign (d : Dev) : Dev :=
  let e : Dev := { d with align := (List.range 8).map d.alignFor }
  { e with outs := e.outs.mapIdx (fun n x => { x with k := x.k.map (fun _ => e.frameIndex (d.get (Reg.out_OUT_RATE n))) }) }

/-- The outputs that run. -/
def Dev.outsOn (d : Dev) : List Nat := (List.range 8).filter (fun n => d.runs (.out (Fin.ofNat 8 n)))

/-- A bit of OUT_STATUS. -/
def outStatus (n i : Nat) (b : Bool) (d : Dev) : Dev := setN (Reg.out_OUT_STATUS n) (setBit (d.get (Reg.out_OUT_STATUS n)) i b) d

/-- GENLOCK_STATUS and GENLOCK_ERROR_NS after output `n` has measured its error, with EV 0x2002 at a change (R253). -/
def genlock (n : Nat) (d : Dev) : Dev :=
  let on := d.outsOn
  let worst := on.foldl (fun (a : Int) m => if a.natAbs < (d.output m).error.natAbs then (d.output m).error else a) 0
  let st := if d.get Reg.tb_TB_STATE ≠ 2 ∨ on = [] then 0 else if on.all (fun m => decide (16 ≤ (d.output m).good)) then 2 else 1
  let old := d.get Reg.gen_GENLOCK_STATUS
  let d1 := outStatus n 1 (decide (d.get Reg.tb_TB_STATE = 2) && decide (16 ≤ (d.output n).good))
    (setN Reg.gen_GENLOCK_ERROR_NS (satI32 worst) d)
  if st = old then d1 else post 0x2002 n st old (setN Reg.gen_GENLOCK_STATUS st d1)

/-- Without PTP lock GENLOCK_STATUS reads FREE (R252). -/
def genlockFree (d : Dev) : Dev :=
  let old := d.get Reg.gen_GENLOCK_STATUS
  let d1 := d.outsOn.foldl (fun e n => outStatus n 1 false e) d
  if old = 0 then d1 else post 0x2002 0xFFFF 0 old (setN Reg.gen_GENLOCK_STATUS 0 d1)

/-! ## The finder link -/

/-- A packet of the finder link: idle, K27.7, TYPE, LEN, payload, CRC-32C, K29.7 (R258). -/
def finderPacket (ty : Nat) (payload : List Byte) : List Octet :=
  let body := leBytes 1 ty ++ leBytes 2 payload.length ++ payload
  .idle :: framed (body ++ leBytes 4 (crc32c body))

/-- The pixel data of a pair: Cb, Y0, Cr, Y1 (R259). -/
def finderPair (fmt : Nat) (v : List Nat) : List Byte :=
  if fmt = 0 then beBytes 5 (v.foldl (fun a x => a * 1024 + x % 1024) 0)
  else v.flatMap (fun x => leBytes 1 (min 255 ((x + 2) / 4)))

/-- The LINE packet and the PIXELS packets of line `y` of a view buffer (R259). -/
def finderLine (fmt addr w y : Nat) (s : State) : List Octet :=
  let n := ceilDiv w 1024
  let each := 2 * ceilDiv w (2 * max 1 n)
  let row := addr + y * viewPitch 0 w
  finderPacket 2 (leBytes 2 y ++ leBytes 2 n) ++
  (List.range n).flatMap (fun i =>
    let x0 := i * each
    let cnt := min each (w - x0)
    finderPacket 3 (leBytes 2 x0 ++ leBytes 2 cnt ++ (List.range (cnt / 2)).flatMap (fun j =>
      let b := (poundRead (row + (x0 / 2 + j) * 8) 8 s).1
      finderPair fmt ((List.range 4).map (fun k => rdLe b (2 * k) 2)))))

/-- A finder frame (R259); without a source, FRAME_START with NO_SOURCE and FRAME_END (R255). -/
def finderFrame (fmt frame tb w h tc k : Nat) (rep : Bool) (addr : Option Nat) (s : State) : List Octet :=
  let fl := (if rep then 1 else 0) + (if addr.isNone then 2 else 0)
  finderPacket 1 (leBytes 8 frame ++ leBytes 8 tb ++ leBytes 2 w ++ leBytes 2 h ++ leBytes 1 fmt ++ leBytes 1 fl ++ zeros 2 ++
    leBytes 4 tc ++ leBytes 4 k) ++
  (match addr with
   | some a => (List.range h).flatMap (fun y => finderLine fmt a w y s)
   | none => []) ++
  finderPacket 4 (leBytes 4 k ++ leBytes 2 (if addr.isSome then h else 0) ++ zeros 2)

/-! ## Frames -/

/-- The buffer an output reads is released (R254). -/
def outReleaseBuf (n : Nat) (d : Dev) : Dev :=
  match (d.output n).reading with
  | some i =>
    setOutp n (fun x => { x with reading := none })
      (setViewBuf (d.get (Reg.out_OUT_VIEW n)) i (fun b => { b with readers := b.readers - 1 }) d)
  | none => d

/-- The buffer and the number of the publication that a frame latches now: one that completes in this very cycle waits for
the next frame (R254). -/
def Dev.latched (d : Dev) (v : Nat) : Option (Nat × Nat) :=
  let x := d.view v
  if x.pubRaw = some d.time.raw then x.prev else x.latest.map (fun i => (i, x.pubs))

/-- EV 0x2003 for a jump: once for all lanes of the rate that jump in the same cycle. -/
def jump (n : Nat) (err : Int) (d : Dev) : Dev :=
  let rate := d.get (Reg.out_OUT_RATE n)
  let told := d.outsOn.any (fun m => m != n && d.get (Reg.out_OUT_RATE m) == rate && (d.output m).jumpRaw == some d.time.raw)
  let d1 := setOutp n (fun x => { x with error := err, jumpRaw := some d.time.raw }) d
  if told then d1 else post 0x2003 0xFFFF (satI32 err) rate d1

/-- The frame index and error with which a frame starts now; a jump is logged (R253). -/
def outTiming (n : Nat) (d : Dev) : Nat × Dev :=
  let rate := d.get (Reg.out_OUT_RATE n)
  let now := tbNow d
  let near := d.frameIndex rate
  match (d.output n).k with
  | none => (near, setOutp n (fun x => { x with error := tbDiff now (d.frameTime rate near) / 65536 }) d)
  | some k =>
    let err := tbDiff now (d.frameTime rate (k + 1)) / 65536
    if (d.get Reg.gen_GENLOCK_SLEW_NS : Int) ≤ err.natAbs then
      (near, jump n err d)
    else (k + 1, setOutp n (fun x => { x with error := err }) d)

/-- A finder frame sent: its octets as 8b/10b code groups. -/
def sendFinder (n : Nat) (info : List Nat) (l : List Octet) (d : Dev) : Dev :=
  let rd := (d.output n).rd
  setOutp n (fun x => { x with rd := disparityAfter l rd }) (emit OutKind.finder n (info ++ codeGroups l rd) [] d)

/-- An SDI frame sent: each link's words in serial form; quad-link divides the picture among the lane and the three that
follow it (R249, R251). `pair` gives the words of a pair of pixels. -/
def sendSdi (n : Nat) (info : List Nat) (tc : Nat) (pair : Nat → Nat → List Nat) (d : Dev) : Dev :=
  let mode := d.get (Reg.out_OUT_MODE n)
  let v := d.get (Reg.out_OUT_VIEW n)
  let w := (d.viewGeom v).outW
  let links := if mode = 4 then 4 else 1
  (List.range links).foldl (fun e i =>
    let r := sdiSerial (e.output (n + i)).sdi (sdiWords mode (d.get (Reg.out_OUT_RATE n)) (d.get (Reg.view_PACKING v))
      (w / (if mode = 4 then 2 else 1)) i tc (if mode = 4 then subImage i pair else pair))
    setOutp (n + i) (fun x => { x with sdi := r.1 }) (emit OutKind.video (n + i) info r.2 e)) d

/-- The time code that a frame carries, and in SDI with the drop-frame flag of ST 12-1. -/
def Dev.frameCode (d : Dev) (n rate tb : Nat) : Nat :=
  d.timeCodeAt rate tb + (if d.get (Reg.out_OUT_MODE n) ≠ 6 ∧ (rate = 3 ∨ rate = 6) then 0x40 else 0)

/-- An output starts a frame (R254, R255): it latches the view's latest published buffer, or sends black. -/
def outputFrame (n : Nat) (s : State) : State :=
  let d0 := outReleaseBuf n s.dev
  let t := outTiming n d0
  let k := t.1
  let d1 := genlock n (setOutp n (fun x => { x with
    k := some k, sending := true, good := if x.error.natAbs ≤ 10 then x.good + 1 else 0 }) t.2)
  let v := d1.get (Reg.out_OUT_VIEW n)
  let vw := d1.view v
  let o := d1.output n
  let finder := d1.get (Reg.out_OUT_MODE n) == 6
  let fmt := d1.get (Reg.out_FL_FORMAT n)
  let g := d1.viewGeom v
  let packing := d1.get (Reg.view_PACKING v)
  let rate := d1.get (Reg.out_OUT_RATE n)
  let tcRate := if d1.get (Reg.out_TC_SOURCE n) = 1 then rate else d1.get Reg.tc_TC_RATE
  match (if d1.viewRuns v then (d1.latched v).filter (fun x => decide (o.base < x.2)) else none) with
  | none =>
    let d2 := if o.black then d1 else post 0x2001 n v 0 d1
    let d3 := inc64 (Reg.out_OUT_FRAMES n) (outStatus n 2 true (setOutp n (fun x => { x with black := true, pub := none }) d2))
    let tc := d3.frameCode n tcRate (d3.frameTime rate k)
    onDev (if finder then sendFinder n [k] (finderFrame fmt 0 0 g.outW g.outH tc k false none s)
      else sendSdi n [k, 1, v, tc] tc (blackPair packing)) { s with dev := d3 }
  | some (i, pub) =>
    let b := vw.bufs.getD i default
    let rep := o.pub == some pub
    let skips := if pub ≤ o.seen then 0 else pub - o.seen - 1
    let d2 := setViewBuf v i (fun x => { x with readers := x.readers + 1 }) d1
    let d3 := setOutp n (fun x => { x with reading := some i, pub := some pub, seen := max x.seen pub, black := false }) d2
    let d4 := addW 64 (Reg.out_OUT_SKIPS n) skips (if rep then inc64 (Reg.out_OUT_REPEATS n) d3 else d3)
    let d5 := inc64 (Reg.out_OUT_FRAMES n) (outStatus n 2 false d4)
    let tc := d5.frameCode n tcRate (if d5.get (Reg.out_TC_SOURCE n) = 1 then d5.frameTime rate k else b.sofTb)
    let addr := d5.viewAddr v i
    onDev (if finder then sendFinder n [k] (finderFrame fmt b.frame b.sofTb g.outW g.outH tc k rep (some addr) s)
      else sendSdi n [k, 0, v, tc] tc (bufferPair packing addr g.outW s)) { s with dev := d5 }

/-- An output starts: it has sent nothing, and counts publications from here on. -/
def outputStart (n : Nat) (d : Dev) : Dev :=
  let v := d.get (Reg.out_OUT_VIEW n)
  let p := (d.view v).pubs
  let d1 := if d.outsOn = [] ∨ d.align = [] then realign d else d
  outStatus n 0 true (setOutp n (fun x => { x with
    k := none, reading := none, pub := none, seen := p, base := p, black := false, sending := false, good := 0, error := 0
    jumpRaw := none }) d1)

/-- An output stops. -/
def outputStop (n : Nat) (d : Dev) : Dev :=
  outStatus n 2 false (outStatus n 1 false (outStatus n 0 false (outReleaseBuf n d)))

/-! ## The back channel -/

/-- A valid message at the head of some bytes: TYPE and payload, and the bytes after it; `bad` when it is whole and its
length or CRC is wrong (R261). -/
inductive Message where
  | short
  | bad
  | good (body : List Byte) (rest : List Byte)

/-- The message that begins at an 0xA5. -/
def readMessage (b : List Byte) : Message :=
  let len := rdLe b 2 1
  if b.length < 3 then Message.short
  else if 32 < len then .bad
  else if b.length < 5 + len then .short
  else
    let body := sliceB b 1 (2 + len)
    if crc16 body = rdLe b (3 + len) 2 then .good body (b.drop (5 + len)) else .bad

/-- The messages in received bytes: each valid one is stored and logged; after a bad one the search resumes at the next
0xA5; a message that is not whole waits for more bytes (R261). -/
def finderBytes (n : Nat) : Nat → List Byte → Dev → Dev
  | 0, _, d => d
  | f + 1, b, d =>
    match b.dropWhile (fun x => x != 0xA5) with
    | [] => d
    | m =>
      match readMessage m with
      | .short => setOutp n (fun x => { x with rx := m }) d
      | .bad => finderBytes n f (m.drop 1) (inc32 (Reg.out_FL_RX_ERRORS n) d)
      | .good body rest =>
        finderBytes n f rest (post 0x2005 n (rdLe body 0 1 * 256 + rdLe body 1 1) (rdLe body 2 4)
          (setB (Reg.out_FL_RX_LAST n) body d))

/-! ## Commands -/

/-- OUTPUT_FRAME_START (R254): an output that runs in a mode that sends frames. -/
def execOutputFrameStart (n : Fin 8) (s : State) : Host.Outcome State Fault Refusal :=
  let m := s.dev.get (Reg.out_OUT_MODE n)
  .next (if s.dev.runs (.out n) ∧ m ≠ 0 ∧ m ≠ 5 then outputFrame n s else s)

/-- LAST_ACTIVE_LINE_SENT (R254, R256): the latched buffer is no longer read, and the frame is sent to its end. -/
def execLastActiveLineSent (n : Fin 8) (s : State) : Host.Outcome State Fault Refusal :=
  .next (onDev (fun d => setOutp n (fun x => { x with sending := false }) (outReleaseBuf n d)) s)

/-- FINDER_MSG (R261): bytes received on the back channel; a framing error discards them and counts. -/
def execFinderMsg (n : Fin 8) (bytes : List Byte) (framing : Bool) (s : State) : Host.Outcome State Fault Refusal :=
  .next (if s.dev.get (Reg.out_OUT_MODE n) ≠ 6 ∨ s.dev.get (Reg.out_FL_BC_PINS n) % 256 = 0xFF then s
    else if framing then onDev (fun d => inc32 (Reg.out_FL_RX_ERRORS n) (setOutp n (fun x => { x with rx := [] }) d)) s
    else onDev (fun d =>
      let b := (d.output n).rx ++ bytes
      finderBytes n (b.length + 1) b (setOutp n (fun x => { x with rx := [] }) d)) s)

/-- FINDER_PRESENT (R261). -/
def execFinderPresent (n : Fin 8) (present : Bool) (s : State) : Host.Outcome State Fault Refusal :=
  .next (if (s.dev.output n).present = present ∨ s.dev.get (Reg.out_FL_BC_PINS n) / 256 = 0xFF then s
    else onDev (fun d => post 0x2004 n (b2n present) 0 (setOutp n (fun x => { x with present := present }) d)) s)

/-- A pin of FL_BC_PINS: GP_00 to GP_47, or none. -/
def bcPinOk (n : Nat) : Bool := decide (n < 48) || n == 0xFF

/-- The acceptance rules of an output's entries: quad-link on VO0 and VO4 only, a member's mode is read only (R249). -/
def outRule (n k v : Nat) (d : Dev) : Option (Nat × (Dev → Dev)) :=
  if k = Reg.out_OUT_MODE n then
    (if d.get k = 5 ∨ v = 5 ∨ (v = 4 ∧ n % 4 ≠ 0) then refuse stRANGE else none)
  else if k = Reg.out_FL_BC_PINS n ∧ !(bcPinOk (v % 256) && bcPinOk (v / 256)) then refuse stRANGE
  else none

/-- The members of each quad-link read 0x05, and no other lane does: after a load of stored settings (R249). -/
def quadMembers (d : Dev) : Dev :=
  [0, 4].foldl (fun e n => [1, 2, 3].foldl (fun e i =>
    let k := Reg.out_OUT_MODE (n + i)
    if e.get (Reg.out_OUT_MODE n) = 4 then setN k 5 e else if e.get k = 5 then setN k 0 e else e) e) d

/-- A write of an output's entry. -/
def writeOut (w : Writer) (n k : Nat) (v : Val) : State → WRes :=
  match v with
  | .num x =>
    entryWrite w k v (fun s => outRule n k x s.dev) (fun _ => onDev (fun d =>
      if k = Reg.out_OUT_MODE n then quadMembers (setV k v d) else setV k v d))
  | .bytes _ => entryWrite w k v noRule (fun _ => onDev (setV k v))

end Sys2Proof.Machine
end

