-- ==== Sys2Proof/Machine/UnitStop.lean ====
section
/-! DEFINITION. The units with a shut-down sequence (R27): their enable entries, the modes in which each runs (Table 2.2), and
how a shut-down begins. -/

namespace Sys2Proof

/-- The unit's enable entry. -/
def UnitId.entry : UnitId → Nat
  | .port p => Machine.Reg.sen_PORT_ENABLE p
  | .cluster _ => Machine.Reg.job_CLUSTER_ENABLE
  | .view v => Machine.Reg.view_VIEW_ENABLE v
  | .mag p => Machine.Reg.mag_MAG_ENABLE p
  | .hevc s => Machine.Reg.hev_HEVC_ENABLE s
  | .out n => Machine.Reg.out_OUT_ENABLE n
  | .eth p => Machine.Reg.eth_ETH_ENABLE p
  | .bank _ => Machine.Reg.stb_STROBE_ENABLE

/-- The unit's number among its kind. -/
def UnitId.num : UnitId → Nat
  | .port p => p
  | .cluster c => c
  | .view v => v
  | .mag p => p
  | .hevc s => s
  | .out n => n
  | .eth p => p
  | .bank k => k

/-- The enable is one bit of a mask. -/
def UnitId.masked : UnitId → Bool
  | .cluster _ => true
  | .bank _ => true
  | _ => false

end Sys2Proof

namespace Sys2Proof.Machine

/-- The unit is stopped: what it had may be allocated anew. -/
def Dev.idle (d : Dev) (u : UnitId) : Bool := decide ((d.unit u).phase = .off)

/-- The enabled ports of the ordering code. -/
def Dev.enabledPorts (d : Dev) : List Nat := (List.range d.nPorts).filter (fun p => d.flag (Reg.sen_PORT_ENABLE p))

/-- The enabled ports that capture for themselves or lead a gang. -/
def Dev.leads (d : Dev) : List Nat := d.enabledPorts.filter (fun p => d.lead p == p)

/-! ## The modes in which units run (Table 2.2) -/

/-- The streams that code in a mode: Amtan streams in mode 0x01 of enabled ports where CODE runs (Table 2.2). -/
def Dev.codeStreams (d : Dev) (mode : Nat) : List Nat :=
  if mode = mRECORD ∨ mode = mSCAN ∨ mode = mOFFLOAD then
    (List.range 8).filter (fun s => d.get (Reg.amt_STREAM_MODE s) == 1 && d.leads.contains (d.get (Reg.amt_STREAM_PORT s)))
  else []

/-- The streams that decode in a mode. -/
def Dev.decodeStreams (d : Dev) (mode : Nat) : List Nat :=
  if mode = mPLAYBACK then (List.range 8).filter (fun s => d.get (Reg.amt_STREAM_MODE s) == 2) else []

/-- The enabled HEVC streams that a mode runs: encode in the modes of Table 2.2, decode in PLAYBACK where the ordering code
has it (R2). -/
def Dev.hevcStreams (d : Dev) (mode : Nat) : List Nat :=
  (List.range 8).filter (fun s => d.flag (Reg.hev_HEVC_ENABLE s) &&
    ((d.get (Reg.hev_HEVC_MODE s) == 1 && (mode == mPREVIEW || mode == mRECORD || mode == mBURST || mode == mSCAN || mode == mPLAYBACK)) ||
     (d.get (Reg.hev_HEVC_MODE s) == 2 && mode == mPLAYBACK && d.hasDecode)))

/-- The unit is enabled in its entry. -/
def Dev.wants (d : Dev) (u : UnitId) : Bool :=
  if u.masked then bit (d.get u.entry) u.num == 1 else d.flag u.entry

/-- The unit is provided by the ordering code. -/
def Dev.provides (d : Dev) : UnitId → Bool
  | .port p => decide (p.val < d.nPorts)
  | .cluster c => decide (c.val < d.nClusters)
  | .mag p => decide (p.val < d.nMags)
  | .bank _ => d.hasScan
  | _ => true

/-- Table 2.2: the mode lets the unit run when it is enabled. In SERVICE a strobe bank runs only under test controls, of
which the manual gives it none. -/
def Dev.modeRuns (d : Dev) (mode : Nat) : UnitId → Bool
  | .port p => captureMode mode && (d.intake p).hasRing
  | .cluster _ => mode != mTHERMAL && mode != 0
  | .view _ => captureMode mode || mode == mOFFLOAD || mode == mPLAYBACK
  | .mag _ => mode != mTHERMAL && mode != 0
  | .hevc s => (d.hevcStreams mode).contains s.val &&
      (List.range 8).any (fun k => (d.pool k).owner == 0x20 + s.val && !(d.pool k).bufs.isEmpty)
  | .out _ => captureMode mode || mode == mPLAYBACK
  | .eth _ => mode != 0
  | .bank _ => mode == mSCAN || mode == mCALIBRATE

/-! ## Shut-downs -/

/-- A unit's shut-down begins: it takes nothing new (R27, R71, R153, R240). `ref` is the event that records what asks for it,
where one does. -/
def unitStop (u : UnitId) (ref : Option Nat) (d : Dev) : Dev :=
  let d1 := setUnit u { phase := .stopping, pendingDisable := false, deferred := none } d
  match u with
  | .port p => rxGo p (d1.rxWanted (if captureMode d1.aim then mCONFIGURE else d1.aim) p) ref
      (setItk p (fun x => { x with run := if x.run = 1 then 2 else x.run }) d1)
  | .hevc s => if d1.get (Reg.hev_HEVC_MODE s) = 1 then encPlanRest s d1 else d1
  | _ => d1

/-- A disable arrives (R28, R29). -/
def unitDisable (u : UnitId) (ref : Option Nat) (d : Dev) : Dev :=
  let x := d.unit u
  match x.phase with
  | .off => d
  | .starting => if x.pendingDisable then setUnit u { x with deferred := none } d else setUnit u { x with pendingDisable := true } d
  | .running => unitStop u ref d
  | .stopping => setUnit u { x with deferred := none } d

/-- Every unit that is of one of the kinds of R27. -/
def allUnits : List UnitId :=
  (List.finRange 4).map .port ++ (List.finRange 8).map .cluster ++ (List.finRange 4).map .view ++ (List.finRange 4).map .mag ++
    (List.finRange 8).map .hevc ++ (List.finRange 8).map .out ++ (List.finRange 2).map .eth ++ (List.finRange 8).map .bank

/-- Units of a kind that the target does not run begin their shut-down (R39). -/
def stopUnits (dst ref : Nat) (d : Dev) : Dev :=
  allUnits.foldl (fun e u => if e.modeRuns dst u then e else unitDisable u (some ref) e) d

/-- The receive lanes of ports that the target does not run go to the state in which it holds them (R72). A wake held
behind their shut-down is recorded by the transition's event. -/
def holdLanes (dst ref : Nat) (d : Dev) : Dev :=
  if captureMode dst then d
  else (List.range d.nPorts).foldl (fun e p => rxGo p (e.rxWanted dst p) (some ref) e) d

/-- The shut-downs of a transition begin: its units, then the receive lanes. -/
def beginStops (dst ref : Nat) (d : Dev) : Dev := holdLanes dst ref (stopUnits dst ref d)

end Sys2Proof.Machine
end

