-- ==== Sys2Proof/Machine/Rates.lean ====
section
/-! DEFINITION. The rates that streams and ports are configured for (R89, R228, R246). -/

namespace Sys2Proof.Machine

/-- Segment groups that deliver rows at once (R50). -/
def Dev.rowGroups (d : Dev) (p : Nat) : Nat :=
  if d.stripe p then 1
  else (d.members p).length * d.laneCount p / max 1 (d.get (Reg.sen_SEGMENT_LANES (d.lead p)))

/-- Samples per nanosecond of a port as configured: WIDTH in each group every ROW_PERIOD_NS; none stated with 0. -/
def Dev.pixelRate (d : Dev) (p : Nat) : Rat :=
  let t := d.get (Reg.itk_ROW_PERIOD_NS p)
  if t = 0 then 0 else ((d.get (Reg.itk_WIDTH p) * d.rowGroups p : Nat) : Rat) / ((t : Nat) : Rat)

/-- Frames per nanosecond of a port as configured. -/
def Dev.frameRate (d : Dev) (p : Nat) : Rat :=
  let n := d.get (Reg.itk_WIDTH p) * d.get (Reg.itk_HEIGHT p)
  if n = 0 then 0 else d.pixelRate p / ((n : Nat) : Rat)

/-- Frames per nanosecond of a view source: a port's configured rate; for a decode stream the rate of the fastest enabled
output that shows a view of it, 0 with none (assumption 185). -/
def Dev.sourceRate (d : Dev) (src : Nat) : Rat :=
  if src < 4 then d.frameRate src
  else ((List.range 8).filter (fun n => d.flag (Reg.out_OUT_ENABLE n) && d.get (Reg.out_OUT_MODE n) != 0 &&
      d.get (Reg.view_VIEW_SOURCE (d.get (Reg.out_OUT_VIEW n))) == src)).foldl (fun (a : Rat) n =>
    let r := rateOf (d.get (Reg.out_OUT_RATE n))
    max a (((r.1 : Nat) : Rat) / ((r.2 * 1000000000 : Nat) : Rat))) 0

/-- Luma samples per nanosecond of an encode stream, 4:4:4 counted twice (R228). -/
def Dev.encodeRate (d : Dev) (s : Nat) : Rat :=
  let v := d.get (Reg.hev_VIEW s)
  let g := d.viewGeom v
  let src := d.get (Reg.view_VIEW_SOURCE v)
  let k : Nat := if d.get (Reg.hev_PROFILE s) = 5 then 2 else 1
  if d.get (Reg.hev_HEVC_MODE s) = 1 then ((k * (g.outW * g.outH) : Nat) : Rat) * d.sourceRate src else 0

/-- Luma samples per nanosecond of a decode stream at its largest size, 4:4:4 counted twice (R228). -/
def Dev.decodeRate (d : Dev) (s : Nat) : Rat :=
  let k : Nat := if d.get (Reg.hev_PROFILE s) = 5 then 2 else 1
  if d.get (Reg.hev_HEVC_MODE s) = 2 then
    ((k * (d.get (Reg.hev_DEC_MAX_WIDTH s) * d.get (Reg.hev_DEC_MAX_HEIGHT s)) : Nat) : Rat) * d.sourceRate (0x20 + s)
  else 0

/-- The rates of the enabled streams, as ENC_LOAD_GPXS and DEC_LOAD_GPXS show them. -/
def Dev.hevcLoad (d : Dev) (rate : Dev → Nat → Rat) : Rat :=
  (((List.range 8).filter (fun s => d.flag (Reg.hev_HEVC_ENABLE s))).map (rate d)).foldl (· + ·) 0

end Sys2Proof.Machine
end

