-- ==== Sys2Proof/Machine/Crypto.lean ====
section
/-! DEFINITION. The published algorithms the manual names: SHA-256 and SHA-384 (FIPS 180-4), HMAC (FIPS 198-1),
AES-256 (FIPS 197) in XTS (IEEE 1619) and ECDSA P-384 verification (FIPS 186-5). -/

namespace Sys2Proof.Machine

/-- The primes up to 409, from which FIPS 180-4 takes its constants. -/
def primes80 : List Nat :=
  (List.range 410).filter (fun n => decide (2 ≤ n) && (List.range n).all (fun d => decide (d < 2) || n % d != 0))

/-- ⌊2^w · frac(x^(1/2))⌋. -/
def fracSqrt (w p : Nat) : Nat := Nat.sqrt (p * 2 ^ (2 * w)) % 2 ^ w

/-- ⌊n^(1/3)⌋ for n < 2^204, one result bit at a time. -/
def icbrt (n : Nat) : Nat :=
  (List.range 70).foldl (fun a k =>
    let c := a + 2 ^ (69 - k)
    if c * c * c ≤ n then c else a) 0

/-- ⌊2^w · frac(x^(1/3))⌋. -/
def fracCbrt (w p : Nat) : Nat := icbrt (p * 2 ^ (3 * w)) % 2 ^ w

/-- Word-size parameters of the SHA-2 family. -/
structure ShaParams where
  w : Nat
  rounds : Nat
  init : List Nat
  k : List Nat
  S0 : List Nat
  S1 : List Nat
  s0 : List Nat
  s1 : List Nat

/-- SHA-256. -/
def sha256P : ShaParams :=
  { w := 32, rounds := 64, init := (primes80.take 8).map (fracSqrt 32), k := (primes80.take 64).map (fracCbrt 32),
    S0 := [2, 13, 22], S1 := [6, 11, 25], s0 := [7, 18, 3], s1 := [17, 19, 10] }

/-- SHA-384: the 64-bit variant, with initial values from the ninth to sixteenth primes. -/
def sha384P : ShaParams :=
  { w := 64, rounds := 80, init := ((primes80.drop 8).take 8).map (fracSqrt 64), k := (primes80.take 80).map (fracCbrt 64),
    S0 := [28, 34, 39], S1 := [14, 18, 41], s0 := [1, 8, 7], s1 := [19, 61, 6] }

/-- Rotation right in a word of `w` bits. -/
def rotr (w n x : Nat) : Nat := (x >>> n) + (x % 2 ^ n) * 2 ^ (w - n)

/-- Three rotations added without carry. -/
def bigSigma (w : Nat) (r : List Nat) (x : Nat) : Nat :=
  Nat.xor (rotr w (nth r 0) x) (Nat.xor (rotr w (nth r 1) x) (rotr w (nth r 2) x))

/-- Two rotations and a shift added without carry. -/
def smallSigma (w : Nat) (r : List Nat) (x : Nat) : Nat :=
  Nat.xor (rotr w (nth r 0) x) (Nat.xor (rotr w (nth r 1) x) (x >>> nth r 2))

/-- The message schedule, latest word first. -/
def shaSchedule (p : ShaParams) (m : List Nat) : List Nat :=
  ((List.range (p.rounds - 16)).foldl (fun (ws : List Nat) _ =>
    ((smallSigma p.w p.s1 (nth ws 1) + nth ws 6 + smallSigma p.w p.s0 (nth ws 14) + nth ws 15) % 2 ^ p.w) :: ws)
    m.reverse).reverse

/-- One round over the eight working variables. -/
def shaRound (p : ShaParams) (v : List Nat) (kw : Nat × Nat) : List Nat :=
  match v with
  | [a, b, c, d, e, f, g, h] =>
    let ch := Nat.xor (Nat.land e f) (Nat.land (2 ^ p.w - 1 - e) g)
    let t1 := h + bigSigma p.w p.S1 e + ch + kw.1 + kw.2
    let mj := Nat.xor (Nat.land a b) (Nat.xor (Nat.land a c) (Nat.land b c))
    let t2 := bigSigma p.w p.S0 a + mj
    [(t1 + t2) % 2 ^ p.w, a, b, c, (d + t1) % 2 ^ p.w, e, f, g]
  | _ => v

/-- One block. -/
def shaBlock (p : ShaParams) (h : List Nat) (blk : List Byte) : List Nat :=
  let m := (List.range 16).map (fun i => beNat (sliceB blk (i * (p.w / 8)) (p.w / 8)))
  let v := (p.k.zip (shaSchedule p m)).foldl (shaRound p) h
  (h.zip v).map (fun x => (x.1 + x.2) % 2 ^ p.w)

/-- The digest words of a message. -/
def shaWords (p : ShaParams) (msg : List Byte) : List Nat :=
  let bb := 2 * p.w
  let lenB := p.w / 4
  let n1 := msg.length + 1 + lenB
  let padded := msg ++ [0x80] ++ zeros ((bb - n1 % bb) % bb) ++ beBytes lenB (msg.length * 8)
  (List.range (padded.length / bb)).foldl (fun h i => shaBlock p h (sliceB padded (i * bb) bb)) p.init

/-- SHA-256. -/
def sha256 (msg : List Byte) : List Byte := (shaWords sha256P msg).flatMap (beBytes 4)

/-- SHA-384. -/
def sha384 (msg : List Byte) : List Byte := ((shaWords sha384P msg).take 6).flatMap (beBytes 8)

/-- HMAC-SHA-256 (FIPS 198-1). -/
def hmacSha256 (key msg : List Byte) : List Byte :=
  let k0 := padTo 64 (if 64 < key.length then sha256 key else key)
  sha256 (k0.map (· ^^^ 0x5C) ++ sha256 (k0.map (· ^^^ 0x36) ++ msg))

/-! AES-256 -/

/-- Multiplication by x in GF(2^8). -/
def xtime (a : Nat) : Nat := if 128 ≤ a then Nat.xor (2 * a) 0x11B else 2 * a

/-- Product in GF(2^8). -/
def gmul (a b : Nat) : Nat :=
  ((List.range 8).foldl (fun (s : Nat × Nat) i =>
    (xtime s.1, if bit b i = 1 then Nat.xor s.2 s.1 else s.2)) (a, 0)).2

/-- The inverse in GF(2^8) (0 for 0): the 254th power. -/
def ginv (a : Nat) : Nat :=
  let a2 := gmul a a; let a4 := gmul a2 a2; let a8 := gmul a4 a4; let a16 := gmul a8 a8
  let a32 := gmul a16 a16; let a64 := gmul a32 a32; let a128 := gmul a64 a64
  gmul a2 (gmul a4 (gmul a8 (gmul a16 (gmul a32 (gmul a64 a128)))))

/-- The S-box of FIPS 197. -/
def sboxN (a : Nat) : Nat :=
  let b := ginv a
  let rl := fun n => (b * 2 ^ n) % 256 + b / 2 ^ (8 - n)
  Nat.xor 0x63 (Nat.xor b (Nat.xor (rl 1) (Nat.xor (rl 2) (Nat.xor (rl 3) (rl 4)))))

/-- The S-box as a table. -/
def sboxT : List Nat := (List.range 256).map sboxN

/-- The inverse S-box as a table. -/
def invSboxT : List Nat := (List.range 256).map (fun y => sboxT.findIdx (· == y))

/-- The 60 words of the AES-256 key schedule, each four bytes, first word first. -/
def aesExpand (key : List Nat) : List (List Nat) :=
  let w0 := (List.range 8).map (fun i => (key.drop (4 * i)).take 4)
  let rcon := fun i => (List.range (i - 1)).foldl (fun a _ => xtime a) 1
  ((List.range 52).foldl (fun (ws : List (List Nat)) j =>
    let i := j + 8
    let prev := nth ws 0
    let t := if i % 8 = 0 then
        ((prev.drop 1 ++ prev.take 1).map (fun b => nth sboxT b)).zipWith Nat.xor [rcon (i / 8), 0, 0, 0]
      else if i % 8 = 4 then prev.map (fun b => nth sboxT b) else prev
    (List.zipWith Nat.xor (nth ws 7) t) :: ws) w0.reverse).reverse

/-- Round key `r` as 16 bytes. -/
def roundKey (ws : List (List Nat)) (r : Nat) : List Nat := ((ws.drop (4 * r)).take 4).flatten

/-- MixColumns with the given first row of the matrix. -/
def mixCols (m : List Nat) (s : List Nat) : List Nat :=
  (List.range 16).map (fun k =>
    let c := k / 4; let r := k % 4
    (List.range 4).foldl (fun a j => Nat.xor a (gmul (nth m ((j + 4 - r) % 4)) (nth s (4 * c + j)))) 0)

/-- ShiftRows by +1 (encryption) or −1 (decryption) per row. -/
def shiftRows (inv : Bool) (s : List Nat) : List Nat :=
  (List.range 16).map (fun k =>
    let c := k / 4; let r := k % 4
    nth s (4 * ((if inv then c + 4 - r else c + r) % 4) + r))

/-- AES-256 of one block with an expanded key. -/
def aesEnc (ws : List (List Nat)) (blk : List Nat) : List Nat :=
  let s0 := blk.zipWith Nat.xor (roundKey ws 0)
  let sN := (List.range 13).foldl (fun s i =>
    (mixCols [2, 3, 1, 1] (shiftRows false (s.map (nth sboxT ·)))).zipWith Nat.xor (roundKey ws (i + 1))) s0
  (shiftRows false (sN.map (nth sboxT ·))).zipWith Nat.xor (roundKey ws 14)

/-- The inverse of `aesEnc`. -/
def aesDec (ws : List (List Nat)) (blk : List Nat) : List Nat :=
  let s0 := blk.zipWith Nat.xor (roundKey ws 14)
  let sN := (List.range 13).foldl (fun s i =>
    mixCols [14, 11, 13, 9] (((shiftRows true s).map (nth invSboxT ·)).zipWith Nat.xor (roundKey ws (13 - i)))) s0
  ((shiftRows true sN).map (nth invSboxT ·)).zipWith Nat.xor (roundKey ws 0)

/-- Multiplication of the 128-bit tweak by α (IEEE 1619). -/
def xtsMulAlpha (t : Nat) : Nat :=
  if 2 ^ 127 ≤ t then Nat.xor ((2 * t) % 2 ^ 128) 0x87 else 2 * t

/-- AES-256-XTS of one data unit whose length is a multiple of 16; `n` is the data-unit number, the LBA (R319). -/
def aesXts (decrypt : Bool) (key64 : List Byte) (n : Nat) (data : List Byte) : List Byte :=
  let ks := key64.map (·.toNat)
  let k1 := aesExpand (ks.take 32)
  let k2 := aesExpand ((ks.drop 32).take 32)
  let t0 := leNat ((aesEnc k2 ((leBytes 16 n).map (·.toNat))).map (BitVec.ofNat 8 ·))
  ((List.range (data.length / 16)).foldl (fun (acc : Nat × List Byte) i =>
    let tb := (leBytes 16 acc.1).map (·.toNat)
    let x := ((sliceB data (16 * i) 16).map (·.toNat)).zipWith Nat.xor tb
    let y := (if decrypt then aesDec k1 x else aesEnc k1 x).zipWith Nat.xor tb
    (xtsMulAlpha acc.1, acc.2 ++ y.map (BitVec.ofNat 8 ·))) (t0, [])).2

/-! ECDSA P-384 verification -/

/-- b^e mod m. -/
def powMod (b e m : Nat) : Nat :=
  ((List.range (Nat.log2 e + 1)).foldl (fun (s : Nat × Nat) i =>
    (s.1 * s.1 % m, if bit e i = 1 then s.2 * s.1 % m else s.2)) (b % m, 1 % m)).2

/-- The field prime of P-384. -/
def p384p : Nat := 2 ^ 384 - 2 ^ 128 - 2 ^ 96 + 2 ^ 32 - 1
/-- The group order of P-384. -/
def p384n : Nat := 0xffffffffffffffffffffffffffffffffffffffffffffffffc7634d81f4372ddf581a0db248b0a77aecec196accc52973
/-- The curve coefficient b of P-384. -/
def p384b : Nat := 0xb3312fa7e23ee7e4988e056be3f82d19181d9c6efe8141120314088f5013875ac656398d8a2ed19d2a85c8edd3ec2aef
/-- The base point of P-384. -/
def p384G : Nat × Nat :=
  (0xaa87ca22be8b05378eb1c71ef320ad746e1d3b628ba79b9859f741e082542a385502f25dbf55296c3a545e3872760ab7,
   0x3617de4a96262c6f5d9e98bf9292dc29f8f41dbd289a147ce9da3113b5f0b8c00a60b1ce1d7e819d7a431d7c90ea0e5f)

/-- a − b in the field. -/
def p384Sub (a b : Nat) : Nat := (a + p384p - b % p384p) % p384p

/-- A point of P-384 in Jacobian coordinates: (X, Y, Z) stands for (X / Z², Y / Z³), and Z = 0 for the point at infinity. -/
abbrev P384Point : Type := Nat × Nat × Nat

/-- Twice a point (a = −3). -/
def p384Double (q : P384Point) : P384Point :=
  let y2 := q.2.1 * q.2.1 % p384p
  let z2 := q.2.2 * q.2.2 % p384p
  let s := 4 * q.1 * y2 % p384p
  let m := 3 * p384Sub q.1 z2 * (q.1 + z2) % p384p
  let x := p384Sub (m * m) (2 * s)
  (x, p384Sub (m * p384Sub s x) (8 * y2 * y2), 2 * q.2.1 * q.2.2 % p384p)

/-- The sum of two points. -/
def p384Add (q r : P384Point) : P384Point :=
  if q.2.2 = 0 then r
  else if r.2.2 = 0 then q
  else
    let zq := q.2.2 * q.2.2 % p384p
    let zr := r.2.2 * r.2.2 % p384p
    let u1 := q.1 * zr % p384p
    let s1 := q.2.1 * r.2.2 * zr % p384p
    let h := p384Sub (r.1 * zq) u1
    let d := p384Sub (r.2.1 * q.2.2 * zq) s1
    if h = 0 then (if d = 0 then p384Double q else (1, 1, 0))
    else
      let h2 := h * h % p384p
      let v := u1 * h2 % p384p
      let x := p384Sub (d * d) (h * h2 + 2 * v)
      (x, p384Sub (d * p384Sub v x) (s1 * h * h2), h * q.2.2 * r.2.2 % p384p)

/-- Scalar multiple of a point. -/
def p384Mul (k : Nat) (q : P384Point) : P384Point :=
  ((List.range 384).foldl (fun (s : P384Point × P384Point) i =>
    (p384Double s.1, if bit k i = 1 then p384Add s.2 s.1 else s.2)) (q, (1, 1, 0))).2

/-- ECDSA verification over P-384: public key x ‖ y, hash, signature r ‖ s, all big-endian (FIPS 186-5). -/
def ecdsaP384 (pk hash sig : List Byte) : Bool :=
  let x := beNat (pk.take 48); let y := beNat ((pk.drop 48).take 48)
  let r := beNat (sig.take 48); let s := beNat ((sig.drop 48).take 48)
  let onCurve := decide (x < p384p) && decide (y < p384p) &&
    (y * y % p384p == (x * x * x + (p384p - 3) * x + p384b) % p384p)
  if !onCurve || r == 0 || s == 0 || decide (p384n ≤ r) || decide (p384n ≤ s) then false
  else
    let w := powMod s (p384n - 2) p384n
    let u1 := beNat hash * w % p384n
    let u2 := r * w % p384n
    let q := p384Add (p384Mul u1 (p384G.1, p384G.2, 1)) (p384Mul u2 (x, y, 1))
    q.2.2 != 0 && q.1 * powMod (q.2.2 * q.2.2) (p384p - 2) p384p % p384p % p384n == r

end Sys2Proof.Machine
end

