-- ==== Sys2Proof/Machine/DramOps.lean ====
section
/-! DEFINITION. The DRAM controller: reads and their errors (R269 to R273), training and the map (R277 to R279, R566,
R567), refresh (R280 to R283), row disturbance (R284, R285), rank failure and sparing (R286 to R291). -/

namespace Sys2Proof.Machine

/-! ## Ranks -/

/-- States of Table 11.7. -/
abbrev rkABSENT : Nat := 0
abbrev rkMAPPED : Nat := 1
abbrev rkSPARE : Nat := 2
abbrev rkFROM : Nat := 3
abbrev rkTO : Nat := 4
abbrev rkREPLACED : Nat := 5
abbrev rkLOST : Nat := 6
abbrev rkRETIRED : Nat := 7
abbrev rkTRAINFAIL : Nat := 8
abbrev rkUNUSED : Nat := 9

/-- Channel `c` of the controller changed. -/
def setChan (c : Nat) (f : Chan → Chan) (d : Dev) : Dev := { d with dram := { d.dram with chans := updAt c f d.dram.chans } }

/-- Rank `r` of channel `c` changed. -/
def setRank (c r : Nat) (f : Rank → Rank) (d : Dev) : Dev := setChan c (fun x => { x with ranks := updAt r f x.ranks }) d

/-- INSTANCE of a DRAM event (R293). -/
def dramInst (c r : Nat) : Nat := c * 16 + r

/-- The rank is powered and refreshed: in the map, spare, in a migration, or unused (Table 11.7). -/
def Rank.live (r : Rank) : Bool :=
  r.st == rkMAPPED || r.st == rkSPARE || r.st == rkFROM || r.st == rkTO || r.st == rkUNUSED

/-- CHANNELS_MAPPED and MAPPED_BYTES follow the map (R266). -/
def noteMap (d : Dev) : Dev :=
  setN Reg.dram_CHANNELS_MAPPED (sumN (d.dram.mapped.map (2 ^ ·))) (setN Reg.dram_MAPPED_BYTES d.dram.bytes d)

/-! ## Rank failure (R286 to R291) -/

/-- Firmware names a rank in RANK_RETIRE; the bit survives warm resets (R286). -/
def retireRank (c r : Nat) (d : Dev) : Dev :=
  let b := 2 ^ (4 * c + r)
  setN Reg.dram_RANK_RETIRE (Nat.lor (d.get Reg.dram_RANK_RETIRE) b)
    { d with dram := { d.dram with failed := Nat.lor d.dram.failed b } }

/-- Exit cause of a forced transition: a rank lost (Table 2.8). -/
abbrev causeRankLost : Nat := 6

/-- A mapped rank with no spare to take its place is lost (R290). -/
def loseRank (c r : Nat) (d : Dev) : Dev :=
  let d1 := post 0x2404 (dramInst c r) (d.get Reg.dram_MAPPED_BYTES / 2 ^ 30) 0 d
  let d2 := setRank c r (fun x => { x with st := rkLOST }) d1
  { d2 with forced := d2.forced ++ [causeRankLost] }

/-- A rank fails (R286): a mapped rank starts its migration to an idle spare (R287) or is lost (R290); a spare that was
the target of a migration takes the rank copied with it (R291); a rank that holds no addresses is only retired. A rank
that has already failed does not fail again. -/
def failRank (c r cause : Nat) (d : Dev) : Dev :=
  let st := (d.dram.rank c r).st
  let sp := d.get (Reg.dch_SPARE_RANK c)
  let idle := decide (sp < 4) && (d.dram.rank c sp).st == rkSPARE
  if st = rkMAPPED then
    let d1 := retireRank c r (post 0x2402 (dramInst c r) cause (if idle then sp else 0xFF) d)
    if idle then
      setN (Reg.dch_MIGRATE_WATERMARK c) 0
        (setChan c (fun x => { x with mig := some { src := r, dst := sp, mark := 0, dirty := [], bad := 0, startRaw := d.time.raw } })
          (setRank c sp (fun x => { x with st := rkTO }) (setRank c r (fun x => { x with st := rkFROM }) d1)))
    else loseRank c r d1
  else if st = rkSPARE || st = rkUNUSED then
    let d1 := setRank c r (fun x => { x with st := rkRETIRED }) (retireRank c r (post 0x2402 (dramInst c r) cause 0xFF d))
    if r = sp then setN (Reg.dch_SPARE_RANK c) 0xFF d1 else d1
  else if st = rkTO then
    let d1 := setRank c r (fun x => { x with st := rkRETIRED }) (retireRank c r (post 0x2402 (dramInst c r) cause 0xFF d))
    let d2 := setN (Reg.dch_SPARE_RANK c) 0xFF d1
    match (d.dram.chan c).mig with
    | none => d2
    | some m => loseRank c m.src (setChan c (fun x => { x with mig := none }) d2)
  else d

/-! ## Reads -/

/-- A corrected read (R269): CORRECTED rises, and EV 0x2401 is logged at most once per millisecond per rank. -/
def readCorrected (c r line : Nat) (d : Dev) : Dev :=
  let d1 := setRank c r (fun x => { x with corrected := x.corrected + 1 }) (inc64 (Reg.dch_CORRECTED c) d)
  let x := d1.dram.rank c r
  let due := match x.logRaw with | none => true | some t => decide (t + 1200000 ≤ d.time.raw)
  if due then
    setRank c r (fun y => { y with corrected := 0, logRaw := some d.time.raw })
      (post 0x2401 (dramInst c r) (satU32 x.corrected) (lo32 line) d1)
  else d1

/-- A read of frame data that returned POISON sets POISON in the frame record of its slot (R272). -/
def poisonRecord (a : Nat) (s : State) : State :=
  (List.range 4).foldl (fun t p =>
    let base := t.dev.get (Reg.itk_RING_BASE p)
    let size := t.dev.get (Reg.itk_SLOT_BYTES p)
    let i := (a - base) / size
    if decide (0 < size) && decide (base ≤ a) && decide (i < (nth t.dev.itk p).slotCount) &&
        decide (256 ≤ (a - base) % size) then
      updateRecord p i (rdLe (poundRead (base + i * size) 256 t).1 8 8) (flags [(fPOISON, true)]) none t
    else t) s

/-- `n` bytes read from address `a`: each poisoned line marks the record of its frame (R272). -/
def poisonReads (a n : Nat) (s : State) : State :=
  ((linesOf a n).filter (linePoisoned s)).foldl (fun t l => poisonRecord (l * 256) t) s

/-- A line whose read cannot be corrected reads as POISON until it is written in full. -/
def poisonLine (l : Nat) (s : State) : State := { s with poison := if s.poison.contains l then s.poison else l :: s.poison }

/-- A read that could not be corrected twice (R270): UNCORRECTED rises, the line reads as POISON, the record of its
frame is marked (R272), and the rank fails. -/
def readUncorrectable (c r line : Nat) (s : State) : State :=
  let s1 := onDev (inc64 (Reg.dch_UNCORRECTED c)) s
  let s2 := match s.dev.dram.lineOf c r line with
    | none => s1
    | some l => poisonRecord (l * 256) (poisonLine l s1)
  onDev (failRank c r 1) s2

/-- The migrator's read of a line (R287, R288): the watermark passes it; a line that cannot be corrected is written
poisoned. A dirty line is skipped. -/
def migratorRead (c r line result : Nat) (s : State) : State :=
  match (s.dev.dram.chan c).mig with
  | none => s
  | some m =>
    if m.src ≠ r || decide (line < m.mark) then s
    else
      let bad := result = 2 && !(m.dirty.contains line)
      let s1 := if bad then
          (match s.dev.dram.lineOf c r line with
           | some l => onDev (inc64 (Reg.dch_POISONED_LINES c)) (poisonLine l s)
           | none => s)
        else s
      onDev (fun d =>
        let d1 := if result = 1 then readCorrected c r line d else d
        setN (Reg.dch_MIGRATE_WATERMARK c) (line + 1) <| chanAsk rqMigrator c
          (setChan c (fun x => { x with mig := some { m with mark := line + 1, bad := m.bad + b2n bad } }) d1)) s1

/-- A requester's read of a line, by its result (R269, R270). A lost rank and a rank that holds nothing complete no read
with data. -/
def requesterRead (c r line result : Nat) (s : State) : State :=
  if !(s.dev.dram.rank c r).live then s
  else if result = 1 then onDev (readCorrected c r line) s
  else if result = 2 then readUncorrectable c r line s
  else s

/-- MIGRATE_DONE: the spare takes the failed rank's place in the map (R289). -/
def execMigrateDone (c : Fin 12) (s : State) : Host.Outcome State Fault Refusal :=
  .next (onDev (fun d =>
    match (d.dram.chan c.val).mig with
    | none => d
    | some m =>
      let lines := match geometryOf d.dram.width d.dram.density with | some g => g.lines | none => 0
      let d1 := setChan c.val (fun x => { x with mig := none, order := x.order.map (fun r => if r = m.src then m.dst else r) }) d
      let d2 := setRank c.val m.src (fun x => { x with st := rkREPLACED }) (setRank c.val m.dst (fun x => { x with st := rkMAPPED }) d1)
      post 0x2403 (dramInst c.val m.src) (satU32 m.bad) (satU32 (usOfCycles (d.time.raw - m.startRaw) / 1000))
        (setN (Reg.dch_MIGRATE_WATERMARK c.val) lines (setN (Reg.dch_SPARE_RANK c.val) 0xFF d2))) s)

/-! ## Refresh (R280 to R283) -/

/-- The channel is in doubled mode. -/
def Dev.doubled (d : Dev) (c : Nat) : Bool := bit (d.get Reg.dram_REFRESH_DOUBLED) c == 1

/-- tREFI in CLK_FAB cycles: 3.9 µs, or 1.95 µs in doubled mode. -/
def refi (doubled : Bool) : Nat := if doubled then 2340 else 4680

/-- Urgent refreshes bring OWED down to the limit. -/
def urgent (c r limit : Nat) (d : Dev) : Nat × Dev :=
  let x := d.dram.rank c r
  let n := x.owed - limit
  (n, (List.range n).foldl (fun e _ => emit .dram (dramInst c r) [1, e.get Reg.dram_REFRESH_MODE] [] e)
    (setRank c r (fun y => { y with owed := y.owed - n }) d))

/-- REFRESH_TICK: the counts answered while the rank was idle are gone, OWED rises by 1, and urgent refreshes are issued
while it exceeds the limit (R280). -/
def execRefreshTick (c : Fin 12) (r : Fin 4) (idle : Nat) (s : State) : Host.Outcome State Fault Refusal :=
  .next (onDev (fun d =>
    let x := d.dram.rank c.val r.val
    let due := match x.due with | none => true | some t => decide (t ≤ d.time.raw)
    if !x.live || !due || d.mode = mTHERMAL then d
    else
      let dbl := d.doubled c.val
      (urgent c.val r.val (if dbl then 2 else 4)
        (setRank c.val r.val (fun y => { y with owed := y.owed - idle + 1, due := some (d.time.raw + refi dbl) }) d)).2) s)

/-- The ranks of a channel whose refresh runs. -/
def Dev.liveRanks (d : Dev) (c : Nat) : List Nat := (List.range 4).filter (fun r => (d.dram.rank c r).live)

/-- A channel enters doubled mode (R281, R282). -/
def enterDoubled (c : Nat) (d : Dev) : Dev :=
  let d1 := setN Reg.dram_REFRESH_DOUBLED (setBit (d.get Reg.dram_REFRESH_DOUBLED) c true) d
  let step := fun (a : Nat × Dev) (r : Nat) =>
    let e := setRank c r (fun y => { y with due := y.due.map (fun t => min t (d.time.raw + refi true)) }) a.2
    let u := urgent c r 2 e
    (a.1 + u.1, u.2)
  let w := (d.liveRanks c).foldl step (0, d1)
  post 0x2405 (dramInst c 15) 1 w.1 w.2

/-- A channel leaves doubled mode: the next interval is 3.9 µs. -/
def leaveDoubled (c : Nat) (d : Dev) : Dev :=
  let d1 := setN Reg.dram_REFRESH_DOUBLED (setBit (d.get Reg.dram_REFRESH_DOUBLED) c false) d
  let d2 := (d.liveRanks c).foldl (fun e r => setRank c r (fun y => { y with due := some (d.time.raw + refi false) }) e) d1
  post 0x2405 (dramInst c 15) 0 0 d2

/-- The decision of one housekeeping round for a channel (R281): `temps` are the valid readings of the thermistors
assigned to it, `hot` whether mode register 4 of one of its ranks reports a refresh rate for 85 °C or more. -/
def refreshReview (c : Nat) (temps : List Rat) (hot : Bool) (d : Dev) : Dev :=
  let up := hot || temps.any (fun t => decide (85 ≤ t))
  let calm := !hot && temps.all (fun t => decide (t < 82))
  if !d.doubled c then (if up then enterDoubled c (setChan c (fun x => { x with cool := 0 }) d) else d)
  else if calm then
    if 1 ≤ (d.dram.chan c).cool then leaveDoubled c (setChan c (fun x => { x with cool := 0 }) d)
    else setChan c (fun x => { x with cool := x.cool + 1 }) d
  else setChan c (fun x => { x with cool := 0 }) d

/-- Before self-refresh every owed count is answered (R283). -/
def selfRefresh (d : Dev) : Dev :=
  (List.range 12).foldl (fun e c => (e.liveRanks c).foldl (fun f r => (urgent c r 0 f).2) e) d

/-! ## Row disturbance (R284, R285) -/

/-- DRFM_ISSUE: the row latched for the bank is given a DRFM; `rows` are the rows sampled since the bank's latest DRFM, of
which each later one replaced the one before (R284). -/
def execDrfmIssue (c : Fin 12) (r : Fin 4) (bank : Fin 32) (rows : List Nat) (s : State) : Host.Outcome State Fault Refusal :=
  .next (onDev (fun d =>
    match rows.getLast? with
    | none => d
    | some row =>
      if !(d.dram.rank c.val r.val).live then d
      else emit .dram (dramInst c.val r.val) [2, bank.val, row] []
        (inc64 Reg.dram_DRFM_ISSUED (addW 64 Reg.dram_DRFM_REPLACED (rows.length - 1) d))) s)

/-- RFM_ISSUE: an RFM command goes to the bank (R285). -/
def execRfmIssue (c : Fin 12) (r : Fin 4) (bank : Fin 32) (s : State) : Host.Outcome State Fault Refusal :=
  .next (onDev (fun d =>
    if (d.dram.rank c.val r.val).live then emit .dram (dramInst c.val r.val) [3, bank.val] [] d else d) s)

/-! ## Training and the map -/

/-- The rank is fitted and not retired (R266, R278). -/
def Dev.trains (d : Dev) (fitted c r : Nat) : Bool :=
  d.hasChannel c && decide (r < fitted) && bit (d.get Reg.dram_RANK_RETIRE) (4 * c + r) == 0

/-- Training starts: owed counts are answered first (R283), and the contents are not preserved (R279). -/
def startTraining (s : State) : State :=
  onDev (fun d => setN Reg.stb_PATTERN_LINES 0 { selfRefresh d with dram := { (selfRefresh d).dram with training := true } }) { s with mem := [] }

/-- What training found of a rank; a rank without a result has no eye. -/
def trainOf (l : List RankTrain) (c r : Nat) : RankTrain :=
  (l.find? (fun x => x.channel == c && x.rank == r)).getD { channel := c, rank := r, fail := none, lanes := [] }

/-- Lanes used in a subchannel: a byte lane per x8 device, a nibble per x4 device (R265). -/
def lanesUsed (width : Nat) : List Nat := (List.range 2).flatMap (fun u => (List.range (if width = 4 then 10 else 5)).map (fun k => u * 10 + k))

/-- Read and write eye width of a lane of TRAIN_RESULT. -/
def eyeOf (b : List Byte) (lane : Nat) : Nat × Nat := (rdLe b (4 * lane) 1, rdLe b (4 * lane + 2) 1)

/-- The step and lane at which a rank fails: the failing step reported, or an eye narrower than EYE_MIN_STEPS (R278). -/
def trainFailure (d : Dev) (t : RankTrain) : Option (Nat × Nat) :=
  match t.fail with
  | some f => some f
  | none =>
    ((lanesUsed (d.get Reg.dram_DEVICE_WIDTH)).find? (fun k =>
      decide ((eyeOf t.lanes k).1 < d.get Reg.dram_EYE_MIN_STEPS) || decide ((eyeOf t.lanes k).2 < d.get Reg.dram_EYE_MIN_STEPS))).map
      (fun k => (6, k))

/-- The number m of mapped ranks per channel (R567): the largest m × channels with at least m usable ranks, on a tie
the smaller m. `u` are the usable counts of the channels. -/
def mapRanks (u : List Nat) : Nat :=
  let n := fun m => m * (u.filter (fun x => decide (m ≤ x))).length
  let b := if n 1 < n 2 then 2 else 1
  if n b < n 4 then 4 else b

/-- The roles of the ranks of a channel at a boot or a RETRAIN: `bad` are the ranks that failed training. The spare is
used when a rank that was mapped is retired (R291). -/
def usableRanks (d : Dev) (fitted c : Nat) (bad : List Nat) : List Nat :=
  let sp := d.get (Reg.dch_SPARE_RANK c)
  let gone := (List.range fitted).any (fun r => r != sp && !(d.trains fitted c r))
  (List.range fitted).filter (fun r => d.trains fitted c r && !(bad.contains r) && (r != sp || gone))

/-- The map formed from the usable ranks of each channel (R567). -/
def formMap (d : Dev) (fitted : Nat) (bad : Nat → List Nat) : Dev :=
  let us := (List.range 12).map (fun c => usableRanks d fitted c (bad c))
  let m := mapRanks (us.map List.length)
  let mapped := (List.range 12).filter (fun c => decide (m ≤ (nth us c).length))
  let chan := fun c =>
    let order := if mapped.contains c then (nth us c).take m else []
    let st := fun r =>
      if !d.hasChannel c || decide (fitted ≤ r) then rkABSENT
      else if bit (d.get Reg.dram_RANK_RETIRE) (4 * c + r) = 1 then rkRETIRED
      else if (bad c).contains r then rkTRAINFAIL
      else if order.contains r then rkMAPPED
      else if r = d.get (Reg.dch_SPARE_RANK c) && !((nth us c).contains r) then rkSPARE
      else rkUNUSED
    ({ ranks := (List.range 4).map (fun r => { st := st r, owed := 0, due := some (d.time.raw + refi (d.doubled c)), corrected := 0, logRaw := none })
       order := order, mig := none, cool := 0 } : Chan)
  let d1 := { d with dram := { d.dram with
    training := false, map := d.get Reg.dram_DRAM_MAP, width := d.get Reg.dram_DEVICE_WIDTH
    density := d.get Reg.dram_DENSITY_GBIT, rate := d.get Reg.dram_DATA_RATE_MTS, fitted := fitted
    mapped := mapped, chans := (List.range 12).map chan } }
  let d2 := (List.range 12).foldl (fun e c =>
    if (nth us c).contains (d.get (Reg.dch_SPARE_RANK c)) then setN (Reg.dch_SPARE_RANK c) 0xFF e else e) d1
  noteMap d2

/-- Training has ended (R278): EV 0x2407 for each rank that failed, TRAIN_RESULT and EV 0x2406 for each channel whose
ranks all trained, and the map is formed (R566, R567). The first part says whether every rank trained. -/
def trainingResult (l : List RankTrain) (d : Dev) : Bool × Dev :=
  let fitted := d.get Reg.dram_RANKS_FITTED
  let ranks := fun c => (List.range fitted).filter (fun r => d.trains fitted c r)
  let bad := fun c => (ranks c).filter (fun r => (trainFailure d (trainOf l c r)).isSome)
  let chan := fun (e : Dev) (c : Nat) =>
    let e1 := (bad c).foldl (fun x r =>
      let f := (trainFailure d (trainOf l c r)).getD (0, 0)
      post 0x2407 (dramInst c r) f.1 f.2 x) e
    if ranks c = [] || !(bad c).isEmpty then e1
    else
      let eyes := (ranks c).flatMap (fun r => (lanesUsed (d.get Reg.dram_DEVICE_WIDTH)).map (eyeOf (trainOf l c r).lanes))
      let bytes := (List.range 4).flatMap (fun r => padTo 80 (if (ranks c).contains r then (trainOf l c r).lanes else []))
      post 0x2406 (dramInst c 15) ((minN? (eyes.map (·.1))).getD 0) ((minN? (eyes.map (·.2))).getD 0)
        (setB (Reg.dch_TRAIN_RESULT c) bytes e1)
  let e := (List.range 12).foldl chan d
  ((List.range 12).all (fun c => (bad c).isEmpty), formMap e fitted bad)

/-- A lost rank's channel leaves the map at the transition that reallocates the pound (R290); the rebuild preserves
nothing. -/
def rebuildMap (s : State) : State :=
  let x := s.dev.dram
  let gone := x.mapped.filter (fun c => (x.chan c).order.any (fun r => (x.rank c r).st == rkLOST))
  if gone.isEmpty then s
  else
    let d1 := { s.dev with dram := { x with
      mapped := x.mapped.filter (fun c => !(gone.contains c))
      chans := x.chans.zipIdx.map (fun p => if gone.contains p.2 then { p.1 with order := [], mig := none } else p.1) } }
    let d2 := noteMap d1
    let d3 := gone.foldl (fun e c =>
      post 0x2408 (dramInst c 15) (e.get Reg.dram_CHANNELS_MAPPED) (e.get Reg.dram_MAPPED_BYTES / 2 ^ 30) e) d2
    { s with dev := setN Reg.stb_PATTERN_LINES 0 d3, mem := [] }

/-! ## Entries -/

/-- RANK_STATE (Table 11.8). -/
def Dev.rankState (d : Dev) (c : Nat) : Nat := sumN ((List.range 4).map (fun r => (d.dram.rank c r).st * 256 ^ r))

/-- OWED (Table 11.8): four bits a rank. -/
def Dev.owedOf (d : Dev) (c : Nat) : Nat := sumN ((List.range 4).map (fun r => min 15 (d.dram.rank c r).owed * 16 ^ r))

/-- The ranks that a channel maps by itself: 4, 2, 1 or none of its usable ranks (R266). -/
def rolesOf (fitted retire c sp : Nat) : Nat :=
  let u := ((List.range fitted).filter (fun r => r != sp && bit retire (4 * c + r) == 0)).length
  if 4 ≤ u then 4 else if 2 ≤ u then 2 else u

/-- The roles leave the same number of mapped ranks in every mapped channel (R266). -/
def rolesOk (d : Dev) (retire : Nat) (spare : Nat → Nat) : Bool :=
  let l := (((List.range 12).filter d.hasChannel).map
    (fun c => rolesOf (d.get Reg.dram_RANKS_FITTED) retire c (spare c))).filter (fun n => n != 0)
  match l with
  | [] => false
  | n :: r => r.all (fun m => m == n)

/-- Acceptance rules of the DRAM entries: the roles (R266), RETRAIN in SERVICE only (R279), the reserved bits of
DRAM_THERM_MAP (R11). -/
def dramRule (k : Nat) (v : Val) (d : Dev) : Option (Nat × (Dev → Dev)) :=
  match v with
  | .num n =>
    if k = Reg.dram_RANK_RETIRE then
      (if rolesOk d n (fun c => d.get (Reg.dch_SPARE_RANK c)) then none else refuse stREFUSED)
    else if Reg.dch_SPARE_RANK 0 ≤ k then
      let c := k / 256 - 0x2410
      (if rolesOk d (d.get Reg.dram_RANK_RETIRE) (fun x => if x = c then n else d.get (Reg.dch_SPARE_RANK x)) then none
       else refuse stREFUSED)
    else if k = Reg.dram_RETRAIN ∧ n = 1 ∧ d.mode ≠ mSERVICE then refuse stMODE
    else none
  | .bytes b =>
    if k = Reg.dram_DRAM_THERM_MAP ∧ (List.range 16).any (fun i => decide (0x1000 ≤ rdLe b (2 * i) 2)) then refuse stRANGE
    else none

/-- The effect of a write: RETRAIN retrains (R279); clearing a RANK_RETIRE bit clears what firmware set. -/
def dramEffect (k : Nat) (v : Val) (s : State) : State :=
  match v with
  | .num n =>
    if k = Reg.dram_RETRAIN then (if n = 1 then startTraining s else s)
    else if k = Reg.dram_RANK_RETIRE then
      onDev (fun d => setN k n { d with dram := { d.dram with failed := Nat.land d.dram.failed n } }) s
    else onDev (setV k v) s
  | .bytes _ => onDev (setV k v) s

/-- A write of a DRAM entry (Table 11.8). -/
def writeDram (w : Writer) (k : Nat) (v : Val) : State → WRes :=
  entryWrite w k v (fun t => dramRule k v t.dev) (fun _ => dramEffect k v)

/-- RETRAIN (R279). -/
def execRetrain (w : Writer) (s : State) : Host.Outcome State Fault Refusal :=
  .next (finishWrite s (writeDram w Reg.dram_RETRAIN (.num 1) s))

end Sys2Proof.Machine
end

