-- ==== Sys2Proof/Machine/MagLane.lean ====
section
/-! DEFINITION. What travels on a magazine lane: the blocks of Table 12.2, their scrambler (R53, R296), the framing of link
packets (R300), and RS-FEC with its transcoding (R297; IEEE 802.3 Clause 91, per lane; assumption 262). -/

namespace Sys2Proof.Machine

/-! ## Blocks -/

/-- A block of the magazine link (Table 12.2): 8 data bytes, a control block, or one that is invalid. -/
inductive MagBlock where
  | data (b : List Byte)
  | idle
  | start
  | term
  | align (lane count : Nat)
  | train (state rate fec : Nat)
  | ack (seq dataLimit ctrlLimit : Nat)
  | nak (seq : Nat)
  | sleep (mode : Nat)
  | invalid
deriving DecidableEq, Repr, Inhabited

/-- The types of Table 12.2. -/
def magTypes : List Nat := [0x1E, 0x78, 0x87, 0x4B, 0x55, 0x33, 0x2D, 0x66]

/-- A control block of a type and its bytes from byte 1. -/
def control (ty : Nat) (b : List Byte) : Nat × Nat := (2, leNat (padTo 8 (leBytes 1 ty ++ b)))

/-- The sync header and the payload of a block, not yet scrambled. -/
def MagBlock.code : MagBlock → Nat × Nat
  | .data b => (1, leNat (padTo 8 b))
  | .idle => control 0x1E []
  | .start => control 0x78 []
  | .term => control 0x87 []
  | .align lane count => control 0x4B (leBytes 1 lane ++ leBytes 4 count)
  | .train state rate fec => control 0x55 (leBytes 1 state ++ leBytes 1 rate ++ leBytes 1 fec)
  | .ack seq dl cl => control 0x33 (leBytes 2 seq ++ leBytes 2 dl ++ leBytes 2 cl)
  | .nak seq => control 0x2D (leBytes 2 seq)
  | .sleep mode => control 0x66 (leBytes 1 mode)
  | .invalid => (3, 0)

/-- The block of a sync header and a descrambled payload. -/
def magBlockOf (header payload : Nat) : MagBlock :=
  let b := leBytes 8 payload
  if header = 1 then .data b
  else if header = 2 then
    (match payload % 256 with
     | 0x1E => .idle
     | 0x78 => .start
     | 0x87 => .term
     | 0x4B => .align (rdLe b 1 1) (rdLe b 2 4)
     | 0x55 => .train (rdLe b 1 1) (rdLe b 2 1) (rdLe b 3 1)
     | 0x33 => .ack (rdLe b 1 2 % 4096) (rdLe b 3 2) (rdLe b 5 2)
     | 0x2D => .nak (rdLe b 1 2 % 4096)
     | 0x66 => .sleep (rdLe b 1 1)
     | _ => .invalid)
  else .invalid

/-- The payload scrambled by x^58 + x^39 + 1, bit 0 first: `reg` holds the 58 bits sent before, the latest in bit 57. -/
def scramble (reg payload : Nat) : Nat × Nat :=
  let lo := Nat.xor (Nat.xor payload (reg / 2 ^ 19) % 2 ^ 39) (reg % 2 ^ 39)
  let z := reg + lo * 2 ^ 58
  let hi := Nat.xor (Nat.xor (payload / 2 ^ 39) (z / 2 ^ 58) % 2 ^ 25) (z / 2 ^ 39 % 2 ^ 25)
  let x := lo + hi * 2 ^ 39
  (x, x / 2 ^ 6)

/-- A lane's blocks scrambled from its register: header and payload as sent, and the register after them. -/
def scrambleAll : List MagBlock → Nat → List (Nat × Nat) × Nat
  | [], reg => ([], reg)
  | b :: r, reg =>
    let c := b.code
    let x := scramble reg c.2
    let y := scrambleAll r x.2
    ((c.1, x.1) :: y.1, y.2)

/-! ## Stripes (R54, R296) -/

/-- Blocks in stripes of eight, the last filled with IDLE. -/
def stripesOf : Nat → List MagBlock → List (List MagBlock)
  | 0, _ => []
  | n + 1, l =>
    if l.isEmpty then []
    else (l.take 8 ++ List.replicate (8 - l.length) .idle) :: stripesOf n (l.drop 8)

/-- Stripes as sent: an ALIGN stripe begins every period of `per` stripes. `c` is the place in the period and `n` the count of
ALIGN stripes; with them after the stripes. -/
def withAligns (per : Nat) : List (List MagBlock) → Nat → Nat → List (List MagBlock) × Nat × Nat
  | [], c, n => ([], c, n)
  | x :: r, c, n =>
    if c = 0 then
      let y := withAligns per r (2 % per) ((n + 1) % 2 ^ 32)
      ((List.range 8).map (fun k => .align k n) :: x :: y.1, y.2)
    else
      let y := withAligns per r ((c + 1) % per) n
      (x :: y.1, y.2)

/-- A block as sent with its polarity inverted. -/
def invertBlock (b : Nat × Nat) : Nat × Nat := (3 - b.1 % 4, 2 ^ 64 - 1 - b.2 % 2 ^ 64)

/-! ## Packets (R300, Table 12.3) -/

/-- The fields of a link packet and its payload. -/
structure MagPacket where
  seq : Nat
  ty : Nat
  flags : Nat
  tag : Nat
  index : Nat
  payload : List Byte
deriving DecidableEq, Repr

/-- Header, payload and pad of a packet, with their CRC-32C: whole blocks. -/
def MagPacket.bytes (k : MagPacket) : List Byte :=
  let b := leBytes 2 k.seq ++ leBytes 1 k.ty ++ leBytes 1 k.flags ++ leBytes 2 k.tag ++ leBytes 2 k.payload.length ++
    leBytes 4 k.index ++ zeros 4 ++ k.payload ++ zeros ((8 - (k.payload.length + 4) % 8) % 8)
  b ++ leBytes 4 (crc32c b)

/-- Data blocks of bytes, eight a block. -/
def dataBlocks : Nat → List Byte → List MagBlock
  | 0, _ => []
  | n + 1, b => if b.isEmpty then [] else .data (b.take 8) :: dataBlocks n (b.drop 8)

/-- The blocks of a packet: START, its bytes, TERM. -/
def MagPacket.blocks (k : MagPacket) : List MagBlock :=
  let b := k.bytes
  .start :: dataBlocks (b.length / 8) b ++ [.term]

/-- A packet of received bytes, none where its CRC fails. Bytes that LENGTH does not account for stay in the payload, which
then has not the length that its TYPE asks for (R310). -/
def packetOf (b : List Byte) : Option MagPacket :=
  let n := b.length - 4
  if b.length < 24 || rdLe b n 4 != crc32c (b.take n) then none
  else
    let len := rdLe b 6 2
    let fits := b.length == 16 + roundUp (len + 4) 8
    some { seq := rdLe b 0 2 % 4096, ty := rdLe b 2 1, flags := rdLe b 3 1, tag := rdLe b 4 2, index := rdLe b 8 4
           payload := sliceB b 16 (if fits then len else n - 16) }

/-! ## Transcoding (Clause 91, 256B/257B) -/

/-- The number of `l`'s bits from bit 0 up, each item (width, value). -/
def joinBits : List (Nat × Nat) → Nat
  | [] => 0
  | x :: r => x.2 % 2 ^ x.1 + 2 ^ x.1 * joinBits r

/-- Four blocks as sent, header and scrambled payload, in 257 bits: four data blocks after a 1; else a 0, a bit for each block
that is 1 for data, and the payloads without the second nibble of the first control block's type. The first five bits are
then combined with bits 12:8. -/
def transcode (b : List (Nat × Nat)) : Nat :=
  let x :=
    if b.all (fun y => y.1 == 1) then joinBits ((1, 1) :: b.map (fun y => (64, y.2)))
    else
      let c := (b.findIdx (fun y => y.1 != 1))
      let bad := b.any (fun y => y.1 != 1 && y.1 != 2)
      joinBits ((1, 0) :: b.map (fun y => (1, b2n (bad || y.1 == 1))) ++
        (List.range 4).flatMap (fun i =>
          let y := nth b i
          if i = c then [(4, y.2), (56, y.2 / 256)] else [(64, y.2)]))
  x / 32 * 32 + Nat.xor (x % 32) (x / 256 % 32)

/-- The type byte as sent whose low nibble as sent is `low`: the other nibble follows from Table 12.2, whose types differ in
their low nibbles, under the scrambler's register. -/
def typeByte (reg low : Nat) : Nat :=
  let key := Nat.xor (reg / 2 ^ 19) reg % 256
  let plain := Nat.xor (low % 16) (key % 16)
  Nat.xor ((magTypes.find? (fun t => t % 16 == plain)).getD plain) key

/-- The four blocks of 257 bits; `reg` is the register of the lane's descrambler before them. A group that marks all four
as data after a 0 holds invalid blocks. -/
def untranscode (reg g : Nat) : List (Nat × Nat) :=
  let x := g / 32 * 32 + Nat.xor (g % 32) (g / 256 % 32)
  if x % 2 = 1 then (List.range 4).map (fun i => (1, x / 2 ^ (1 + 64 * i) % 2 ^ 64))
  else
    match (List.range 4).find? (fun i => bit x (1 + i) == 0) with
    | none => List.replicate 4 (3, 0)
    | some c =>
      let place := fun (i : Nat) => 5 + 64 * i - (if c < i then 4 else 0)
      let before := if c = 0 then reg else x / 2 ^ place (c - 1) % 2 ^ 64 / 2 ^ 6
      (List.range 4).map (fun i =>
        let v := x / 2 ^ place i
        (if bit x (1 + i) = 1 then 1 else 2,
          if i = c then typeByte before v + 256 * (v / 16 % 2 ^ 56) else v % 2 ^ 64))

/-! ## RS(528,514) over GF(2^10) -/

/-- The product in GF(2^10) of x^10 + x^3 + 1. -/
def gfMul (a b : Nat) : Nat :=
  (List.range 10).foldl (fun acc i =>
    let t := 2 * acc
    Nat.xor (if 1024 ≤ t then Nat.xor t 0x409 else t) (if bit b (9 - i) = 1 then a else 0)) 0

/-- A power in GF(2^10), by the bits of the exponent. -/
def gfPow (a e : Nat) : Nat :=
  (List.range 10).foldl (fun acc i =>
    let t := gfMul acc acc
    if bit (e % 1023) (9 - i) = 1 then gfMul t a else t) 1

/-- The inverse of an element that is not 0. -/
def gfInv (a : Nat) : Nat := gfPow a 1022

/-- The value at `x` of a polynomial with its highest coefficient first. -/
def gfEval (x : Nat) (l : List Nat) : Nat := l.foldl (fun acc c => Nat.xor (gfMul acc x) c) 0

/-- The generator polynomial, the product of x - α^j for j from 0 to 13, below its leading term, highest coefficient first. -/
def rsGen : List Nat :=
  ((List.range 14).foldl (fun g j =>
    let a := gfPow 2 j
    (List.range (g.length + 1)).map (fun i => Nat.xor (g.getD i 0) (if i = 0 then 0 else gfMul a (g.getD (i - 1) 0)))) [1]).drop 1

/-- The 14 parity symbols of a message, first sent first. -/
def rsParity (msg : List Nat) : List Nat :=
  msg.foldl (fun rem m =>
    let fb := Nat.xor m (rem.getD 0 0)
    (List.range 14).map (fun i => Nat.xor (rem.getD (i + 1) 0) (gfMul fb (rsGen.getD i 0)))) (List.replicate 14 0)

/-- The 14 syndromes of received symbols. -/
def syndromes (w : List Nat) : List Nat := (List.range 14).map (fun j => gfEval (gfPow 2 j) w)

/-- The state of the search for the error locator (Berlekamp and Massey): the locator and the one before its latest change of
length, lowest coefficient first, its length, the steps since and the discrepancy then. -/
structure Locator where
  c : List Nat
  b : List Nat
  len : Nat
  gap : Nat
  last : Nat

/-- One step of the search, at syndrome `n`. -/
def Locator.step (s : List Nat) (x : Locator) (n : Nat) : Locator :=
  let d := (List.range (x.len + 1)).foldl (fun acc i => Nat.xor acc (gfMul (x.c.getD i 0) (if i ≤ n then s.getD (n - i) 0 else 0))) 0
  if d = 0 then { x with gap := x.gap + 1 }
  else
    let f := gfMul d (gfInv x.last)
    let c := (List.range 15).map (fun i => Nat.xor (x.c.getD i 0) (if x.gap ≤ i then gfMul f (x.b.getD (i - x.gap) 0) else 0))
    if 2 * x.len ≤ n then { c := c, b := x.c, len := n + 1 - x.len, gap := 1, last := d } else { x with c := c, gap := x.gap + 1 }

/-- The value at `x` of a polynomial with its lowest coefficient first. -/
def gfEvalLow (x : Nat) (l : List Nat) : Nat := gfEval x l.reverse

/-- Received symbols corrected: the codeword within seven symbols of them, none where there is none. -/
def rsCorrect (w : List Nat) : Option (List Nat) :=
  let s := syndromes w
  if s.all (· == 0) then some w
  else
    let x := (List.range 14).foldl (Locator.step s) { c := [1], b := [1], len := 0, gap := 1, last := 1 }
    let omega := (List.range 14).map (fun i => (List.range (i + 1)).foldl (fun acc j => Nat.xor acc (gfMul (x.c.getD j 0) (s.getD (i - j) 0))) 0)
    let slope := (List.range 7).flatMap (fun i => [x.c.getD (2 * i + 1) 0, 0])
    let fixed := (List.range w.length).map (fun i =>
      let e := w.length - 1 - i
      let inv := gfPow 2 (1023 - e % 1023)
      let v := w.getD i 0
      if gfEvalLow inv x.c = 0 then Nat.xor v (gfMul (gfPow 2 e) (gfMul (gfEvalLow inv omega) (gfInv (gfEvalLow inv slope)))) else v)
    if x.len ≤ 7 ∧ (syndromes fixed).all (· == 0) then some fixed else none

/-! ## Codewords of a lane -/

/-- The ten-bit symbols of a number, lowest first. -/
def symbolsOf (n v : Nat) : List Nat := (List.range n).map (fun i => v / 1024 ^ i % 1024)

/-- The number of ten-bit symbols, lowest first. -/
def ofSymbols (l : List Nat) : Nat := joinBits (l.map (fun x => (10, x)))

/-- The codeword of 80 blocks as sent (R297): twenty groups make its message. -/
def fecWord (b : List (Nat × Nat)) : List Nat :=
  let msg := symbolsOf 514 (joinBits ((List.range 20).map (fun i => (257, transcode ((b.drop (4 * i)).take 4)))))
  msg ++ rsParity msg

/-- The codewords of a lane's blocks. -/
def fecWords : Nat → List (Nat × Nat) → List (List Nat)
  | 0, _ => []
  | n + 1, b => if b.isEmpty then [] else fecWord (b.take 80) :: fecWords n (b.drop 80)

/-- The blocks of the groups of a message, as sent; `reg` is the descrambler's register before them. -/
def groupBlocks : Nat → Nat → Nat → List (Nat × Nat)
  | 0, _, _ => []
  | n + 1, reg, v =>
    let b := untranscode reg (v % 2 ^ 257)
    b ++ groupBlocks n ((nth b 3).2 / 2 ^ 6) (v / 2 ^ 257)

/-- The 80 blocks of a received codeword (R297), invalid where it cannot be corrected, and what it counts as: 0 without an
error, 1 corrected, 2 not. -/
def fecBlocks (reg : Nat) (w : List Nat) : List (Nat × Nat) × Nat :=
  match (if w.length = 528 then rsCorrect w else none) with
  | none => (List.replicate 80 (3, 0), 2)
  | some f => (groupBlocks 20 reg (ofSymbols (f.take 514)), if f = w then 0 else 1)

end Sys2Proof.Machine
end

