-- ==== Sys2Proof/Machine/MagOps.lean ====
section
/-! DEFINITION. The magazine link: packets, credit and replay (R300 to R306), training and retraining (R298, R299),
lane power and supply (R316, R317), keys (R319, R320), and the ends of commands (R330). -/

namespace Sys2Proof.Machine

/-! ## Ports and commands -/

/-- Magazine port `p`. -/
def Dev.mag (d : Dev) (p : Nat) : MagPort := nth d.mags p

/-- Magazine port `p` changed. -/
def setMag (p : Nat) (f : MagPort → MagPort) (d : Dev) : Dev := { d with mags := updAt p f d.mags }

/-- The link of port `p` changed. -/
def setLink (p : Nat) (f : MagLink → MagLink) (d : Dev) : Dev := setMag p (fun x => { x with link := f x.link }) d

/-- MAG_STATE. -/
def Dev.magState (d : Dev) (p : Nat) : Nat := d.get (Reg.mag_MAG_STATE p)

/-- States of Table 12.9. -/
abbrev msABSENT : Nat := 0
abbrev msTRAINING : Nat := 1
abbrev msUP : Nat := 2
abbrev msDOWN : Nat := 3
abbrev msFAILED : Nat := 4
abbrev msREJECTED : Nat := 5

/-- MAG_STATE set, and PORTS_UP with it. -/
def setMagState (p st : Nat) (d : Dev) : Dev :=
  setN Reg.magg_PORTS_UP (setBit (d.get Reg.magg_PORTS_UP) p (decide (st = msUP))) (setN (Reg.mag_MAG_STATE p) st d)

/-- INSTANCE of a magazine event of the whole port (R323). -/
def magInst (p : Nat) : Nat := p * 16 + 15

/-- A field of the port's IDENTIFY data (Table 12.8). -/
def Dev.ident (d : Dev) (p off n : Nat) : Nat := rdLe (d.bytes (Reg.mag_MAG_IDENTIFY p)) off n

/-- The power state of a port (PS_CURRENT, R351). -/
def Dev.ps (d : Dev) (p : Nat) : Nat := field (d.get Reg.ps_PS_CURRENT) (2 * p + 1) (2 * p)

/-- A change of power state, with EV 0x2902 (R346); `cause` 0 timer, 1 command, 2 removal. -/
def setPs (p st cause : Nat) (d : Dev) : Dev :=
  let old := d.ps p
  if old = st then d
  else post 0x2902 p (old * 256 + st) cause (setN Reg.ps_PS_CURRENT (setField (d.get Reg.ps_PS_CURRENT) (2 * p + 1) (2 * p) st) d)

/-- The recorder queue changed. -/
def setRcq (f : Recorder → Recorder) (d : Dev) : Dev := { d with rcq := f d.rcq }

/-- The command that holds a tag. -/
def Dev.cmd? (d : Dev) (tag : Nat) : Option RecCmd := d.rcq.cmds.find? (fun c => c.tag == tag)

/-- The command that holds a tag changed. -/
def setCmd (tag : Nat) (f : RecCmd → RecCmd) (d : Dev) : Dev :=
  setRcq (fun r => { r with cmds := r.cmds.map (fun c => if c.tag = tag then f c else c) }) d

/-- The commands of a port, in order of acceptance. -/
def Dev.portCmds (d : Dev) (p : Nat) : List RecCmd := d.rcq.cmds.filter (fun c => c.ns == p + 1 && c.op != 5)

/-- Commands outstanding at the magazine: the queue's and firmware's own. -/
def Dev.outstanding (d : Dev) (p : Nat) : Nat :=
  ((d.portCmds p).filter (fun c => decide (c.ph = .active) && c.op != 6)).length + (d.mag p).own.length

/-- The port is idle (R345): nothing outstanding at the magazine, held, or waiting for it. The TEMP commands of the
housekeeping rounds do not count. -/
def Dev.magIdle (d : Dev) (p : Nat) : Bool :=
  (d.mag p).own.all (fun o => o.op == 0x10) && !((d.portCmds p).any (fun c => decide (c.ph = .atPort) || decide (c.ph = .active)))

/-- Held commands counted in HELD (R315). -/
def noteHeld (p : Nat) (d : Dev) : Dev :=
  setN (Reg.mag_HELD p) ((d.portCmds p).filter (fun c => decide (c.ph = .atPort) && c.heldRaw.isSome)).length d

/-- A command ends: it goes to the completion arbiter with its status (R330). MEDIA_POISON replaces SUCCESS when a
poisoned line was read for it (R342). -/
def endOne (tag status done info : Nat) (d : Dev) : Dev :=
  match d.cmd? tag with
  | none => d
  | some c =>
    let st := if status = 0 && c.poisoned.isSome then 0x84 else status
    let inf := if st = 0x84 then c.poisoned.getD 0 else info
    let d1 := setRcq (fun r => { r with comp := r.comp ++ [tag] })
      (setCmd tag (fun x => { x with ph := .ended, status := st, done := done, info := inf % 2 ^ 32, heldRaw := none, buf := [] }) d)
    if 1 ≤ c.ns ∧ c.ns ≤ 4 then
      let d2 := noteHeld (c.ns - 1) d1
      if d2.magIdle (c.ns - 1) then setMag (c.ns - 1) (fun x => { x with idleRaw := d.time.raw }) d2 else d2
    else d1

/-- A command ends, and an ABORT of it that the magazine has answered ends after it (R344). -/
def endCmd (tag status done info : Nat) (d : Dev) : Dev :=
  let d1 := endOne tag status done info d
  match d.cmd? tag with
  | some c =>
    (match c.aborter, c.answer with
     | some a, some st => endOne a st 0 0 d1
     | _, _ => d1)
  | none => d1

/-- A magazine's answer to the ABORT with tag `t` (R343): it ends as answered, SUCCESS or NOT_FOUND, after its target. -/
def abortAnswered (t st : Nat) (d : Dev) : Dev :=
  match d.rcq.cmds.find? (fun c => c.aborter == some t && decide (c.ph = .active)) with
  | some c => setCmd c.tag (fun x => { x with answer := some st }) d
  | none => endCmd t st 0 0 d

/-- Every outstanding, held and waiting command of the port completes with a status; the number completed. An ABORT that
waits for one of them follows it and finds nothing (R344). -/
def endAll (p status : Nat) (d : Dev) : Nat × Dev :=
  let l := (d.portCmds p).filter (fun c => decide (c.ph = .atPort) || decide (c.ph = .active))
  let d1 := l.foldl (fun e c => endCmd c.tag status c.done 0 e) d
  let d2 := ((d.mag p).own.filter (fun o => o.op == 5 && decide (o.target < 0x10000))).foldl (fun e o => endCmd o.target 0x08 0 0 e) d1
  (l.length, setMag p (fun x => { x with own := [] }) d2)

/-! ## Sending (R300 to R306) -/

/-- Bytes a packet takes of the replay buffer: header, payload, pad and CRC (R300). -/
def LinkPkt.size (k : LinkPkt) : Nat := roundUp (20 + k.payload.length) 8

/-- LANE_POWER of the port's lanes: the transmitters' and the receivers' state (Table 3.8). -/
def lanesTo (p : Nat) (tx rx : Option Nat) (d : Dev) : Dev :=
  (List.range 8).foldl (fun e k =>
    let v := e.get (Reg.mln_LANE_POWER p k)
    setN (Reg.mln_LANE_POWER p k) (tx.getD (v / 16) * 16 + rx.getD (v % 16)) e) d

/-- The bytes of the model's record of what a lane sends: its codewords, or its blocks as header and payload. -/
def laneBytes (fec inv : Bool) (b : List (Nat × Nat)) : List Byte :=
  if fec then (fecWords b.length b).flatMap (fun w => w.flatMap (fun x => leBytes 2 (if inv then 1023 - x else x)))
  else b.flatMap (fun x => let y := if inv then invertBlock x else x; leBytes 1 y.1 ++ leBytes 8 y.2)

/-- Blocks put on the lanes (R296, R297): filled with IDLE to whole stripes, or whole codewords, with the ALIGN stripes that
are due; a transmitter that sleeps wakes first by sending IDLE (R316; assumption 263). -/
def sendBlocks (p : Nat) (l : List MagBlock) (d : Dev) : Dev :=
  let x := d.mag p
  let asleep := d.get (Reg.mln_LANE_POWER p 0) / 16 == 2
  let l1 := if asleep then List.replicate 8 .idle ++ l else l
  let s0 := stripesOf l1.length l1
  let s1 := if x.fecOn then
      s0 ++ List.replicate ((80 - (s0.length + b2n (x.stripes == 0)) % 80) % 80) (List.replicate 8 .idle)
    else s0
  let y := withAligns (if x.fecOn then 16400 else 16384) s1 x.stripes x.aligns
  let lanes := (List.range 8).map (fun k => scrambleAll (y.1.map (fun b => nth b k)) (x.scr.getD k 0))
  emit .magLink p [b2n x.fecOn, y.1.length]
    ((List.range 8).flatMap (fun k => laneBytes x.fecOn (bit (d.get (Reg.mln_INVERT p k)) 1 == 1) (lanes.getD k ([], 0)).1))
    (setMag p (fun m => { m with stripes := y.2.1, aligns := y.2.2, scr := lanes.map (·.2) })
      (if asleep then lanesTo p (some 3) none d else d))

/-- The transmitters put to sleep: LANE_SLEEP on every lane, with bit 1 where the magazine's is asked to sleep too, then
electrical idle (R316). -/
def sleepTx (p : Nat) (both : Bool) (d : Dev) : Dev :=
  lanesTo p (some 2) none (emit .magLink p [2] [] (sendBlocks p (List.replicate 8 (.sleep (1 + 2 * b2n both))) d))

/-- The fields of a packet as it is sent. -/
def LinkPkt.packet (k : LinkPkt) : MagPacket :=
  { seq := k.seq, ty := k.ty, flags := k.flags, tag := k.tag, index := k.index, payload := k.payload }

/-- A packet put on the lanes. -/
def emitPkt (p : Nat) (k : LinkPkt) (d : Dev) : Dev := sendBlocks p k.packet.blocks d

/-- A packet of the kind may be sent under the limit received (R303, R304). -/
def MagLink.credit (l : MagLink) (ty : Nat) : Bool :=
  let sent := if ty = 2 then l.dataSent else l.ctrlSent
  let lim := if ty = 2 then l.dataLimit else l.ctrlLimit
  l.opened && decide (32768 ≤ (sent + 65536 - lim % 65536) % 65536)

/-- The replay buffer has room for a packet (R301, R305). -/
def MagLink.room (l : MagLink) (k : LinkPkt) : Bool :=
  decide (l.unacked.length < 2047) && decide (sumN (l.unacked.map LinkPkt.size) + k.size ≤ 262144)

/-- One packet sent: numbered, counted, kept for replay. -/
def sendPkt (p : Nat) (k : LinkPkt) (d : Dev) : Dev :=
  let l := (d.mag p).link
  let k1 := { k with seq := l.tx }
  setLink p (fun x => { x with
    tx := (x.tx + 1) % 4096
    unacked := x.unacked ++ [k1]
    dataSent := if k.ty = 2 then (x.dataSent + 1) % 65536 else x.dataSent
    ctrlSent := if k.ty = 2 then x.ctrlSent else (x.ctrlSent + 1) % 65536
    replayRaw := if x.unacked.isEmpty then d.time.raw else x.replayRaw }) (emitPkt p k1 d)

/-- The bytes of a source, `n` of them from offset `o`, and whether a line read was poisoned. -/
def srcBytes (s : State) : List SrcPart → Nat → Nat → List Byte × Bool
  | [], _, _ => ([], false)
  | .lit b :: r, o, n =>
    let x := sliceB b o n
    let y := srcBytes s r (o - b.length) (n - x.length)
    (x ++ y.1, y.2)
  | .mem a len :: r, o, n =>
    let k := min n (len - o)
    let x := if k = 0 then ([], false) else poundRead (a + o) k s
    let y := srcBytes s r (o - len) (n - k)
    (x.1 ++ y.1, x.2 || y.2)

/-- The requests at the DRAM channels for `n` bytes of a source from offset `o`. -/
def srcAsk : List SrcPart → Nat → Nat → Dev → Dev
  | [], _, _, d => d
  | .lit b :: r, o, n, d => srcAsk r (o - b.length) (n - (sliceB b o n).length) d
  | .mem a len :: r, o, n, d => srcAsk r (o - len) (n - min n (len - o)) (poundAsk rqMagazine (a + o) (min n (len - o)) d)

/-- The poisoned lines among `n` bytes of a source from offset `o` mark the records of their frames (R272). -/
def srcPoison : List SrcPart → Nat → Nat → State → State
  | [], _, _, s => s
  | .lit b :: r, o, n, s => srcPoison r (o - b.length) (n - (sliceB b o n).length) s
  | .mem a len :: r, o, n, s => srcPoison r (o - len) (n - min n (len - o)) (poisonReads (a + o) (min n (len - o)) s)

/-- A sector as it crosses the link: encrypted when MAG_ENCRYPT is set (R319). -/
def Dev.sectorOut (d : Dev) (p lba : Nat) (b : List Byte) : List Byte :=
  match d.flag (Reg.mag_MAG_ENCRYPT p), (d.mag p).key with
  | true, some k => aesXts false k lba b
  | _, _ => b

/-- A sector as received: decrypted when MAG_ENCRYPT is set (R319). -/
def Dev.sectorIn (d : Dev) (p lba : Nat) (b : List Byte) : List Byte :=
  match d.flag (Reg.mag_MAG_ENCRYPT p), (d.mag p).key with
  | true, some k => aesXts true k lba b
  | _, _ => b

/-- A DATA packet of a WRITE: sector `i` of the command (R308). -/
def dataPkt (d : Dev) (p : Nat) (c : RecCmd) (i : Nat) (b : List Byte) : LinkPkt :=
  { seq := 0, ty := 2, flags := b2n (decide (i + 1 = c.count)), tag := c.tag, index := i
    payload := d.sectorOut p (c.lba + i) (padTo 4096 b), resent := 0 }

/-- The internal WRITE of the port whose next sector is to be read from its source. -/
def Dev.sourceCmd (d : Dev) (p : Nat) : Option RecCmd :=
  (d.portCmds p).find? (fun c => c.op == 2 && decide (64 ≤ c.queue) && decide (c.ph = .active) && decide (c.next < c.count) &&
    !((d.mag p).link.waiting.any (fun k => k.tag == c.tag)))

/-- Packets sent while credit and the replay buffer allow: those that wait, in order within each kind, then the next
sectors of internal WRITEs. -/
def pump (p : Nat) : Nat → State → State
  | 0, s => s
  | n + 1, s =>
    let d := s.dev
    let l := (d.mag p).link
    if d.magState p ≠ msUP then s
    else
      match l.waiting.find? (fun k => l.credit k.ty && l.room k) with
      | some k => pump p n (onDev (fun e => sendPkt p k (setLink p (fun x => { x with waiting := x.waiting.erase k }) e)) s)
      | none =>
        match d.sourceCmd p with
        | none => s
        | some c =>
          let b := srcBytes s c.src (4096 * c.next) 4096
          let k := dataPkt d p c c.next b.1
          if l.credit 2 && l.room k then
            pump p n (onDev (fun e => srcAsk c.src (4096 * c.next) 4096 <| sendPkt p k (setCmd c.tag (fun x => { x with
              next := x.next + 1
              poisoned := if b.2 && x.poisoned.isNone then some (c.lba + c.next) else x.poisoned }) e))
              (srcPoison c.src (4096 * c.next) 4096 s))
          else s

/-- At most this many packets fit the replay buffer. -/
abbrev pumpMax : Nat := 2048

/-- A packet given to the link. -/
def enqueue (p : Nat) (k : LinkPkt) (d : Dev) : Dev := setLink p (fun x => { x with waiting := x.waiting ++ [k] }) d

/-- A command capsule (Table 12.5). -/
def capsule (op tag lba count arg : Nat) (keyId : List Byte) : LinkPkt :=
  { seq := 0, ty := 1, flags := 0, tag := tag, index := 0, resent := 0
    payload := leBytes 1 op ++ zeros 1 ++ leBytes 2 tag ++ zeros 4 ++ leBytes 8 lba ++ leBytes 4 count ++ zeros 4 ++
      leBytes 8 arg ++ padTo 16 keyId ++ zeros 16 }

/-- Tags in use: by admitted commands, by firmware's own, and by commands that were ended while the magazine still works
on them (R310). -/
def Dev.usedTags (d : Dev) : List Nat :=
  d.rcq.cmds.map RecCmd.tag ++ d.mags.flatMap (fun m => m.own.flatMap (fun o => [o.tag, o.target - 0x10000]))

/-- A tag that no command holds. -/
def Dev.freeTag (d : Dev) : Nat :=
  let used := d.usedTags
  ((List.range (used.length + 1)).find? (fun t => !(used.contains t))).getD 0

/-- A command of firmware's own sent to the magazine. -/
def sendOwn (p op arg : Nat) (keyId : List Byte) (d : Dev) : Dev :=
  let t := d.freeTag
  enqueue p (capsule op t 0 0 arg keyId) (setMag p (fun x => { x with own := x.own ++ [{ tag := t, op := op, target := arg, data := none }] }) d)

/-- Opcodes of Table 12.6 that firmware sends. -/
abbrev opABORT : Nat := 5
abbrev opIDENTIFY : Nat := 6
abbrev opTEMP : Nat := 0x10
abbrev opSLEEP : Nat := 0x11
abbrev opWAKE : Nat := 0x12
abbrev opSETKEY : Nat := 0x13

/-! ## Receiving -/

/-- An ACK with the current limits (R302, R304): DATA_LIMIT 64 and CTRL_LIMIT 1,024 packets ahead. -/
def sendAck (p : Nat) (d : Dev) : Dev :=
  let l := (d.mag p).link
  let dl := (l.dataGot + 64) % 65536
  let cl := (l.ctrlGot + 1024) % 65536
  setLink p (fun x => { x with owing := 0, ackDue := false, dataStated := dl, ctrlStated := cl })
    (sendBlocks p [.ack l.rx dl cl] d)

/-- A packet discarded: the first discard sends NAK (R301). -/
def discardPkt (p : Nat) (d : Dev) : Dev :=
  let l := (d.mag p).link
  if l.nakOut then d else setLink p (fun x => { x with nakOut := true }) (sendBlocks p [.nak l.rx] d)

/-- A good packet taken in sequence (R301 to R304); false when it was discarded. -/
def takePkt (p : Nat) (k : MagPacket) (d : Dev) : Bool × Dev :=
  let l := (d.mag p).link
  if d.magState p ≠ msUP then (false, d)
  else if k.seq ≠ (l.rx + 1) % 4096 then (false, discardPkt p d)
  else
    let d1 := setLink p (fun x => { x with
      rx := k.seq, owing := x.owing + 1, nakOut := false
      dataGot := if k.ty = 2 then (x.dataGot + 1) % 65536 else x.dataGot
      ctrlGot := if k.ty = 2 then x.ctrlGot else (x.ctrlGot + 1) % 65536 }) d
    (true, if 8 ≤ l.owing + 1 then sendAck p d1 else d1)

/-- The packets that ACK_SEQ covers leave the replay buffer; an advance restarts the replay timeout and the counts of
resends (R302, R305, R306). -/
def releasePkts (p seq : Nat) (d : Dev) : Dev :=
  let l := (d.mag p).link
  let rest := l.unacked.filter (fun k => decide (2048 ≤ (seq + 4096 - k.seq) % 4096))
  if rest.length = l.unacked.length then d
  else setLink p (fun x => { x with unacked := rest.map (fun k => { k with resent := 0 }), replayRaw := d.time.raw }) d

/-! ## Lanes and training (R298, R299, R316) -/

/-- A lane of a magazine port changed. -/
def setMagLane (p k : Nat) (f : Lane → Lane) (d : Dev) : Dev := setMag p (fun x => { x with lanes := updAt k f x.lanes }) d

/-- A dwell starts on a magazine lane. -/
def magDwell (p k : Nat) (d : Dev) : Dev :=
  setN (Reg.mln_MATCH_COUNT p k) 0xFFFFFFFF (setMagLane p k (fun l => { l with dwelling := true }) d)

/-- One slip of a magazine lane, over 66 positions (R298). -/
def magSlip (p k : Nat) (d : Dev) : Dev := setN (Reg.mln_SLIP_POS p k) ((d.get (Reg.mln_SLIP_POS p k) + 1) % 66) d

/-- A dwell starts on every lane, in a search or a verification. -/
def magDwells (p : Nat) (step : AlignStep) (d : Dev) : Dev :=
  (List.range 8).foldl (fun e k => magDwell p k (setMagLane p k (fun l => { l with slips := 0, found := false }) e))
    (setMag p (fun x => { x with step := step, armed := false, windowOpen := false, landed := [] }) d)

/-- The STATE that the port sends in TRAIN blocks while it trains (R298); the record holds one stripe of each. -/
def tell (p st : Nat) (d : Dev) : Dev :=
  let x := d.mag p
  sendBlocks p (List.replicate 8 (.train st x.rate (b2n x.fec))) (setMag p (fun y => { y with told := st }) d)

/-- The search of R298 begins on every receive lane; RS-FEC is off until UP, and an open packet is lost. -/
def magSearch (p : Nat) (d : Dev) : Dev :=
  tell p 1 (setMag p (fun x => { x with fecOn := false, packet := none, theirs := false, trains := List.replicate 8 0
                                        heard := List.replicate 8 false, stripes := if x.fecOn then 0 else x.stripes })
    (magDwells p .search ((List.range 8).foldl (fun e k => setN (Reg.mln_LANE_ALIGN p k) 0 e) d)))

/-- All lanes are found: the measurement of R65 from each lane's first ALIGN block. -/
def magDeskew (p : Nat) (d : Dev) : Dev := setMag p (fun x => { x with step := .deskew, armed := true, windowOpen := false, landed := [] }) d

/-- Alignment fails (R66, EV 0x2808). -/
def magAlignFail (p lane reason : Nat) (d : Dev) : Dev :=
  post 0x2808 (p * 16 + min lane 15) lane reason
    (setMag p (fun x => { x with step := .failed, armed := false, windowOpen := false, lanes := x.lanes.map (fun l => { l with dwelling := false }) }) d)

/-- Every lane is deskewed; a port that trains sends STATE 0x02. -/
def magAligned (p : Nat) (d : Dev) : Dev :=
  let d1 := setMag p (fun x => { x with step := .idle, armed := false, windowOpen := false })
    ((List.range 8).foldl (fun e k => setN (Reg.mln_LANE_ALIGN p k) 1 e) d)
  if d.magState p = msUP then d1 else tell p 2 d1

/-- The port's receive lanes are aligned. -/
def Dev.magAlignedAll (d : Dev) (p : Nat) : Bool :=
  decide ((d.mag p).step = .idle) && (List.range 8).all (fun k => d.get (Reg.mln_LANE_ALIGN p k) == 1)

/-- The link goes DOWN to retrain (R299); sequence numbers and unacknowledged packets are kept. -/
def magDown (p : Nat) (d : Dev) : Dev :=
  magSearch p (lanesTo p none (some 3) (setMagState p msDOWN (setLink p (fun x => { x with downRaw := some d.time.raw }) d)))

/-- A retrain in one of the cases of R299: 1 lock, 2 replay limit, 3 TRAIN. -/
def magRetrain (p cause : Nat) (d : Dev) : Dev :=
  if d.magState p ≠ msUP then d
  else magDown p (inc32 (Reg.mag_RETRAINS p) (setLink p (fun x => { x with cause := cause }) d))

/-- A dwell completes on a magazine lane (R64, R69, R298); the matches needed are those of the sensor search. A lane that
fails the dwell after a wake has lost lock. -/
def magDwellDone (p k matched : Nat) (eq : Equaliser) (d : Dev) : Dev :=
  let l := nth (d.mag p).lanes k
  if !l.dwelling then d
  else
    let d1 := setN (Reg.mln_MATCH_COUNT p k) matched (setMagLane p k (fun l => { l with dwelling := false }) d)
    let d2 := if decide ((d.mag p).step = .search) then setN (Reg.mln_EYE_MV p k) eq.eyeMv d1 else d1
    let ok := decide (4090 ≤ matched)
    let d3 := setMagLane p k (fun l => { l with found := true }) d2
    let all := (d3.mag p).lanes.all (fun l => l.found)
    match (d.mag p).step with
    | .verify => if ok then (if all then magAligned p d3 else d3) else if d2.magState p = msUP then magRetrain p 1 d2 else magSearch p d2
    | .search =>
      if ok then (if all then magDeskew p d3 else d3)
      else
        let d4 := setMagLane p k (fun l => { l with slips := l.slips + 1 }) (magSlip p k d2)
        if (nth (d4.mag p).lanes k).slips < 66 then magDwell p k d4 else magAlignFail p k 1 d4
    | _ => d2

/-- The measurement ends (R65, R66). -/
def magDeskewFinish (p : Nat) (d : Dev) : Dev :=
  let x := d.mag p
  let d0 := setMag p (fun x => { x with armed := false, windowOpen := false }) d
  if x.step ≠ .deskew then d0
  else
    match (List.range 8).filter (fun k => !(x.landed.any (fun y => y.1 == k))) with
    | k :: r => (k :: r).foldl (fun e j => magAlignFail p j 2 e) d0
    | [] =>
      let mx := x.landed.foldl (fun m y => max m y.2) 0
      let mn := x.landed.foldl (fun m y => min m y.2) 127
      if 63 < mx - mn then magAlignFail p 15 3 d0
      else magAligned p (x.landed.foldl (fun e y => setN (Reg.mln_DESKEW p y.1) (mx - y.2) e) d0)

/-- A magazine lane's first ALIGN block arrives. -/
def magLanding (p k pos : Nat) (d : Dev) : Dev :=
  let x := d.mag p
  if !x.armed || x.landed.any (fun y => y.1 == k) then d
  else
    let d1 := setMag p (fun y => { y with windowOpen := true, landed := y.landed ++ [(k, if y.windowOpen then pos % 128 else 0)] }) d
    if x.landed.length + 1 = 8 then magDeskewFinish p d1 else d1

/-- The link starts from power-on: both ends number from 0 and no ACK has come (R301, R304). -/
def MagLink.fresh (raw : Nat) : MagLink :=
  { tx := 0, unacked := [], waiting := [], dataSent := 0, ctrlSent := 0, dataLimit := 0, ctrlLimit := 0, opened := false
    replayRaw := raw, rx := 4095, owing := 0, nakOut := false, dataGot := 0, ctrlGot := 0, dataStated := 0, ctrlStated := 0
    ackDue := false, cause := 0, fails := 0, downRaw := none }

/-- Training begins (R298): first at 10.3125 Gb/s without RS-FEC. -/
def magTrain (p : Nat) (d : Dev) : Dev :=
  magSearch p (lanesTo p (some 3) (some 3) (setMagState p msTRAINING d))

/-- Every unacknowledged packet is resent in order (R305); one resent 8 times without an advance of ACK_SEQ makes the link
retrain (R306). -/
def resendAll (p : Nat) (d : Dev) : Dev :=
  let l := (d.mag p).link
  if l.unacked.isEmpty then d
  else if l.unacked.any (fun k => decide (8 ≤ k.resent)) then magRetrain p 2 d
  else
    let d1 := l.unacked.foldl (fun e k => emitPkt p k e) d
    addW 64 (Reg.mag_REPLAYS p) l.unacked.length
      (setLink p (fun x => { x with unacked := x.unacked.map (fun k => { k with resent := k.resent + 1 }), replayRaw := d.time.raw }) d1)

/-! ## Supply and presence (R317) -/

/-- A GP pin named in an entry driven active or not; 0xFF names none, bit 7 makes it active low. -/
def drivePin (pin : Nat) (active : Bool) (d : Dev) : Dev :=
  if pin = 0xFF then d else emit .pin (pin % 64) [b2n (active != decide (128 ≤ pin))] [] d

/-- The supply switched on; the port trains POWER_UP_MS later. -/
def supplyOn (p : Nat) (d : Dev) : Dev :=
  drivePin (d.get (Reg.mag_MAG_PWR_PIN p)) true
    (setMag p (fun x => { x with supply := true, powerRaw := some d.time.raw, wantIdent := true, ready := false, rate := 0, fec := false
                                 link := MagLink.fresh d.time.raw }) d)

/-- The supply switched off, lanes OFF. -/
def supplyOff (p : Nat) (d : Dev) : Dev :=
  drivePin (d.get (Reg.mag_MAG_PWR_PIN p)) false
    (lanesTo p (some 0) (some 0) (setMag p (fun x => { x with supply := false, powerRaw := none, ready := false, step := .idle }) d))

/-- The magazine is there: its presence pin reports it, or there is no such pin. -/
def Dev.magPresent (d : Dev) (p : Nat) : Bool := d.get (Reg.mag_MAG_PRESENT_PIN p) == 0xFF || (d.mag p).present

/-! ## Keys (R319, R320) -/

/-- KEY_ID of a key. -/
def keyId (k : List Byte) : List Byte := (hmacSha256 k (ascii "LMVK-KEYID")).take 16

/-- The KEY_ID check at an IDENTIFY and at a key change (R320). -/
def keyCheck (p : Nat) (d : Dev) : Dev :=
  let x := d.mag p
  let theirs := sliceB (padTo 128 (d.bytes (Reg.mag_MAG_IDENTIFY p))) 0x60 16
  let bad := d.flag (Reg.mag_MAG_ENCRYPT p) && x.ready &&
    (match x.key with
     | none => true
     | some k => theirs != zeros 16 && theirs != keyId k)
  let d1 := setMag p (fun y => { y with mismatch := bad }) d
  if bad then
    post 0x2807 (magInst p) (rdLe theirs 0 4) (match x.key with | some k => rdLe (keyId k) 0 4 | none => 0) d1
  else d1

/-- A held key write or clear takes effect once the port has no command outstanding (R320). -/
def keyApply (p : Nat) (d : Dev) : Dev :=
  match (d.mag p).keyHeld with
  | none => d
  | some k =>
    if d.outstanding p ≠ 0 then d
    else
      keyCheck p (setB (Reg.mag_MAG_KEY_ID p) (match k with | some b => keyId b | none => zeros 16)
        (setMag p (fun x => { x with key := k, keyHeld := none }) d))

/-! ## The port's own sequence -/

/-- The rate and FEC to use: MAG_RATE, or the highest rate both ends support (R295); FEC when both support it. -/
def Dev.magRate (d : Dev) (p : Nat) : Nat × Bool :=
  let rates := d.ident p 6 1
  let want := d.get (Reg.mag_MAG_RATE p)
  let best := ((List.range 4).filter (fun i => bit rates i == 1)).foldl max 0
  (if want ≠ 0xFF ∧ bit rates want = 1 then want else best, d.flag (Reg.mag_MAG_FEC p) && d.ident p 7 1 == 1)

/-- IDENTIFY data is acceptable (R312). -/
def identOk (b : List Byte) : Bool :=
  sliceB b 0 4 == ascii "LMAG" && rdLe b 4 1 == 1 && rdLe b 0x7C 4 == crc32c (b.take 0x7C) && decide (rdLe b 8 8 ≤ 3906250000)

/-- IDENTIFY has answered (R312): a magazine that cannot be used is REJECTED; else its data is reported, EV 0x2801 is
logged, KEY_ID is checked (R320), and the port retrains at its rate (R295). -/
def identified (p : Nat) (b : List Byte) (d : Dev) : Dev :=
  let id := b.take 128
  if !(identOk id) then setMagState p msREJECTED (setMag p (fun x => { x with wantIdent := false, ready := false }) d)
  else
    let cap := rdLe id 8 8 * 4096
    let d1 := setN (Reg.mag_MAG_CAPACITY p) cap (setB (Reg.mag_MAG_IDENTIFY p) id (setMag p (fun x => { x with wantIdent := false, ready := true }) d))
    let d2 := keyCheck p (post 0x2801 (magInst p) (satU32 (cap / 10 ^ 9)) (rdLe id 5 1 * 256 + rdLe id 6 1) d1)
    let r := d2.magRate p
    if r = ((d2.mag p).rate, (d2.mag p).fec) then d2
    else magDown p (setMag p (fun x => { x with rate := r.1, fec := r.2 }) d2)

end Sys2Proof.Machine
end

