-- ==== Sys2Proof/Machine/RecOps.lean ====
section
/-! DEFINITION. The recorder queue: admission (R333 to R335), range locks (R336 to R338), commands at their port and
served (R339 to R342), abort (R343, R344), power states (R345, R346) and completions (R329, R330). -/

namespace Sys2Proof.Machine

/-! ## Namespaces (R331, R332) -/

/-- NS5_SECTORS: the pound without the 16 GiB reserved for firmware at its end. -/
def Dev.ns5 (d : Dev) : Nat := (d.get Reg.dram_MAPPED_BYTES - 2 ^ 34) / 4096

/-- Sectors of a namespace. -/
def Dev.sectors (d : Dev) (ns : Nat) : Nat := if ns = 5 then d.ns5 else d.get (Reg.mag_MAG_CAPACITY (ns - 1)) / 4096

/-- The namespace is ready (R332). A port that retrains or sleeps counts as ready; its commands wait. -/
def Dev.nsReady (d : Dev) (ns : Nat) : Bool :=
  if ns = 5 then
    d.mode == mOFFLOAD || d.mode == mPLAYBACK || (d.mode == mBURST && d.burstDone)
  else
    d.mode != mBOOT && d.mode != mTHERMAL &&
      (d.magState (ns - 1) == msUP || d.ps (ns - 1) != 0 || (d.magState (ns - 1) == msDOWN && (d.mag (ns - 1)).ready))

/-! ## Scatter lists (R328) -/

/-- The outcome of reading a list: its buffers, invalid, or a segment that could not be read. -/
inductive Sgl where
  | ok (l : List (Nat × Nat))
  | invalid
  | failed

/-- The entries of a segment: DATA entries, and a CHAIN only as the last. -/
def sglEntries : Nat → List Byte → List (Nat × Nat) → List (Option (List Byte)) → Sgl
  | 0, _, acc, _ => .ok acc
  | n + 1, b, acc, rest =>
    if b.length < 16 then .ok acc
    else
      let addr := rdLe b 0 8
      let len := rdLe b 8 4
      let fl := rdLe b 12 4 % 4
      if fl = 0 then (if len = 0 then .invalid else sglEntries n (b.drop 16) (acc ++ [(addr, len)]) rest)
      else if fl = 1 then
        if b.length ≠ 16 || len % 16 ≠ 0 then .invalid
        else match rest with
          | some nb :: rest' => if nb.length = len then sglEntries n nb acc rest' else .failed
          | _ => .failed
      else .invalid

/-- The list reached through DPTR; `segs` are the chain segments as read from host memory, in order, none where the read
failed. Its total must be `total` bytes. -/
def sglRead (dptr : List Byte) (segs : List (Option (List Byte))) (total : Nat) : Sgl :=
  let n := 2 + sumN (segs.map (fun x => match x with | some b => b.length / 16 + 1 | none => 1))
  match sglEntries n (padTo 16 dptr) [] segs with
  | .ok l => if sumN (l.map (·.2)) = total then .ok l else .invalid
  | x => x

/-- `b` written to host memory through a scatter list, from offset `o` of its data. -/
def scatter : List (Nat × Nat) → Nat → List Byte → Mem → Mem
  | [], _, _, m => m
  | (a, len) :: r, o, b, m =>
    if len ≤ o then scatter r (o - len) b m
    else scatter r 0 (b.drop (len - o)) (m.writeBytes (a + o) (b.take (len - o)))

/-! ## Locks and order (R336 to R339) -/

/-- The command holds a range lock: a READ, WRITE or TRIM that the arbiter has not taken; one that failed admission
(marked by `next`) holds none. -/
def RecCmd.locks (c : RecCmd) : Bool :=
  (c.op == 1 || c.op == 2 || c.op == 4) && !(decide (c.ph = .taken)) && c.next != 0xFFFFFFFF

/-- It changes its sectors. -/
def RecCmd.writes (c : RecCmd) : Bool := c.op == 2 || c.op == 4

/-- Two commands conflict (R336). -/
def RecCmd.conflicts (a b : RecCmd) : Bool :=
  a.ns == b.ns && (a.writes || b.writes) && decide (a.lba < b.lba + b.count) && decide (b.lba < a.lba + a.count)

/-- The tags each locking command waits for, in order of acceptance: earlier conflicting commands (R336), and later
waiters behind the same command (R337). -/
def waitLists (l : List RecCmd) : List (RecCmd × List Nat) :=
  l.foldl (fun acc c =>
    let xs := (acc.filter (fun y => y.1.conflicts c)).map (fun y => y.1.tag)
    let ds := acc.filter (fun y => (y.1.writes || c.writes) && y.2.any (fun t => xs.contains t))
    acc ++ [(c, xs ++ ds.map (fun y => y.1.tag))]) []

/-- The commands that hold locks, in order of acceptance. -/
def Dev.lockers (d : Dev) : List RecCmd := d.rcq.cmds.filter RecCmd.locks

/-- The command waits under R336 or R337. -/
def Dev.lockWait (d : Dev) (tag : Nat) : Bool := (waitLists d.lockers).any (fun y => y.1.tag == tag && !y.2.isEmpty)

/-- A FLUSH waits for every command of its namespace accepted before it (R339). -/
def Dev.flushWait (d : Dev) (c : RecCmd) : Bool :=
  d.rcq.cmds.any (fun x => x.ns == c.ns && decide (x.seq < c.seq) && !(decide (x.ph = .taken)))

/-! ## Power states (R345, R346) -/

/-- A command starts the exit from PS1 to PS3. -/
def psExit (p : Nat) (d : Dev) : Dev :=
  if d.ps p = 0 || (d.mag p).exiting then d
  else
    let d1 := setMag p (fun x => { x with exiting := true }) d
    if d.ps p = 1 then magDwells p .verify (lanesTo p none (some 3) (sendBlocks p [.idle] d1))
    else if d.ps p = 2 then magSearch p (lanesTo p (some 3) (some 3) (setMagState p msDOWN d1))
    else supplyOn p d1

/-! ## Commands at their port -/

/-- Recorder IDENTIFY data (Table 13.7). -/
def Dev.recIdentify (d : Dev) (ns : Nat) : List Byte :=
  let mag := 1 ≤ ns && ns ≤ 4
  let p := ns - 1
  let head := ascii "LRQI" ++ leBytes 1 1 ++ leBytes 1 ns ++ leBytes 1 (if mag then d.ps p else 0) ++
    leBytes 1 (if mag then d.ident p 5 1 else 0) ++ leBytes 8 (d.sectors ns) ++ leBytes 4 (d.get Reg.ps_PS1_EXIT_US) ++
    leBytes 4 (d.get Reg.ps_PS2_EXIT_US) ++ leBytes 4 (d.get Reg.ps_PS3_EXIT_US) ++ leBytes 4 (d.get Reg.ps_T1_MS) ++
    leBytes 4 (d.get Reg.ps_T2_MS) ++ leBytes 4 (d.get Reg.ps_T3_MS) ++ leBytes 4 65536 ++
    leBytes 2 (16384 - d.get Reg.rcq_INTERNAL_TAG_RESERVE)
  padTo 4096 (padTo 0x80 head ++ (if mag then padTo 128 (d.bytes (Reg.mag_MAG_IDENTIFY p)) else []))

/-- The host is asked for, or offered, a command's data. -/
def askHost (c : RecCmd) (d : Dev) : Dev := emit .pcie c.tag [c.op, c.next] [] d

/-- A command is sent to the magazine (R307), or answered from the cached IDENTIFY data (R349). -/
def sendCmd (p : Nat) (c : RecCmd) (d : Dev) : Dev :=
  if (c.op = 1 || c.op = 2) && (d.mag p).mismatch then endCmd c.tag 0x83 0 0 d
  else
    let d1 := noteHeld p (setCmd c.tag (fun x => { x with ph := .active, heldRaw := none }) d)
    if c.op = 6 then
      if 64 ≤ c.queue then endCmd c.tag 0 1 0 (setCmd c.tag (fun x => { x with got := d.recIdentify c.ns }) d1)
      else askHost c (setCmd c.tag (fun x => { x with buf := [d.recIdentify c.ns] }) d1)
    else
      let d2 := enqueue p (capsule c.op c.tag c.lba c.count (if c.op = 7 then c.arg % 256 else 0) []) d1
      if c.op = 2 && decide (c.queue < 64) then askHost c d2 else d2

/-- A command may be sent now; a WRITE or FLUSH is held while the gate is closed (R315). -/
def portOffer (p : Nat) (c : RecCmd) (d : Dev) : Dev :=
  let m := d.mag p
  if d.magState p ≠ msUP || !m.ready || d.ps p ≠ 0 || m.exiting || m.own.any (fun o => o.op == opSLEEP) then d
  else if (c.op = 2 || c.op = 3) && !(d.flag (Reg.mag_GATE_OPEN p)) then
    noteHeld p (setCmd c.tag (fun x => { x with heldRaw := some (x.heldRaw.getD d.time.raw) }) d)
  else if d.ident p 0x18 2 ≤ d.outstanding p && c.op != 6 then d
  else sendCmd p c d

/-- The commands that wait at a port are offered in order of acceptance, and the link sends what it may. -/
def portRun (p : Nat) (s : State) : State :=
  let l := (s.dev.portCmds p).filter (fun c => decide (c.ph = .atPort))
  pump p pumpMax (onDev (fun d => l.foldl (fun e c => portOffer p c e) d) s)

/-- A range added to some disjoint ranges, joined with those it touches. -/
def coverAdd (a b : Nat) (l : List (Nat × Nat)) : List (Nat × Nat) :=
  let near := l.filter (fun x => decide (x.1 ≤ b) && decide (a ≤ x.2))
  (near.foldl (fun m x => min m x.1) a, near.foldl (fun m x => max m x.2) b) ::
    l.filter (fun x => !(decide (x.1 ≤ b) && decide (a ≤ x.2)))

/-- `n` bytes of the pound from address `a` have been read out. -/
def offloadRead (a n : Nat) (d : Dev) : Dev := { d with offRead := coverAdd a (a + n) d.offRead }

/-- A read of namespace 5 for firmware: the sectors and the first poisoned one (R342). -/
def ns5Read (c : RecCmd) (s : State) : State :=
  let step := fun (a : List Byte × Option Nat) (i : Nat) =>
    let r := poundRead ((c.lba + i) * 4096) 4096 s
    (a.1 ++ r.1, if r.2 && a.2.isNone then some (c.lba + i) else a.2)
  let r := (List.range c.count).foldl step ([], none)
  onDev (fun d => offloadRead (c.lba * 4096) (c.count * 4096)
    (endCmd c.tag 0 c.count 0 (setCmd c.tag (fun x => { x with got := r.1, poisoned := r.2 }) d)))
    (poisonReads (c.lba * 4096) (c.count * 4096) s)

/-- A command that waits for nothing more goes to its port, or is served (R342, R349). -/
def release (c : RecCmd) (s : State) : State :=
  if c.ns = 5 then
    if c.op = 3 then onDev (endCmd c.tag 0 0 0) s
    else if c.op = 6 then
      let b := s.dev.recIdentify 5
      if 64 ≤ c.queue then onDev (fun d => endCmd c.tag 0 1 0 (setCmd c.tag (fun x => { x with got := b }) d)) s
      else onDev (fun d => askHost c (setCmd c.tag (fun x => { x with ph := .active, buf := [b] }) d)) s
    else if 64 ≤ c.queue then ns5Read c s
    else onDev (fun d => askHost c (setCmd c.tag (fun x => { x with ph := .active }) d)) s
  else
    onDev (fun d => psExit (c.ns - 1) (setCmd c.tag (fun x => { x with ph := .atPort }) d)) s

/-- The command may leave the locks now. -/
def Dev.free? (d : Dev) (c : RecCmd) : Bool := if c.op = 3 then !(d.flushWait c) else !(d.lockWait c.tag)

/-- Every command that has become eligible starts, and every port sends what it may (R338). -/
def advance (s : State) : State :=
  let l := s.dev.rcq.cmds.filter (fun c => decide (c.ph = .locked))
  let s1 := l.foldl (fun t c => if t.dev.free? c then release c t else t) s
  (List.range 4).foldl (fun t p => portRun p t) s1

/-! ## Admission (R333 to R335) -/

/-- A submission as the arbiter takes it. -/
structure Submission where
  op : Nat
  cid : Nat
  ns : Nat
  lba : Nat
  count : Nat
  arg : Nat
  dptr : List Byte
  src : List SrcPart

/-- A submission entry (Table 13.1). -/
def sqeOf (b : List Byte) : Submission :=
  { op := rdLe b 0 1, cid := rdLe b 2 2, ns := rdLe b 4 4, lba := rdLe b 8 8, count := rdLe b 0x10 4, arg := rdLe b 0x18 8
    dptr := sliceB b 0x20 16, src := [] }

/-- An internal submission. -/
def IntCmd.sub (c : IntCmd) : Submission :=
  { op := c.op, cid := 0, ns := c.ns, lba := c.lba, count := c.count, arg := 0, dptr := [], src := c.src }

/-- The first entry that waits in a queue: host SQ n, or 64 + i for IQi. -/
def Dev.front (d : Dev) (q : Nat) : Option Submission :=
  if q < 64 then (if d.flag (Reg.sq_SQ_ENABLE q) then (nth d.rcq.fetched q).head?.map sqeOf else none)
  else (nth d.rcq.iqs (q - 64)).head?.map IntCmd.sub

/-- Tags held by host queues. -/
def Dev.hostTags (d : Dev) : Nat := (d.rcq.cmds.filter (fun c => decide (c.queue < 64))).length

/-- The queue's next command finds a tag it may take (R334). -/
def Dev.tagFor (d : Dev) (q : Nat) : Bool :=
  decide (d.rcq.cmds.length < 16384) && (decide (64 ≤ q) || decide (d.hostTags < 16384 - d.get Reg.rcq_INTERNAL_TAG_RESERVE))

/-- A queue's weight. -/
def Dev.weight (d : Dev) (q : Nat) : Nat := if q < 64 then d.get (Reg.sq_SQ_WEIGHT q) else d.get Reg.rcq_INTERNAL_WEIGHT

/-- The queue admitted next, with the admissions left to it in this round (R333). -/
def Dev.nextQueue (d : Dev) : Option (Nat × Nat) :=
  let ok := fun q => (d.front q).isSome && d.tagFor q
  let t := d.rcq.turn
  if ok t && decide (0 < d.rcq.credit) then some (t, d.rcq.credit - 1)
  else
    (((List.range 80).map (fun i => (t + 1 + i) % 80)).find? ok).map (fun q => (q, d.weight q - 1))

/-- A mnemonic's opcode is in Table 13.3, with a GET_LOG page it has. -/
def opValid (x : Submission) : Bool :=
  decide (1 ≤ x.op) && decide (x.op ≤ 7) && (x.op != 7 || x.arg % 256 == 1 || x.arg % 256 == 2)

/-- The internal queue may write during hold-up (HOLDUP_QUEUES): recording and clip store. -/
def holdupQueue (q : Nat) : Bool := q == 64 || q == 65

/-- The admission checks of Table 13.5: none when all pass, else status and INFO. -/
def admitCheck (d : Dev) (q : Nat) (x : Submission) (sgl : Sgl) : Option (Nat × Nat) :=
  let wr := x.op = 2 || x.op = 4
  let rng := x.op = 1 || wr
  if d.mode = mTHERMAL then some (0x85, 0)
  else if !(opValid x) then some (0x04, 0)
  else if x.op = 5 then none
  else if x.ns < 1 ∨ 5 < x.ns ∨ (x.ns ≤ 4 ∧ d.nMags < x.ns) ∨ (x.op = 7 ∧ x.ns = 5) then some (0x86, 0)
  else if wr && x.ns = 5 then some (0x87, 0)
  else if !(d.nsReady x.ns) then some (0x88, 0)
  else if wr && d.holdup && !(holdupQueue q) then some (0x89, 0)
  else if rng && (x.count < 1 || 65536 < x.count) then some (0x04, 0)
  else if rng && d.sectors x.ns < x.lba + x.count then some (0x03, max x.lba (d.sectors x.ns))
  else if 64 ≤ q || x.op = 3 || x.op = 4 then none
  else match sgl with
    | .ok _ => none
    | .invalid => some (0x8A, 0)
    | .failed => some (0x8B, 0)

/-- Bytes a command moves. -/
def Submission.bytes (x : Submission) : Nat := if x.op = 1 || x.op = 2 then x.count * 4096 else 4096

/-- A command accepted with its tag: it leaves its queue, is counted, and is checked; one that fails completes at once
(R335), and any other wakes its port (R346). -/
def admitCmd (q credit tag : Nat) (x : Submission) (segs : List (Option (List Byte))) (s : State) : State :=
  let d := s.dev
  let sgl := if 64 ≤ q then Sgl.ok [] else sglRead x.dptr segs x.bytes
  let c : RecCmd :=
    { tag := tag, seq := d.rcq.accepted, queue := q, cid := x.cid, op := x.op, ns := if x.op = 5 then 0 else x.ns, lba := x.lba
      count := x.count, arg := x.arg, sgl := (match sgl with | .ok l => l | _ => []), src := x.src, ph := .locked, done := 0
      next := 0, status := 0, info := 0, poisoned := none, buf := [], magEnd := none, heldRaw := none, aborter := none, answer := none, got := [] }
  let d1 := inc64 Reg.rcq_ADMITTED (setRcq (fun r => { r with
    cmds := r.cmds ++ [c], accepted := r.accepted + 1, turn := q, credit := credit
    fetched := if q < 64 then updAt q (fun l => l.drop 1) r.fetched else r.fetched
    iqs := if q < 64 then r.iqs else updAt (q - 64) (fun l => l.drop 1) r.iqs }) d)
  match admitCheck d q x sgl with
  | some (st, info) =>
    let d2 := endCmd tag st 0 info (setCmd tag (fun y => { y with next := 0xFFFFFFFF }) d1)
    if st = 0x89 then
      let d3 := setRcq (fun r => { r with refused := r.refused + b2n (x.op == 2) }) d2
      { s with dev := post 0x2903 0xFFFF (satU32 d3.rcq.refused) 3 d3 }
    else { s with dev := d2 }
  | none =>
    let d2 := if d1.lockWait tag && c.op != 3 && c.op != 5 then inc64 Reg.rcq_LOCK_WAITS d1 else d1
    { s with dev := if 1 ≤ c.ns ∧ c.ns ≤ 4 then psExit (c.ns - 1) d2 else d2 }

/-- Commands at the front whose OPCODE is not valid are admitted and complete INVALID, each with the lowest free tag. -/
def admitInvalid : Nat → State → State
  | 0, s => s
  | n + 1, s =>
    match s.dev.nextQueue with
    | none => s
    | some (q, cr) =>
      match s.dev.front q with
      | none => s
      | some x => if 1 ≤ x.op ∧ x.op ≤ 7 then s else admitInvalid n (admitCmd q cr s.dev.freeTag x [] s)

/-- Entries that wait in every queue. -/
def Dev.entriesWaiting (d : Dev) : Nat := sumN (d.rcq.fetched.map List.length) + sumN (d.rcq.iqs.map List.length)

/-- The arbiter admits its next command, when it has opcode `op` and the tag is one it may give; then what follows. -/
def admitNext (op tag : Nat) (segs : List (Option (List Byte))) (after : State → State) (s : State) : State :=
  let s0 := admitInvalid s.dev.entriesWaiting s
  match s0.dev.nextQueue with
  | none => s0
  | some (q, cr) =>
    match s0.dev.front q with
    | none => s0
    | some x =>
      if x.op ≠ op || decide (16384 ≤ tag) || s0.dev.usedTags.contains tag then s0
      else
        let s1 := advance (after (admitCmd q cr tag x segs s0))
        admitInvalid s1.dev.entriesWaiting s1

/-! ## Abort (R343, R344) -/

/-- The target of an ABORT: a command of a host SQ that is outstanding. -/
def Dev.abortTarget (d : Dev) (arg : Nat) : Option RecCmd :=
  d.rcq.cmds.find? (fun c => c.queue == (arg / 65536) % 256 && decide (c.queue < 64) && c.cid == arg % 65536 && c.op != 5)

/-- No further packets of a command are sent. -/
def dropPkts (p tag : Nat) (d : Dev) : Dev :=
  setLink p (fun x => { x with waiting := x.waiting.filter (fun k => k.tag != tag || k.ty == 1) }) d

/-- A magazine command is stopped without an answer awaited for it: its further data and its completion are
discarded (R310, R335). -/
def stopAtMag (p tag : Nat) (d : Dev) : Dev :=
  let t := d.freeTag
  enqueue p (capsule opABORT t 0 0 tag [])
    (setMag p (fun x => { x with own := x.own ++ [{ tag := t, op := opABORT, target := 0x10000 + tag, data := none }] }) (dropPkts p tag d))

/-- An admitted ABORT takes effect by its target's state (R343). -/
def abortEffect (tag : Nat) (d : Dev) : Dev :=
  match d.cmd? tag with
  | none => d
  | some a =>
    if decide (a.ph = .ended) then d
    else
      let a1 := setCmd tag (fun x => { x with ph := .active }) d
      match (if 64 ≤ a.queue then none else d.abortTarget a.arg) with
      | none => endCmd tag 0x08 0 0 a1
      | some c =>
        match c.ph with
        | .locked => endCmd tag 0 0 0 (inc64 Reg.rcq_ABORTS (endCmd c.tag 1 0 0 a1))
        | .atPort => endCmd tag 0 0 0 (inc64 Reg.rcq_ABORTS (endCmd c.tag 1 0 0 a1))
        | .active =>
          if c.ns = 5 || c.op = 6 then endCmd tag 0 0 0 (inc64 Reg.rcq_ABORTS (endCmd c.tag 1 c.done 0 a1))
          else
            let p := c.ns - 1
            let t := a1.freeTag
            enqueue p (capsule opABORT t 0 0 c.tag [])
              (setMag p (fun x => { x with own := x.own ++ [{ tag := t, op := opABORT, target := tag, data := none }] })
                (setCmd c.tag (fun x => { x with aborter := some tag, next := if x.op = 2 then x.count else x.next }) (dropPkts p c.tag a1)))
        | .ended => endCmd tag 0x08 0 0 a1
        | .taken => endCmd tag 0x08 0 0 a1

/-! ## What a magazine sends (R308 to R312) -/

/-- EV 0x2806 (R310). -/
def magProtocol (p tag why : Nat) (d : Dev) : Dev := post 0x2806 (magInst p) tag why d

/-- A command that the magazine damages ends PROTOCOL_ERROR (R310). -/
def protocolEnd (p : Nat) (c : RecCmd) (why : Nat) (d : Dev) : Dev :=
  stopAtMag p c.tag (endCmd c.tag 0x82 c.done 0 (magProtocol p c.tag why d))

/-- An unknown TAG (R310). -/
def unknownTag (p tag : Nat) (d : Dev) : Dev := magProtocol p tag 1 (inc32 (Reg.mag_PROTOCOL_ERRORS p) d)

/-- A command of the port that is at its magazine. -/
def Dev.atMag (d : Dev) (p tag : Nat) : Option RecCmd :=
  (d.portCmds p).find? (fun c => c.tag == tag && decide (c.ph = .active) && c.op != 6)

/-- The tag is of a command stopped by `stopAtMag`. -/
def Dev.stopped (d : Dev) (p tag : Nat) : Bool := (d.mag p).own.any (fun o => o.target == 0x10000 + tag)

/-- A DATA packet taken in sequence (R308): one sector of a READ, or the data of GET_LOG or of firmware's IDENTIFY. -/
def takeData (p : Nat) (k : MagPacket) (d : Dev) : Dev :=
  let tag := k.tag % 16384
  if d.stopped p tag then d
  else if (d.mag p).own.any (fun o => o.tag == tag && o.op == opIDENTIFY) then
    if k.payload.length = 4096 then
      setMag p (fun x => { x with own := x.own.map (fun o => if o.tag = tag then { o with data := some k.payload } else o) }) d
    else magProtocol p tag 3 d
  else match d.atMag p tag with
    | none => unknownTag p tag d
    | some c =>
      if c.op ≠ 1 ∧ c.op ≠ 7 then unknownTag p tag d
      else if k.payload.length ≠ 4096 then protocolEnd p c 3 d
      else if k.index ≠ c.next then protocolEnd p c 2 d
      else
        let b := if c.op = 1 then d.sectorIn p (c.lba + k.index) k.payload else k.payload
        if 64 ≤ c.queue then setCmd tag (fun x => { x with next := x.next + 1, done := x.done + 1, got := x.got ++ b }) d
        else askHost c (setCmd tag (fun x => { x with next := x.next + 1, buf := x.buf ++ [b] }) d)

/-- INFO of a completion: the first failing LBA for MEDIA_ERROR and LBA_RANGE (R329). -/
def magInfo (status info : Nat) : Nat := if status = 2 ∨ status = 3 then info else 0

/-- The magazine has completed a command of the queue; one whose sectors still go to the host completes after them. -/
def magCompleted (c : RecCmd) (status done info : Nat) (d : Dev) : Dev :=
  let d1 := if status = 1 then inc64 Reg.rcq_ABORTS d else d
  if (c.op = 1 || c.op = 7) && !c.buf.isEmpty then
    setCmd c.tag (fun x => { x with magEnd := some (status, done), info := magInfo status info }) d1
  else endCmd c.tag status (if c.op = 7 then b2n (status == 0) else if c.op = 1 && decide (c.queue < 64) then c.done
    else if c.op = 3 then 0 else done) (magInfo status info) d1

/-! ## Transfers to and from the host -/

/-- HOST_DATA_TRANSFER of a READ's, IDENTIFY's or GET_LOG's data: the first waiting sector reaches host memory. -/
def hostWrite (c : RecCmd) (b : List Byte) (s : State) : State :=
  let s1 := { s with hostMem := scatter c.sgl (4096 * c.done) b s.hostMem }
  let rest := c.buf.drop 1
  let s2 := onDev (setCmd c.tag (fun x => { x with done := x.done + 1, buf := rest })) s1
  let n := c.done + 1
  if c.ns = 5 ∧ c.op = 1 then (if n = c.count then
      onDev (fun d => offloadRead (c.lba * 4096) (n * 4096) (endCmd c.tag 0 n 0 d)) s2 else onDev (askHost { c with next := n }) s2)
  else if c.op = 6 then onDev (endCmd c.tag 0 1 0) s2
  else match c.magEnd, rest with
    | some (st, _), [] => onDev (endCmd c.tag st (if c.op = 7 then b2n (st == 0) else n) c.info) s2
    | _, _ => s2

/-- A transfer failed: the command ends at that sector (R335). -/
def hostFail (c : RecCmd) (s : State) : State :=
  onDev (fun d =>
    let n := if c.op = 2 then c.next else c.done
    let d1 := endCmd c.tag 0x8B n 0 d
    if 1 ≤ c.ns ∧ c.ns ≤ 4 ∧ c.op ≠ 6 ∧ c.magEnd.isNone then stopAtMag (c.ns - 1) c.tag d1 else d1) s

/-- A PCI Express transfer of a command's data completes or fails (R335). -/
def hostTransfer (tag : Nat) (ok : Bool) (data : List Byte) (s : State) : State :=
  match s.dev.cmd? tag with
  | none => s
  | some c =>
    if 64 ≤ c.queue || !(decide (c.ph = .active)) || s.dev.ep.d3hot || c.op = 5 || c.op = 3 || c.op = 4 then s
    else if c.op = 2 then
      if c.count ≤ c.next then s
      else if !ok then advance (hostFail c s)
      else
        let p := c.ns - 1
        let s1 := onDev (fun d => enqueue p (dataPkt d p c c.next data)
          (setCmd tag (fun x => { x with next := x.next + 1 }) d)) s
        portRun p s1
    else if c.ns = 5 ∧ c.op = 1 then
      if !ok then advance (hostFail c s)
      else
        let r := poundRead ((c.lba + c.done) * 4096) 4096 s
        let c1 := { c with poisoned := if r.2 && c.poisoned.isNone then some (c.lba + c.done) else c.poisoned }
        let s1 := poisonReads ((c.lba + c.done) * 4096) 4096 s
        advance (hostWrite c1 r.1 (onDev (fun d => poundAsk rqPcie ((c.lba + c.done) * 4096) 4096
          (setCmd tag (fun x => { x with poisoned := c1.poisoned }) d)) s1))
    else match c.buf with
      | [] => s
      | b :: _ => if ok then advance (hostWrite c b s) else advance (hostFail c s)

/-! ## Completions (R329, R330) -/

/-- The command's tag and range lock are free. -/
def freeCmd (tag : Nat) (d : Dev) : Dev := setRcq (fun r => { r with cmds := r.cmds.filter (fun c => c.tag != tag) }) d

/-- CQ `n` has room for an entry (R326). -/
def Dev.cqRoom (d : Dev) (n : Nat) : Bool :=
  d.flag (Reg.cq_CQ_ENABLE n) && !d.ep.d3hot &&
    (d.get (Reg.cq_CQ_TAIL n) + 1) % max 1 (d.get (Reg.cq_CQ_SIZE n)) != d.get (Reg.cq_CQ_HEAD n)

/-- A completion entry (Table 13.2). -/
def cqe (d : Dev) (c : RecCmd) (phase : Bool) : List Byte :=
  leBytes 4 c.info ++ leBytes 4 c.done ++ leBytes 2 (d.get (Reg.sq_SQ_HEAD c.queue)) ++ leBytes 1 c.queue ++ zeros 1 ++
    leBytes 2 c.cid ++ leBytes 2 (c.status * 2 + b2n phase)

/-- The entry written at the CQ's tail, its vector signalled, the tag freed (R330). -/
def writeCqe (c : RecCmd) (s : State) : State :=
  let d := s.dev
  let n := d.get (Reg.sq_SQ_CQ c.queue)
  let t := d.get (Reg.cq_CQ_TAIL n)
  let ph := nth d.rcq.phase n
  let t1 := (t + 1) % max 1 (d.get (Reg.cq_CQ_SIZE n))
  let d1 := setRcq (fun r => { r with phase := updAt n (fun b => if t1 = 0 then !b else b) r.phase }) (setN (Reg.cq_CQ_TAIL n) t1 d)
  let d2 := if d.flag (Reg.cq_CQ_IRQ n) then signal (d.get (Reg.cq_CQ_VECTOR n)) d1 else d1
  { s with dev := freeCmd c.tag d2, hostMem := s.hostMem.writeBytes (d.get (Reg.cq_CQ_BASE n) + 16 * t) (cqe d c ph) }

/-- Completions taken by the arbiter that waited for room are written, in order. -/
def writeTaken (s : State) : State :=
  (s.dev.rcq.cmds.filter (fun c => decide (c.ph = .taken))).foldl (fun t c =>
    if t.dev.cqRoom (t.dev.get (Reg.sq_SQ_CQ c.queue)) then writeCqe c t else t) s

/-- The arbiter takes a host command's completion: it is written, or waits for room in its CQ. -/
def takeHost (c : RecCmd) (s : State) : State :=
  let n := s.dev.get (Reg.sq_SQ_CQ c.queue)
  let behind := s.dev.rcq.cmds.any (fun x => decide (x.ph = .taken) && s.dev.get (Reg.sq_SQ_CQ x.queue) == n)
  if s.dev.cqRoom n && !behind then writeCqe c s
  else onDev (setRcq (fun r => { r with cmds := r.cmds.filter (fun x => x.tag != c.tag) ++ [{ c with ph := .taken }] })) s

/-! ## Queue entries and doorbells (R325, R326, R350) -/

/-- The tail doorbell of SQ n: the entries up to it are fetched (R326); of a disabled queue it is discarded (R376). -/
def sqTail (n v : Nat) (d : Dev) : Dev :=
  if !(d.flag (Reg.sq_SQ_ENABLE n)) then d
  else
    let d1 := setN (Reg.sq_SQ_TAIL n) (v % 65536) d
    if d1.get (Reg.sq_SQ_TAIL n) != d.get (Reg.sq_SQ_HEAD n) then emit .pcie n [0x100, d.get (Reg.sq_SQ_HEAD n), v] [] d1 else d1

/-- The head doorbell of CQ n: entries freed are used by completions that wait (R326); of a disabled queue it is discarded
(R376). -/
def cqHead (n v : Nat) (s : State) : State :=
  if s.dev.flag (Reg.cq_CQ_ENABLE n) then writeTaken (onDev (setN (Reg.cq_CQ_HEAD n) (v % 65536)) s) else s

/-- Entries between an SQ's head and its tail. -/
def Dev.sqAvail (d : Dev) (n : Nat) : Nat :=
  let z := max 1 (d.get (Reg.sq_SQ_SIZE n))
  (d.get (Reg.sq_SQ_TAIL n) + z - d.get (Reg.sq_SQ_HEAD n) % z) % z

/-- SQ_FETCH_DONE: entries fetched from the head on, or a failed fetch that stops the SQ (R350). -/
def sqFetched (n : Nat) (entries : Option (List (List Byte))) (s : State) : State :=
  let d := s.dev
  if !(d.flag (Reg.sq_SQ_ENABLE n)) || d.sqAvail n = 0 || d.ep.d3hot then s
  else match entries with
    | none => onDev (fun e => post 0x2901 n (e.get (Reg.sq_SQ_HEAD n)) 0 (setN (Reg.sq_SQ_ENABLE n) 0 e)) s
    | some l =>
      let k := (l.take (d.sqAvail n)).map (padTo 64)
      let s1 := onDev (fun e => setN (Reg.sq_SQ_HEAD n) ((e.get (Reg.sq_SQ_HEAD n) + k.length) % max 1 (e.get (Reg.sq_SQ_SIZE n)))
        (setRcq (fun r => { r with fetched := updAt n (fun x => x ++ k) r.fetched }) e)) s
      advance (admitInvalid s1.dev.entriesWaiting s1)

/-- Acceptance of the recorder queue's entries (R325, R351). -/
def rcqRule (k : Nat) (v : Val) (d : Dev) : Option (Nat × (Dev → Dev)) :=
  let n := (k / 256) % 0x40
  match v with
  | .bytes _ => none
  | .num x =>
    if 0x2940 ≤ k / 256 ∧ k / 256 < 0x2980 then
      if (k = Reg.sq_SQ_BASE n ∨ k = Reg.sq_SQ_SIZE n ∨ k = Reg.sq_SQ_CQ n ∨ k = Reg.sq_SQ_WEIGHT n) ∧ d.flag (Reg.sq_SQ_ENABLE n) then
        refuse stREFUSED
      else if k = Reg.sq_SQ_BASE n ∧ x % 4096 ≠ 0 then refuse stRANGE
      else none
    else if 0x2980 ≤ k / 256 ∧ k / 256 < 0x29C0 then
      if (k = Reg.cq_CQ_BASE n ∨ k = Reg.cq_CQ_SIZE n) ∧ d.flag (Reg.cq_CQ_ENABLE n) then refuse stREFUSED
      else if k = Reg.cq_CQ_BASE n ∧ x % 4096 ≠ 0 then refuse stRANGE
      else if k = Reg.cq_CQ_ENABLE n ∧ x = 0 ∧
          (List.range 64).any (fun i => d.flag (Reg.sq_SQ_ENABLE i) && d.get (Reg.sq_SQ_CQ i) == n) then refuse stREFUSED
      else none
    else if k = Reg.ps_T2_MS ∧ x < d.get Reg.ps_T1_MS then refuse stRANGE
    else if k = Reg.ps_T2_MS ∧ d.get Reg.ps_T3_MS < x then refuse stRANGE
    else if k = Reg.ps_T3_MS ∧ x < d.get Reg.ps_T2_MS then refuse stRANGE
    else if k = Reg.ps_T1_MS ∧ d.get Reg.ps_T2_MS < x then refuse stRANGE
    else none

/-- The effect of a write: a queue that is enabled starts at index 0, its phase at 1 (R326). -/
def rcqEffect (k : Nat) (v : Val) (s : State) : State :=
  let n := (k / 256) % 0x40
  if k = Reg.sq_SQ_ENABLE n ∧ 0x2940 ≤ k / 256 then
    onDev (fun d =>
      let d1 := setV k v d
      if d1.flag k && !(d.flag k) then setN (Reg.sq_SQ_HEAD n) 0 (setN (Reg.sq_SQ_TAIL n) 0 d1) else d1) s
  else if k = Reg.cq_CQ_ENABLE n ∧ 0x2980 ≤ k / 256 then
    writeTaken (onDev (fun d =>
      let d1 := setV k v d
      if d1.flag k && !(d.flag k) then
        setRcq (fun r => { r with phase := updAt n (fun _ => true) r.phase })
          (setN (Reg.cq_CQ_HEAD n) 0 (setN (Reg.cq_CQ_TAIL n) 0 d1))
      else d1) s)
  else onDev (setV k v) s

/-- A write of a recorder queue entry (Table 13.8). -/
def writeRcq (w : Writer) (k : Nat) (v : Val) : State → WRes :=
  entryWrite w k v (fun t => rcqRule k v t.dev) (fun _ => rcqEffect k v)

end Sys2Proof.Machine
end

