-- ==== Sys2Proof/Machine/ReadEntry.lean ====
section
/-! DEFINITION. The value that a read of an entry returns (R415): as stored, or formed from the state it reports. -/

namespace Sys2Proof.Machine

/-- Elements of a cluster-indexed list as little-endian fields of `n` bytes. -/
def fields (n : Nat) (l : List Nat) : List Byte := l.flatMap (leBytes n)

/-- TRANSFER_TABLE as it stands in the staging copy: rendered for codes 0x01 to 0x04 (R177). -/
def Dev.readTransfer (d : Dev) (v : Nat) : List Byte := fields 4 ((List.range 4096).map (fun u => f32.encode (transferT d.regs v u)))

/-- BASIN_DUMP: in SERVICE, the descriptors of the basin named in BASIN_SELECT, in basin order. -/
def Dev.readBasin (d : Dev) : List Byte :=
  if d.mode = mSERVICE then (basinOrder (nth d.brg.basins (d.get Reg.job_BASIN_SELECT))).flatMap Job.bytes else []

/-- ENERGY_EST in µJ: the mean over the clusters of the estimate for a route (assumption 16). -/
def Dev.readEnergy (d : Dev) (route : Nat) : Nat :=
  let l := (List.range d.nClusters).map (fun c => d.estimate route c)
  f32OfRat ((sumN l : Rat) / 256 / (max 1 d.nClusters : Nat))

/-- VIEW_STATUS. -/
def Dev.readView (d : Dev) (v : Nat) : Nat :=
  b2n (d.viewRuns v) + 2 * b2n (d.view v).commit.isSome + 4 * b2n (!(d.view v).closed)

/-- A pool's entry. -/
def Dev.readPool (d : Dev) (k sub : Nat) : Val :=
  let p := d.pool k
  if sub = 1 then .num (if p.bufs.isEmpty then 0 else p.owner)
  else if sub = 3 then .num p.base
  else if sub = 4 then .num p.bytes
  else if sub = 5 then .num (p.w * 2 ^ 48 + p.h * 2 ^ 32 + p.chroma * 2 ^ 8 + p.depth)
  else .bytes (padTo 512 (fields 8 (p.bufs.map (fun b => b.tag * 2 ^ 32 + b.pins * 2 ^ 8 + b.marks))))

/-- Roles of the internal queues: recording, clip store, offload, playback (R347, R351). -/
def iqRole (i : Nat) : Nat := if i = 0 then 1 else if i = 1 then 3 else if i = 2 then 2 else if i = 3 then 4 else 0

/-- What the manual leaves open of a measurement that no command determines: free for each entry and instant. -/
def Dev.unmeasured (d : Dev) (k w : Nat) : Nat := Config.freeNat (2 ^ 100 + d.time.raw * 2 ^ 24 + k) % 2 ^ w

/-- The IPv4 address in use (R405): static, or the DHCP lease. -/
def Dev.ip (d : Dev) : Nat := if d.get Reg.net_IP_MODE = 0 then (match d.val Reg.net_IP_ADDR with | .num n => n | .bytes _ => 0) else d.net.lease

/-- An entry of a sensor port or its front-end that is not read as stored: TRIG_LAT_NS, the equaliser of a lane that adapts on
live data, and DEFECT_COUNT (R61, R69, R105). -/
def Dev.readPort (d : Dev) (k : Nat) : Option Val :=
  let idx := k / 256
  let p := (idx - 0x0800) / 0x100 % 4
  if 0x0C00 ≤ idx then
    (if k = Reg.itk_DEFECT_COUNT p then some (.num ((d.bytes (Reg.itk_DEFECT_LIST p)).length / 4)) else none)
  else if k = Reg.sen_TRIG_LAT_NS p then some (.num (Config.trigLatNs p % 65536))
  else if d.flag (Reg.sen_CONT_ADAPT p) && (d.port p).rx == 3 && 0x10 ≤ idx % 0x100 && idx % 0x100 < 0x50 then
    let l := idx % 0x100 - 0x10
    if k = Reg.lan_CTLE p l then some (.num (d.unmeasured k 4))
    else if k = Reg.lan_DFE p l then some (.bytes (leBytes 5 (d.unmeasured k 40)))
    else if k = Reg.lan_EYE_MV p l then some (.num (d.unmeasured k 16))
    else none
  else none

/-- The DRAM channels of the ordering code; fields of others read as zero (R292). -/
def Dev.present (d : Dev) : List Nat := (List.range 12).filter d.hasChannel

/-- An entry that reports state held elsewhere; none when the entry is read as stored. -/
def readDerived (s : State) (k : Nat) : Option Val :=
  let d := s.dev
  let idx := k / 256
  let sub := k % 256
  if k = Reg.weir_WEIR_HEADROOM then some (.num (f32OfRat d.brg.headroom))
  else if k = Reg.job_BASIN_LEVEL then some (.bytes (fields 2 ((List.range 8).map (fun c => (nth d.brg.basins c).length))))
  else if k = Reg.job_CLUSTER_ENABLE then some (.num (d.get k % 2 ^ d.nClusters))
  else if k = Reg.weir_CLUSTER_CLOCK_MAX then some (.num (d.get k % 4 ^ d.nClusters))
  else if k = Reg.job_BASIN_DUMP then some (.bytes d.readBasin)
  else if idx = 0x1402 ∧ 1 ≤ sub ∧ sub ≤ 5 then some (.num (d.readEnergy sub))
  else if k = Reg.fab_FABRIC_GRANTS then some (.bytes (fields 8 d.fab.grants))
  else if k = Reg.fab_MAX_GRANT_WAIT then some (.num (satU32 d.fab.longest))
  else if 0x1800 ≤ idx ∧ idx < 0x1C00 then
    let v := (idx - 0x1800) / 0x100
    if k = Reg.view_VIEW_STATUS v then some (.num (d.readView v))
    else if k = Reg.view_OUT_WIDTH v then some (.num (d.viewGeom v).outW)
    else if k = Reg.view_STEP_X v then some (.num (d.viewGeom v).stepX)
    else if k = Reg.view_STEP_Y v then some (.num (d.viewGeom v).stepY)
    else if k = Reg.view_TRANSFER_TABLE v then
      (match d.val k with
       | .bytes b => some (.bytes b)
       | .num _ => some (.bytes (d.readTransfer v)))
    else none
  else if 0x0800 ≤ idx ∧ idx < 0x1000 then d.readPort k
  else if k = Reg.hevg_HEVC_CAPS then some (.num (1 + 2 * b2n d.hasDecode))
  else if k = Reg.hevg_ENC_LOAD_GPXS then some (.num (f32OfRat (d.hevcLoad Dev.encodeRate)))
  else if k = Reg.hevg_DEC_LOAD_GPXS then some (.num (f32OfRat (d.hevcLoad Dev.decodeRate)))
  else if k = Reg.plg_POOLS_IN_USE then some (.num (sumN ((List.range 8).map (fun i => if (d.pool i).bufs.isEmpty then 0 else 2 ^ i))))
  else if 0x1D10 ≤ idx ∧ idx < 0x1D18 ∧ sub ≠ 2 ∧ 1 ≤ sub ∧ sub ≤ 6 then some (d.readPool (idx - 0x1D10) sub)
  else if k = Reg.dram_RANK_RETIRE then some (.num (Nat.land (d.get k) (sumN (d.present.map (fun c => 15 * 16 ^ c)))))
  else if k = Reg.dram_DRAM_THERM_MAP then
    some (.bytes (fields 2 ((List.range 16).map (fun i => Nat.land (rdLe (d.bytes k) (2 * i) 2) (sumN (d.present.map (2 ^ ·)))))))
  else if 0x2410 ≤ idx ∧ idx < 0x241C ∧ sub = 2 then some (.num (d.rankState (idx - 0x2410)))
  else if 0x2410 ≤ idx ∧ idx < 0x241C ∧ sub = 7 then some (.num (d.owedOf (idx - 0x2410)))
  else if k = Reg.rcq_TAGS_IN_USE then some (.num d.rcq.cmds.length)
  else if k = Reg.rcq_NS5_SECTORS then some (.num d.ns5)
  else if k = Reg.rcq_HOLDUP_QUEUES then some (.num 3)
  else if 0x2940 ≤ idx ∧ idx < 0x2980 ∧ sub = 8 then
    some (.num (d.rcq.cmds.filter (fun c => c.queue == idx - 0x2940)).length)
  else if 0x29C0 ≤ idx ∧ idx < 0x29D0 ∧ sub = 1 then some (.num (iqRole (idx - 0x29C0)))
  else if 0x29C0 ≤ idx ∧ idx < 0x29D0 ∧ sub = 2 then
    some (.num (d.rcq.cmds.filter (fun c => c.queue == 64 + (idx - 0x29C0))).length)
  else if k = Reg.stb_PATTERN_TABLE then some (.bytes (poundRead d.patternBase (80 * d.get Reg.stb_PATTERN_LINES) s).1)
  else if k = Reg.tb_TB_NOW then some (.num (tbNow d))
  else if k = Reg.tb_TB_RAW then some (.num d.time.raw)
  else if k = Reg.net_IP_ADDR then some (.num d.ip)
  else if k = Reg.tc_TC_NOW then some (.num (d.timeCodeAt (d.get Reg.tc_TC_RATE) (tbNow d)))
  else if k = Reg.elog_EVT_LOG_NEXT then some (.num s.arb.next)
  else if k = Reg.elog_EVT_LOG_OLDEST then some (.num (match s.arb.ring with | r :: _ => r.seq | [] => s.arb.next))
  else if k = Reg.auth_SESSIONS then some (.num d.srv.sessions.length)
  else if k = Reg.auth_KEY_SLOTS then
    some (.num (sumN ((List.range 8).map (fun i => if (d.bytes (Reg.pkey_PROV_KEY i)).any (fun b => b != 0) then 2 ^ i else 0))))
  else if 0x3810 ≤ idx ∧ idx < 0x3814 ∧ sub = 4 then some (.num 0)
  else if 0x3814 ≤ idx ∧ idx < 0x3818 ∧ sub = 3 then some (.num 0)
  else none

/-- The bytes of a default that the tables name and that the store holds as no bytes: identity, whole frame, unity, zeros,
or the Seusk set (Tables 4.9, 5.7 and 7.5). -/
def Dev.defaultBytes (d : Dev) (k : Nat) : List Byte :=
  let idx := k / 256
  if 0x0C00 ≤ idx ∧ idx < 0x1000 then
    let p := (idx - 0x0C00) / 0x100
    let w := d.get (Reg.itk_WIDTH p)
    let h := d.get (Reg.itk_HEIGHT p)
    if (List.range 3).any (fun i => k == Reg.itk_LIN_TABLE p i) then
      fields 4 ((List.range (d.get (Reg.itk_ADC_GROUPS p))).flatMap (fun _ => (List.range 4097).map (fun j => knot [] 0 j)))
    else if k = Reg.itk_COL_BLACK p then zeros (4 * w)
    else if k = Reg.itk_FLAT_BLOCK p then fields 2 (List.replicate (ceilDiv w 16 * ceilDiv h 16) 0x4000)
    else []
  else if 0x1200 ≤ idx ∧ idx < 0x1240 then
    (if k = Reg.foc_WINDOWS ((idx - 0x1200) / 0x10) then padTo 512 (fields 8 (d.focusWindows ((idx - 0x1200) / 0x10))) else [])
  else if 0x1800 ≤ idx ∧ idx < 0x1C00 then
    let v := (idx - 0x1800) / 0x100
    if k = Reg.view_SHAPER v then
      fields 4 ((List.range 3).flatMap (fun c => (List.range 4096).map (fun u => f32.encode (shaperT [] v c u))))
    else if k = Reg.view_LUT v then
      fields 2 ((List.range 65).flatMap (fun c => (List.range 65).flatMap (fun b => (List.range 65).flatMap (fun a =>
        [f16.encode (lutAt [] v a b c).1, f16.encode (lutAt [] v a b c).2.1, f16.encode (lutAt [] v a b c).2.2]))))
    else if k = Reg.view_COEFF v then
      fields 2 ((List.range 64).flatMap (fun ph => (List.range 8).map (fun i => ofInt 16 (seuskTap ph i))))
    else if k = Reg.view_FC_THRESH v then fields 4 ((List.range 15).map (fun i => seuskThresh i))
    else if k = Reg.view_FC_COLOURS v then
      fields 2 ((List.range 16).flatMap (fun b => (List.range 3).map (fun c => Config.fcColour b c % 65536)))
    else []
  else []

/-- A stored value as a read shows it: one that stands for its default shows the default's bytes. -/
def Dev.shown (d : Dev) (k : Nat) : Val :=
  match d.val k with
  | .bytes [] => .bytes (d.defaultBytes k)
  | v => v

/-- A readable entry's value: COUNT, a derived value, or as stored; a WO entry and one that does not exist have none. -/
def readEntry (s : State) (k : Nat) : Option Val :=
  if k % 256 = 0 then (if rowsOf (k / 256) = [] then none else some (.num (countOf (k / 256))))
  else match rowOf k with
    | none => none
    | some r => if r.acc = .wo then none else some ((readDerived s k).getD (s.dev.shown k))

end Sys2Proof.Machine
end

