-- ==== Sys2Proof/Machine/ClipOps.lean ====
section
/-! DEFINITION. The clip store: its structures on a magazine (R354 to R361), firmware's work on one (R357, R362 to R367),
and the take of RECORD (R362 to R365). -/

namespace Sys2Proof.Machine

/-! ## Structures (Tables 14.1 to 14.6) -/

/-- Sectors of an extent (R354). -/
abbrev extSectors : Nat := 262144

/-- Whole extents of a namespace of `sectors` sectors. -/
def extentsOf (sectors : Nat) : Nat := min 16384 (sectors / extSectors)

/-- A clip table entry as stored (Table 14.3). -/
def ClipEntry.encode (e : ClipEntry) : List Byte :=
  match e.bad with
  | some b => b
  | none =>
    withCrc (padTo 0x7C (leBytes 1 e.state ++ leBytes 1 e.stripe ++ leBytes 1 e.stripes ++ leBytes 1 e.ports ++
      leBytes 4 e.serial ++ leBytes 4 e.take ++ leBytes 2 e.first ++ leBytes 2 e.extents ++ leBytes 8 e.startTb ++
      leBytes 8 e.endTb ++ leBytes 8 e.frames ++ leBytes 4 e.gaps ++ zeros 4 ++ leBytes 8 e.lastIndex ++
      leBytes 8 e.bytes ++ padTo 32 e.name))

/-- The entry that 128 bytes hold; `bad` when its CRC fails (R358). -/
def ClipEntry.decode (b : List Byte) : ClipEntry :=
  { state := rdLe b 0 1, stripe := rdLe b 1 1, stripes := rdLe b 2 1, ports := rdLe b 3 1, serial := rdLe b 4 4, take := rdLe b 8 4
    first := rdLe b 0x0C 2, extents := rdLe b 0x0E 2, startTb := rdLe b 0x10 8, endTb := rdLe b 0x18 8, frames := rdLe b 0x20 8
    gaps := rdLe b 0x28 4, lastIndex := rdLe b 0x30 8, bytes := rdLe b 0x38 8, name := sliceB b 0x40 32
    bad := if rdLe b 0x7C 4 = crc32c (b.take 0x7C) then none else some b }

/-- The clip table (Table 14.1): 4,096 entries of 128 bytes; an entry not used is zeros. -/
def ClipStore.table (c : ClipStore) : List Byte :=
  (List.range 4096).flatMap (fun i => match c.clips.find? (fun x => x.1 == i) with
    | some x => x.2.encode
    | none => zeros 128)

/-- The value of an extent map entry (R355). -/
def ClipStore.extent (c : ClipStore) (n : Nat) : Nat :=
  if n = 0 ∨ extentsOf c.sectors ≤ n then 0xFFFD
  else match c.map.find? (fun x => x.1 == n) with
    | some x => x.2
    | none => 0xFFFF

/-- The extent map. -/
def ClipStore.mapBytes (c : ClipStore) : List Byte := (List.range 16384).flatMap (fun n => leBytes 2 (c.extent n))

/-- The superblock of a copy with sequence number `seq` (Table 14.2). -/
def ClipStore.super (c : ClipStore) (seq : Nat) : List Byte :=
  withCrc (padTo 0xFFC (ascii "LMVK" ++ leBytes 1 1 ++ zeros 3 ++ leBytes 4 seq ++ leBytes 2 (extentsOf c.sectors) ++ zeros 2 ++
    leBytes 8 c.sectors ++ leBytes 4 c.serialNext ++ leBytes 4 (crc32c c.table) ++ leBytes 4 (crc32c c.mapBytes)))

/-- The 137 sectors of a copy are a valid copy (R356). -/
def validCopy (b : List Byte) : Bool :=
  sliceB b 0 4 == ascii "LMVK" && rdLe b 4 1 == 1 && rdLe b 0xFFC 4 == crc32c (b.take 0xFFC) &&
    rdLe b 0x1C 4 == crc32c (sliceB b 4096 524288) && rdLe b 0x20 4 == crc32c (sliceB b 528384 32768)

/-- The store that a valid copy holds. -/
def readCopy (copy : Nat) (b : List Byte) : ClipStore :=
  let entries := (List.range 4096).map (fun i => (i, ClipEntry.decode (sliceB b (4096 + 128 * i) 128)))
  let ext := (List.range 16384).map (fun n => (n, rdLe b (528384 + 2 * n) 2))
  { copy := copy, seq := rdLe b 8 4, sectors := rdLe b 0x10 8, serialNext := rdLe b 0x18 4
    clips := entries.filter (fun x => x.2.state != 0)
    map := ext.filter (fun x => x.1 != 0 && decide (x.1 < extentsOf (rdLe b 0x10 8)) && x.2 != 0xFFFF) }

/-- Free extents, lowest first. -/
def ClipStore.free (c : ClipStore) : List Nat :=
  (List.range (extentsOf c.sectors)).filter (fun n => n != 0 && !(c.map.any (fun x => x.1 == n)))

/-- The lowest FREE clip entry. -/
def ClipStore.freeEntry (c : ClipStore) : Option Nat :=
  (List.range 4096).find? (fun i => !(c.clips.any (fun x => x.1 == i)))

/-- An entry set. -/
def ClipStore.putClip (c : ClipStore) (i : Nat) (e : ClipEntry) : ClipStore :=
  { c with clips := c.clips.filter (fun x => x.1 != i) ++ [(i, e)] }

/-- A chain of extents, from its first on. -/
def ClipStore.chain (c : ClipStore) : Nat → Nat → List Nat
  | 0, _ => []
  | k + 1, n =>
    match c.map.find? (fun x => x.1 == n) with
    | none => []
    | some x => n :: (if x.2 = 0xFFFE then [] else ClipStore.chain c k x.2)

/-- The links of a chain (R355). -/
def chainLinks : List Nat → List (Nat × Nat)
  | [] => []
  | [n] => [(n, 0xFFFE)]
  | n :: m :: r => (n, m) :: chainLinks (m :: r)

/-- The map with a chain replaced by another. -/
def ClipStore.putChain (c : ClipStore) (old new : List Nat) : ClipStore :=
  { c with map := c.map.filter (fun x => !(old.contains x.1)) ++ chainLinks new }

/-- The sector at offset `o` of a chain's stream (R359). -/
def streamSector (chain : List Nat) (o : Nat) : Nat := extSectors * nth chain (o / 2 ^ 30) + (o % 2 ^ 30) / 4096

/-- A run of sectors of a stream from offset `o`, split where the extent ends and at 65,536 sectors. -/
def streamRuns (chain : List Nat) : Nat → Nat → Nat → List (Nat × Nat)
  | 0, _, _ => []
  | f + 1, o, n =>
    if n = 0 then []
    else
      let k := min (min n 65536) (extSectors - (o % 2 ^ 30) / 4096)
      (streamSector chain o, k) :: streamRuns chain f (o + 4096 * k) (n - k)

/-- The part of a source from byte `o`, `n` bytes long; beyond its end zeros. -/
def cutSrc : List SrcPart → Nat → Nat → List SrcPart
  | [], _, _ => []
  | .lit b :: r, o, n =>
    let x := sliceB b o n
    (if x = [] then [] else [.lit x]) ++ cutSrc r (o - b.length) (n - x.length)
  | .mem a len :: r, o, n =>
    let k := min n (len - o)
    (if k = 0 then [] else [.mem (a + o) k]) ++ cutSrc r (o - len) (n - k)

/-- The WRITEs of `n` sectors of a stream from offset `o`, through internal queue `q`. -/
def streamWrites (q : Nat) (chain : List Nat) (o n : Nat) (src : List SrcPart) : List FwOp :=
  let runs := streamRuns chain (n + 1) o n
  (runs.foldl (fun (a : List FwOp × Nat) r =>
    (a.1 ++ [FwOp.cmd q 2 r.1 r.2 (cutSrc src (4096 * a.2) (4096 * r.2))], a.2 + r.2)) ([], 0)).1

/-- A unit header (Table 14.5). -/
def unitHeader (magic : String) (format port size payload frame seq serial prev : Nat) : List Byte :=
  withCrc (padTo 0x3C (ascii magic ++ leBytes 1 1 ++ leBytes 1 format ++ leBytes 1 port ++ zeros 1 ++ leBytes 4 size ++
    leBytes 4 payload ++ leBytes 8 frame ++ leBytes 4 seq ++ leBytes 4 serial ++ leBytes 8 prev))

/-- An index entry (Table 14.6). -/
def indexEntry (kind port frame off size status arg : Nat) : List Byte :=
  leBytes 8 frame ++ leBytes 8 off ++ leBytes 4 size ++ leBytes 4 status ++ leBytes 1 kind ++ leBytes 1 port ++ zeros 2 ++ leBytes 4 arg

/-- The kind of an index entry. -/
def entryKind (b : List Byte) : Nat := rdLe b 0x18 1

/-- An index unit (R361). -/
def indexUnit (c : ClipRun) (serial : Nat) (l : List (List Byte)) : List Byte :=
  padTo 4096 (unitHeader "LCIX" l.length 0xFF 4096 0 0 c.unitSeq serial c.lastIndex ++ l.flatten)

/-! ## Firmware's work on a magazine -/

/-- Internal queues of the recording service, the clip store and the offload service (R347). -/
abbrev iqRec : Nat := 0
abbrev iqClip : Nat := 1
abbrev iqOff : Nat := 2

/-- Firmware's work on port `p` changed. -/
def setFw (p : Nat) (f : FwRun → FwRun) (d : Dev) : Dev := setMag p (fun x => { x with fw := f x.fw }) d

/-- Steps appended to a port's work. -/
def fwAdd (p : Nat) (ops : List FwOp) (d : Dev) : Dev := setFw p (fun f => { f with script := f.script ++ ops }) d

/-- Steps put before the others of a port's work. -/
def fwNext (p : Nat) (ops : List FwOp) (d : Dev) : Dev := setFw p (fun f => { f with script := ops ++ f.script }) d

/-- Nothing is left to do on a port. -/
def Dev.fwIdle (d : Dev) (p : Nat) : Bool := (d.mag p).fw.script.isEmpty

/-- The store of a port's magazine changed. -/
def setStore (p : Nat) (f : ClipStore → ClipStore) (d : Dev) : Dev := setMag p (fun x => { x with store := x.store.map f }) d

/-- The clip on a port changed. -/
def setClip (p : Nat) (f : ClipRun → ClipRun) (d : Dev) : Dev := setMag p (fun x => { x with clip := x.clip.map f }) d

/-- The entries of Table 14.7 that report a port's store. -/
def storeReport (p : Nat) (d : Dev) : Dev :=
  let m := d.mag p
  let open? := match m.clip with
    | some c => c.opened
    | none => false
  match m.store with
  | none =>
    setN (Reg.clp_STORE_STATE p) 0 (setN (Reg.clp_CLIPS p) 0 (setN (Reg.clp_FREE_EXTENTS p) 0 (setN (Reg.clp_CURRENT_CLIP p) 0xFFFF d)))
  | some c =>
    setN (Reg.clp_STORE_STATE p) (if open? then 2 else 1) (setN (Reg.clp_CLIPS p) c.clips.length
      (setN (Reg.clp_FREE_EXTENTS p) (satU16 c.free.length)
        (setN (Reg.clp_CURRENT_CLIP p) (match m.clip with
          | some r => if r.opened then r.clip else 0xFFFF
          | none => 0xFFFF) d)))

/-- Step 1 and 2 of a commit (R357): the table and the map into the copy that is not in use, then FLUSH. -/
def commitOps (q : Nat) (c : ClipStore) : List FwOp :=
  [.cmd iqClip 2 (if c.copy = 0 then 257 else 1) 136 [.lit (c.table ++ c.mapBytes)], .cmd q 3 0 0 []]

/-- The two READs of a store and the choice between its copies (R356). -/
def loadOps : List FwOp := [.cmd iqClip 1 0 137 [], .cmd iqClip 1 256 137 [], .act .loaded]

/-- The store as read (R356, R358): `rs` are the results of the two READs, newest first. -/
def fwLoaded (p : Nat) (rs : List (Nat × List Byte)) (d : Dev) : Dev :=
  let ok := fun (r : Nat × List Byte) => r.1 == 0 && validCopy r.2
  let a := (nth rs 1)
  let b := (nth rs 0)
  let pick := match ok a, ok b with
    | true, true => some (if newer32 (rdLe b.2 8 4) (rdLe a.2 8 4) then (1, b.2) else (0, a.2))
    | true, false => some (0, a.2)
    | false, true => some (1, b.2)
    | false, false => none
  match pick with
  | none => storeReport p (post 0x2A05 p 0 0 (setMag p (fun x => { x with store := none }) d))
  | some (n, bytes) =>
    let c := readCopy n bytes
    let d1 := setMag p (fun x => { x with store := some c }) d
    storeReport p ((c.clips.filter (fun x => x.2.bad.isSome)).foldl (fun e x => post 0x2A06 p x.1 0 e) d1)

/-- Steps 3 and 4 of a commit, when its table, map and first FLUSH have succeeded. -/
def fwSuper (p : Nat) (rs : List (Nat × List Byte)) (d : Dev) : Dev :=
  match (d.mag p).store with
  | none => d
  | some c =>
    if (rs.take 2).all (fun r => r.1 == 0) then
      fwNext p [.cmd iqClip 2 (if c.copy = 0 then 256 else 0) 1 [.lit (c.super ((c.seq + 1) % 2 ^ 32))],
        .cmd iqClip 3 0 0 [], .act .swap] d
    else d

/-- The other copy is in use once its superblock is durable. -/
def fwSwap (p : Nat) (rs : List (Nat × List Byte)) (d : Dev) : Dev :=
  if (rs.take 2).all (fun r => r.1 == 0) then
    setStore p (fun c => { c with copy := 1 - c.copy, seq := (c.seq + 1) % 2 ^ 32 }) d
  else d

/-- The port of a recording unit codes with Amtan (R207). -/
def Dev.codesPort (d : Dev) (p : Nat) : Bool :=
  let c := d.pix p
  (d.codeStream p).isSome && (c.fmt == 1 || c.fmt == 3 || (c.fmt == 0 && c.readouts == 1))

/-- FORMAT of the clip header: Amtan, uncoded or both, over the recording ports. -/
def Dev.clipFormat (d : Dev) (ports : Nat) : Nat :=
  let l := (List.range 4).filter (fun p => bit ports p == 1)
  b2n (l.any d.codesPort) + 2 * b2n (l.any (fun p => !(d.codesPort p)))

/-- A value as it travels (R416). -/
def Ty.wire (t : Ty) (v : Val) : List Byte :=
  match v with
  | .num n => leBytes t.size n
  | .bytes b => if t = .str then leBytes 2 b.length ++ b else b

/-- The records that the settings snapshot covers, in ascending index (R360). -/
def snapIndexes (d : Dev) (ports : Nat) : List Nat :=
  let ps := (List.range 4).filter (fun p => bit ports p == 1)
  ps.flatMap (fun p => (List.range 0x10).map (fun i => 0x0800 + 0x100 * p + i)) ++
  ps.flatMap (fun p => (List.range 0x100).map (fun i => 0x0C00 + 0x100 * p + i)) ++
  ps.flatMap (fun p => (List.range 0x40).map (fun i => 0x1000 + 0x40 * p + i)) ++
  ((List.range 8).filter (fun k => ps.any (fun p => d.codeStream p == some k))).flatMap
    (fun k => (List.range 16).map (fun i => 0x1C10 + 0x10 * k + i))

/-- The snapshot's records in order: those that fit, and whether any was left out (R360). -/
def snapshot (s : State) (ports : Nat) : List Byte × Bool :=
  let keys := (snapIndexes s.dev ports).flatMap (fun i =>
    (rowsOf i).flatMap (fun r => if r.ty = .blob then [] else (List.range r.n).map (fun j => (i, r.sub + j, r.ty))))
  keys.foldl (fun a x =>
    match readEntry s (x.1 * 256 + x.2.1) with
    | none => a
    | some v =>
      let b := x.2.2.wire v
      let rec1 := leBytes 2 x.1 ++ leBytes 1 x.2.1 ++ leBytes 1 x.2.2.code ++ leBytes 2 b.length ++ b
      if a.1.length + rec1.length ≤ 3836 then (a.1 ++ rec1, a.2) else (a.1, true)) ([], false)

/-- The clip header (Table 14.4). The manual does not say where the nominal rate, the time code and the start of a take
that has no frame yet come from: those fields are free (`x`). -/
def clipHeader (s : State) (e : ClipEntry) (x : Nat) : List Byte :=
  let snap := snapshot s e.ports
  let free := fun (i w : Nat) => leBytes w (Config.freeNat (x + i) % 2 ^ (8 * w))
  withCrc (padTo 0xFFC (padTo 0x100 (ascii "LCLP" ++ leBytes 1 1 ++ leBytes 1 e.stripe ++ leBytes 1 e.stripes ++
    leBytes 1 e.ports ++ leBytes 4 e.serial ++ leBytes 4 e.take ++ free 0 8 ++ free 1 4 ++ free 2 4 ++
    padTo 32 (s.dev.bytes Reg.idn_SERIAL) ++ leBytes 1 (s.dev.clipFormat e.ports) ++ zeros 3 ++ free 3 4 ++ free 4 4 ++
    leBytes 4 (snap.1.length + (if snap.2 then 2 ^ 31 else 0))) ++ snap.1))

/-- A member opens its clip (R362): entry, extents, header, commit. -/
def fwOpenTake (p stripe stripes : Nat) (s : State) : State :=
  let d := s.dev
  match (d.mag p).store with
  | none => s
  | some c =>
    match c.freeEntry with
    | none => s
    | some i =>
      let ext := c.free.take (d.get Reg.clip_EXTENT_BATCH)
      let x := d.free
      let e : ClipEntry :=
        { state := 1, stripe := stripe, stripes := stripes, ports := d.take.ports, serial := c.serialNext
          take := d.get Reg.clip_TAKE_ID, first := nth ext 0, extents := ext.length
          startTb := Config.freeNat x % 2 ^ 64, endTb := 0, frames := 0, gaps := 0, lastIndex := 0, bytes := 4096
          name := d.bytes Reg.clip_CLIP_NAME, bad := none }
      let run : ClipRun :=
        { clip := i, chain := ext, off := 4096, unitSeq := 0, pend := [], lastIndex := 0, frames := 0, gaps := 0, first := none
          last := 0, opened := false, queue := if d.mode = mOFFLOAD then iqOff else iqRec }
      let c1 := { (c.putChain [] ext).putClip i e with serialNext := (c.serialNext + 1) % 2 ^ 32 }
      let d1 := setMag p (fun y => { y with store := some c1, clip := some run }) { d with free := d.free + 5 }
      onDev (fun _ => storeReport p (fwNext p [.cmd iqClip 2 (streamSector ext 0) 1 [.lit (clipHeader s e x)], .act .commit, .act .opened] d1)) s

/-- Entries of an index unit counted. -/
def countEntries (l : List (List Byte)) (c : ClipRun) : ClipRun :=
  { c with frames := c.frames + (l.filter (fun b => entryKind b == 1)).length
           gaps := c.gaps + (l.filter (fun b => entryKind b == 2)).length }

/-- One index unit of the first 126 entries that wait: its WRITE, and the clip after it. -/
def indexOne (serial : Nat) (c : ClipRun) : List FwOp × ClipRun :=
  let l := c.pend.take 126
  (streamWrites c.queue c.chain c.off 1 [.lit (indexUnit c serial l)],
   { countEntries l c with off := c.off + 4096, unitSeq := c.unitSeq + 1, pend := c.pend.drop 126, lastIndex := c.off })

/-- Index units as long as 126 entries wait (R363). -/
def indexFull (serial : Nat) : Nat → ClipRun → List FwOp × ClipRun
  | 0, c => ([], c)
  | n + 1, c =>
    if c.pend.length < 126 then ([], c)
    else
      let x := indexOne serial c
      let y := indexFull serial n x.2
      (x.1 ++ y.1, y.2)

/-- A clip closes (R365): the last index unit, the entry's final state, the extents it does not use freed, the table and
map, FLUSH, its report when asked, and the superblock. -/
def fwClose (p : Nat) (report : Bool) (d : Dev) : Dev :=
  match (d.mag p).store, (d.mag p).clip with
  | some c, some r =>
    match c.clips.find? (fun x => x.1 == r.clip) with
    | none => d
    | some (_, e) =>
      let full := indexFull e.serial (r.pend.length / 126 + 1) r
      let room := decide (full.2.off + 4096 ≤ full.2.chain.length * 2 ^ 30)
      let x := if room then indexOne e.serial full.2 else ([], full.2)
      let r1 := x.2
      let keep := r1.chain.take (max 1 (ceilDiv r1.off (2 ^ 30)))
      let e1 := { e with
        state := if r1.opened then 2 else 3, extents := keep.length, startTb := (if r1.opened then d.take.first else if e.stripe = 0 then r1.first else none).getD e.startTb, endTb := r1.last
        frames := r1.frames, gaps := r1.gaps, lastIndex := r1.lastIndex, bytes := r1.off }
      let c1 := (c.putChain r1.chain keep).putClip r.clip e1
      let d1 := setMag p (fun y => { y with store := some c1, clip := some { r1 with chain := keep } }) d
      fwNext p (full.1 ++ x.1 ++ commitOps r1.queue c1 ++ (if report then [.report] else []) ++
        [.act .super, .act (.closed (!r1.opened))]) d1
  | _, _ => d

/-- The clip is closed: EV 0x2A02, or EV 0x2A04 for one recovered. -/
def fwClosed (p : Nat) (recovered : Bool) (d : Dev) : Dev :=
  match (d.mag p).clip with
  | none => d
  | some r => storeReport p (post (if recovered then 0x2A04 else 0x2A02) p r.clip (lo32 r.frames) (setMag p (fun x => { x with clip := none }) d))

/-- Recovery of OPEN clip `i` starts at its first unit (R366). -/
def fwScan (p i : Nat) (d : Dev) : Dev :=
  match (d.mag p).store with
  | none => d
  | some c =>
    match c.clips.find? (fun x => x.1 == i && x.2.state == 1 && x.2.bad.isNone) with
    | none => d
    | some (_, e) =>
      let ch := c.chain (extentsOf c.sectors) e.first
      let run : ClipRun :=
        { clip := i, chain := ch, off := 4096, unitSeq := 0, pend := [], lastIndex := 0, frames := 0, gaps := 0, first := none
          last := 0, opened := false, queue := iqRec }
      fwNext p [.cmd iqClip 1 (streamSector ch 4096) 1 [], .act .scanned] (setMag p (fun x => { x with clip := some run }) d)

/-- A unit header passes the checks of R366 for clip `r` of serial `serial`. -/
def unitOk (r : ClipRun) (serial : Nat) (b : List Byte) : Bool :=
  let size := rdLe b 8 4
  (sliceB b 0 4 == ascii "LCFU" || sliceB b 0 4 == ascii "LCIX") && rdLe b 0x3C 4 == crc32c (b.take 0x3C) &&
    rdLe b 0x1C 4 == serial && rdLe b 0x18 4 == r.unitSeq % 2 ^ 32 && size % 4096 == 0 && size != 0 &&
    decide (r.off + size ≤ r.chain.length * 2 ^ 30)

/-- A header sector has been read: the unit is taken into the index, or the valid stream ends and the clip closes. -/
def fwScanned (p : Nat) (rs : List (Nat × List Byte)) (d : Dev) : Dev :=
  match (d.mag p).store, (d.mag p).clip, rs with
  | some c, some r, (st, b) :: _ =>
    let serial := match c.clips.find? (fun x => x.1 == r.clip) with
      | some x => x.2.serial
      | none => 0
    if st = 0 && unitOk r serial b then
      let size := rdLe b 8 4
      let r1 :=
        if sliceB b 0 4 = ascii "LCIX" then
          let l := (List.range (min 126 (rdLe b 5 1))).map (fun i => sliceB b (0x40 + 32 * i) 32)
          { countEntries l r with pend := [], lastIndex := r.off }
        else
          let rec1 := sliceB b 0x40 256
          let sof := rdLe rec1 0x10 8
          { r with
            pend := r.pend ++ [indexEntry 1 (rdLe b 6 1) (rdLe b 0x10 8) r.off size (rdLe rec1 0x2C 4) (rdLe rec1 0xA0 4)]
            first := some (r.first.getD sof), last := sof }
      let r2 := { r1 with off := r.off + size, unitSeq := r.unitSeq + 1 }
      let d1 := setMag p (fun x => { x with clip := some r2 }) d
      if r2.off < r2.chain.length * 2 ^ 30 then fwNext p [.cmd iqClip 1 (streamSector r2.chain r2.off) 1 [], .act .scanned] d1
      else fwNext p [.act (.close false)] d1
    else fwNext p [.act (.close false)] d
  | _, _, _ => d

/-- The trim of a magazine, 65,536 sectors at a time (R367). -/
def fwTrim (p lba : Nat) (d : Dev) : Dev :=
  let n := d.sectors (p + 1)
  if n ≤ lba then d
  else
    let k := min 65536 (n - lba)
    fwNext p [.cmd iqClip 4 lba k [], .act (.trim (lba + k))] d

/-- An empty store (R367). -/
def emptyStore (sectors : Nat) : ClipStore := { copy := 0, seq := 1, sectors := sectors, serialNext := 1, clips := [], map := [] }

/-- The empty store is written: copy B, copy A and the FLUSH have answered. -/
def fwFormatted (p : Nat) (rs : List (Nat × List Byte)) (d : Dev) : Dev :=
  storeReport p (setMag p (fun x => { x with
    store := if (rs.take 3).all (fun r => r.1 == 0) then some (emptyStore (d.sectors (p + 1))) else none }) d)

/-- The work of CLIP_FORMAT (R367). -/
def formatOps (p : Nat) (d : Dev) : List FwOp :=
  let c := emptyStore (d.sectors (p + 1))
  let body := c.table ++ c.mapBytes
  [.act (.trim 0)] ++ (if d.flag (Reg.mag_MAG_ENCRYPT p) then [.key] else []) ++
    [.cmd iqClip 2 256 137 [.lit (c.super 0 ++ body)], .cmd iqClip 2 0 137 [.lit (c.super 1 ++ body)], .cmd iqClip 3 0 0 [],
     .act .formatted]

/-- A slot's frame has been written to a magazine: it is released, and in OFFLOAD it counts as offloaded (assumption 41). -/
def slotWritten (p i n : Nat) (d : Dev) : Dev :=
  releaseSlot p i n (if d.mode = mOFFLOAD then offloadRead (d.slotAddr p i) (d.get (Reg.itk_SLOT_BYTES p)) d else d)

/-- One step of firmware's own; `rs` are the results since the step before, newest first. -/
def fwAct (p : Nat) (a : FwAct) (rs : List (Nat × List Byte)) (s : State) : State :=
  match a with
  | .loaded => onDev (fwLoaded p rs) s
  | .commit => onDev (fun d => match (d.mag p).store with
      | some c => fwNext p (commitOps iqClip c ++ [.act .super]) d
      | none => d) s
  | .super => onDev (fwSuper p rs) s
  | .swap => onDev (fwSwap p rs) s
  | .openTake stripe stripes => fwOpenTake p stripe stripes s
  | .opened => onDev (fun d => match (d.mag p).clip with
      | some r => storeReport p (post 0x2A01 p r.clip (d.get Reg.clip_TAKE_ID) (setClip p (fun x => { x with opened := true }) d))
      | none => d) s
  | .unitDone port slot frame => onDev (slotWritten port slot frame) s
  | .close report => onDev (fwClose p report) s
  | .closed recovered => onDev (fwClosed p recovered) s
  | .scan i => onDev (fwScan p i) s
  | .scanned => onDev (fwScanned p rs) s
  | .trim lba => onDev (fwTrim p lba) s
  | .formatted => onDev (fwFormatted p rs) s

/-- Firmware goes on with its work on a port until it waits for a command or a report. -/
def fwRun (p : Nat) : Nat → State → State
  | 0, s => s
  | n + 1, s =>
    let f := (s.dev.mag p).fw
    if f.busy then s
    else match f.script with
      | [] => s
      | .report :: _ => s
      | .cmd q op lba count src :: _ =>
        onDev (fun d => setRcq (fun r => { r with
          iqs := updAt q (fun l => l ++ [{ op := op, ns := p + 1, lba := lba, count := count, src := src }]) r.iqs })
            (setFw p (fun x => { x with busy := true }) d)) s
      | .key :: _ =>
        onDev (fun d => sendOwn p opSETKEY 0 (d.bytes (Reg.mag_MAG_KEY_ID p)) (setFw p (fun x => { x with busy := true }) d)) s
      | .act a :: rest =>
        fwRun p n (fwAct p a f.results (onDev (setFw p (fun x => { x with script := rest, results := [] })) s))

/-- Enough rounds for every chain of firmware's own steps between two commands. -/
abbrev fwFuel : Nat := 4096

/-- A command of firmware's work on a port has completed. -/
def fwDone (p status : Nat) (data : List Byte) (s : State) : State :=
  let f := (s.dev.mag p).fw
  if !f.busy then s
  else fwRun p fwFuel (onDev (setFw p (fun x => { x with
    busy := false, script := x.script.drop 1, results := (status, data) :: x.results })) s)

/-- Every port's work goes on. -/
def fwAll (s : State) : State := (List.range 4).foldl (fun t p => fwRun p fwFuel t) s

/-! ## The take (R362 to R365) -/

/-- The magazine of port `p` may record: named in REC_MAGAZINES, UP or asleep, identified, with a store. -/
def Dev.canRecord (d : Dev) (p : Nat) : Bool :=
  bit (d.get Reg.clip_REC_MAGAZINES) p == 1 && (((d.mag p).ready && d.magState p == msUP) || d.ps p != 0)

/-- OPEN clips of a store that no one writes: they were interrupted (R366). -/
def MagPort.openClips (m : MagPort) : List Nat :=
  match m.store, m.clip with
  | some c, none => (c.clips.filter (fun x => x.2.state == 1 && x.2.bad.isNone)).map (·.1)
  | _, _ => []

/-- The take begins to open at PREVIEW → RECORD (R362), and at the entry to SCAN, in which the recording service writes too
(Table 2.2). -/
def takeBegin (d : Dev) : Dev :=
  { d with take := { opening := true, members := [], ports := sumN (d.enabledPorts.map (fun p => 2 ^ p))
                     units := 0, first := none, ended := false, leaving := false }, recQ := [] }

/-- The slots of units that are handed over, released. -/
def releaseUnits (us : List RecUnit) (d : Dev) : Dev :=
  us.foldl (fun e u => match u.info.slot with
    | some i => releaseSlot u.info.port i u.info.frame e
    | none => e) d

/-- The members are fixed: magazines without room are left out with EV 0x2A03 (R362). -/
def takeForm (l : List Nat) (d : Dev) : Dev :=
  let full := fun (p : Nat) => match (d.mag p).store with
    | some c => c.freeEntry.isNone || decide (c.free.length < d.get Reg.clip_EXTENT_BATCH)
    | none => true
  let id := (d.get Reg.clip_TAKE_ID + 1) % 2 ^ 32
  let d1 := (l.filter full).foldl (fun e p => post 0x2A03 p (e.get (Reg.clp_FREE_EXTENTS p)) id e) d
  match l.filter (fun p => !(full p)) with
  | [] => (releaseUnits d1.recQ { d1 with take := { d1.take with opening := false }, recQ := [] })
  | ms =>
    let d2 := setN Reg.clip_TAKE_ID id { d1 with take := { d1.take with opening := false, members := ms } }
    (ms.zipIdx).foldl (fun e x => fwAdd x.1 [.act (.openTake x.2 ms.length)] e) d2

/-- Frames that the take still has to write: units that wait, frames that end or have ended and are to be recorded, and
CODE work. -/
def State.takePending (s : State) : Bool :=
  let d := s.dev
  let info := fun (a : Asm) =>
    { (default : FrameInfo) with partner := a.partner, partnerSof := a.partnerSof, sofId := a.sofId }
  (match d.recLeave with
    | some j => (s.arb.seqFor j).isNone
    | none => false) ||
  d.itk.any (fun x => x.asms.any (fun a => s.records (info a))) || !d.recQ.isEmpty || d.ended.any s.records || d.brg.works.any (fun w => w.route == 2 && !w.dead)

/-- What closes a member's part of the take: its clip, with the FLUSH that leaving RECORD reports; of a member whose clip is
gone with its magazine, that FLUSH alone (R42). -/
def closeOps (report gone : Bool) : List FwOp :=
  if !gone then [.act (.close report)] else if report then [.cmd iqRec 3 0 0 [], .report] else []

/-- The take ends: its members close. -/
def takeClose (report : Bool) (d : Dev) : Dev :=
  d.take.members.foldl (fun x p => fwAdd p (closeOps report ((x.mag p).clip).isNone) x) { d with take := { d.take with ended := true } }

/-- The units that the target does not run shut down once recording is over (Table 2.7, step 6). -/
def releaseStops (d : Dev) : Dev :=
  match d.trans with
  | none => d
  | some t =>
    if t.held && d.take.ended && d.take.members.all d.fwIdle then
      beginStops d.target t.ref { d with trans := some { t with held := false } }
    else d

/-- The take goes on: it opens when the magazines are loaded and their interrupted clips recovered, and on leaving
RECORD it closes when the last recorded frame is written (Table 2.7); so do the takes of SCAN and OFFLOAD, without a report. -/
def takeSettle (pending : Bool) (s : State) : State :=
  let d := s.dev
  let cands := (List.range 4).filter d.canRecord
  if d.take.opening then
    if cands.all d.fwIdle then
      if cands.any (fun p => !(d.mag p).openClips.isEmpty) then
        fwAll (onDev (fun e => cands.foldl (fun x p => fwAdd p ((x.mag p).openClips.map (fun i => .act (.scan i))) x) e) s)
      else fwAll (onDev (takeForm (cands.filter (fun p => (d.mag p).store.isSome))) s)
    else s
  else if (d.take.leaving || (d.mode == mOFFLOAD && !d.take.members.isEmpty)) && !d.take.ended && !pending then
    onDev releaseStops (fwAll (onDev (takeClose (d.mode == mRECORD)) s))
  else onDev releaseStops s

/-- Every member's clip is open, the condition of PREVIEW → RECORD (Table 2.6). -/
def Dev.takeReady (d : Dev) : Bool :=
  !d.take.opening && !d.take.members.isEmpty && d.take.members.all (fun p => d.fwIdle p) &&
    d.take.members.any (fun p => match (d.mag p).clip with
      | some c => c.opened
      | none => false)

/-- RECORD is being left (Table 2.7, step 1): the take closes once its frames are written; a take that has ended is
flushed (R42). -/
def takeLeave (d : Dev) : Dev :=
  if d.take.ended then
    d.take.members.foldl (fun e p => fwAdd p [.cmd iqRec 3 0 0 [], .report] e) { d with take := { d.take with leaving := true } }
  else { d with take := { d.take with leaving := true } }

/-- A FLUSH that leaving RECORD reports is not yet reported. -/
def Dev.flushPending (d : Dev) (p : Nat) : Bool :=
  (d.mag p).fw.script.any (fun o => decide (o = .report) || decide (o = .act (.close true)))

/-- RECORD_FLUSH_DONE: the FLUSH of a recording magazine has completed (R42). -/
def flushDone (p : Nat) (s : State) : State :=
  let f := (s.dev.mag p).fw
  match f.busy, f.script, f.results with
  | false, .report :: rest, r :: _ =>
    fwRun p fwFuel (onDev (fun d => post 0x0205 (p + 1) r.1 0 (setFw p (fun x => { x with script := rest }) d)) s)
  | _, _, _ => s

/-! ## Writing units (R363, R364) -/

/-- An INTERRUPTION is indexed on every member and takes no turn (R363). -/
def takeInterrupt (port us frame : Nat) (d : Dev) : Dev :=
  if d.takeOpen then
    d.take.members.foldl (fun e p => setClip p (fun c => { c with pend := c.pend ++ [indexEntry 3 port frame 0 0 0 us] }) e) d
  else d

/-- What one frame of a recording unit adds: its unit's bytes, or none for a GAP. -/
def RecUnit.unitBytes (u : RecUnit) : Nat := if u.kind = 0 then 0 else 4096 + roundUp u.size 4096

/-- One frame of a unit written to a member's clip: the frame unit and its index entry, or a GAP entry. `edge` is the byte in
which the rows of an uncoded frame end, where they end within one. -/
def writeFrame (serial : Nat) (u : RecUnit) (edge : List Byte) (status : Nat) (c : ClipRun) : List FwOp × ClipRun :=
  let arg := match u.info.partner with
    | some n => lo32 n
    | none => 0xFFFFFFFF
  let c0 := { c with first := some (c.first.getD u.info.sofTb), last := u.info.sofTb }
  if u.kind = 0 then
    let c1 := { c0 with pend := c.pend ++ [indexEntry 2 u.info.port u.info.frame 0 0 status arg] }
    indexFull serial 2 c1
  else
    let size := u.unitBytes
    let head := unitHeader "LCFU" u.kind u.info.port size u.size u.info.frame c.unitSeq serial 0
    let src := [SrcPart.lit head, .mem u.info.recAt 256, .lit (zeros (4096 - 64 - 256))] ++
      (if u.kind = 2 ∧ u.bits < 8 * u.size then
        [.mem u.addr (u.bits / 8), .lit (edge ++ zeros (u.size - u.bits / 8 - edge.length))]
      else [.mem u.addr u.size])
    let c1 := { c0 with
      off := c.off + size, unitSeq := c.unitSeq + 1
      pend := c.pend ++ [indexEntry 1 u.info.port u.info.frame c.off size status arg] }
    let x := indexFull serial 2 c1
    (streamWrites c.queue c.chain c.off (size / 4096) src ++
      (match u.info.slot with
       | some i => [.act (.unitDone u.info.port i u.info.frame)]
       | none => []) ++ x.1, x.2)

/-- The frames of the recording unit at the front: an unpaired frame, or a pair with the lower port first. -/
def Dev.frontUnit (d : Dev) : List RecUnit :=
  match d.recQ with
  | [] => []
  | u :: rest =>
    match u.info.partner with
    | none => [u]
    | some n =>
      match rest.find? (fun x => x.info.port != u.info.port && x.info.frame == n && x.info.partner == some u.info.frame) with
      | some x => if u.info.port < x.info.port then [u, x] else [x, u]
      | none => [u]

/-- The partner of a pair's first frame has yet to be taken up. -/
def Dev.partnerPending (d : Dev) (u : RecUnit) : Bool :=
  match u.info.partner with
  | none => false
  | some n => d.ended.any (fun x => x.port != u.info.port && x.frame == n) ||
      (List.range 4).any (fun p => p != u.info.port && (d.intake p).asms.any (fun a => a.frame == n && a.partner == some u.info.frame))

/-- No free extent remains (R364): the take ends on every member, and later frames are not recorded. -/
def takeFull (p : Nat) (d : Dev) : Dev :=
  let d1 := post 0x2A03 p (d.get (Reg.clp_FREE_EXTENTS p)) (d.get Reg.clip_TAKE_ID) { d with take := { d.take with ended := true } }
  let d2 := releaseUnits d1.recQ { d1 with recQ := [] }
  d2.take.members.foldl (fun e q => if ((e.mag q).clip).isSome then fwAdd q [.act (.close false)] e else e) d2

/-- The chain extended by EXTENT_BATCH extents, or by those that remain, until it holds `need` more bytes; none when no
free extent remains. -/
def extendFor (batch need : Nat) : Nat → ClipStore × ClipRun → Option (ClipStore × ClipRun)
  | 0, _ => none
  | f + 1, (c, r) =>
    if r.off + need ≤ r.chain.length * 2 ^ 30 then some (c, r)
    else match c.free.take batch with
      | [] => none
      | ext => extendFor batch need f (c.putChain r.chain (r.chain ++ ext), { r with chain := r.chain ++ ext })

/-- One more unit of the take written; the first tells when the take began. -/
def countUnit (us : List RecUnit) (d : Dev) : Dev :=
  { d with take := { d.take with units := d.take.units + 1
                                 first := some (d.take.first.getD ((us.head?.map (fun u => u.info.sofTb)).getD 0)) } }

/-- The frames of a unit added to the operations for the store (R364). -/
def unitFrames (serial : Nat) (us : List RecUnit) (s : State) (a : List FwOp × ClipRun) : List FwOp × ClipRun :=
  us.foldl (fun (a : List FwOp × ClipRun) u =>
    let status := match u.info.slot with
      | some _ => rdLe (poundRead u.info.recAt 256 s).1 0x2C 4
      | none => u.info.status
    let edge := if u.bits % 8 = 0 then [] else leBytes 1 (leNat (poundRead (u.addr + u.bits / 8) 1 s).1 % 2 ^ (u.bits % 8))
    let x := writeFrame serial u edge status a.2
    (a.1 ++ x.1, x.2)) a

/-- The catalogue with the entry of a clip that has grown (R363). -/
def grownClip (clip extents bytes : Nat) (c : ClipStore) : ClipStore :=
  match c.clips.find? (fun x => x.1 == clip) with
  | some x => c.putClip clip { x.2 with extents := extents, bytes := bytes }
  | none => c

/-- A unit written to its member's clip: `c`, `r` are the store and the clip before, `c1`, `r1` with room for the unit. -/
def unitWritten (p : Nat) (us : List RecUnit) (s : State) (c : ClipStore) (r : ClipRun) (c1 : ClipStore) (r1 : ClipRun) : Dev :=
  let serial := match c.clips.find? (fun x => x.1 == r.clip) with
    | some x => x.2.serial
    | none => 0
  let grown := r1.chain.length != r.chain.length
  let c2 := if grown then grownClip r.clip r1.chain.length r1.off c1 else c1
  let w := unitFrames serial us s ((if grown then [FwOp.act .commit] else []), r1)
  let d1 := releaseUnits (us.filter (fun u => u.kind == 0)) s.dev
  storeReport p (fwAdd p w.1 (countUnit us (setMag p (fun x => { x with store := some c2, clip := some w.2 }) d1)))

/-- A unit written to the clip `r` of the store `c`, extended for it as `x` says; with no free extent left the member is
full (R363, R364). -/
def writeUnitIn (p : Nat) (us : List RecUnit) (c : ClipStore) (r : ClipRun) (x : Option (ClipStore × ClipRun)) (s : State) :
    State :=
  match x with
  | none => fwAll (onDev (fun d => takeFull p (releaseUnits us d)) s)
  | some (c1, r1) => fwAll (onDev (fun _ => unitWritten p us s c r c1 r1) s)

/-- A unit written to the clip `r` of the store `c`. -/
def writeUnitTo (p : Nat) (us : List RecUnit) (c : ClipStore) (r : ClipRun) (s : State) : State :=
  let need := sumN (us.map RecUnit.unitBytes) + 4096 * ((r.pend.length + us.length) / 126) + 4096
  writeUnitIn p us c r (extendFor (s.dev.get Reg.clip_EXTENT_BATCH) need (c.free.length + 1) (c, r)) s

/-- A recording unit goes to its member (R363, R364). -/
def writeUnit (p : Nat) (us : List RecUnit) (s : State) : State :=
  match (s.dev.mag p).store, (s.dev.mag p).clip with
  | some c, some r => writeUnitTo p us c r s
  | _, _ => onDev (fun d => releaseUnits us (countUnit us d)) s

/-- The recording service writes the unit at the front to the member whose turn it is, when that is port `p` (R363). -/
def takeWrite (p : Nat) (s : State) : State :=
  let d := s.dev
  match d.frontUnit with
  | [] => s
  | us =>
    let m := nth d.take.members (d.take.units % max 1 d.take.members.length)
    if !d.takeOpen || d.take.members.isEmpty || m ≠ p || !(d.fwIdle p) || us.any (fun u => !u.ready) || us.length = 1 && us.any d.partnerPending then s
    else writeUnit p us (onDev (fun e => { e with recQ := us.foldl (fun l u => l.erase u) e.recQ }) s)

end Sys2Proof.Machine
end

