-- ==== Sys2Proof/Machine/MagCmds.lean ====
section
/-! DEFINITION. The commands of the magazine ports (chapter 12), the recorder queue (chapter 13) and the clip store
(chapter 14). -/

namespace Sys2Proof.Machine

/-! ## Shared -/

/-- What follows every command here: entries without a valid OPCODE are admitted, eligible commands start, and the take
goes on. -/
def magSettle (s : State) : State :=
  let s1 := advance (admitInvalid s.dev.entriesWaiting s)
  takeSettle s1.takePending s1

/-- CLK_FAB cycles since an instant of TB_RAW. -/
def Dev.since (d : Dev) (raw : Nat) : Nat := d.time.raw - raw

/-- CLK_FAB cycles in a number of milliseconds. -/
def cyclesOfMs (ms : Nat) : Nat := ms * 1200000

/-- What is left of firmware's work on a port whose magazine is gone: a FLUSH that leaving RECORD reports has ended with
LINK_DOWN, and its report is due (R42). -/
def FwRun.gone (f : FwRun) : FwRun :=
  if f.script.any (fun o => decide (o = .report) || decide (o = .act (.close true))) then
    { (default : FwRun) with script := [.report], results := [(0x81, [])] }
  else default

/-- Firmware's work on a port is dropped with its commands: the completion of one that is out is not firmware's any
more, and its entries in the internal queues are withdrawn. -/
def fwDrop (p : Nat) (d : Dev) : Dev :=
  setRcq (fun r => { r with
    iqs := r.iqs.map (fun l => l.filter (fun c => c.ns != p + 1))
    cmds := r.cmds.map (fun c => if 64 ≤ c.queue ∧ c.ns = p + 1 then { c with aborter := some 0xFFFF } else c) })
    (setMag p (fun x => { x with fw := x.fw.gone, store := none, clip := none }) d)

/-- The write gate set, with EV 0x2804 at a change (R313). The deciding temperature is free when no input is valid. -/
def setGate (p : Nat) (isOpen : Bool) (temp : Option Int) (d : Dev) : Dev :=
  if d.flag (Reg.mag_GATE_OPEN p) = isOpen then d
  else
    let x := match temp with
      | some t => (ofInt 32 t, d)
      | none => (Config.freeNat d.free % 2 ^ 32, (draw d).2)
    post 0x2804 (magInst p) (b2n isOpen) x.1 (setN (Reg.mag_GATE_OPEN p) (b2n isOpen) x.2)

/-- Removal (R321): outstanding, held and waiting commands complete LINK_DOWN, the gate closes, the supply goes off. -/
def magGone (p : Nat) (d : Dev) : Dev :=
  let r := endAll p 0x81 d
  let d1 := setGate p false (d.mag p).temp (post 0x2805 (magInst p) r.1 0 r.2)
  setPs p 0 2 (storeReport p (fwDrop p (setMagState p msABSENT (supplyOff p
    (setMag p (fun x => { x with present := false, exiting := false, wantIdent := false, temp := none, mismatch := false }) d1)))))

/-- The link has gone DOWN: with the presence pin released that is a removal (R321). -/
def downCheck (p : Nat) (d : Dev) : Dev := if d.magState p = msDOWN && !(d.magPresent p) then magGone p d else d

/-! ## Training and retraining (R298, R299) -/

/-- The link is UP (R298): RS-FEC starts at an ALIGN stripe where both ends ask for it. -/
def linkUp (p : Nat) (d : Dev) : Dev :=
  if (d.magState p ≠ msTRAINING ∧ d.magState p ≠ msDOWN) || !(d.magAlignedAll p) then d
  else
    let fec := (d.mag p).fec && (d.mag p).theirs
    let d1 := post 0x2802 (magInst p) (d.mag p).rate (b2n fec)
      (setMagState p msUP (setLink p (fun x => { x with fails := 0, downRaw := none, ackDue := true })
        (setMag p (fun x => { x with fecOn := fec, settled := false, packet := none, stripes := if fec then 0 else x.stripes }) d)))
    let d2 := if (d.mag p).wantIdent then sendOwn p opIDENTIFY 0 [] d1 else d1
    if (d.mag p).exiting && d.ps p == 2 then sendOwn p opWAKE 0 [] d2 else d2

/-- MAG_RETRAIN (R299): lock loss, the replay limit, or TRAIN after UP. -/
def execMagRetrain (p : Fin 4) (cause : Nat) (s : State) : Host.Outcome State Fault Refusal :=
  .next (magSettle (onDev (fun d =>
    if cause = 1 ∨ cause = 3 ∨ (cause = 2 ∧ (d.mag p).link.unacked.any (fun k => decide (8 ≤ k.resent))) then
      downCheck p (magRetrain p cause d)
    else d) s))

/-- A retrain fails after 50 ms; the third in a row makes the port FAILED (R299). -/
def retrainFail (p : Nat) (d : Dev) : Dev :=
  let l := (d.mag p).link
  match l.downRaw with
  | none => d
  | some r =>
    if d.magState p ≠ msDOWN || decide (d.since r < cyclesOfMs 50) then d
    else if l.fails + 1 < 3 then
      magDown p (inc32 (Reg.mag_RETRAINS p) (setLink p (fun x => { x with fails := l.fails + 1 }) d))
    else
      let e := endAll p 0x81 (setMagState p msFAILED (setLink p (fun x => { x with fails := l.fails + 1, downRaw := none }) d))
      post 0x2803 (magInst p) e.1 l.cause (setMag p (fun x => { x with exiting := false, ready := false }) e.2)

/-- MAG_RETRAIN_FAIL (R299). -/
def execMagRetrainFail (p : Fin 4) (s : State) : Host.Outcome State Fault Refusal := .next (magSettle (onDev (retrainFail p) s))

/-! ## Packets (R301 to R310) -/

/-- The answer to a command of firmware's own. -/
def ownDone (p : Nat) (o : OwnCmd) (status : Nat) (info : Nat) (s : State) : State :=
  let s0 := onDev (setMag p (fun x => { x with own := x.own.erase o })) s
  if o.op = opIDENTIFY then
    let old := s.dev.bytes (Reg.mag_MAG_IDENTIFY p)
    let b := if status = 0 then o.data.getD [] else []
    let s1 := onDev (identified p b) s0
    if s1.dev.magState p = msREJECTED then
      onDev (fun d => storeReport p (fwDrop p (setMag p (fun x => { x with exiting := false }) (endAll p 0x81 d).2))) s1
    else if (s1.dev.mag p).store.isSome && old == b.take 128 then s1
    else fwRun p fwFuel (onDev (fun d => fwAdd p loadOps (fwDrop p d)) s1)
  else if o.op = opTEMP then
    let t := toInt 16 (info % 65536)
    if status = 0 ∧ -640 ≤ t ∧ t ≤ 2000 then onDev (setMag p (fun x => { x with temp := some t, tempAge := 0 })) s0 else s0
  else if o.op = opSLEEP then
    onDev (fun d =>
      let d1 := setPs p 2 0 (setMagState p msDOWN (lanesTo p (some 1) (some 1) (setLink p (fun x => { x with downRaw := none }) d)))
      if (d1.portCmds p).any (fun c => decide (c.ph = .atPort)) then psExit p d1 else d1) s0
  else if o.op = opSETKEY then
    fwDone p status [] (if status = 0 then onDev (setMag p (fun x => { x with mismatch := x.mismatch && x.key.isNone })) s0 else s0)
  else if o.op = opABORT ∧ o.target < 0x10000 then onDev (abortAnswered o.target (if status = 0 then 0 else 0x08)) s0
  else s0

/-- A completion packet taken in sequence (R309, R310). -/
def takeCompletion (p : Nat) (k : MagPacket) (s : State) : State :=
  let tag := rdLe k.payload 0 2 % 16384
  let status := rdLe k.payload 2 1
  let done := rdLe k.payload 4 4
  let info := rdLe k.payload 8 8
  let d := s.dev
  if d.stopped p tag then s
  else match (d.mag p).own.find? (fun o => o.tag == tag) with
    | some o =>
      if k.payload.length ≠ 16 then onDev (magProtocol p tag 3) s
      else ownDone p o status info s
    | none =>
      match d.atMag p tag with
      | none => onDev (unknownTag p tag) s
      | some c => if k.payload.length ≠ 16 then onDev (protocolEnd p c 3) s else onDev (magCompleted c status done info) s

/-- A packet as received: taken in sequence or discarded; one of unknown TYPE is discarded after it is acknowledged
(R310). -/
def packetIn (p : Nat) (k : MagPacket) (s : State) : State :=
  let r := takePkt p k s.dev
  let s1 := { s with dev := r.2 }
  if !r.1 then s1
  else if k.ty = 2 then onDev (takeData p k) s1
  else if k.ty = 3 then takeCompletion p k s1
  else onDev (magProtocol p (k.tag % 16384) 4) s1

/-- An ACK (R303): packets released, limits updated. -/
def ackIn (p seq dl cl : Nat) (d : Dev) : Dev :=
  if d.magState p ≠ msUP then d
  else setLink p (fun x => { x with dataLimit := dl % 65536, ctrlLimit := cl % 65536, opened := true }) (releasePkts p (seq % 4096) d)

/-- A NAK (R305): every unacknowledged packet is resent. -/
def nakIn (p seq : Nat) (d : Dev) : Dev :=
  if d.magState p ≠ msUP then d else downCheck p (resendAll p (releasePkts p (seq % 4096) d))

/-- A LANE_SLEEP (R316): bit 0, the magazine's transmitter sleeps next; bit 1, the Etulaiq's transmitter is asked to. -/
def sleepIn (p mode : Nat) (d : Dev) : Dev :=
  if d.magState p ≠ msUP then d
  else
    let d1 := if bit mode 0 = 1 then lanesTo p none (some 2) d else d
    if bit mode 1 = 1 ∧ d.get (Reg.mln_LANE_POWER p 0) / 16 = 3 then sleepTx p false d1 else d1

/-! ## The stream of blocks (R296 to R301) -/

/-- A TRAIN block on a lane (R298): STATE 0x03 is sent once STATE 0x02 or 0x03 has come on every lane, and 16 in a row with
STATE 0x03 on every lane make the link UP. After UP it makes the link retrain (R299), but for the last blocks of the
training itself (assumption 264). -/
def trainIn (p k st fec : Nat) (d : Dev) : Dev :=
  if d.magState p = msUP then (if (d.mag p).settled then downCheck p (magRetrain p 3 d) else d)
  else if !(d.magAlignedAll p) then d
  else
    let d1 := setMag p (fun x => { x with
      trains := updAt k (fun n => if st = 3 then n + 1 else 0) x.trains
      heard := updAt k (fun h => h || decide (2 ≤ st)) x.heard, theirs := fec == 1 }) d
    let d2 := if (d1.mag p).heard.all (fun h => h) && (d1.mag p).told != 3 then tell p 3 d1 else d1
    if (d2.mag p).trains.all (fun n => decide (16 ≤ n)) then linkUp p d2 else d2

/-- A packet whose last block has come: discarded where a block of it was invalid or its CRC fails (R301). -/
def packetEnd (p : Nat) (b : List Byte) (bad : Bool) (s : State) : State :=
  let s1 := onDev (setMag p (fun x => { x with packet := none })) s
  match (if bad then none else packetOf b) with
  | none => onDev (fun d => if d.magState p = msUP then discardPkt p d else d) s1
  | some k => packetIn p k s1

/-- A block of the stream other than TRAIN: control blocks act at once and leave packets as they are; the others make up
packets, as R57 has it for the stripe link. -/
def packetBlock (p : Nat) (b : MagBlock) (s : State) : State :=
  let put := fun (x : Option (List Byte × Bool)) => onDev (setMag p (fun y => { y with packet := x })) s
  match (s.dev.mag p).packet, b with
  | _, .align _ _ => s
  | _, .train _ _ _ => s
  | _, .ack q dl cl => onDev (ackIn p q dl cl) s
  | _, .nak q => onDev (nakIn p q) s
  | _, .sleep m => onDev (sleepIn p m) s
  | none, .start => put (some ([], false))
  | none, .data x => put (some (x, true))
  | none, _ => s
  | some (l, bad), .data x => put (some (l ++ x, bad))
  | some (l, bad), .term => packetEnd p l bad s
  | some (l, _), .start => onDev (setMag p (fun y => { y with packet := some ([], false) })) (packetEnd p l true s)
  | some (l, _), .invalid => put (some (l, true))
  | some _, .idle => s

/-- A block that a lane has received. -/
def magBlock (p k : Nat) (b : MagBlock) (s : State) : State :=
  match b with
  | .train st _ fec => onDev (trainIn p k st fec) s
  | .align _ _ => s
  | b =>
    if s.dev.magState p = msUP then packetBlock p b (onDev (setMag p (fun x => { x with settled := true })) s)
    else onDev (setMag p (fun x => { x with trains := updAt k (fun _ => 0) x.trains })) s

/-- The physical lane at a logical place of the port (R296). -/
def Dev.magLaneAt (d : Dev) (p j : Nat) : Nat := ((List.range 8).find? (fun k => d.get (Reg.mln_LOGICAL p k) == j)).getD j

/-- A block as a lane takes it in: a looped lane ignores what is outside, a far-end loop sends it again (R318); descrambled,
and without RS-FEC its sync header watched as R67 has it (assumption 265). -/
def magReceive (p k : Nat) (raw : Nat × Nat) (d : Dev) : MagBlock × Dev :=
  let loop := d.get (Reg.mln_LOOP p k)
  if loop = 1 ∨ loop = 2 then (.invalid, d)
  else
    let d0 := if loop = 3 then emit .magLink p [3, k] (leBytes 1 raw.1 ++ leBytes 8 raw.2) d else d
    let l := nth (d.mag p).lanes k
    let r := descramble l.descr (raw.2 % 2 ^ 64)
    let heads := if (d.mag p).fecOn then [] else ((raw.1 == 1 || raw.1 == 2) :: l.heads).take 64
    let d1 := setMagLane p k (fun x => { x with descr := r.2, heads := heads }) d0
    (magBlockOf raw.1 r.1,
      if 16 ≤ heads.countP (fun g => !g) then downCheck p (magRetrain p 1 (setMagLane p k (fun x => { x with heads := [] }) d1)) else d1)

/-- A stripe: in an ALIGN stripe every lane carries ALIGN, or it has lost lock (R67, R299), and while lanes are deskewed each
carries its own number (R66). -/
def magStripe (p : Nat) (stripe : List (Nat × Nat)) (s : State) : State :=
  let r := (List.range 8).foldl (fun (a : List MagBlock × Dev) k =>
    let x := magReceive p k (stripe.getD k (3, 0)) a.2
    (a.1 ++ [x.1], x.2)) ([], s.dev)
  let isAlign := fun (b : MagBlock) => match b with | .align _ _ => true | _ => false
  let wrong := fun (k : Nat) => match nth r.1 k with | .align n _ => n != r.2.get (Reg.mln_LOGICAL p k) | _ => false
  let s1 := { s with dev := r.2 }
  if r.1.any isAlign then
    if r.2.magState p = msUP then (if r.1.all isAlign then s1 else onDev (fun d => downCheck p (magRetrain p 1 d)) s1)
    else if decide ((r.2.mag p).step = .deskew) then
      (match (List.range 8).find? wrong with
       | some k => onDev (magAlignFail p k 4) s1
       | none => s1)
    else s1
  else (List.range 8).foldl (fun t j => magBlock p (t.dev.magLaneAt p j) (nth r.1 (s.dev.magLaneAt p j)) t) s1

/-- The codewords of the lanes (R297): each is corrected, or its 80 blocks are invalid; what it counts as is counted. -/
def magWords (p : Nat) (l : List (List Nat)) (d : Dev) : List (List (Nat × Nat)) × Dev :=
  (List.range 8).foldl (fun (a : List (List (Nat × Nat)) × Dev) k =>
    let w := nth l k
    let r := fecBlocks (nth (d.mag p).lanes k).descr (if bit (d.get (Reg.mln_INVERT p k)) 0 = 1 then w.map (fun x => 1023 - x % 1024) else w)
    (a.1 ++ [r.1], if r.2 = 1 then addW 64 (Reg.mln_FEC_CORRECTED p k) 1 a.2
      else if r.2 = 2 then addW 64 (Reg.mln_FEC_UNCORRECTED p k) 1 a.2 else a.2)) ([], d)

/-- What the receive lanes take in while they are ACTIVE: stripes while RS-FEC is off, codewords while it runs. -/
def magFeed (p : Nat) (rx : MagRx) (s : State) : State :=
  let d := s.dev
  if d.get (Reg.mln_LANE_POWER p 0) % 16 ≠ 3 then s
  else match rx, (d.mag p).fecOn with
    | .stripes l, false =>
      l.foldl (fun t x => magStripe p ((List.range 8).map (fun k =>
        let b := x.getD k (3, 0)
        if bit (d.get (Reg.mln_INVERT p k)) 0 = 1 then invertBlock b else b)) t) s
    | .words l, true =>
      let r := magWords p l d
      (List.range 80).foldl (fun t i => magStripe p (r.1.map (fun b => nth b i)) t) { s with dev := r.2 }
    | _, _ => s

/-- MAG_LINK_UP (R298): the blocks that end training. -/
def execMagLinkUp (p : Fin 4) (rx : MagRx) (s : State) : Host.Outcome State Fault Refusal := .next (magSettle (magFeed p rx s))

/-- MAG_PACKET_DISCARD (R301): a packet with a CRC failure, an invalid block or an unexpected SEQ. -/
def execMagPacketDiscard (p : Fin 4) (rx : MagRx) (s : State) : Host.Outcome State Fault Refusal := .next (magSettle (magFeed p rx s))

/-- MAG_DATA_PACKET (R308). -/
def execMagDataPacket (p : Fin 4) (rx : MagRx) (s : State) : Host.Outcome State Fault Refusal := .next (magSettle (magFeed p rx s))

/-- MAG_COMPLETION (R309). -/
def execMagCompletion (p : Fin 4) (rx : MagRx) (s : State) : Host.Outcome State Fault Refusal := .next (magSettle (magFeed p rx s))

/-- ACK_RECEIVED (R303): the link sends what it may. -/
def execAckReceived (p : Fin 4) (a : MagAck) (s : State) : Host.Outcome State Fault Refusal :=
  .next (magSettle (onDev (ackIn p a.seq a.data a.ctrl) s))

/-- NAK_RECEIVED (R305). -/
def execNakReceived (p : Fin 4) (a : MagAck) (s : State) : Host.Outcome State Fault Refusal :=
  .next (magSettle (onDev (nakIn p a.seq) s))

/-- ACK_TIMER (R302, R304). -/
def execAckTimer (p : Fin 4) (s : State) : Host.Outcome State Fault Refusal :=
  .next (onDev (fun d =>
    let l := (d.mag p).link
    let adv := fun (got ahead stated : Nat) => decide (16 ≤ (got + ahead + 65536 - stated) % 65536)
    if d.magState p = msUP && (decide (0 < l.owing) || l.ackDue || adv l.dataGot 64 l.dataStated || adv l.ctrlGot 1024 l.ctrlStated) then
      sendAck p d
    else d) s)

/-- REPLAY_TIMEOUT (R305). -/
def execReplayTimeout (p : Fin 4) (s : State) : Host.Outcome State Fault Refusal :=
  .next (magSettle (onDev (fun d =>
    let l := (d.mag p).link
    if d.magState p = msUP && !l.unacked.isEmpty && decide (cyclesOfNs (d.get (Reg.mag_REPLAY_TIMEOUT_NS p)) ≤ d.since l.replayRaw) then
      downCheck p (resendAll p d)
    else d) s))

/-! ## Lane power (R316) -/

/-- LANE_SLEEP_RECEIVED (R316). -/
def execLaneSleepReceived (p : Fin 4) (mode : Nat) (s : State) : Host.Outcome State Fault Refusal := .next (onDev (sleepIn p mode) s)

/-- SLEEPING_TRANSMITTER_WAKE: the receive lanes verify their alignment with one dwell; `matched` is what each lane's dwell
counted. Lanes that fail it have lost lock (R299). -/
def execSleepingTransmitterWake (p : Fin 4) (matched : List Nat) (s : State) : Host.Outcome State Fault Refusal :=
  .next (magSettle (onDev (fun d =>
    if d.magState p ≠ msUP || d.get (Reg.mln_LANE_POWER p 0) % 16 != 2 then d
    else
      let d1 := (List.range 8).foldl (fun e k => setN (Reg.mln_MATCH_COUNT p k) (min (nth matched k) (2 ^ 32 - 1)) e)
        (lanesTo p none (some 3) d)
      if (List.range 8).all (fun k => decide (4090 ≤ nth matched k)) then d1 else downCheck p (magRetrain p 1 d1)) s))

/-! ## The gate, presence, supply and keys (R315, R317, R319 to R321) -/

/-- TEMP_HOLD_TIMEOUT: held commands that have waited MAG_HOLD_TIMEOUT_S complete and are never sent. -/
def execTempHoldTimeout (p : Fin 4) (s : State) : Host.Outcome State Fault Refusal :=
  .next (magSettle (onDev (fun d =>
    let l := (d.portCmds p).filter (fun c => decide (c.ph = .atPort) && (match c.heldRaw with
      | some r => decide (cyclesOfMs (1000 * d.get (Reg.mag_MAG_HOLD_TIMEOUT_S p)) ≤ d.since r)
      | none => false))
    l.foldl (fun e c => endCmd c.tag 0x80 0 0 e) d) s))

/-- MAG_REMOVED (R321): the presence pin reports removal. -/
def execMagRemoved (p : Fin 4) (s : State) : Host.Outcome State Fault Refusal :=
  .next (magSettle (onDev (fun d =>
    if d.get (Reg.mag_MAG_PRESENT_PIN p) = 0xFF || !(d.mag p).present then d else magGone p d) s))

/-- MAG_INSERTED (R317): the port drives the supply on. -/
def execMagInserted (p : Fin 4) (s : State) : Host.Outcome State Fault Refusal :=
  .next (onDev (fun d =>
    if d.get (Reg.mag_MAG_PRESENT_PIN p) = 0xFF || (d.mag p).present || decide (d.nMags ≤ p) then d
    else
      let d1 := setMag p (fun x => { x with present := true }) d
      if d.runs (.mag p) then supplyOn p d1 else d1) s)

/-- POWER_UP_MS of the port's magazine: as it reported, and until it has, the most a magazine may take. -/
def Dev.powerUpMs (d : Dev) (p : Nat) : Nat := if (d.bytes (Reg.mag_MAG_IDENTIFY p)).any (fun b => b != 0) then d.ident p 0x1C 2 else 700

/-- MAG_POWER_UP_DONE (R317): training starts. -/
def execMagPowerUpDone (p : Fin 4) (s : State) : Host.Outcome State Fault Refusal :=
  .next (onDev (fun d =>
    match (d.mag p).powerRaw with
    | none => d
    | some r =>
      if (d.mag p).supply && decide (cyclesOfMs (d.powerUpMs p) ≤ d.since r) then magTrain p (setMag p (fun x => { x with powerRaw := none }) d)
      else d) s)

/-- The rule of R314 for the bounds of the write window. -/
def writeWindowRule (p k : Nat) (v : Val) (d : Dev) : Option (Nat × (Dev → Dev)) :=
  match v with
  | .bytes _ => none
  | .num n =>
    match f32v n with
    | .fin neg q =>
      let x := if neg then -q else q
      let q32 := fun (m : Nat) => match f32v m with
        | .fin ng y => if ng then -y else y
        | _ => 0
      let lo := if k = Reg.mag_MAG_WRITE_MIN_C p then x else q32 (d.get (Reg.mag_MAG_WRITE_MIN_C p))
      let hi := if k = Reg.mag_MAG_WRITE_MAX_C p then x else q32 (d.get (Reg.mag_MAG_WRITE_MAX_C p))
      if x < -10 ∨ 75 < x then refuse stRANGE else if hi < lo + 10 then refuse stREFUSED else none
    | _ => refuse stRANGE

/-- A write of a magazine port's entries M, M+1 and M+2 (Table 12.9). -/
def writeMag (w : Writer) (k : Nat) (v : Val) : State → WRes :=
  let p := (k / 256 - 0x2810) / 0x20
  entryWrite w k v
    (fun s => if k = Reg.mag_MAG_WRITE_MIN_C p ∨ k = Reg.mag_MAG_WRITE_MAX_C p then writeWindowRule p k v s.dev else none)
    (fun _ s =>
      if k = Reg.mag_MAG_KEY p then
        (match v with
         | .bytes b => onDev (setMag p (fun x => { x with keyHeld := some (some b) })) s
         | .num _ => s)
      else if k = Reg.mag_MAG_KEY_CLEAR p then
        (if v = .num 1 then onDev (setMag p (fun x => { x with keyHeld := some none })) s else s)
      else onDev (setV k v) s)

/-- MAG_KEY (R319). -/
def execMagKey (w : Writer) (p : Fin 4) (key : List Byte) (s : State) : Host.Outcome State Fault Refusal :=
  .next (finishWrite s (writeMag w (Reg.mag_MAG_KEY p) (.bytes key) s))

/-- MAG_KEY_CLEAR (R319). -/
def execMagKeyClear (w : Writer) (p : Fin 4) (s : State) : Host.Outcome State Fault Refusal :=
  .next (finishWrite s (writeMag w (Reg.mag_MAG_KEY_CLEAR p) (.num 1) s))

/-- MAG_KEY_APPLY (R320). -/
def execMagKeyApply (p : Fin 4) (s : State) : Host.Outcome State Fault Refusal := .next (onDev (keyApply p) s)

/-! ## The recorder queue (R325, R326, R333 to R344) -/

/-- SQ_TAIL_DB (R326). -/
def execSqTailDb (n : Fin 64) (v : Nat) (s : State) : Host.Outcome State Fault Refusal :=
  .next (if s.dev.ep.d3hot then s else onDev (sqTail n v) s)

/-- CQ_HEAD_DB (R326): entries freed are used by completions that wait. -/
def execCqHeadDb (n : Fin 64) (v : Nat) (s : State) : Host.Outcome State Fault Refusal :=
  .next (if s.dev.ep.d3hot then s else magSettle (cqHead n v s))

/-- SQ_FETCH_DONE (R326, R350). -/
def execSqFetchDone (n : Fin 64) (entries : Option (List (List Byte))) (s : State) : Host.Outcome State Fault Refusal :=
  .next (magSettle (sqFetched n entries s))

/-- SQ_ENABLE (R325). -/
def execSqEnable (w : Writer) (n : Fin 64) (v : Bool) (s : State) : Host.Outcome State Fault Refusal :=
  .next (finishWrite s (writeRcq w (Reg.sq_SQ_ENABLE n) (.num (b2n v)) s))

/-- CQ_ENABLE (R325). -/
def execCqEnable (w : Writer) (n : Fin 64) (v : Bool) (s : State) : Host.Outcome State Fault Refusal :=
  .next (finishWrite s (writeRcq w (Reg.cq_CQ_ENABLE n) (.num (b2n v)) s))

/-- CMD_READ (R336, R342). -/
def execCmdRead (tag : Nat) (segs : List (Option (List Byte))) (s : State) : Host.Outcome State Fault Refusal :=
  .next (magSettle (admitNext 1 tag segs (fun t => t) s))

/-- CMD_WRITE (R339). -/
def execCmdWrite (tag : Nat) (segs : List (Option (List Byte))) (s : State) : Host.Outcome State Fault Refusal :=
  .next (magSettle (admitNext 2 tag segs (fun t => t) s))

/-- CMD_FLUSH (R339, R340). -/
def execCmdFlush (tag : Nat) (s : State) : Host.Outcome State Fault Refusal :=
  .next (magSettle (admitNext 3 tag [] (fun t => t) s))

/-- CMD_TRIM (R339). -/
def execCmdTrim (tag : Nat) (s : State) : Host.Outcome State Fault Refusal :=
  .next (magSettle (admitNext 4 tag [] (fun t => t) s))

/-- CMD_ABORT (R343, R344). -/
def execCmdAbort (tag : Nat) (s : State) : Host.Outcome State Fault Refusal :=
  .next (magSettle (admitNext 5 tag [] (onDev (abortEffect tag)) s))

/-- CMD_IDENTIFY (R349). -/
def execCmdIdentify (tag : Nat) (segs : List (Option (List Byte))) (s : State) : Host.Outcome State Fault Refusal :=
  .next (magSettle (admitNext 6 tag segs (fun t => t) s))

/-- CMD_GET_LOG (R331). -/
def execCmdGetLog (tag : Nat) (segs : List (Option (List Byte))) (s : State) : Host.Outcome State Fault Refusal :=
  .next (magSettle (admitNext 7 tag segs (fun t => t) s))

/-- The completion arbiter takes the completion that has waited longest (R330, R338); firmware's go to firmware. -/
def completionTake (s : State) : State :=
  match s.dev.rcq.comp with
  | [] => s
  | t :: rest =>
    let s1 := onDev (setRcq (fun r => { r with comp := rest })) s
    match s1.dev.cmd? t with
    | none => s1
    | some c =>
      if c.queue < 64 then takeHost c s1
      else
        let s2 := onDev (freeCmd t) s1
        if c.aborter.isSome || c.ns = 0 || 4 < c.ns then s2 else fwDone (c.ns - 1) c.status c.got s2

/-- COMPLETION_POST (R330). -/
def execCompletionPost (s : State) : Host.Outcome State Fault Refusal := .next (magSettle (completionTake s))

/-- HOST_DATA_TRANSFER (R335). -/
def execHostDataTransfer (tag : Nat) (ok : Bool) (data : List Byte) (s : State) : Host.Outcome State Fault Refusal :=
  .next (magSettle (hostTransfer tag ok data s))

/-! ## Power states (R345, R346) -/

/-- T of a power state in ms. -/
def Dev.psTime (d : Dev) (st : Nat) : Nat :=
  d.get (if st = 1 then Reg.ps_T1_MS else if st = 2 then Reg.ps_T2_MS else Reg.ps_T3_MS)

/-- The next deeper state that is enabled and due: PS3 only with a supply pin. -/
def Dev.psNext (d : Dev) (p : Nat) : Option Nat :=
  [1, 2, 3].find? (fun st => decide (d.ps p < st) && bit (d.get Reg.ps_PS_ENABLE) (st - 1) == 1 &&
    (st != 3 || d.get (Reg.mag_MAG_PWR_PIN p) != 0xFF) && decide (cyclesOfMs (d.psTime st) ≤ d.since (d.mag p).idleRaw))

/-- PS_TIMER: the idle port enters its next power state. -/
def psTimer (p : Nat) (d : Dev) : Dev :=
  let m := d.mag p
  if !(d.magIdle p) || !m.ready || !m.own.isEmpty || m.exiting || d.holdup || d.mode = mTHERMAL ||
      (d.magState p ≠ msUP && d.ps p < 2) then d
  else match d.psNext p with
    | some 1 => setPs p 1 0 (lanesTo p none (some 2) (sleepTx p true d))
    | some 2 => sendOwn p opSLEEP 0 [] (lanesTo p (some 3) (some 3) d)
    | some _ => setPs p 3 0 (setMagState p msDOWN (supplyOff p (setLink p (fun x => { x with downRaw := none }) d)))
    | none => d

/-- PS_TIMER (R345). -/
def execPsTimer (p : Fin 4) (s : State) : Host.Outcome State Fault Refusal := .next (magSettle (onDev (psTimer p) s))

/-- PS_EXIT_DONE: the port is in PS0 and its commands proceed (R346). -/
def execPsExitDone (p : Fin 4) (s : State) : Host.Outcome State Fault Refusal :=
  .next (magSettle (onDev (fun d =>
    let m := d.mag p
    if m.exiting && d.magState p = msUP && d.magAlignedAll p && !m.wantIdent && m.own.all (fun o => o.op == opTEMP) then
      setPs p 0 1 (setMag p (fun x => { x with exiting := false, ready := true }) d)
    else d) s))

/-! ## The clip store (R42, R363, R366, R367) -/

/-- RECORD_FLUSH_DONE (R42): the FLUSH of namespace `ns` + 1 has completed with this status. -/
def execRecordFlushDone (ns : Fin 4) (status : Nat) (s : State) : Host.Outcome State Fault Refusal :=
  .next (match (s.dev.mag ns).fw.results with
    | r :: _ => if r.1 = status then magSettle (flushDone ns s) else s
    | [] => s)

/-- FRAME_UNIT_WRITE (R363). -/
def execFrameUnitWrite (p : Fin 4) (s : State) : Host.Outcome State Fault Refusal := .next (magSettle (takeWrite p s))

/-- The rule of CLIP_RECOVER and CLIP_FORMAT: CONFIGURE only, and a magazine port of the ordering code. -/
def clipRule (v : Val) (d : Dev) : Option (Nat × (Dev → Dev)) :=
  match v with
  | .bytes _ => none
  | .num p => if d.mode ≠ mCONFIGURE || d.target ≠ 0 then refuse stMODE else if d.nMags ≤ p then refuse stRANGE else none

/-- A write of a clip store entry (Table 14.7). -/
def writeClip (w : Writer) (k : Nat) (v : Val) : State → WRes :=
  entryWrite w k v
    (fun s => if k = Reg.clip_CLIP_FORMAT ∨ k = Reg.clip_CLIP_RECOVER then clipRule v s.dev else none)
    (fun _ s =>
      match v with
      | .num p =>
        if k = Reg.clip_CLIP_FORMAT then
          fwAll (onDev (fun d => storeReport p (fwAdd p (formatOps p d) (setMag p (fun x => { x with store := none, clip := none }) d))) s)
        else if k = Reg.clip_CLIP_RECOVER then
          fwAll (onDev (fun d => fwAdd p ((d.mag p).openClips.map (fun i => .act (.scan i))) d) s)
        else onDev (setV k v) s
      | .bytes _ => onDev (setV k v) s)

/-- CLIP_RECOVER (R366). -/
def execClipRecover (w : Writer) (p : Nat) (s : State) : Host.Outcome State Fault Refusal :=
  .next (finishWrite s (writeClip w Reg.clip_CLIP_RECOVER (.num p) s))

/-- CLIP_FORMAT (R367). -/
def execClipFormat (w : Writer) (p : Nat) (s : State) : Host.Outcome State Fault Refusal :=
  .next (finishWrite s (writeClip w Reg.clip_CLIP_FORMAT (.num p) s))

/-! ## Starting and stopping a port (R27, R317) -/

/-- The port starts: with a magazine present its supply goes on. -/
def magStart (p : Nat) (d : Dev) : Dev := if d.magPresent p then supplyOn p d else d

/-- The port may stop: nothing is outstanding at the magazine, held or waiting. -/
def Dev.magQuiet (d : Dev) (p : Nat) : Bool :=
  (d.mag p).own.isEmpty && !((d.portCmds p).any (fun c => decide (c.ph = .atPort) || decide (c.ph = .active)))

/-- The port is stopped: lanes OFF, supply off, nothing known of the magazine. -/
def magStop (p : Nat) (d : Dev) : Dev :=
  storeReport p (setPs p 0 1 (fwDrop p (setGate p false (d.mag p).temp (setMagState p msABSENT (supplyOff p
    (setMag p (fun x => { x with exiting := false, wantIdent := false, temp := none }) d))))))

end Sys2Proof.Machine
end

