-- ==== Sys2Proof/Machine/ThermOps.lean ====
section
/-! DEFINITION. The housekeeping round (R496 to R511): readings, broken sensors, thresholds with dwell, the rate of rise,
the charge gate, the rails, the magazine write gates, refresh doubling and the restart timer. The hardware shutdown that a
round may decide is in Machine/Modes.lean. -/

namespace Sys2Proof.Machine

/-! ## Readings -/

/-- Volts of an ADC code (R496). -/
def voltsOf (code : Nat) : Rat := (9 * code : Nat) / (5 * 4096 : Nat)

/-- A number to the nearest integer in units of 1/16, as the low 32 bits of an I32. -/
def t16 (q : Rat) : Nat := ofInt 32 (ratRoundEven (16 * q))

/-- An event whose ARG1 is a temperature in 1/16 °C: free when there is no reading. -/
def postTemp (code inst arg0 : Nat) (q : Option Rat) (d : Dev) : Dev :=
  match q with
  | some v => post code inst arg0 (t16 v) d
  | none => post code inst arg0 (Config.freeNat d.free % 2 ^ 32) (draw d).2

/-- The temperature that input `i` reads at `v` volts, in mode 0x01 or 0x02 (R499); none where the thermistor's formula
has no value. -/
def Dev.ainTemp (d : Dev) (i : Nat) (v : Rat) : Option Rat :=
  if d.get (Reg.ain_AIN_MODE i) = 1 then
    some (f32Rat (d.get (Reg.ain_AIN_GAIN i)) * v + f32Rat (d.get (Reg.ain_AIN_OFFSET i)))
  else
    let r0 := f32Rat (d.get (Reg.ain_AIN_R0_OHM i))
    let beta := f32Rat (d.get (Reg.ain_AIN_BETA i))
    let pull := f32Rat (d.get (Reg.ain_AIN_PULL_OHM i))
    if v ≤ 0 ∨ 9 / 5 ≤ v ∨ r0 ≤ 0 ∨ pull ≤ 0 ∨ beta = 0 then none
    else
      let x := 1 / (29815 / 100 : Rat) + ratLn (pull * v / (9 / 5 - v) / r0) / beta
      if x = 0 then none else some (1 / x - 27315 / 100)

/-- One reading of a sensor (R500): the cause when it breaks (1 rail code, 2 range, 3 step; 0 otherwise), and the sensor
after it. A rail code is no temperature and is not the previous reading of the next round. -/
def senseStep (rail : Bool) (t : Option Rat) (x : Sensor) : Nat × Sensor :=
  let why :=
    if rail then 1
    else match t with
      | none => 2
      | some v =>
        if v < -55 ∨ 150 < v then 2
        else match x.prev with
          | some u => if 20 < v - u ∨ 20 < u - v then 3 else 0
          | none => 0
  let prev := if rail || t.isNone then x.prev else t
  if why ≠ 0 then (if x.broken then 0 else why, { prev := prev, broken := true, good := 0, hist := [], val := none })
  else if x.broken && x.good + 1 < 2 then (0, { prev := prev, broken := true, good := x.good + 1, hist := [], val := none })
  else (0, { prev := prev, broken := false, good := 0, hist := (t.toList ++ x.hist).take 5, val := t })

/-- The dwell of R504: the change (1 asserted, 2 deasserted, 0 none) and the state after it. -/
def dwellStep (above below : Bool) (x : Dwell) : Nat × Dwell :=
  let a := if above then x.above + 1 else 0
  let b := if below then x.below + 1 else 0
  if !x.on && decide (2 ≤ a) then (1, { on := true, above := a, below := b })
  else if x.on && decide (2 ≤ b) then (2, { on := false, above := a, below := b })
  else (0, { x with above := a, below := b })

/-- The thermal unit changed. -/
def setTherm (f : Thermal → Thermal) (d : Dev) : Dev := { d with therm := f d.therm }

/-- Sensor of channel `c`. -/
def Dev.sensor (d : Dev) (c : Nat) : Sensor := nth d.therm.sens c

/-- The value of input `i` as a temperature, when it is in mode 0x01 or 0x02 and valid. -/
def Dev.ainValid (d : Dev) (i : Nat) : Option Rat :=
  if 16 ≤ i || d.get (Reg.ain_AIN_MODE i) = 0 then none else (d.sensor (16 + i)).val

/-- F32 code of a value, NaN when there is none. -/
def f32Opt (q : Option Rat) : Nat := match q with | some v => f32OfRat v | none => f32NaN

/-- The junction temperature (R501). -/
def Dev.junction (d : Dev) : Option Rat :=
  (List.range 16).foldl (fun a c => match a, (d.sensor c).val with
    | some x, some y => some (max x y)
    | none, y => y
    | x, none => x) none

/-- Bit `i` of THERM_STATE set. -/
def thermBit (i : Nat) (b : Bool) (d : Dev) : Dev := setN Reg.thm_THERM_STATE (setBit (d.get Reg.thm_THERM_STATE) i b) d

/-- Bit `c` of SENSOR_FAULTS set. -/
def faultBit (c : Nat) (b : Bool) (d : Dev) : Dev := setN Reg.thm_SENSOR_FAULTS (setBit (d.get Reg.thm_SENSOR_FAULTS) c b) d

/-- A sensor takes its reading, with EV 0x3C02 when it breaks. -/
def senseCh (c code : Nat) (t : Option Rat) (d : Dev) : Dev :=
  let r := senseStep (code == 0 || code == 4095) t (d.sensor c)
  let d1 := faultBit c r.2.broken (setTherm (fun x => { x with sens := updAt c (fun _ => r.2) x.sens }) d)
  if r.1 ≠ 0 then postTemp 0x3C02 c r.1 t d1 else d1

/-- The on-die sensors of channels 0 to 15; `zones` are their temperatures, whose relation to the codes the manual does
not give. -/
def readZones (codes : List Nat) (zones : List Rat) (d : Dev) : Dev :=
  (List.range 16).foldl (fun e c =>
    let e1 := senseCh c (nth codes c) (some (nth zones c)) e
    setN (Reg.zone_ZONE_C c) (f32Opt (e1.sensor c).val) e1) d

/-- The external inputs (R499). -/
def readInputs (codes : List Nat) (d : Dev) : Dev :=
  (List.range 16).foldl (fun e i =>
    let code := nth codes (16 + i)
    let v := voltsOf code
    let e1 := setN (Reg.ain_AIN_VOLTS i) (f32OfRat v) e
    if e.get (Reg.ain_AIN_MODE i) = 0 then
      setN (Reg.ain_AIN_VALUE i) (f32OfRat v) (faultBit (16 + i) false
        (setTherm (fun x => { x with sens := updAt (16 + i) (fun _ => default) x.sens }) e1))
    else
      let e2 := senseCh (16 + i) code (e.ainTemp i v) e1
      setN (Reg.ain_AIN_VALUE i) (f32Opt (e2.sensor (16 + i)).val) e2) d

/-! ## Thresholds and the rate of rise -/

/-- One threshold on the junction temperature (R503, R504): bit `i` of THERM_STATE. -/
def threshold (i : Nat) (thr : Rat) (t : Option Rat) (d : Dev) : Dev :=
  let r := dwellStep (match t with | some v => decide (thr ≤ v) | none => false) (match t with | some v => decide (v < thr - 3) | none => false)
    (nth d.therm.dwell i)
  let d1 := setTherm (fun x => { x with dwell := updAt i (fun _ => r.2) x.dwell }) d
  if r.1 = 0 then d1
  else
    let d2 := thermBit i r.2.on d1
    postTemp 0x3C01 0xFFFF (d2.get Reg.thm_THERM_STATE) t d2

/-- The rise of a sensor with valid readings in its latest 5 rounds, in °C/s (R506). -/
def Sensor.rise (x : Sensor) (ms : Nat) : Option Rat :=
  match x.val, x.hist with
  | some _, [a, _, _, _, e] => some ((a - e) * 1000 / (4 * ms : Nat))
  | _, _ => none

/-- RISE: the largest, or 0. -/
def Dev.riseNow (d : Dev) : Rat :=
  ((List.range 16).foldl (fun (a : Option Rat) c =>
    match a, (d.sensor c).rise (d.get Reg.thm_ROUND_MS) with
    | some x, some y => some (max x y)
    | none, y => y
    | x, none => x) none).getD 0

/-- RISE_WARN and RISE_TRIP (R506). -/
def riseReview (d : Dev) : Dev :=
  let q := d.riseNow
  let w := dwellStep (decide (2 ≤ q)) (decide (q < 3 / 2)) (nth d.therm.dwell 3)
  let t := dwellStep (decide (6 ≤ q)) (decide (q < 11 / 2)) (nth d.therm.dwell 4)
  let d1 := thermBit 4 t.2.on (thermBit 3 w.2.on (setN Reg.thm_RISE (f32OfRat q)
    (setTherm (fun x => { x with dwell := updAt 4 (fun _ => t.2) (updAt 3 (fun _ => w.2) x.dwell) }) d)))
  if w.1 = 0 ∧ t.1 = 0 then d1 else post 0x3C03 0xFFFF (2 * b2n w.2.on + b2n t.2.on) (t16 q) d1

/-- The weir's factors h and r of the latest round (R147, R501). -/
def headroomOf (t : Option Rat) (warn : Bool) : Rat :=
  let h : Rat := match t with
    | none => 1 / 4
    | some v => if v ≤ 95 then 1 else if v < 100 then 1 - 3 / 20 * (v - 95) else 1 / 4
  h * (if warn then 1 / 2 else 1)

/-! ## The charge gate (R507) -/

/-- Pins of the thermal unit in `Out` records. -/
abbrev pinCapChgEn : Nat := 100
abbrev pinThermTripN : Nat := 101

/-- CAP_CHG_EN follows its conditions (R507). -/
def capSync (d : Dev) : Dev :=
  let level := b2n (d.flag Reg.hold_CAP_CHG_REQ && !d.holdup && d.mode != mTHERMAL && d.therm.capOpen)
  if d.get Reg.hold_CAP_CHG_ALLOWED = level then d else emit .pin pinCapChgEn [level] [] (setN Reg.hold_CAP_CHG_ALLOWED level d)

/-- The charge gate at the end of a round. -/
def capReview (d : Dev) : Dev :=
  let t := d.ainValid (d.get Reg.hold_CAP_THERM_AIN)
  let inside := fun (lo hi : Rat) => match t with | some v => decide (lo ≤ v) && decide (v < hi) | none => false
  let d1 :=
    if d.therm.capOpen then
      if inside (-10) 60 then d
      else postTemp 0x3C06 0xFFFF 0 t (setTherm (fun x => { x with capOpen := false, capGood := 0 }) d)
    else
      let n := if inside (-7) 57 then d.therm.capGood + 1 else 0
      if 2 ≤ n then postTemp 0x3C06 0xFFFF 1 t (setTherm (fun x => { x with capOpen := true, capGood := 0 }) d)
      else setTherm (fun x => { x with capGood := n }) d
  capSync d1

/-! ## Rails (R511) -/

/-- Nominal voltage of a rail channel 32 to 44 in mV (Table 20.5). -/
def Dev.railNominal (d : Dev) (c : Nat) : Nat :=
  if c = 32 then 750 else if c = 33 then d.vengMv else if c = 34 then 850 else if c = 35 ∨ c = 36 then 1100
  else if c = 37 ∨ c = 38 then 900 else if c = 39 ∨ c = 40 then 1200 else if c = 41 then 900 else if c = 42 then 1800
  else if c = 43 then 3300 else 800

/-- The voltage of a monitored rail from its code: rails whose window passes 1.8 V are read at half (assumption 36). -/
def railVolts (c code : Nat) : Rat := if c = 42 ∨ c = 43 then 2 * voltsOf code else voltsOf code

/-- The rail lies inside its window. -/
def Dev.railOk (d : Dev) (c : Nat) (v : Rat) : Bool :=
  if c = 46 then true
  else if c = 45 then decide (f32Rat (d.get Reg.rail_PWR_FAIL_V) < v)
  else
    let n : Rat := (d.railNominal c : Nat) / (1000 : Nat)
    decide (n * 95 / 100 ≤ v) && decide (v ≤ n * 105 / 100)

/-- A reading in mV for an event. -/
def mvOf (v : Rat) : Nat := ofInt 32 (ratRoundEven (1000 * v))

/-- The rail monitors at the end of a round. -/
def railReview (codes : List Nat) (d : Dev) : Dev :=
  let d1 := setB Reg.rail_RAIL_VOLTS ((List.range 15).flatMap (fun i => leBytes 4 (f32OfRat (railVolts (32 + i) (nth codes (32 + i)))))) d
  (List.range 15).foldl (fun e i =>
    let v := railVolts (32 + i) (nth codes (32 + i))
    let ok := e.railOk (32 + i) v
    let r := dwellStep (!ok) ok (nth e.therm.rails i)
    let e1 := setTherm (fun x => { x with rails := updAt i (fun _ => r.2) x.rails }) e
    if r.1 = 0 then e1
    else post 0x3C09 (32 + i) (b2n r.2.on) (mvOf v) (faultBit (32 + i) r.2.on
      (setN Reg.rail_RAIL_FAULTS (setBit (e1.get Reg.rail_RAIL_FAULTS) i r.2.on) e1))) d1

/-- The check of channel 47 (R498): whether the round is kept. Its fault clears at the first round inside the window. -/
def vrefReview (codes : List Nat) (d : Dev) : Bool × Dev :=
  let v := voltsOf (nth codes 47)
  let ok := decide (882 / 1000 ≤ v) && decide (v ≤ 918 / 1000)
  let set := fun (b : Bool) (e : Dev) => faultBit 47 b (setN Reg.rail_RAIL_FAULTS (setBit (e.get Reg.rail_RAIL_FAULTS) 15 b) e)
  if !ok then (false, post 0x3C09 47 1 (mvOf v) (set true d))
  else if bit (d.get Reg.rail_RAIL_FAULTS) 15 = 1 then (true, post 0x3C09 47 0 (mvOf v) (set false d))
  else (true, d)

/-! ## Magazine write gates (R313) -/

/-- The valid inputs of a port's gate: the magazine's report, then the board thermistor. -/
def Dev.gateInputs (d : Dev) (p : Nat) : List Rat :=
  let m := d.mag p
  let rep := match m.temp with
    | some t => if m.tempAge ≤ 2 then [(t : Rat) / 16] else []
    | none => []
  rep ++ (d.ainValid (d.get (Reg.mag_MAG_THERM_AIN p))).toList

/-- The gate of a port at the end of a round, its window held within −10 °C to 75 °C (R18, R19); then one TEMP command for the next (R313). -/
def gateReview (p : Nat) (d : Dev) : Dev :=
  let l := d.gateInputs p
  let lo := max (f32Rat (d.get (Reg.mag_MAG_WRITE_MIN_C p))) (-10)
  let hi := min (f32Rat (d.get (Reg.mag_MAG_WRITE_MAX_C p))) 75
  let outs := l.filter (fun v => decide (v < lo) || decide (hi ≤ v))
  let inside := !l.isEmpty && l.all (fun v => decide (lo + 3 ≤ v) && decide (v < hi - 3))
  let no := if outs.isEmpty then 0 else (d.mag p).outside + 1
  let ni := if inside then (d.mag p).inside + 1 else 0
  let d1 := setMag p (fun x => { x with outside := no, inside := ni, tempAge := x.tempAge + 1 }) d
  let dec := fun (l : List Rat) => l.head?.map (fun v => ratRoundEven (16 * v))
  let d2 :=
    if 2 ≤ no then setGate p false (dec outs) d1
    else if l.isEmpty then setGate p false none d1
    else if 2 ≤ ni then setGate p true (dec l) d1
    else d1
  let m := d2.mag p
  let d3 := setN (Reg.mag_MAG_TEMP_C p) (match m.temp with
    | some t => if (d.mag p).tempAge ≤ 2 then f32OfRat ((t : Rat) / 16) else f32NaN
    | none => f32NaN) d2
  if d3.magState p = msUP && m.ready && !(m.own.any (fun o => o.op == opTEMP || o.op == opSLEEP)) && decide (d3.ps p < 2) then
    sendOwn p opTEMP 0 [] d3
  else d3

/-! ## Refresh doubling and the restart timer -/

/-- The channels served by each input, and the reviews of R281. -/
def refreshRound (hot : List (Nat × Nat)) (d : Dev) : Dev :=
  let map := d.bytes Reg.dram_DRAM_THERM_MAP
  (List.range 12).foldl (fun e c =>
    if e.hasChannel c then
      let temps := ((List.range 16).filter (fun i => bit (rdLe map (2 * i) 2) c == 1)).flatMap (fun i => (e.ainValid i).toList)
      refreshReview c temps (hot.any (fun x => x.1 == c)) e
    else e) d

/-- PWR_FAIL is asserted (R509): posted and the input not restored. -/
def Dev.supplyLow (d : Dev) : Bool := d.holdup && !d.pwr.restored

/-- The restart timer at the end of a round (R509). -/
def restartReview (d : Dev) : Dev :=
  let l := (List.range 16).flatMap (fun c => (d.sensor c).val.toList)
  let ok := d.mode = mTHERMAL && !l.isEmpty && l.all (fun v => decide (v < f32Rat (d.get Reg.thm_RESTART_C))) && !d.supplyLow
  if ok then
    thermBit 6 true (setTherm (fun x => { x with holdMs := some (match x.holdMs with
      | some n => n + x.period
      | none => 0) }) d)
  else thermBit 6 false (setTherm (fun x => { x with holdMs := none }) d)

/-! ## The round -/

/-- The cause of a hardware shutdown that the round decides (R501, R508): 1 SHUTDOWN, 2 RISE_TRIP, 3 NO_SENSOR. -/
def Dev.shutCause (d : Dev) : Option Nat :=
  if d.mode = mTHERMAL then none
  else if (nth d.therm.dwell 2).on then some 1
  else if (nth d.therm.dwell 4).on then some 2
  else if 4 ≤ d.therm.noJunction then some 3
  else none

/-- EV 0x3C05 at the end of the first round after a thermal restart (R510). -/
def restartEvent (d : Dev) : Dev :=
  match d.therm.restartMs with
  | some ms => post 0x3C05 0xFFFF (satU32 ms) (d.get Reg.thm_SHUTDOWNS) (setTherm (fun x => { x with restartMs := none }) d)
  | none => d

/-- SHUTDOWN's threshold (R503): THERM_SHUT_C, which reads its default until the persistent set is loaded; the hardware
holds it to 120 °C whatever the entry says (R18, R19). -/
def Dev.shutC (d : Dev) : Rat := min (f32Rat (d.get Reg.thm_THERM_SHUT_C)) 120

/-- The decisions of one round up to the shutdown. `codes` are the 48 channels' codes, `zones` the on-die temperatures,
`hot` the ranks whose mode register 4 reports a refresh rate for 85 °C or more. -/
def hkRound (codes : List Nat) (zones : List Rat) (hot : List (Nat × Nat)) (d : Dev) : Dev :=
  let v := vrefReview codes (restartEvent d)
  if !v.1 then setTherm (fun x => { x with noJunction := x.noJunction + 1 }) v.2
  else
    let d1 := readInputs codes (readZones codes zones v.2)
    let t := d1.junction
    let d2 := thermBit 5 t.isNone (setN Reg.thm_JUNCTION_C (f32Opt t)
      (setTherm (fun x => { x with noJunction := if t.isNone then x.noJunction + 1 else 0 }) d1))
    let d3 := riseReview (threshold 2 d2.shutC t (threshold 1 100 t (threshold 0 95 t d2)))
    let d4 := setBrg (fun b => { b with headroom := headroomOf t (nth d3.therm.dwell 3).on }) d3
    let d5 := refreshRound hot (railReview codes (capReview d4))
    let d6 := (List.range d5.nMags).foldl (fun e p => gateReview p e) d5
    setTherm (fun x => { x with period := d6.get Reg.thm_ROUND_MS }) (restartReview d6)

/-! ## Writes -/

/-- A write of a thermal, rail, hold-up or input entry (Table 20.6). -/
def writeTherm (w : Writer) (k : Nat) (v : Val) : State → WRes :=
  entryWrite w k v
    (fun s =>
      match v with
      | .bytes _ => none
      | .num n =>
        if k = Reg.thm_RESTART_C then
          (match f32v n with
           | .fin neg q =>
             let x := if neg then -q else q
             if x < 40 ∨ s.dev.shutC - 10 < x then refuse stRANGE else none
           | _ => refuse stRANGE)
        else none)
    (fun _ s => onDev (fun d => if k = Reg.hold_CAP_CHG_REQ then capSync (setV k v d) else setV k v d) s)

end Sys2Proof.Machine
end

