-- ==== Sys2Proof/Machine/PoundAlloc.lean ====
section
/-! DEFINITION. The allocations of the pound at a mode entry: rings and standing areas (R93, R94, R102, R124, R158), view
buffers (R162), Amtan pictures, picture pools (R221, R222) and HEVC output rings. The manual gives no addresses; firmware
of this model takes the areas one after another (assumption 30). -/

namespace Sys2Proof.Machine

/-- A plan: the next free address and the units with what is allocated so far. -/
structure Plan where
  next : Nat
  dev : Dev

/-- An area of `n` bytes taken in whole lines; `f` is given its address. -/
def Plan.take (n : Nat) (f : Nat → Dev → Dev) (x : Plan) : Plan :=
  { next := x.next + roundUp n 256, dev := f x.next x.dev }

/-- The end of the pound less the 16 GiB that firmware keeps (Table 1.5). -/
def Dev.poundTop (d : Dev) : Nat := d.get Reg.dram_MAPPED_BYTES - 2 ^ 34

/-- Bytes of a port's per-pixel table (R88). -/
def Dev.tableBytes (d : Dev) (p : Nat) : Nat := roundUp (3 * d.get (Reg.itk_WIDTH p) * d.get (Reg.itk_HEIGHT p)) 256

/-- The per-pixel tables in the pound, of ports other than `p`: they stay until the next reset (R159). -/
def Dev.tables (d : Dev) (p : Nat) : List (Nat × Nat) :=
  ((List.range 4).filter (fun q => q != p && (d.intake q).flatTable != 0)).map (fun q =>
    ((d.intake q).flatTable, (d.intake q).flatTable + d.tableBytes q))

/-- Where a new per-pixel table of port `p` goes: the highest place below the top that meets no other table. -/
def Dev.tablePlace (d : Dev) (p : Nat) : Nat :=
  let n := d.tableBytes p
  let l := d.tables p
  let cands := (d.poundTop :: l.map (·.1)).map (fun e => (e - n) / 256 * 256)
  (cands.filter (fun a => l.all (fun x => decide (a + n ≤ x.1) || decide (x.2 ≤ a)))).foldl max 0

/-- The end of what may be allocated. -/
def Dev.poundLimit (d : Dev) : Nat := (d.tables 4).foldl (fun m x => min m x.1) d.poundTop

/-- A burst that has not begun. -/
def Burst.fresh (armed : Bool) (base : Nat) : Burst :=
  { armed := armed, base := base, fired := none, trigFrame := none, stopped := false, complete := false, prevMean := none }

/-- The ring of port `p`, its drop-record area and its statistics ring (R93, R94, R124). -/
def planRing (p slots : Nat) (armed : Bool) (x : Plan) : Plan :=
  let b := slotBytes (x.dev.pix p)
  let x1 := x.take (slots * b) (fun a d => setN (Reg.itk_RING_BASE p) a (setN (Reg.itk_SLOT_BYTES p) b
    (syncSlots p (setItk p (fun i => { i with
      hasRing := true, slotCount := slots, slots := [], stamp := 0, dropIdx := 0, burst := Burst.fresh armed i.frames
      head := none, asms := [], tail := none, parts := [], segs := [], last := [], stats := [] }) d))))
  (x1.take (64 * 256) (setN (Reg.frm_DROP_RECORD_BASE p))).take (4096 * slots) (setN (Reg.foc_STATS_BASE p))

/-- A member of a gang has its ring in the leading port's (R93). -/
def planMember (p : Nat) (x : Plan) : Plan :=
  { x with dev := setItk p (fun i => { i with
      hasRing := true, slotCount := 0, slots := [], burst := Burst.fresh false 0, head := none, asms := [], tail := none
      parts := [], segs := [], last := [], stats := [] }) x.dev }

/-- The statistics areas of a port (R156). -/
def planStats (p slots : Nat) (x : Plan) : Plan :=
  let n := 1280 * (tileCols (x.dev.get (Reg.itk_WIDTH p)) * tileRows (x.dev.get (Reg.itk_HEIGHT p)))
  x.take (slots * n) (fun a d => setN (Reg.tst_TSTATS_BASE p) a (setN (Reg.tst_TSTATS_BYTES p) n d))

/-- The rings of the ports in a mode other than BURST. -/
def planRings (mode : Nat) (x : Plan) : Plan :=
  let l := x.dev.leads
  let x1 := l.foldl (fun y p => planStats p (y.dev.get (Reg.itk_RING_SLOTS p)) (planRing p (y.dev.get (Reg.itk_RING_SLOTS p)) false y)) x
  let x2 := (x1.dev.enabledPorts.filter (fun p => x1.dev.lead p != p)).foldl (fun y p => planMember p y) x1
  if mode = mSCAN then
    let p := x2.dev.scanPort
    x2.take (x2.dev.get (Reg.itk_RING_SLOTS p) * x2.dev.scanN * 32) (setN Reg.scan_LINE_REC_BASE)
  else x2

/-- The areas of FLATBUILD (R158): accumulators and candidates, and the table at the top. -/
def planFlat (x : Plan) : Plan :=
  let p := x.dev.get Reg.fb_FB_PORT
  let n := 8 * x.dev.get (Reg.itk_WIDTH p) * x.dev.get (Reg.itk_HEIGHT p)
  let x1 := x.take n (fun a d => { d with fb := { d.fb with darkBase := a } })
  let x2 := x1.take n (fun a d => { d with fb := { d.fb with flatBase := a } })
  let x3 := x2.take (4 * 1048576) (setN Reg.fb_FB_CANDIDATE_BASE)
  { x3 with dev := setN Reg.fb_FB_DARK_FRAMES 0 (setN Reg.fb_FB_FLAT_FRAMES 0 (setN Reg.fb_FB_TABLE_BASE (x3.dev.tablePlace p) x3.dev)) }

/-! ## What is allocated at every mode entry -/

/-- A view's buffers (R162): one buffer's bytes from its geometry and packing. -/
def planView (v : Nat) (x : Plan) : Plan :=
  let d := x.dev
  let g := d.viewGeom v
  let n := viewPitch (d.get (Reg.view_PACKING v)) g.outW * g.outH
  let k := d.get (Reg.view_VIEW_BUFFERS v)
  x.take (k * n) (fun a d => setN (Reg.view_BUFFER_BASE v) a (setN (Reg.view_BUFFER_BYTES v) n (setView v (fun y => { y with
    bufs := List.replicate k { st := 0, stamp := 0, frame := 0, sofTb := 0, readers := 0 }, latest := none, published := none }) d)))

/-- The first address above what running views and streams keep. -/
def Dev.keptEnd (d : Dev) : Nat :=
  let vs := ((List.range 4).filter (fun v => !(d.idle (.view (Fin.ofNat 4 v))))).map (fun v =>
    d.get (Reg.view_BUFFER_BASE v) + (d.view v).bufs.length * d.get (Reg.view_BUFFER_BYTES v))
  let hs := ((List.range 8).filter (fun s => !(d.idle (.hevc (Fin.ofNat 8 s))))).map (fun s =>
    let p := d.pool (d.hevPool s)
    max (p.addr p.bufs.length) (d.encSlotAddr s (d.hev s).ring.length))
  (vs ++ hs).foldl (fun m e => max m (roundUp e 256)) d.workLo

/-- The owners of pools in a mode, in the order of R221. -/
def Dev.poolOwners (d : Dev) (mode : Nat) : List Nat :=
  ((List.range 8).filter (fun s => (d.decodeStreams mode).contains s ||
    ((d.codeStreams mode).contains s && d.flag (Reg.amt_P_ENABLE s)))).map (0x10 + ·) ++ (d.hevcStreams mode).map (0x20 + ·)

/-- Picture regions of an Amtan stream, which is enabled here: PICTURE_ID counts from 0 again (Table 8.1). -/
def planAmtan (s : Nat) (x : Plan) : Plan :=
  let d := x.dev
  let p := d.get (Reg.amt_STREAM_PORT s)
  let m := d.slotMosaic p 0 0
  let n := tileCols m.w * tileRows m.h
  let bytes := roundUp (2 * codeSpan m.bits n + 16 * n) 256
  let k := d.get (Reg.itk_RING_SLOTS p) + 2
  x.take (k * bytes) (fun a d => setAmt s (fun y => { y with
    base := a, bytes := bytes, regionCount := k, regions := 0, next := 0, sinceI := 0, offers := [], shown := none, old := [], lastFrame := none
    limits := none, cost := [], geom := if d.get (Reg.amt_STREAM_MODE s) = 2 then [m.w, m.h, m.bits, m.cfa, m.fmt] else [] }) d)

/-- MaxLumaPs in force: of the level given, or for 0 of the lowest level that fits. -/
def levelPs (level size : Nat) : Nat :=
  let m := maxLumaPs level
  if m ≠ 0 then m
  else (([30, 60, 63, 90, 93, 120, 150, 180].map maxLumaPs).find? (fun x => decide (size ≤ x))).getD 35651584

/-- MaxDpbSize of H.265 for a picture of `size` luma samples. -/
def maxDpb (level size : Nat) : Nat :=
  let m := levelPs level size
  if size ≤ m / 4 then 16 else if size ≤ m / 2 then 12 else if size ≤ 3 * m / 4 then 8 else 6

/-- The geometry of a pool for its owner and the count of Table 9.1. -/
def poolShape (d : Dev) (owner : Nat) : Nat × Nat × Nat × Nat × Nat :=
  if owner < 0x20 then
    let s := owner - 0x10
    let c := d.pix (d.get (Reg.amt_STREAM_PORT s))
    (c.width, c.height, 0, if d.get (Reg.amt_STREAM_MODE s) = 2 ∨ c.fmt ≠ 0 then 16 else c.w, if d.get (Reg.amt_STREAM_MODE s) = 2 then 4 else 3)
  else
    let s := owner - 0x20
    let pr := profileOf (d.get (Reg.hev_PROFILE s))
    if d.get (Reg.hev_HEVC_MODE s) = 1 then
      let g := d.viewGeom (d.get (Reg.hev_VIEW s))
      (g.outW, g.outH, pr.1, pr.2, d.get (Reg.hev_REF_COUNT s) + 2)
    else
      let w := d.get (Reg.hev_DEC_MAX_WIDTH s)
      let h := d.get (Reg.hev_DEC_MAX_HEIGHT s)
      (w, h, pr.1, pr.2, maxDpb (d.get (Reg.hev_LEVEL s)) (w * h) + 3)

/-- The POOL entry of an owner. -/
def poolEntry (owner : Nat) : Nat := if owner < 0x20 then Reg.amt_POOL (owner - 0x10) else Reg.hev_POOL (owner - 0x20)

/-- A pool given to a stream: number `k`, unless it holds the stream's buffers already (R221, R222). -/
def planPool (k owner : Nat) (x : Plan) : Plan :=
  let d := x.dev
  if 8 ≤ k then { x with next := x.next + 2 ^ 64 }
  else if (d.pool k).owner = owner ∧ (d.pool k).bufs ≠ [] then x
  else
      let g := poolShape d owner
      let n := if d.get (Reg.pool_POOL_BUFFERS k) = 0 then g.2.2.2.2 else d.get (Reg.pool_POOL_BUFFERS k)
      let p : Pool := { owner := owner, base := 0, bytes := 0, w := g.1, h := g.2.1, chroma := g.2.2.1, depth := g.2.2.2.1, bufs := [] }
      let b := roundUp p.need 256
      x.take (n * b) (fun a d =>
        setN (poolEntry owner) k (setPool k (fun _ => { p with base := a, bytes := b, bufs := List.replicate n PoolBuf.fresh }) d))

/-- The output ring of an HEVC stream, the CTU records and the input ring behind it (R231, R234, R236). -/
def planHevc (s : Nat) (x : Plan) : Plan :=
  let d := x.dev
  let n := d.get (Reg.hev_OUT_BUFFERS s)
  let vb := d.get (Reg.view_BUFFER_BYTES (d.get (Reg.hev_VIEW s)))
  x.take (n * (d.encBufBytes s + 0x20000) + d.get (Reg.hev_INPUT_SLOTS s) * vb) (setN (Reg.hev_OUT_RING_BASE s))

/-- The pools of streams that the mode does not run are given up, and those of streams that run on take the number that
the order of R221 gives them in the mode. -/
def movePools (mode : Nat) (d : Dev) : Dev :=
  let l := d.poolOwners mode
  let held := fun (o : Nat) => d.pools.find? (fun p => p.owner == o && !p.bufs.isEmpty)
  let d1 : Dev := { d with pools := (List.range 8).map (fun k => ((l[k]?).bind held).getD Pool.reset) }
  l.zipIdx.foldl (fun e x => setN (poolEntry x.1) x.2 e) d1

/-- What a mode allocates for its streams and views, from `next` on: what runs on keeps its place. -/
def planWork (mode : Nat) (x : Plan) : Plan :=
  let d := movePools mode x.dev
  let x0 : Plan := { x with dev := d }
  let x1 := (d.decodeStreams mode ++ d.codeStreams mode).foldl (fun y s => planAmtan s y) x0
  let vs := (List.range 4).filter (fun v => d.idle (.view (Fin.ofNat 4 v)))
  let hs := (d.hevcStreams mode).filter (fun s => d.idle (.hevc (Fin.ofNat 8 s)))
  let x2 := vs.foldl (fun y v => planView v y) x1
  let x3 := (d.poolOwners mode).zipIdx.foldl (fun y o => planPool o.2 o.1 y) x2
  hs.foldl (fun y s => planHevc s y) x3

/-- An entry that leaves the pound's rings alone: PREVIEW → RECORD, OFFLOAD and PLAYBACK. -/
def planEntry (mode : Nat) (d : Dev) : Plan := planWork mode { next := d.keptEnd, dev := d }

/-- The bounds of the work area before anything was allocated are the whole pound. -/
def Dev.workEnd (d : Dev) : Nat := if d.workHi = 0 then d.poundLimit else d.workHi

/-- The most that BURST, OFFLOAD or PLAYBACK takes of the work area, so that each can follow the other. -/
def Dev.burstWork (d : Dev) : Nat :=
  [mBURST, mOFFLOAD, mPLAYBACK].foldl (fun m k => max m (planWork k { next := 0, dev := d }).next) 0

/-- The rings of BURST: the DRAM left free is divided evenly among the capturing ports (R102). Behind the rings stand
their drop-record areas and statistics rings, reserved beforehand. -/
def planBurst (d : Dev) : Plan :=
  let d0 := { d with workLo := 0, workHi := d.burstWork }
  let w := planWork mBURST { next := 0, dev := d0 }
  let l := d.leads
  let free := d.poundLimit - d0.workHi
  let upper := fun (p : Nat) => free / max 1 l.length / slotBytes (d.pix p)
  let side := sumN (l.map (fun p => 64 * 256 + 4096 * upper p))
  let share := (free - side) / max 1 l.length / 256 * 256
  let x1 := l.foldl (fun y p =>
    let slots := share / slotBytes (d.pix p)
    let z := planRing p slots true y
    { z with dev := setN (Reg.itk_BURST_SLOTS p) slots z.dev }) { w with next := d0.workHi }
  (d.enabledPorts.filter (fun p => d.lead p != p)).foldl (fun y p => planMember p y) x1

/-- The allocation at CONFIGURE → a capture mode. Every view and stream is off then; pools are given anew. -/
def planCapture (mode : Nat) (d : Dev) : Plan :=
  let d0 := movePools 0 { d with offRead := [], workLo := 0, workHi := 0
                                 itk := d.itk.map (fun i => { i with hasRing := false, slots := [], slotCount := 0 }) }
  if mode = mBURST then planBurst d0
  else
    let x0 := planRings mode { next := 0, dev := d0 }
    let x1 := if mode = mCALIBRATE then planFlat x0 else x0
    let lim := if mode = mCALIBRATE then min x1.dev.poundLimit (x1.dev.get Reg.fb_FB_TABLE_BASE) else x1.dev.poundLimit
    planWork mode { next := x1.next, dev := { x1.dev with workLo := x1.next, workHi := lim } }

/-- The allocation fits the pound (R93); in BURST every capturing port has at least two slots. -/
def planFits (mode : Nat) (x : Plan) : Bool :=
  if mode = mBURST then decide (x.next ≤ x.dev.poundLimit) &&
    x.dev.leads.all (fun p => decide (2 ≤ (x.dev.intake p).slotCount))
  else decide (x.next ≤ x.dev.workEnd)

/-- Zeros in `n` bytes from address `a`: what firmware clears as a whole. -/
def poundClear (a n : Nat) (s : State) : State :=
  { s with mem := s.mem.filter (fun c => decide (c.1 < a) || decide (a + n ≤ c.1))
           poison := s.poison.filter (fun l => !(wholeLine a n l)) }

/-- The accumulators are cleared on entry to CALIBRATE (R158). -/
def clearFlat (s : State) : State :=
  let f := s.dev.fb
  let p := s.dev.get Reg.fb_FB_PORT
  let n := 8 * s.dev.get (Reg.itk_WIDTH p) * s.dev.get (Reg.itk_HEIGHT p)
  poundClear f.darkBase n (poundClear f.flatBase n s)

end Sys2Proof.Machine
end

