-- ==== Sys2Proof/Machine/UnitOps.lean ====
section
/-! DEFINITION. Starting and stopping units: shut-down sequences, pending disables and deferred enables (R27 to R29). -/

namespace Sys2Proof.Machine

/-- The unit may start now: the current mode lets it run, and so does the target of a transition. -/
def Dev.mayStart (d : Dev) (u : UnitId) : Bool :=
  d.provides u && d.modeRuns d.mode u && (d.target == 0 || d.modeRuns d.target u)

/-! ## A port -/

/-- A port's front-end takes nothing more of what it had; its head frame count goes on (R80). -/
def itkClear (p : Nat) (d : Dev) : Dev :=
  setItk p (fun x => { x with run := 0, tail := none, parts := [], segs := [], last := [] }) d

/-! ## Sequences -/

/-- A unit begins to start, from its reset state. -/
def unitBegin (u : UnitId) (d : Dev) : Dev :=
  let d1 := setUnit u { phase := .starting, pendingDisable := false, deferred := none } d
  match u with
  | .port p => rxGo p (d1.rxHeld mPREVIEW p) none (itkClear p (setPort p (fun x => { x with trigTb := none }) d1))
  | .hevc s => hevcStart s d1
  | .out n => outputStart n d1
  | .mag p => magStart p d1
  | .view v =>
    setN (Reg.view_LAST_FRAME v) 0 (setView v (fun x => { x with
      upLast := none, upIds := [], latest := none, published := none, pubRaw := none, prev := none, stamp := 0
      bufs := x.bufs.map (fun b => { b with st := 0, readers := 0 }) }) d1)
  | .cluster _ => vengSync d1
  | _ => d1

/-- A unit's start-up is done: a port's lanes are aligned, or alignment has ended without success, or the lanes are asked
for another state than ACTIVE; a cluster's rail is confirmed. -/
def Dev.started (d : Dev) : UnitId → Bool
  | .port p => (decide ((d.port p).rx = 3) && d.aligned p && decide ((d.port p).step = .idle)) ||
      decide ((d.port p).step = .failed) || d.rxHeld mPREVIEW p != 3
  | .cluster c => d.boot.vengOk && decide (stepMv (d.clockStep c) ≤ d.get Reg.clk_VENG_MV)
  | _ => true

/-- A unit's shut-down sequence has done what it waits for. -/
def Dev.unitQuiet (d : Dev) : UnitId → Bool
  | .port p => (d.intake p).asms.isEmpty && (d.port p).goal.isNone
  | .cluster c => !(d.clusterBusy c)
  | .view v => !(d.brg.works.any (fun w => w.views.any (fun x => x.v == v.val)))
  | .mag p => d.magQuiet p
  | .hevc s => d.hevcIdle s
  | .out n => !(d.output n).sending
  | .eth _ => true
  | .bank k => !(d.scan.pulses.any (fun x => decide (d.perNow < x.stop) && x.channels.any (fun c => c / 16 == k.val)))

/-- The link of an Ethernet port comes up or goes down (R403): EV 0x3101. -/
def ethLink (p : Nat) (up : Bool) (d : Dev) : Dev :=
  if d.get (Reg.eth_ETH_STATE p) = b2n up then d
  else post 0x3101 p (b2n up) (d.get (Reg.eth_ETH_RATE p)) (setN (Reg.eth_ETH_STATE p) (b2n up) d)

/-- A unit is held in its reset state. -/
def unitOff (u : UnitId) (s : State) : State :=
  let s1 := onDev (setUnit u { phase := .off, pendingDisable := false, deferred := none }) s
  match u with
  | .port p => onDev (fun d => setItk p (fun x => { x with hasRing := x.hasRing && captureMode d.mode }) (itkClear p d)) s1
  | .cluster c => onDev (fun d => vengSync (moveBasin c d)) s1
  | .mag p => onDev (magStop p) s1
  | .hevc k => hevcStop k s1
  | .out n => onDev (outputStop n) s1
  | .view v => onDev (fun d => viewSweep v (setView v (fun x => { x with upLast := none, upIds := [] }) d)) s1
  | .eth p => onDev (ethLink p false) s1
  | .bank _ => s1

/-- An enable arrives, recorded by the event of post number `ref`; firmware's own is recorded by none (R28, R29). -/
def unitEnable (u : UnitId) (ref : Option Nat) (d : Dev) : Dev :=
  let x := d.unit u
  match x.phase with
  | .off => unitBegin u d
  | .starting =>
    if x.pendingDisable then setUnit u { x with deferred := some (x.deferred.getD ref) } d else d
  | .running => d
  | .stopping => setUnit u { x with deferred := some (x.deferred.getD ref) } d

/-- A unit's start-up completes; a pending disable then begins the shut-down at once, and a deferred enable stays held
(R29). -/
def unitStarted (u : UnitId) (d : Dev) : Dev :=
  let x := d.unit u
  if x.phase = .starting ∧ d.started u then
    let d1 := setUnit u { x with phase := .running } d
    let d2 := match u with
      | .port p => if captureMode d1.mode then setItk p (fun y => { y with run := 1 }) d1 else d1
      | _ => d1
    if x.pendingDisable then
      let d3 := unitStop u none d2
      setUnit u { d3.unit u with deferred := x.deferred } d3
    else d2
  else d

/-- A unit's shut-down completes; a deferred enable then starts it from reset, with EV 0x0220 (R28). -/
def unitStopped (u : UnitId) (s : State) : State :=
  let x := s.dev.unit u
  if x.phase = .stopping ∧ s.dev.unitQuiet u then
    let s1 := unitOff u s
    match x.deferred with
    | none => s1
    | some r =>
      if s1.dev.mayStart u then
        onDev (fun d => unitBegin u (postDeferral u.num u.entry r d)) s1
      else s1
  else s

/-! ## Writes of the enable entries -/

/-- The units whose enable stands in an entry. -/
def unitsOf (k : Nat) : List UnitId := allUnits.filter (fun u => u.entry == k)

/-- What the receive lanes of a port do at a write of PORT_ENABLE in a mode that does not run it (R72). -/
def enableLanes (u : UnitId) (d : Dev) : Dev :=
  match u with
  | .port p => if d.idle u && d.provides u then
      rxGo p (d.rxWanted (if captureMode d.mode then mTHERMAL else d.mode) p) none d else d
  | _ => d

/-- An enable of the unit counts: the unit may start, or it is starting or shutting down in a mode that runs it, which a
transition may be leaving. An enable of a unit that is off in the current mode is stored only (R35). -/
def Dev.heeds (d : Dev) (u : UnitId) : Bool := d.mayStart u || (!(d.idle u) && d.modeRuns d.mode u)

/-- The effect of a value written to an enable entry on its units. -/
def enableEffect (k n : Nat) (ref : Option Nat) (d : Dev) : Dev :=
  (unitsOf k).foldl (fun e u =>
    if e.provides u then
      (if e.wants u then (if e.heeds u then unitEnable u ref e else e) else unitDisable u ref e)
    else e) (setN k n d)
  |> fun e => (unitsOf k).foldl (fun x u => enableLanes u x) e

/-- A view whose geometry R178 refuses is not enabled in a mode that runs it (assumption 140). -/
def enableRule (k : Nat) (v : Val) (d : Dev) : Option (Nat × (Dev → Dev)) :=
  match v with
  | .num n => if n ≠ 0 ∧ (List.finRange 4).any (fun x => k == Reg.view_VIEW_ENABLE x && d.modeRuns d.mode (.view x) &&
      !(d.viewGeomOk x)) then refuse stREFUSED else none
  | .bytes _ => none

/-- A write of an enable entry (R28, R29); the post number of the event that records it is what EV 0x0220 refers to. -/
def writeEnable (w : Writer) (k : Nat) (v : Val) : State → WRes :=
  entryWrite w k v (fun s => enableRule k v s.dev) (fun ref => onDev (fun d =>
    match v with
    | .num n => enableEffect k n (if byFirmware w then none else some ref) d
    | .bytes _ => d))

/-- The value of a unit's enable entry with the unit's own bit replaced. -/
def Dev.enableValue (d : Dev) (u : UnitId) (on : Bool) : Nat :=
  if u.masked then setBit (d.get u.entry) u.num on else b2n on

/-- UNIT_ENABLE (R28). -/
def execUnitEnable (w : Writer) (u : UnitId) (s : State) : Host.Outcome State Fault Refusal :=
  .next (magSettle (finishWrite s (writeEnable w u.entry (.num (s.dev.enableValue u true)) s)))

/-- UNIT_DISABLE (R29). -/
def execUnitDisable (w : Writer) (u : UnitId) (s : State) : Host.Outcome State Fault Refusal :=
  .next (magSettle (finishWrite s (writeEnable w u.entry (.num (s.dev.enableValue u false)) s)))

/-- UNIT_STARTUP_COMPLETE (R29). -/
def execUnitStartupComplete (u : UnitId) (s : State) : Host.Outcome State Fault Refusal :=
  .next (magSettle (onDev (unitStarted u) s))

/-- UNIT_SHUTDOWN_COMPLETE (R27, R28). -/
def execUnitShutdownComplete (u : UnitId) (s : State) : Host.Outcome State Fault Refusal := .next (magSettle (unitStopped u s))

end Sys2Proof.Machine
end

