-- ==== Sys2Proof/Machine/ModeOps.lean ====
section
/-! DEFINITION. Operating modes: requests and their refusal (R36), what a transition waits for (R39, R40), leaving RECORD
(Table 2.7), forced transitions (R38) and the mode change (R37, R45). -/

namespace Sys2Proof.Machine

/-! ## Acceptance -/

/-- Table 2.4: the changes on request. -/
def modeEdge (a b : Nat) : Bool :=
  if a = mSTANDBY then b == mCONFIGURE || b == mSERVICE
  else if a = mCONFIGURE then
    b == mSTANDBY || b == mPREVIEW || b == mBURST || b == mSCAN || b == mOFFLOAD || b == mPLAYBACK || b == mCALIBRATE || b == mSERVICE
  else if a = mPREVIEW then b == mRECORD || b == mCONFIGURE
  else if a = mRECORD then b == mPREVIEW || b == mCONFIGURE
  else if a = mBURST then b == mOFFLOAD || b == mPLAYBACK || b == mCONFIGURE
  else if a = mOFFLOAD then b == mPLAYBACK || b == mCONFIGURE
  else if a = mPLAYBACK then b == mOFFLOAD || b == mCONFIGURE
  else if a = mSERVICE then b == mCONFIGURE || b == mSTANDBY
  else (a == mSCAN || a == mCALIBRATE) && b == mCONFIGURE

/-- The reservations of the enabled ports, GB/s (R95). -/
def Dev.reserved (d : Dev) : Rat := (d.enabledPorts.map (fun p => f32Rat (d.get (Reg.itk_INTAKE_RESERVE_GBPS p)))).foldl (· + ·) 0

/-- The conditions of an entry to a capture mode from CONFIGURE on ports and rates (Table 2.6, R89, R95, R143). -/
def Dev.portsOk (d : Dev) : Bool :=
  !d.enabledPorts.isEmpty &&
  d.leads.all (fun p => (d.members p).all (fun q => d.flag (Reg.sen_PORT_ENABLE q))) &&
  decide (((d.leads.filter (fun p => d.get (Reg.itk_FLAT_MODE p) == 2)).map d.pixelRate).foldl (· + ·) 0 ≤ 8) &&
  decide (d.reserved ≤ 256) &&
  decide (d.reserved ≤ ((rdLe (d.bytes Reg.fab_CHANNEL_SHARES) 0 1 : Nat) : Rat) * 614 / 100)

/-- Coding streams have ports whose size suits their CFA (R194). -/
def Dev.codingOk (d : Dev) (mode : Nat) : Bool :=
  (d.codeStreams mode).all (fun s =>
    let c := d.pix (d.get (Reg.amt_STREAM_PORT s))
    cfaSizeOk c.cfa c.width c.height)

/-- The PACKING that a profile takes (Table 9.6). -/
def profilePacking (p : Nat) : Nat := if p = 4 then 1 else if p = 5 then 2 else 0

/-- A picture size that the engine supports (R229). -/
def sizeOk (w h : Nat) : Bool :=
  decide (64 ≤ w) && decide (w ≤ 16888) && decide (64 ≤ h) && decide (h ≤ 16888) && decide (w * h ≤ 35651584)

/-- An enabled HEVC stream suits its view, its GOP and the engine (R231, R232). -/
def Dev.hevcOk (d : Dev) (s : Nat) : Bool :=
  if d.get (Reg.hev_HEVC_MODE s) ≠ 1 then sizeOk (d.get (Reg.hev_DEC_MAX_WIDTH s)) (d.get (Reg.hev_DEC_MAX_HEIGHT s))
  else
    let v := d.get (Reg.hev_VIEW s)
    let pr := d.get (Reg.hev_PROFILE s)
    d.get (Reg.view_PACKING v) == profilePacking pr &&
    ((profileOf pr).1 != 1 || d.get (Reg.view_OUT_HEIGHT v) % 2 == 0) && sizeOk (d.viewGeom v).outW (d.viewGeom v).outH &&
    d.get (Reg.hev_INTRA_PERIOD s) % max 1 (d.get (Reg.hev_GOP_SIZE s)) == 0 &&
    (d.get (Reg.hev_GOP_MODE s) != 2 || d.get (Reg.hev_GOP_SIZE s) + 2 ≤ d.get (Reg.hev_INPUT_SLOTS s))

/-- The HEVC streams that the mode runs suit the engine. -/
def Dev.hevcsOk (d : Dev) (mode : Nat) : Bool :=
  (d.hevcStreams mode).all d.hevcOk &&
  decide (((d.hevcStreams mode).map d.encodeRate).foldl (· + ·) 0 ≤ 17 / 4) &&
  decide (((d.hevcStreams mode).map d.decodeRate).foldl (· + ·) 0 ≤ ((8192 * 4320 * 60 : Nat) : Rat) / 1000000000) && decide ((d.poolOwners mode).length ≤ 8)

/-- Bytes of a finder packet with its frame, in code groups (R258): idle, K27.7, TYPE, LEN, payload, CRC-32C, K29.7. -/
def finderGroups (payload : Nat) : Nat := 10 + payload

/-- Code groups of a finder frame (R258, R259). -/
def finderFrameGroups (fmt w h : Nat) : Nat :=
  let n := max 1 (ceilDiv w 1024)
  let per := if fmt = 0 then 5 else 4
  finderGroups 32 + finderGroups 8 + h * (finderGroups 4 + n * finderGroups 4 + per * (w / 2))

/-- An output's view suits its mode and rate (Table 10.1, R250, R260). -/
def Dev.outOk (d : Dev) (n : Nat) : Bool :=
  let m := d.get (Reg.out_OUT_MODE n)
  let v := d.get (Reg.out_OUT_VIEW n)
  let g := d.viewGeom v
  let pk := d.get (Reg.view_PACKING v)
  let r := rateOf (d.get (Reg.out_OUT_RATE n))
  let hz : Rat := ((r.1 : Nat) : Rat) / ((r.2 : Nat) : Rat)
  let uhd := (g.outW == 3840 || g.outW == 4096) && g.outH == 2160
  if m = 0 ∨ m = 5 then true
  else if m = 1 then g.outW == 1920 && g.outH == 1080 && pk == 0 && decide (hz ≤ 60)
  else if m = 2 then uhd && pk == 0 && decide (hz ≤ 30)
  else if m = 3 then uhd && ((pk == 0 && decide (hz ≤ 60)) || (pk == 2 && decide (hz ≤ 30)))
  else if m = 4 then g.outW == 7680 && g.outH == 4320 && pk == 0 && decide (hz ≤ 60)
  else
    let bps : Rat := if d.get (Reg.out_FL_RATE n) = 0 then 1485000000 else if d.get (Reg.out_FL_RATE n) = 1 then 2970000000 else 5940000000
    let clk : Rat := if r.2 = 1001 then 1000 / 1001 else 1
    pk == 0 && decide (g.outW ≤ 4096) && decide (g.outH ≤ 2160) &&
      decide (((10 * finderFrameGroups (d.get (Reg.out_FL_FORMAT n)) g.outW g.outH : Nat) : Rat) * hz ≤ bps * clk * 95 / 100)

/-- The enabled outputs suit their views in a mode that runs them. -/
def Dev.outsOk (d : Dev) (mode : Nat) : Bool :=
  !(d.modeRuns mode (.out 0)) || (List.range 8).all (fun n => !(d.flag (Reg.out_OUT_ENABLE n)) || d.outOk n)

/-- The enabled views have a geometry that R178 accepts, in a mode that runs them (assumption 140). -/
def Dev.viewsOk (d : Dev) (mode : Nat) : Bool :=
  !(d.modeRuns mode (.view 0)) || (List.range 4).all (fun v => !(d.flag (Reg.view_VIEW_ENABLE v)) || d.viewGeomOk v)

/-- The conditions of CONFIGURE → SCAN (Table 2.6, R468). -/
def scanOk (s : State) : Bool :=
  let d := s.dev
  let p := d.scanPort
  let n := d.get Reg.stb_PATTERN_LINES
  let table := (poundRead d.patternBase (80 * n) s).1
  d.leads.contains p && n != 0 &&
  (if d.bidir then decide (d.scanN ≤ n)
   else d.flag Reg.stb_PATTERN_WRAP || (d.get Reg.scan_SCAN_FRAMES != 0 && decide (d.get Reg.scan_SCAN_FRAMES * d.scanN ≤ n))) &&
  (List.range n).all (fun i => (strobeGroups d (fun _ => true) (sliceB table (80 * i) 80)).all (fun r =>
    decide (r.delay + r.width ≤ perOfNs (d.get Reg.stb_STROBE_WINDOW_NS)) && decide (r.units ≤ min (d.get Reg.stb_PEAK_LIMIT) (d.get Reg.stb_STROBE_PEAK_FUSED))))

/-- The ring of a capturing port holds a triggered capture not wholly read out (Table 2.5). -/
def Dev.poundHeld (d : Dev) : Bool :=
  (List.range 4).any (fun p =>
    let x := d.intake p
    x.burst.fired.isSome && x.slots.zipIdx.any (fun y => y.1.st != 0 &&
      !(d.offRead.any (fun z => decide (z.1 ≤ d.slotAddr p y.2) && decide (d.slotAddr p y.2 + d.get (Reg.itk_SLOT_BYTES p) ≤ z.2)))))

/-- A magazine is present and identified. One that sleeps in PS2 or PS3 was identified before it did, and counts
(DESIGN CHOICE, assumption 41). -/
def Dev.magKnown (d : Dev) (p : Nat) : Bool := d.magPresent p && ((d.mag p).ready || d.ps p != 0)

/-- BURST may be left for OFFLOAD or PLAYBACK: every capturing port has its post-trigger count, or capture stopped with no
trigger (Table 2.6). -/
def Dev.burstLeaves (d : Dev) : Bool :=
  d.burstDone || (List.range 4).all (fun p => !(d.capturing p) || ((d.intake p).burst.fired.isNone && (d.intake p).run != 1))

/-- The conditions of Table 2.6 required at acceptance. -/
def preconditionsOk (s : State) (dst : Nat) : Bool :=
  let d := s.dev
  let common := d.codingOk dst && d.hevcsOk dst && d.outsOk dst && d.viewsOk dst
  if d.mode = mCONFIGURE ∧ captureMode dst then
    let x := planCapture dst (rebuildMap s).dev
    d.portsOk && common && planFits dst x && (dst != mSCAN || scanOk s) &&
      (dst != mBURST || d.leads.all (fun p => decide (d.get (Reg.itk_BURST_PRE p) + d.get (Reg.itk_BURST_POST p) ≤ (x.dev.intake p).slotCount)))
  else if dst = mRECORD then
    common && planFits dst (planEntry dst d) && (List.range 4).any d.magKnown
  else if dst = mOFFLOAD ∨ dst = mPLAYBACK then
    common && planFits dst (planEntry dst d) && (d.mode != mBURST || d.burstLeaves)
  else true

/-- The reason for which a mode request is refused, in the order of R36 (Table 2.5). -/
def modeRefusal (s : State) (dst : Nat) (force : Bool) : Option Nat :=
  let d := s.dev
  if d.mode = mBOOT ∨ d.mode = mTHERMAL then some 6
  else if d.target ≠ 0 then some 2
  else if !(modeEdge d.mode dst) then some 1
  else if dst = mSCAN ∧ !d.hasScan then some 3
  else if !(preconditionsOk s dst) then some 4
  else if d.mode = mCONFIGURE ∧ captureMode dst ∧ d.poundHeld ∧ !force then some 5
  else none

/-! ## Starting a transition -/

/-- Firmware flushes every magazine that is up or asleep, but for those whose clips are being closed (Table 2.6). -/
def flushAll (d : Dev) : Dev :=
  (List.range 4).foldl (fun e p =>
    if ((e.magState p == msUP && (e.mag p).ready) || e.ps p != 0) && !(e.take.members.contains p && e.mode == mRECORD) then
      fwAdd p [.cmd iqRec 3 0 0 []] e
    else e) d

/-- A take that never began to record is given up: clips already opened are closed. -/
def takeAbandon (d : Dev) : Dev :=
  let d1 := d.take.members.foldl (fun e p => fwAdd p [.act (.close false)] e) d
  { d1 with take := { d1.take with opening := false, ended := true } }

/-- A transition to CONFIGURE's captures begins: the map is rebuilt, the pound allocated, the ports start, and stored
settings are written (R93, R111, R290). -/
def enterCapture (dst ref : Nat) (s : State) : State :=
  let s1 := rebuildMap s
  let s2 := { s1 with dev := { (planCapture dst s1.dev).dev with
    itk := if s1.dev.dram.mapped = s.dev.dram.mapped then (planCapture dst s1.dev).dev.itk
      else (planCapture dst s1.dev).dev.itk.map (fun i => { i with flatTable := 0 }) } }
  let s3 := if dst = mCALIBRATE then clearFlat s2 else s2
  let ports := s3.dev.enabledPorts.filter (fun p => (s3.dev.intake p).hasRing)
  onDev (fun d => settleAll ((d.leads).foldl (fun e p => seqStored p e)
    (ports.foldl (fun e p => unitEnable (.port (Fin.ofNat 4 p)) (some ref) e) d))) s3

/-- A take is cut off before its frames are written: those that wait are given up, and what closes the take is issued behind the
commands that are out, with the FLUSHes that leaving RECORD reports (R42). -/
def takeCut (s : State) : State :=
  if s.dev.take.ended then s
  else fwAll (onDev (fun d => takeClose (d.mode == mRECORD) (releaseUnits d.recQ { d with recQ := [] })) s)

/-- Every job that is left is discarded (Table 2.6). -/
def dropJobs (s : State) : State :=
  s.dev.brg.works.foldl (fun t w => if w.dead then t else discardWork false w t) s

/-- OFFLOAD is left: frames not yet taken up and their jobs are given up, and the offload service closes its clips
(assumption 122). -/
def offloadLeave (s : State) : State :=
  let s1 := dropJobs (onDev (fun d => { d with ended := [] }) s)
  if s1.dev.take.members.isEmpty then onDev (fun d => { d with take := { d.take with opening := false } }) s1 else takeCut s1

/-- A transition is accepted (R37): MODE_TARGET, EV 0x0203, and what its sequence begins with. A transition that leaves RECORD
shuts nothing down before recording is over (Table 2.7, step 6). -/
def modeAccept (dst cause : Nat) (force : Bool) (s0 : State) : State :=
  let s := makeRoom 2 0xFFFF s0
  let d := s.dev
  let ref := d.posts
  let d1 := setN Reg.mode_MODE_TARGET dst (post 0x0203 0xFFFF (d.mode * 256 + dst) (b2n force)
    { d with trans := some { raw := d.time.raw, cause := cause, ref := ref, before := [], held := d.mode == mRECORD } })
  let d2 := if d.mode = mRECORD then takeLeave { d1 with recLeave := some ref }
    else if d.mode = mSCAN ∧ (d.take.opening ∨ d.takeOpen) then { d1 with take := { d1.take with leaving := true } }
    else d1
  let d3 := if dst = mRECORD ∨ (dst = mSCAN ∧ (List.range 4).any d.canRecord) then takeBegin d2 else d2
  let d4 := if d.mode = mRECORD then d3 else beginStops dst ref d3
  let s1 := { s with dev := if dst = mSTANDBY then flushAll d4 else d4 }
  let s2 := if d.mode = mSCAN then scanStop 0 s1 else if d.mode = mOFFLOAD then offloadLeave s1 else s1
  let s3 := if d.mode = mCONFIGURE ∧ captureMode dst then enterCapture dst ref s2 else s2
  magSettle (fwAll s3)

/-! ## Completion -/

/-- C0 jobs of captured frames are not all complete (Table 2.6). -/
def State.codingLeft (s : State) : Bool :=
  s.dev.brg.works.any (fun w => w.cls == 0 && !w.dead) || s.dev.ended.any s.records

/-- A recording magazine still works on its clip, apart from a FLUSH that is to be reported. -/
def Dev.closing (d : Dev) : Bool := d.take.members.any (fun p => !(d.fwIdle p) && !(d.flushPending p))

/-- The take that RECORD or SCAN leaves has not ended: its frames are not written or its clips not closed. -/
def State.takeLeft (s : State) : Bool :=
  (s.dev.take.leaving && !s.dev.take.ended) || s.takePending || s.dev.closing

/-- Recorder commands of the offload service are not complete (Table 2.6): its internal queue is the one of role 2, and what
closes its clips follows.  -/
def Dev.offloading (d : Dev) : Bool := !(nth d.rcq.iqs 2).isEmpty || d.rcq.cmds.any (fun c => c.queue == 66) || d.closing

/-- The shut-downs of a transition wait for the end of recording (Table 2.7). -/
def Dev.transHeld (d : Dev) : Bool :=
  match d.trans with
  | some t => t.held
  | none => false

/-- The conditions still pending of a transition to `dst`, as the bits of R40. The list of bits names no bit for three of them:
lanes that are not yet DEEP count as port stop, stored settings as alignment, clips that open as recorder writes
(DESIGN CHOICE, assumption 42). -/
def State.pendingFor (s : State) (dst : Nat) : Nat :=
  let d := s.dev
  let ports := d.enabledPorts.filter (fun p => (d.intake p).hasRing)
  let isPort := fun (u : UnitId) => match u with | .port _ => true | _ => false
  let isHevc := fun (u : UnitId) => match u with | .hevc _ => true | _ => false
  let stopping := fun (f : UnitId → Bool) => allUnits.any (fun u => f u && !(d.modeRuns dst u) && !(d.idle u))
  let leaves := captureMode d.mode && !(captureMode dst)
  let b0 := stopping isPort || d.transHeld || (dst == mSTANDBY && d.enabledPorts.any (fun p => (d.port p).rx != 1))
  let b1 := ((leaves && dst != mSTANDBY && d.mode != mBURST) || d.mode == mRECORD) && s.codingLeft
  let b2 := (d.mode == mRECORD && s.takeLeft) || (d.mode == mSCAN && d.take.leaving && s.takeLeft) ||
    (d.mode == mPREVIEW && d.take.opening) || (dst == mRECORD && !d.takeReady) ||
    ((d.mode == mOFFLOAD || d.mode == mPLAYBACK) && dst == mCONFIGURE && d.offloading)
  let b3 := (List.range 4).any d.flushPending || (dst == mSTANDBY && (List.range 4).any (fun p => !(d.fwIdle p)))
  let b4 := d.mode == mCONFIGURE &&
    (ports.any (fun p => decide ((d.unit (.port (Fin.ofNat 4 p))).phase = .starting) ||
        (captureMode dst && d.runs (.port (Fin.ofNat 4 p)) && !(d.aligned p))) ||
      d.leads.any (fun p => !(d.seq p).stored.isEmpty))
  let b6 := (dst == mBURST && d.leads.any (fun p => !(d.intake p).burst.armed)) ||
    (dst == mSCAN && d.get (Reg.enc_TRACK_STATE (d.get Reg.scan_SCAN_ENCODER)) != 1)
  let b7 := stopping isHevc
  flags [(0, b0), (1, b1), (2, b2), (3, b3), (4, b4), (6, b6), (7, b7)]

/-- The conditions of the transition still pending: those of its target, and of the targets that were replaced (R38). Of a
replaced target two can no longer come about, since its units shut down: clips that were to open are given up, and a port
that was to align need only end its start-up (DESIGN CHOICE, assumption 43). -/
def State.pendingBits (s : State) : Nat :=
  let olds := match s.dev.trans with
    | some t => t.before
    | none => []
  olds.foldl (fun m dst => if dst = mRECORD then m else m ||| s.pendingFor dst) (s.pendingFor s.dev.target)

/-- The image path is quiet after a capture mode: jobs and frames not taken up are dropped, sequencers stop (R112), FLATBUILD
is idle, and the ports' front-ends are stopped; one whose shut-down a timeout has overtaken goes on to its end (R27). -/
def leaveCapture (s : State) : State :=
  let s1 := dropJobs s
  onDev (fun d =>
    let d1 := (List.range 4).foldl (fun e p => seqStop p e) { d with ended := [] }
    let d2 := if d1.fb.phase = 0 then d1 else fbIdle d1
    settleAll { d2 with itk := d2.itk.zipIdx.map (fun x =>
      if (d2.unit (.port (Fin.ofNat 4 x.2))).phase = .stopping then x.1 else { x.1 with run := 0, hasRing := false }) }) s1

/-- What the mode that is entered begins with: front-ends run and head frame counts begin anew (R80), SCAN waits for its start with no entry fetched and no index
seen (R453, R458). -/
def enterMode (dst : Nat) (s : State) : State :=
  let d := s.dev
  let d1 := if captureMode dst then
      { d with itk := d.itk.zipIdx.map (fun x => 
          { x.1 with run := if d.runs (.port (Fin.ofNat 4 x.2)) then 1 else x.1.run, rehead := true }) }
    else d
  let d2 := if dst = mSCAN then
      setN Reg.scan_SCAN_STATE 1 { d1 with
        enc := d1.enc.map (fun x => { x with indexed := false })
        scan := { d1.scan with live := false, taken := 0, passes := 0, cur := none, consumed := 0, stopping := none, lines := [], onChip := []
                               skips := 0, fireRaw := none, darkLogged := false, clipLogged := false } }
    else d1
  { s with dev := d2 }

/-- The hold-up is complete (R513, R514): EV 0x3C0A with the time since PWR_FAIL in ms. -/
def holdupDone (d : Dev) : Dev :=
  if d.holdup && !d.pwr.done then
    let ms := satU32 (d.since d.pwr.raw / 1200000)
    post 0x3C0A 0xFFFF ms 0 (setN Reg.hold_HOLDUP_MS ms (setN Reg.hold_HOLDUP_STATE 2 { d with pwr := { d.pwr with done := true } }))
  else d

/-- Units that the mode runs and that are enabled start (R39); `ref` is the post number of the transition's EV 0x0203. -/
def startUnits (ref : Nat) (d : Dev) : Dev :=
  allUnits.foldl (fun e u => if e.provides u && e.wants u && e.modeRuns e.mode u then unitEnable u (some ref) e else e) d

/-- The offload service begins: a take opens on the magazines that may record, when frames are held for it (assumption
122). -/
def offloadBegin (s0 : State) : State :=
  let s := offloadFrames s0
  if s.dev.ended.isEmpty ∨ !((List.range 4).any s.dev.canRecord) then s
  else onDev (fun d => { takeBegin d with take := { (takeBegin d).take with
    ports := sumN ((List.range 4).map (fun p => if d.ended.any (fun x => x.port == p) then 2 ^ p else 0)) } }) s

/-- The current mode becomes `dst` with an exit cause (R37, R45): EV 0x0201. In STANDBY the management target sleeps (R491). -/
def modeSet (dst cause : Nat) (d : Dev) : Dev :=
  let old := d.mode
  let id := d.posts
  let d1 := post 0x0201 0xFFFF (old * 256 + dst) cause
    (setN Reg.mode_MODE_EXIT_CAUSE cause (setN Reg.mode_MODE_TARGET 0 (setN Reg.mode_MODE_CURRENT dst { d with trans := none })))
  let d2 := if dst = mSERVICE ∨ old = mSERVICE then (List.range d.nPorts).foldl (fun e p => syncLanes p e) d1 else d1
  if dst = mSTANDBY then twmDoze d2
  else if dst = mRECORD then { d2 with recEnter := some id, recLeave := none }
  else if old = mRECORD then { d2 with recEnter := none } else d2

/-- The mode changes at the end of a transition. -/
def modeChange (dst cause ref : Nat) (s0 : State) : State :=
  let s := makeRoom 2 0xFFFF s0
  let old := s.dev.mode
  let s1 := if captureMode old && !(captureMode dst) then leaveCapture s else s
  let s2 := if dst = mRECORD ∨ dst = mOFFLOAD ∨ dst = mPLAYBACK then { s1 with dev := (planEntry dst s1.dev).dev }
    else if captureMode dst && (old == mCONFIGURE) then s1 else onDev (movePools dst) s1
  let s3 := let t := enterMode dst (onDev (modeSet dst cause) s2); if dst = mOFFLOAD then offloadBegin t else t
  magSettle (onDev (fun d =>
    let d1 := startUnits ref d
    if dst = mSTANDBY then holdupDone d1 else d1) s3)

/-- MODE_TRANSITION_COMPLETE: every condition is met (R37, R39). -/
def modeComplete (s : State) : State :=
  match s.dev.trans with
  | none => s
  | some t => if s.pendingBits = 0 then modeChange s.dev.target t.cause t.ref s else s

/-- MODE_TIMEOUT (R40): pending conditions are logged, each FLUSH still pending is reported with 0xFFFF_FFFF (R42), and
CONFIGURE is entered whatever the target. -/
def modeTimeout (s : State) : State :=
  let d := s.dev
  match d.trans with
  | none => s
  | some t =>
    if d.since t.raw < d.get Reg.mode_MODE_TIMEOUT_S * 1200000000 then s
    else
      let s1 := onDev (post 0x0204 0xFFFF s.pendingBits d.target) s
      let s2 := if d.mode = mRECORD ∨ d.mode = mSCAN then takeCut s1 else s1
      let d2 := (List.range 4).foldl (fun e p => if e.flushPending p then post 0x0205 (p + 1) 0xFFFFFFFF 0 e else e) s2.dev
      let d3 := if d2.mode = mPREVIEW ∧ (d2.target = mRECORD ∨ d2.take.opening) then takeAbandon d2 else d2
      modeChange mCONFIGURE 0x0A t.ref { s2 with dev := beginStops mCONFIGURE t.ref d3 }

/-! ## Forced transitions (R38) -/

/-- The mode that a forced exit enters, if Table 2.4 has its edge. -/
def forcedTo (mode cause : Nat) : Option Nat :=
  if cause = 4 then (if mode = mBURST then some mOFFLOAD else none)
  else if cause = 5 then (if mode = mSCAN then some mCONFIGURE else none)
  else if captureMode mode || mode == mOFFLOAD || mode == mPLAYBACK || mode == mSERVICE then some mCONFIGURE else none

/-- The forced exits that wait start their transition when none is in progress; one without an edge is dropped. -/
def forcedGo (s : State) : State :=
  if s.dev.target ≠ 0 then s
  else match s.dev.forced with
    | [] => s
    | c :: rest =>
      let s1 := onDev (fun d => { d with forced := rest }) s
      match forcedTo s.dev.mode c with
      | some dst => modeAccept dst c false s1
      | none => s1

/-- PWR_FAIL forces STANDBY (R38, R513): a transition in progress has its target replaced, and the conditions that were
pending stay. -/
def forceStandby (s0 : State) : State :=
  let s := makeRoom 2 0xFFFF s0
  let d := s.dev
  match d.trans with
  | none => modeAccept mSTANDBY 7 false s
  | some t =>
    if d.target = mSTANDBY then s
    else
      let d1 := setN Reg.mode_MODE_TARGET mSTANDBY (post 0x0203 0xFFFF (d.mode * 256 + mSTANDBY) 0
        { d with trans := some { t with raw := d.time.raw, cause := 7, before := d.target :: t.before } })
      let d2 := if d.target = mRECORD then takeAbandon d1 else d1
      let d3 := if t.held then d2 else beginStops mSTANDBY t.ref d2
      let s1 := { s with dev := flushAll d3 }
      magSettle (fwAll s1)

/-! ## Commands -/

/-- A write of MODE_REQUEST (R36): a refused request logs EV 0x0202 and sets MODE_REFUSE_REASON. -/
def writeModeRequest (w : Writer) (v : Nat) : State → WRes :=
  entryWrite w Reg.mode_MODE_REQUEST (.num v)
    (fun s =>
      if v / 512 ≠ 0 then refuse stRANGE
      else match modeRefusal s (v % 256) (bit v 8 == 1) with
        | some r => some (stREFUSED, fun d => post 0x0202 0xFFFF v r (setN Reg.mode_MODE_REFUSE_REASON r d))
        | none => none)
    (fun _ s => modeAccept (v % 256) 1 (bit v 8 == 1) (onDev (setN Reg.mode_MODE_REQUEST v) s))

/-- MODE_REQUEST (R36). -/
def execModeRequest (w : Writer) (v : Nat) (s : State) : Host.Outcome State Fault Refusal :=
  .next (finishWrite s (writeModeRequest w v s))

/-- MODE_TIMEOUT (R40). -/
def execModeTimeout (s : State) : Host.Outcome State Fault Refusal := .next (modeTimeout s)

/-- FORCED_TRANSITION (R38). -/
def execForcedTransition (s : State) : Host.Outcome State Fault Refusal := .next (forcedGo s)

end Sys2Proof.Machine
end

