-- ==== Sys2Proof/Machine/StoreOps.lean ====
section
/-! DEFINITION. The persistent store (R441 to R445): images of the dictionary banks and calibration copies, saving and
loading. -/

namespace Sys2Proof.Machine

/-! ## The flash -/

/-- `n` bytes of an area at an offset: erased flash reads 0xFF. -/
def flashAt (a : List Byte) (off n : Nat) : List Byte :=
  sliceB a off n ++ List.replicate (n - (a.length - off)) 0xFF

/-- An area with bytes written at an offset. -/
def flashPut (a : List Byte) (off : Nat) (b : List Byte) : List Byte :=
  flashAt a 0 off ++ b ++ a.drop (off + b.length)

/-- Where the basic flash parameter table starts: the part answers the signature and its first parameter header. -/
def Flash.table (f : Flash) : Option Nat :=
  if sliceB f.sfdp 0 4 = ascii "SFDP" ∧ rdLe f.sfdp 8 1 = 0 then some (rdLe f.sfdp 0x0C 3) else none

/-- Bytes of the part by its table: the density is a count of bits, or its logarithm (R446). -/
def Flash.capacity (f : Flash) : Nat :=
  match f.table with
  | none => 0
  | some a =>
    let n := rdLe f.sfdp (a + 4) 4
    if n < 2 ^ 31 then (n + 1) / 8 else 2 ^ (n - 2 ^ 31) / 8

/-- The fastest I/O that the table declares: four, two or one data line (R532). -/
def Flash.lines (f : Flash) : Nat :=
  match f.table with
  | none => 1
  | some a =>
    let w := rdLe f.sfdp a 4
    if bit w 21 = 1 ∨ bit w 22 = 1 then 4 else if bit w 16 = 1 ∨ bit w 20 = 1 then 2 else 1

/-- Bank `i` of the flash. -/
def Flash.bank (f : Flash) (i : Nat) : List Byte := if i = 0 then f.bank0 else f.bank1

/-- Calibration copy `i` of the flash. -/
def Flash.copy (f : Flash) (i : Nat) : List Byte := if i = 0 then f.copy0 else f.copy1

/-- Bytes of a calibration copy's area (Table 17.10). -/
def Flash.copyBytes (f : Flash) (i : Nat) : Nat :=
  let h := (f.capacity - 0x2400000) / 2 / 65536 * 65536
  if i = 0 then h else f.capacity - 0x2400000 - h

/-- Bytes of a dictionary bank's area. -/
abbrev bankBytes : Nat := 0x100000

/-! ## Images -/

/-- Every entry of the dictionary with its row, in ascending order of index and sub-index. -/
def allRows : List (Nat × Row) :=
  (List.range 0x4000).flatMap (fun i => (rowsOf i).flatMap (fun r => (List.range r.n).map (fun j => (i * 256 + r.sub + j, r))))

/-! ## Values (R416) -/

/-- The value bytes of a value (Table 17.1). -/
def valBytes (t : Ty) : Val → List Byte
  | .num n => leBytes t.size n
  | .bytes b => if t = .str then leBytes 2 b.length ++ b else b

/-- The value that value bytes stand for; none when the length does not match the type. -/
def valOf (t : Ty) (b : List Byte) : Option Val :=
  match t with
  | .blob => some (.bytes b)
  | .str => if 2 ≤ b.length ∧ rdLe b 0 2 = b.length - 2 then some (.bytes (b.drop 2)) else none
  | _ => if b.length = t.size then some (.num (leNat b)) else none

/-- The value that a save stores for an entry: a transfer table that a code selects is stored as its table. -/
def Dev.storeVal (d : Dev) (k : Nat) (r : Row) : List Byte :=
  match d.shown k with
  | .bytes b => valBytes r.ty (.bytes b)
  | .num n => if r.ty = .blob then d.readTransfer ((k / 256 - 0x1800) / 0x100) else leBytes r.ty.size n

/-- One record of a payload (R442). -/
def storeRecord (k : Nat) (r : Row) (v : List Byte) : List Byte :=
  leBytes 2 (k / 256) ++ leBytes 1 (k % 256) ++ leBytes 1 r.ty.code ++ leBytes 4 v.length ++ padMul 4 v

/-- The entries of a bank, or of a calibration copy (R442). -/
def Dev.storeSet (d : Dev) (calib : Bool) : List (Nat × Row) :=
  allRows.filter (fun x => !(d.absent x.1) && (if calib then inCalibArea x.2 else x.2.persist && !(inCalibArea x.2)))

/-- An image: the header of Table 17.11 and its payload. -/
def storeImage (magic : String) (seq calibSeq : Nat) (calib : Bool) (d : Dev) : List Byte :=
  let l := d.storeSet calib
  let pay := l.flatMap (fun x => storeRecord x.1 x.2 (d.storeVal x.1 x.2))
  let head := ascii magic ++ leBytes 2 1 ++ zeros 2 ++ leBytes 4 seq ++ leBytes 4 pay.length ++ leBytes 4 (crc32c pay) ++
    leBytes 4 l.length ++ leBytes 4 calibSeq ++ leBytes 4 (d.get Reg.idn_FW_VERSION) ++ zeros 28
  head ++ leBytes 4 (crc32c head) ++ pay

/-- What a valid image holds: SEQ, CALIB_SEQ, RECORDS and its payload. -/
structure StoreHead where
  seq : Nat
  calibSeq : Nat
  records : Nat
  payload : List Byte

/-- The image in an area, when it is valid (R443). -/
def storeHead (magic : String) (size : Nat) (a : List Byte) : Option StoreHead :=
  let h := flashAt a 0 64
  let n := rdLe h 0x0C 4
  if sliceB h 0 4 = ascii magic ∧ rdLe h 4 2 = 1 ∧ rdLe h 0x3C 4 = crc32c (h.take 60) ∧ 64 + n ≤ size ∧
      crc32c (flashAt a 64 n) = rdLe h 0x10 4 then
    some { seq := rdLe h 8 4, calibSeq := rdLe h 0x18 4, records := rdLe h 0x14 4, payload := flashAt a 64 n }
  else none

/-- The image of bank `i`, when it is valid. -/
def Flash.bankHead (f : Flash) (i : Nat) : Option StoreHead := storeHead "SEUD" bankBytes (f.bank i)

/-- The image of calibration copy `i`, when it is valid. -/
def Flash.copyHead (f : Flash) (i : Nat) : Option StoreHead := storeHead "SEUC" (f.copyBytes i) (f.copy i)

/-! ## Loading (R443) -/

/-- The bank that is loaded: the newer valid one, bank 0 where neither is newer. -/
def Flash.chosen (f : Flash) : Option (Nat × StoreHead) :=
  match f.bankHead 0, f.bankHead 1 with
  | some a, some b => if newer32 b.seq a.seq then some (1, b) else some (0, a)
  | some a, none => some (0, a)
  | none, some b => some (1, b)
  | none, none => none

/-- The value lies in the range that the entry's chapter gives it beside its table row: HEVC_MODE on an ordering code without
decode (R228), the magazine write window (R314), the weir budget below the ceiling (R154), the strobe peak limit (R471), the
restart temperature (R518). -/
def storedInRange (k : Nat) (v : Val) (d : Dev) : Bool :=
  match v with
  | .bytes _ => true
  | .num n =>
    !((List.range 8).any (fun s => k == Reg.hev_HEVC_MODE s) && n == 2 && !d.hasDecode) &&
    !((List.range 4).any (fun p => k == Reg.mag_MAG_WRITE_MIN_C p || k == Reg.mag_MAG_WRITE_MAX_C p) &&
      (decide (f32Rat n < -10) || decide (75 < f32Rat n))) &&
    !(k == Reg.weir_WEIR_BUDGET_W && decide (110 < f32Rat n)) &&
    !(k == Reg.thm_RESTART_C && decide (min (f32Rat (d.get Reg.thm_THERM_SHUT_C)) 120 - 10 < f32Rat n)) &&
    !(k == Reg.stb_PEAK_LIMIT && decide (d.get Reg.stb_STROBE_PEAK_FUSED < n))

/-- A stored OUT_MODE of a quad-link's member (R249). -/
def quadMember (k : Nat) (v : Val) : Bool :=
  v == .num 5 && [1, 2, 3, 5, 6, 7].any (fun n => k == Reg.out_OUT_MODE n)

/-- One record taken into the dictionary; none when it is skipped (R443). -/
def loadRecord (k ty : Nat) (b : List Byte) (d : Dev) : Option Dev :=
  match rowOf k with
  | none => none
  | some r =>
    if d.absent k || !(r.persist || r.calib) || r.ty.code != ty then none
    else match valOf r.ty b with
      | none => none
      | some v => if r.ty.admits v && ((r.rng.check v).isNone || v == r.dflt || quadMember k v) && storedInRange k v d then some (setV k v d) else none

/-- The records of a payload taken in order; each that is skipped is counted in STORE_SKIPPED. A record that the payload
cuts short ends the load. -/
def loadRecords : Nat → List Byte → Dev → Dev
  | 0, _, d => d
  | n + 1, b, d =>
    let len := rdLe b 4 4
    let k := rdLe b 0 2 * 256 + rdLe b 2 1
    if (b.drop (7 + len)).isEmpty then d
    else
      loadRecords n (b.drop (8 + roundUp len 4)) (match loadRecord k (rdLe b 3 1) (sliceB b 8 len) d with
        | some e => e
        | none => setN Reg.store_STORE_SKIPPED (min (2 ^ 32 - 1) (d.get Reg.store_STORE_SKIPPED + 1)) d)

/-- The area of the calibration copy that goes with a bank. -/
def Flash.copyOf (f : Flash) (calibSeq : Nat) : Option (Nat × StoreHead) :=
  match f.copyHead 0, f.copyHead 1 with
  | some a, some b => if a.seq = calibSeq then some (0, a) else if b.seq = calibSeq then some (1, b) else none
  | some a, none => if a.seq = calibSeq then some (0, a) else none
  | none, some b => if b.seq = calibSeq then some (1, b) else none
  | none, none => none

/-- Firmware loads the persistent set (R443): EV 0x0321, or EV 0x0322 with no valid bank. -/
def storeLoad (d : Dev) : Dev :=
  match d.flash.chosen with
  | none => post 0x0322 0xFFFF 0 0 d
  | some (i, h) =>
    let d1 := loadRecords h.records h.payload d
    let c := d.flash.copyOf h.calibSeq
    let d2 := match c with
      | some x => setN Reg.store_CALIB_SEQ x.2.seq (loadRecords x.2.records x.2.payload d1)
      | none => d1
    post 0x0321 0xFFFF (i * 2 ^ 24 + min (2 ^ 24 - 1) (d2.get Reg.store_STORE_SKIPPED)) (b2n c.isNone)
      (setN Reg.store_STORE_SEQ h.seq (setN Reg.store_STORE_BANK i
        { d2 with srv := { d2.srv with copyInForce := c.map (·.1) } }))

/-! ## Saving (R444, R445) -/

/-- A save fails: EV 0x0324. -/
def saveFail (code area status : Nat) (d : Dev) : Dev := post 0x0324 0xFFFF code area (setN Reg.store_STORE_STATUS status d)

/-- The newest SEQ among valid images. -/
def newestSeq (a b : Option StoreHead) : Option Nat :=
  match a, b with
  | some x, some y => some (if newer32 y.seq x.seq then y.seq else x.seq)
  | some x, none => some x.seq
  | none, some y => some y.seq
  | none, none => none

/-- SEQ one above the newest; 1 where there is none. -/
def seqAfter (s : Option Nat) : Nat := match s with | some n => incW 32 n | none => 1

/-- The area that a save writes: not the one in force. -/
def otherArea (a : Option Nat) : Nat := match a with | some 0 => 1 | _ => 0

/-- The bank in force. -/
def Dev.bankInForce (d : Dev) : Option Nat := if d.get Reg.store_STORE_BANK < 2 then some (d.get Reg.store_STORE_BANK) else none

/-- A save begins: the snapshot, and the images that it writes. -/
def saveBegin (d : Dev) : Dev :=
  let f := d.flash
  let rewrite := d.calibDirty || d.srv.copyInForce.isNone
  let cseq := if rewrite then seqAfter (newestSeq (f.copyHead 0) (f.copyHead 1)) else d.get Reg.store_CALIB_SEQ
  let calib := if rewrite then some (storeImage "SEUC" cseq 0 true d) else none
  let bank := storeImage "SEUD" (seqAfter (newestSeq (f.bankHead 0) (f.bankHead 1))) cseq false d
  let d1 := setN Reg.store_STORE_STATUS 1 { d with
    calibDirty := false
    srv := { d.srv with save := some { bank := bank, calib := calib, dirtyAfter := false } } }
  let big := match calib with | some c => decide (f.copyBytes (otherArea d.srv.copyInForce) < c.length) | none => false
  let drop := fun (e : Dev) => { e with calibDirty := d.calibDirty, srv := { e.srv with save := none } }
  if big then saveFail 4 1 3 (drop d1)
  else if bankBytes < bank.length then saveFail 4 0 3 (drop d1)
  else d1

/-- A save is asked for (R444, R445): refused in hold-up, pending during a save. -/
def saveAsk (d : Dev) : Dev :=
  if d.srv.save.isSome then setN Reg.store_STORE_STATUS 2 { d with srv := { d.srv with savePending := true } }
  else if d.holdup then saveFail 5 0 4 d
  else saveBegin d

/-- A pending save runs when the first has ended. -/
def saveNext (d : Dev) : Dev :=
  if d.srv.savePending then saveAsk { d with srv := { d.srv with savePending := false } } else d

/-- The flash with an image in a bank or copy. -/
def Flash.put (f : Flash) (calib : Bool) (i : Nat) (b : List Byte) : Flash :=
  if calib then (if i = 0 then { f with copy0 := b } else { f with copy1 := b })
  else (if i = 0 then { f with bank0 := b } else { f with bank1 := b })

/-- The calibration copy of a save is written and checked. -/
def copyWritten (j : SaveJob) (d : Dev) : Dev :=
  match j.calib with
  | some b => { d with flash := d.flash.put true (otherArea d.srv.copyInForce) b }
  | none => d

/-- A save ends: `fail` is 0, or the code of EV 0x0324 with its area. What is left in an area whose writing failed is no
valid image; with code 0x05 the area's writing was not begun, because hold-up came first (R445). -/
def saveEnd (fail area : Nat) (d : Dev) : Dev :=
  match d.srv.save with
  | none => d
  | some j =>
    let d0 := { d with srv := { d.srv with save := none } }
    if fail ≠ 0 then
      let d1 := if fail = 5 then (if area = 1 then d0 else copyWritten j d0)
        else if area = 1 then { d0 with flash := d0.flash.put true (otherArea d.srv.copyInForce) [] }
        else { copyWritten j d0 with flash := (copyWritten j d0).flash.put false (otherArea d.bankInForce) [] }
      saveNext (saveFail fail area (if fail = 5 then 4 else 3) { d1 with calibDirty := d.calibDirty || j.calib.isSome })
    else
      let d1 := copyWritten j d0
      let i := otherArea d.bankInForce
      let seq := rdLe j.bank 8 4
      let cseq := rdLe j.bank 0x18 4
      let d2 := { d1 with
        flash := d1.flash.put false i j.bank
        srv := { d1.srv with copyInForce := if j.calib.isSome then some (otherArea d.srv.copyInForce) else d1.srv.copyInForce } }
      let d3 := setN Reg.store_STORE_SEQ seq (setN Reg.store_STORE_BANK i (setN Reg.store_CALIB_SEQ cseq
        (setN Reg.store_STORE_STATUS 0 d2)))
      let d4 := if j.dirtyAfter then d3 else setN Reg.store_STORE_DIRTY 0 d3
      saveNext (post 0x0323 0xFFFF seq cseq d4)

/-- A write of STORE_SAVE. -/
def writeStoreSave (w : Writer) (v : Nat) : State → WRes :=
  entryWrite w Reg.store_STORE_SAVE (.num v) noRule (fun _ => onDev (fun d => if v = 1 then saveAsk d else d))

/-- STORE_SAVE (R444). -/
def execStoreSave (w : Writer) (s : State) : Host.Outcome State Fault Refusal := .next (finishWrite s (writeStoreSave w 1 s))

/-- STORE_SAVE_COMPLETE (R444). -/
def execStoreSaveComplete (fail area : Nat) (s : State) : Host.Outcome State Fault Refusal := .next (onDev (saveEnd fail area) s)

end Sys2Proof.Machine
end

