-- ==== Sys2Proof/Machine/ResetOps.lean ====
section
/-! DEFINITION. Resets (R526 to R530), the hardware shutdown and its restart (R508 to R510), hold-up (R512 to R517) and the
loss of power. -/

namespace Sys2Proof.Machine

/-! ## Causes (Table 21.3) -/

/-- MODE_EXIT_CAUSE of a reset cause. -/
def exitOfReset (cause : Nat) : Nat := if cause < 2 then 0x00 else if cause = 0x10 then 0x09 else 0x0B

/-- A save that is cut off leaves the first area it writes erased; that area is not in force (R445). -/
def cutSave (d : Dev) : Flash :=
  match d.srv.save with
  | none => d.flash
  | some j =>
    if j.calib.isSome then d.flash.put true (otherArea d.srv.copyInForce) [] else d.flash.put false (otherArea d.bankInForce) []

/-- The entries of the identity record, which are fused. -/
def fusedRegs (r : Regs) : Regs := r.filter (fun x => x.1 / 256 == 0x0100)

/-- What a reset leaves of the world outside: magazines that are plugged, encoder levels, what was put out, and the flash
and fuses. -/
def outside (d e : Dev) : Dev :=
  { e with
    free := d.free, posts := d.posts, out := d.out, flash := cutSave d, fuses := d.fuses
    mags := (List.range 4).map (fun p => { MagPort.reset with present := (d.mag p).present })
    enc := (List.range 4).map (fun n => { Encoder.reset with a := (nth d.enc n).a, b := (nth d.enc n).b })
    boot := { Boot.reset with straps := d.boot.straps, wdtRaw := e.time.raw, resetRaw := some e.time.raw } }

/-- ROLLBACK_FUSED and KEYS_REVOKED read the fuses (R536). -/
def senseFuses (d : Dev) : Dev := setN Reg.fuse_ROLLBACK_FUSED d.fuses.rollback (setN Reg.fuse_KEYS_REVOKED d.fuses.revoked d)

/-- RESET_CAUSE and MODE_EXIT_CAUSE of a reset (R529). -/
def resetCause (cause count : Nat) (d : Dev) : Dev :=
  setN Reg.clk_RESET_CAUSE cause (setN Reg.clk_RESET_COUNT count (setN Reg.mode_MODE_EXIT_CAUSE (exitOfReset cause) d))

/-- The log, empty. -/
def Arbiter.reset : Arbiter := { next := 0, depth := 65536, ring := [], missed := 0, waiting := [], seqOf := [] }

/-- The machine after a reset: the pound is lost, and the first record of the new sequence is EV 0x0401, which the arbiter
makes itself (R22, R529, R565). -/
def afterReset (cause count : Nat) (d : Dev) (s : State) : State :=
  logRecord (tbNow d) 0x0401 0xFFFF cause count
    { s with dev := resetCause cause count d, arb := Arbiter.reset, mem := [], poison := [] }

/-! ## Warm reset -/

/-- A reset is in progress: the 20 µs of R526 have not passed, and the ROM has not run. -/
def Dev.inReset (d : Dev) : Bool :=
  d.boot.phase == .rom && (match d.boot.resetRaw with | some r => decide (d.time.raw - r < 24000) | none => false)

/-- The place of a cause in the order of R527. -/
def causeRank (cause : Nat) : Nat := [0x00, 0x01, 0x15, 0x10, 0x13, 0x14, 0x11, 0x12].findIdx (fun c => c == cause)

/-- A warm reset requested while a reset is in progress: one reset takes place, with the cause that stands first (R527). -/
def mergeReset (cause : Nat) (s : State) : State :=
  let d := s.dev
  if causeRank cause < causeRank (d.get Reg.clk_RESET_CAUSE) then afterReset cause (d.get Reg.clk_RESET_COUNT) d s else s

/-- A warm reset (R526): every unit is reset; what Table 21.2 names is kept. -/
def warmReset (cause : Nat) (s : State) : State :=
  let d := s.dev
  if d.mode = 0 then s
  else if d.inReset then mergeReset cause s
  else
    let kept := [Reg.tb_TB_OFFSET, Reg.tb_TB_RATE, Reg.tb_TB_ANCHOR, Reg.tb_TB_EPOCH, Reg.thm_SHUTDOWNS]
    let d0 := (List.range 4).foldl (fun e p => if (e.mag p).supply then supplyOff p e else e) d
    let e0 : Dev := { Dev.reset with
      regs := fusedRegs d.regs ++ kept.map (fun k => (k, d.val k))
      time := { d.time with armRaw := none } }
    let e1 := outside (clocksStop d0) e0
    let e2 := { e1 with
      dram := { e1.dram with failed := d.dram.failed }
      tw := (List.range 8).map (fun n => { TwBus.reset with bootHold := d.flag (Reg.tw_TW_RESET_ON_WARM n) })
      therm := { e1.therm with restartMs := if cause = 0x10 then some ((d.time.raw - d.therm.holdRaw) / 1200000) else none } }
    let e3 := (List.range 8).foldl (fun e n => if (nth e.tw n).bootHold then emitRst n e else e) (senseFuses e2)
    let e4 := if d.mode = mTHERMAL then emit .pin pinThermTripN [1] [] e3 else e3
    let e5 := if d.flag Reg.hold_CAP_CHG_ALLOWED then emit .pin pinCapChgEn [0] [] e4 else e4
    afterReset cause ((d.get Reg.clk_RESET_COUNT + 1) % 2 ^ 32) (setN Reg.dram_RANK_RETIRE d.dram.failed e5) s

/-- A request for a warm reset (R528): refused in THERMAL_HOLD, held from PWR_FAIL until EV 0x3C0A where a host or a client
makes it. -/
def requestReset (cause : Nat) (s : State) : State :=
  let d := s.dev
  if d.mode = 0 then s
  else if d.mode = mTHERMAL then onDev (post 0x0403 0xFFFF cause mTHERMAL) s
  else if d.holdup ∧ !d.pwr.done ∧ (cause = 0x11 ∨ cause = 0x12) then
    onDev (fun e => post 0x0402 0xFFFF cause 0 { e with pwr := { e.pwr with held := some (match e.pwr.held with
      | some c => min c cause
      | none => cause) } }) s
  else warmReset cause s

/-- Every event of a source is numbered before what follows. -/
def drainSource : Nat → Nat × Nat → State → State
  | 0, _, s => s
  | n + 1, k, s => if (s.dev.source k.1 k.2).queue.isEmpty then s else drainSource n k (takeHead k s)

/-- What waits for EV 0x3C0A (R516, R528): the reset after a restored input, or the held request. The events of
hold-up are numbered first. -/
def afterHoldup (s : State) : State :=
  let d := s.dev
  if d.holdup ∧ d.pwr.done ∧ d.mode ≠ mTHERMAL ∧ d.mode ≠ mBOOT ∧ d.mode ≠ 0 then
    (if d.pwr.restored then warmReset 0x13 (drainSource 64 (0x3C, 0xFFFF) s)
     else match d.pwr.held with
       | some c => warmReset c (drainSource 64 (0x3C, 0xFFFF) s)
       | none => s)
  else s

/-! ## Power-on reset and power loss -/

/-- A power-on reset (R526): bits 1 and 0 of `straps` are BOOT_SEL, bits 3 and 2 TWM_ADDR; bit 4 is set when the pin
SYS_RESET_N caused it. -/
def powerOn (straps : Nat) (s : State) : State :=
  let d := s.dev
  let e := outside d { Dev.reset with regs := fusedRegs d.regs }
  afterReset (straps / 16 % 2) 0 (senseFuses { e with boot := { e.boot with straps := straps % 16 } }) s

/-- OFF: every unit without power; MODE_CURRENT reads nothing but 0 (R33, R554). -/
def powerOff (s : State) : State :=
  let d := s.dev
  let e := outside d { Dev.reset with regs := fusedRegs d.regs }
  { s with dev := setN Reg.mode_MODE_CURRENT 0 e, arb := Arbiter.reset, mem := [], poison := [] }

/-! ## Hardware shutdown (R508) -/

/-- Every unit stops at once, without its shut-down sequence; Ethernet and PCI Express keep running. -/
def hardStop (d : Dev) : Dev :=
  let d0 := (List.range 4).foldl (fun e p => seqStop p e) d
  let d1 := (List.range d.nPorts).foldl (fun e p => sbEnter p 1 0 (sbEnter p 0 0 (rxEnter p 0 e))) d0
  let d2 := (List.range d.nMags).foldl (fun e p =>
    setMagState p msABSENT (lanesTo p (some 0) (some 0) (setMag p (fun x => { x with ready := false, step := .idle }) e))) d1
  let d3 := (List.range 8).foldl (fun e n => outStatus n 2 false (outStatus n 1 false (outStatus n 0 false e))) d2
  let d4 := if d3.scan.pulses.isEmpty then d3 else emit .strobe 0 [0] [] d3
  setN Reg.scan_SCAN_STATE 0 { d4 with
    units := d4.units.map (fun x => match x.1 with
      | .eth _ => x
      | _ => (x.1, { phase := .off, pendingDisable := false, deferred := none }))
    sen := d4.sen.map (fun x => { x with sb := List.replicate 2 SbLane.reset, deferred := none, realigning := false })
    itk := d4.itk.map (fun x => { Intake.reset with frames := x.frames, head := x.head })
    seqr := List.replicate 4 Sequencer.reset
    scan := { Scan.reset with syncIdx := d4.scan.syncIdx }
    brg := { Barges.reset with nextWork := d4.brg.nextWork, est := d4.brg.est, headroom := d4.brg.headroom }
    fab := { d4.fab with want := List.replicate 64 0, wait := List.replicate 64 0 }
    fb := FlatBuild.reset
    views := d4.views.map (fun x => { View.reset with banks := x.banks, cur := x.cur })
    amt := List.replicate 8 AmtStream.reset, pools := List.replicate 8 Pool.reset
    hevc := List.replicate 8 Hevc.reset, hevcQ := [], engine := none, outs := List.replicate 8 Output.reset, align := []
    ends := [], recEnds := [], ended := [], recEnter := none, recLeave := none, recQ := [], take := Take.reset
    forced := [], workLo := 0, workHi := 0, offRead := [] }

/-- Every recorder command that is outstanding completes HELD_THERMAL (R43). -/
def endThermal (d : Dev) : Dev :=
  let open' := d.rcq.cmds.filter (fun c => !(decide (c.ph = .ended) || decide (c.ph = .taken)))
  (List.range 4).foldl (fun e p => setFw p (fun _ => default) (fwDrop p (setMag p (fun x => { x with own := [] }) e)))
    (open'.foldl (fun e c => endCmd c.tag 0x85 c.done 0 e) d)

/-- Refreshes owed are answered and every rank enters self-refresh: no further tick falls due (R283, R508). -/
def sleepDram (d : Dev) : Dev :=
  let e := selfRefresh d
  { e with dram := { e.dram with
      training := false
      chans := e.dram.chans.map (fun c => { c with mig := none, ranks := c.ranks.map (fun r => { r with due := none }) }) } }

/-- The hardware shutdown (R508) and the entry to THERMAL_HOLD (R43): EV 0x3C04, then EV 0x0201. -/
def hardwareShutdown (cause : Nat) (s : State) : State :=
  let d := s.dev
  let d1 := emit .pin pinThermTripN [0] [] (addW 32 Reg.thm_SHUTDOWNS 1
    (setTherm (fun x => { x with holdRaw := d.time.raw, holdMs := none }) d))
  let d2 := postTemp 0x3C04 0xFFFF cause d.junction d1
  let s1 := drainSource 64 (0x3C, 0xFFFF) { s with dev := sleepDram (endThermal (hardStop d2)) }
  magSettle (onDev (fun e => capSync (modeSet mTHERMAL 8 e)) (makeRoom 2 0xFFFF s1))

/-- The end of a round (R497): its decisions, and the shutdown when one is due. -/
def roundEnd (codes : List Nat) (zones : List Rat) (hot : List (Nat × Nat)) (s : State) : State :=
  if s.dev.mode = 0 then s
  else
    let s1 := onDev (hkRound codes zones hot) s
    magSettle (match s1.dev.shutCause with
      | some c => hardwareShutdown c s1
      | none => s1)

/-- The restart timer has reached HOLD_TIME_S (R509). -/
def thermalRestart (s : State) : State :=
  let d := s.dev
  match d.therm.holdMs with
  | some n => if d.mode = mTHERMAL ∧ d.get Reg.thm_HOLD_TIME_S * 1000 ≤ n then warmReset 0x10 s else s
  | none => s

/-! ## Hold-up -/

/-- PWR_FAIL is posted (R512 to R514): EV 0x3C07 with its source, 1 the pin, 2 the comparator, 3 both; the recorder's gate
starts with EV 0x2903 (R348). -/
def powerFail (source : Nat) (s : State) : State :=
  let d := s.dev
  if d.holdup ∨ d.mode = 0 then s
  else
    let d1 := { d with holdup := true, pwr := { raw := d.time.raw, done := false, restored := false, held := none } }
    let d2 := post 0x2903 0xFFFF (satU32 d1.rcq.refused) 3 (setN Reg.hold_HOLDUP_STATE 1 (capSync (post 0x3C07 0xFFFF source d.mode d1)))
    let d3 := (List.finRange 8).foldl (fun e k => unitDisable (.bank k) none e) d2
    let s1 := { s with dev := d3 }
    magSettle (if d.mode = mTHERMAL ∨ (d.mode = mSTANDBY ∧ d.target = 0) then afterHoldup (onDev holdupDone s1)
      else if d.mode = mBOOT then s1
      else forceStandby s1)

/-- The input has stayed clear for PWR_RESTORE_S (R516); VIN_SENSE reads `mv` millivolts. -/
def powerRestored (mv : Nat) (s : State) : State :=
  let d := s.dev
  let level : Rat := f32Rat (d.get Reg.rail_PWR_FAIL_V) + f32Rat (d.get Reg.rail_PWR_FAIL_HYST_V)
  if d.holdup ∧ !d.pwr.restored ∧ d.get Reg.rail_PWR_RESTORE_S * 1200000000 ≤ d.since d.pwr.raw ∧ level ≤ ((mv : Nat) : Rat) / 1000 then
    afterHoldup (onDev (fun e => setN Reg.hold_HOLDUP_STATE 3 (post 0x3C08 0xFFFF mv 0
      { e with pwr := { e.pwr with restored := true } })) s)
  else s

/-! ## Commands -/

/-- HOUSEKEEPING_ROUND (R497). -/
def execHousekeepingRound (codes : List Nat) (zones : List Rat) (hot : List (Nat × Nat)) (s : State) :
    Host.Outcome State Fault Refusal := .next (roundEnd codes zones hot s)

/-- THERMAL_RESTART_TIMER (R509). -/
def execThermalRestartTimer (s : State) : Host.Outcome State Fault Refusal := .next (thermalRestart s)

/-- PWR_FAIL (R512). -/
def execPwrFail (source : Nat) (s : State) : Host.Outcome State Fault Refusal := .next (powerFail source s)

/-- PWR_RESTORED (R516). -/
def execPwrRestored (mv : Nat) (s : State) : Host.Outcome State Fault Refusal := .next (powerRestored mv s)

/-- POWER_ON_RESET (R526). -/
def execPowerOnReset (straps : Nat) (s : State) : Host.Outcome State Fault Refusal := .next (powerOn straps s)

/-- WARM_RESET (R526, R527): a request with a cause of Table 21.3; CLOCK_FAIL is granted in every mode, the others under
R528. -/
def execWarmReset (cause : Nat) (s : State) : Host.Outcome State Fault Refusal :=
  .next (if cause = 0x15 then warmReset cause s
    else if cause = 0x10 then thermalRestart s
    else if 0x11 ≤ cause ∧ cause ≤ 0x14 then requestReset cause s
    else s)

/-- CLOCK_FAIL (R523). -/
def execClockFail (s : State) : Host.Outcome State Fault Refusal := .next (warmReset 0x15 s)

/-- A write of RESET_REQUEST (R528): the key asks for a reset, any other value for nothing. -/
def writeResetRequest (w : Writer) (v : Nat) : State → WRes :=
  entryWrite w Reg.clk_RESET_REQUEST (.num v) noRule (fun _ s => if v = 0xA5A55A5A then requestReset 0x12 s else s)

/-- RESET_REQUEST (R528). -/
def execResetRequest (w : Writer) (v : Nat) (s : State) : Host.Outcome State Fault Refusal :=
  .next (finishWrite s (writeResetRequest w v s))

/-- BOOT_WATCHDOG_EXPIRY (R530): BOOT has not ended within BOOT_WDT_S; suspended while a push waits. -/
def execBootWatchdogExpiry (s : State) : Host.Outcome State Fault Refusal :=
  let b := s.dev.boot
  .next (if (b.phase = .rom ∨ b.phase = .training) ∧
      s.dev.get Reg.clk_BOOT_WDT_S * 1200000000 ≤ s.dev.since b.wdtRaw then requestReset 0x14 s else s)

/-- RUNTIME_WATCHDOG_EXPIRY (R530): a second without service, at the earliest a second after the end of BOOT; suspended in
THERMAL_HOLD (R528). -/
def execRuntimeWatchdogExpiry (s : State) : Host.Outcome State Fault Refusal :=
  .next (if s.dev.boot.phase = .done ∧ s.dev.mode ≠ mTHERMAL ∧ 1200000000 ≤ s.dev.since s.dev.boot.wdtRaw then requestReset 0x14 s else s)

/-- POWER_LOSS (R554): the device enters OFF. -/
def execPowerLoss (s : State) : Host.Outcome State Fault Refusal := .next (powerOff s)

end Sys2Proof.Machine
end

