-- ==== Sys2Proof/Machine/BootOps.lean ====
section
/-! DEFINITION. Boot (R530 to R541): the firmware image and its checks, the boot header and its slots, pushes, firmware's
start and what ends BOOT, and updates of the firmware (R539, R540). -/

namespace Sys2Proof.Machine

/-! ## The firmware image (Tables 21.5 and 21.6) -/

/-- Every byte is zero. -/
def allZero (b : List Byte) : Bool := b.all (· == 0)

/-- DEVICES names the ordering code. -/
def Dev.named (d : Dev) (devices : Nat) : Bool :=
  bit devices (if d.code = 0x9600 then 0 else if d.code = 0x9400 then 1 else 2) == 1

/-- The checks of Table 21.6 in order, over an image of at most `room` bytes that is read by offset and length; 0 when all
pass, else the reason. -/
def imageCheck (read : Nat → Nat → List Byte) (room : Nat) (d : Dev) : Nat :=
  let h := read 0 512
  let n := rdLe h 0x10 4
  let key := rdLe h 0x0D 1
  if !(sliceB h 0 4 == ascii "ETFW" && rdLe h 4 2 == 1 && rdLe h 6 2 == 512 && rdLe h 0x0F 1 == 0 && rdLe h 0x0E 1 / 8 == 0 &&
      allZero (sliceB h 0x18 40) && allZero (sliceB h 0xD0 208)) then 1
  else if n = 0 ∨ room < 512 + n ∨ n ≤ rdLe h 0x14 4 then 2
  else if !(d.named (rdLe h 0x0E 1)) then 3
  else if !(decide (key < 4) && d.fuses.keys.getD key [] == sha384 (sliceB h 0x70 96) && bit d.fuses.revoked key == 0) then 4
  else if !(ecdsaP384 (sliceB h 0x70 96) (sha384 (h.take 0x1A0)) (sliceB h 0x1A0 96)) then 5
  else if sha384 (read 512 n) != sliceB h 0x40 48 then 6
  else if rdLe h 0x0C 1 < d.fuses.rollback then 7
  else 0

/-- An access to the SPI NOR put out (R532): 0 a read of its parameter table, 1 a read, 2 a sector erased and programmed; with the
data lines, the clock in MHz, the address and the bytes. -/
def norOut (kind addr n : Nat) (d : Dev) : Dev := emit .nor kind [d.boot.norLines, d.boot.norMhz, addr, n] [] d

/-- The ROM reads the parameter table in single I/O at 25 MHz, then takes the fastest I/O that it declares, at 100 MHz (R532). -/
def norDiscover (d : Dev) : Dev :=
  let d1 := norOut 0 0 16 d
  match d.flash.table with
  | none => d1
  | some a =>
    let d2 := norOut 0 a 8 d1
    { d2 with boot := { d2.boot with norLines := d.flash.lines, norMhz := 100 } }

/-- Bytes of a firmware slot. -/
abbrev slotSize : Nat := 0x1000000

/-- Slot `i` of the flash. -/
def Flash.slot (f : Flash) (i : Nat) : List Byte := if i = 0 then f.slotA else f.slotB

/-- The checks of the image in a slot. -/
def slotCheck (i : Nat) (d : Dev) : Nat := imageCheck (flashAt (d.flash.slot i)) slotSize d

/-! ## The boot header (Table 21.7, R537) -/

/-- A copy of the boot header, when it is valid: MAGIC, VERSION and CRC. -/
def Flash.header (f : Flash) (i : Nat) : Option (List Byte) :=
  let h := flashAt f.boot (0x1000 * i) 0x1000
  if sliceB h 0 4 = ascii "ETBH" ∧ rdLe h 4 1 = 1 ∧ rdLe h 0xFFC 4 = crc32c (h.take 0xFFC) then some h else none

/-- The copy in force: its number and its bytes. -/
def Flash.inForce (f : Flash) : Option (Nat × List Byte) :=
  match f.header 0, f.header 1 with
  | some a, some b => if newer32 (rdLe b 0x0C 4) (rdLe a 0x0C 4) then some (1, b) else some (0, a)
  | some a, none => some (0, a)
  | none, some b => some (1, b)
  | none, none => none

/-- The header that stands for none: slot A, then slot B, COMMITTED. -/
def blankHeader : List Byte := ascii "ETBH" ++ [1, 0, 1, 1, 0, 0] ++ zeros 4086

/-- The header in force, or what stands for it. -/
def Dev.header (d : Dev) : List Byte :=
  match d.flash.inForce with
  | some x => x.2
  | none => blankHeader

/-- The subsystem vendor and ID of the endpoint: those of the boot header, else 0x1F6B and the device ID (R372). -/
def Dev.subsystem (d : Dev) : Nat :=
  match d.flash.inForce with
  | some x => rdLe x.2 0x10 2 * 65536 + rdLe x.2 0x12 2
  | none => 0x1F6B * 65536 + d.get Reg.idn_DEVICE_ID

/-- State of a slot: 0 EMPTY, 1 COMMITTED, 2 TRIAL, 3 FAILED. -/
def slotState (h : List Byte) (i : Nat) : Nat := rdLe h (6 + i) 1

/-- Trial boots left of a slot. -/
def slotTries (h : List Byte) (i : Nat) : Nat := rdLe h (8 + i) 1

/-- A header with the state and tries of a slot replaced. -/
def setSlot (i st tries : Nat) (h : List Byte) : List Byte := putB (putB h (6 + i) (leBytes 1 st)) (8 + i) (leBytes 1 tries)

/-- SLOT_STATES reads the header in force: its bytes 0x005 to 0x008 (assumption 35). -/
def noteSlots (d : Dev) : Dev := setN Reg.boot_SLOT_STATES (rdLe d.header 5 4) d

/-- A changed header written to the other copy with SEQ one greater (R537); nothing from PWR_FAIL until the next reset. -/
def writeHeader (h : List Byte) (d : Dev) : Dev :=
  if d.holdup then d
  else
    let x := match d.flash.inForce with
      | some y => (1 - y.1, incW 32 (rdLe y.2 0x0C 4))
      | none => (0, 1)
    let body := (putB h 0x0C (leBytes 4 x.2)).take 0xFFC
    let d := norOut 2 (0x1000 * x.1) 0x1000 d
    noteSlots { d with flash := { d.flash with boot := flashPut (flashAt d.flash.boot 0 0x2000) (0x1000 * x.1) (body ++ leBytes 4 (crc32c body)) } }

/-- The ROM's change of the header: with no valid copy it writes nothing. -/
def romHeader (h : List Byte) (d : Dev) : Dev := if d.flash.inForce.isSome then writeHeader h d else d

/-! ## Firmware's start (R541) -/

/-- Fuses are blown until ROLLBACK_FUSED equals the image's ROLLBACK (R540): EV 0x0305. -/
def raiseRollback (d : Dev) : Dev :=
  let old := d.fuses.rollback
  let new := min 64 d.boot.rollback
  if old < new then post 0x0305 0xFFFF new old (senseFuses { d with fuses := { d.fuses with rollback := new } }) else d

/-- What firmware does with the persistent set loaded: pins' inactive levels (R402), views' banks, and the ranks that
it has retired (R286). -/
def applyLoaded (d : Dev) : Dev :=
  let d0 := quadMembers ((List.range 16).foldl (fun e n => tpgIdle n (e.flag (Reg.tpg_INVERT n)) e) d)
  let d1 := { d0 with views := (List.range 4).map (fun v => { d.view v with banks := [d.staging v, []] }) }
  lanesLoaded (setN Reg.dram_RANK_RETIRE (Nat.lor (d1.get Reg.dram_RANK_RETIRE) d1.dram.failed) d1)

/-- TWn_RST_N is released and the buses take their enables (R479, R484). -/
def releaseBuses (d : Dev) : Dev :=
  (List.range 8).foldl (fun e n =>
    let e1 := setBus n (fun b => { b with bootHold := false, live := e.flag (Reg.tw_TW_ENABLE n) }) e
    if (e.bus n).bootHold then emitRst n e1 else e1) d

/-- VDD_ENG is commanded for the cluster steps (R150). -/
def commandRail (d : Dev) : Dev :=
  let d1 := (List.range d.nClusters).foldl (fun e c => clockAim c (e.clockMax c) e) d
  vengCommand d1.vengMv d1

/-- Firmware starts: from slot `slot`, or pushed as 0xFF, with the image's header. -/
def firmwareStart (slot source : Nat) (fallback recovery : Bool) (head : List Byte) (s : State) : State :=
  let d := s.dev
  let h := d.header
  let version := rdLe head 8 4
  let trial := decide (slot < 2) && slotState h slot == 2
  let status := b2n trial + 2 * b2n fallback + 4 * b2n recovery
  let d1 := setN Reg.boot_BOOT_SOURCE source (setN Reg.boot_BOOT_SLOT slot (setN Reg.boot_BOOT_STATUS status
    (setN Reg.boot_SUBSYSTEM_IDS d.subsystem (setN Reg.pcie_SUBSYSTEM d.subsystem (setN Reg.idn_FW_VERSION version
    (setN Reg.store_FLASH_BYTES d.flash.capacity (noteSlots { d with boot := { d.boot with
      phase := .training, slot := slot, version := version, rollback := rdLe head 0x0C 1, window := [], pushLen := 0, pushStatus := 0
      wdtRaw := if d.boot.phase = .waiting then d.time.raw - d.boot.wdtRaw else d.boot.wdtRaw } })))))))
  let d2 := post 0x0301 0xFFFF version (slot * 256 + status) d1
  let d3 := applyLoaded (if recovery then d2 else storeLoad d2)
  let d4 := commandRail (releaseBuses d3)
  let d5 := if decide (slot < 2) && slotState h slot == 1 then raiseRollback d4 else d4
  let s1 := startTraining { s with dev := startUnits d5.posts d5 }
  magSettle { s1 with arb := s1.arb.resize (d5.get Reg.elog_EVT_LOG_DEPTH) }

/-! ## The ROM (R531 to R538) -/

/-- An event of the ROM whose ARG1 may be the slot that is booted in the end. -/
structure RomEvent where
  code : Nat
  arg0 : Nat
  arg1 : Option Nat
deriving DecidableEq, Repr

/-- The ROM's events, with the slot booted: 0xFF for none. -/
def postRom (l : List RomEvent) (booted : Nat) (d : Dev) : Dev :=
  l.foldl (fun e x => post x.code 0xFFFF x.arg0 (x.arg1.getD booted) e) d

/-- The ROM waits for a push (R533); the boot watchdog is suspended: it holds the cycles counted so far (R530). -/
def waitPush (source : Nat) (d : Dev) : Dev :=
  setN Reg.boot_BOOT_SOURCE source { d with boot := { d.boot with
    phase := .waiting, window := [], pushLen := 0, pushStatus := 0, wdtRaw := d.since d.boot.wdtRaw } }

/-- What the ROM reads of a slot whose checks end with reason `r`: its header, and the payload once, where the checks of the
header pass (R535). -/
def slotRead (i r : Nat) (d : Dev) : Dev :=
  let a := 0x100000 + slotSize * i
  let d1 := norOut 1 a 512 d
  if r = 0 ∨ r = 6 ∨ r = 7 then norOut 1 (a + 512) (rdLe (flashAt (d.flash.slot i) 0 512) 0x10 4) d1 else d1

/-- The slots are tried in order (R538). -/
def romSlots : List Nat → List RomEvent → Nat → State → State
  | [], ev, _, s => onDev (fun d => waitPush 2 (postRom ev 0xFF d)) s
  | i :: rest, ev, preferred, s =>
    let d := s.dev
    let h := d.header
    let st := slotState h i
    if st = 2 ∧ slotTries h i = 0 then
      romSlots rest (ev ++ [{ code := 0x0302, arg0 := i, arg1 := none }]) preferred { s with dev := romHeader (setSlot i 3 0 h) d }
    else if st = 2 ∨ st = 1 then
      let d0 := if st = 2 then romHeader (setSlot i 2 (slotTries h i - 1) h) d else d
      let r := slotCheck i d0
      let d1 := slotRead i r d0
      if r = 0 then
        firmwareStart i 0 (i != preferred) false (flashAt (d1.flash.slot i) 0 512) { s with dev := postRom ev i d1 }
      else
        let d2 := if st = 2 then romHeader (setSlot i 3 (slotTries h i - 1) h) d1 else d1
        romSlots rest (ev ++ [{ code := 0x0304, arg0 := i, arg1 := some r }]) preferred { s with dev := d2 }
    else romSlots rest ev preferred s

/-- The boot ROM runs (R531, R532, R534, R538). -/
def romBoot (s : State) : State :=
  let d := s.dev
  if d.mode ≠ mBOOT ∨ d.boot.phase ≠ .rom then s
  else
    let sel := d.boot.straps % 4
    let s1 := onDev norDiscover s
    if sel = 0 then
      let p := if rdLe d.header 5 1 = 1 then 1 else 0
      romSlots [p, 1 - p] [] p (onDev (norOut 1 0 0x2000) s1)
    else onDev (waitPush (if sel = 1 then 1 else 2)) s1

/-- GO is written while the ROM waits (R533): the pushed image is verified and run, or its reason reported. -/
def pushGo (s : State) : State :=
  let d := s.dev
  if d.mode ≠ mBOOT ∨ d.boot.phase ≠ .waiting then s
  else
    let read := fun off n => Mem.readBytes d.boot.window off n
    let r := imageCheck read d.boot.pushLen d
    if r = 0 then firmwareStart 0xFF (d.get Reg.boot_BOOT_SOURCE) false (d.get Reg.boot_BOOT_SOURCE == 2) (read 0 512) s
    else onDev (fun e => post 0x0304 0xFFFF 0xFF r { e with boot := { e.boot with pushStatus := r * 256 + 3 } }) s

/-! ## Commit and update (R539, R540) -/

/-- The running trial image is committed (R540). -/
def commitSlot (d : Dev) : Dev :=
  let i := d.boot.slot
  if 2 ≤ i ∨ slotState d.header i ≠ 2 ∨ d.holdup then d
  else
    let d1 := writeHeader (setSlot i 1 0 d.header) d
    let d2 := setN Reg.boot_BOOT_STATUS (d1.get Reg.boot_BOOT_STATUS / 2 * 2) d1
    raiseRollback (post 0x0303 0xFFFF d.boot.version i d2)

/-- STANDBY is reached: a trial image is committed with FW_AUTO_COMMIT; then resets that waited for the hold-up. -/
def standbyReached (s : State) : State :=
  afterHoldup (if s.dev.mode = mSTANDBY ∧ s.dev.flag Reg.boot_FW_AUTO_COMMIT then onDev commitSlot s else s)

/-- A write of FW_COMMIT. -/
def writeFwCommit (w : Writer) (v : Nat) : State → WRes :=
  entryWrite w Reg.boot_FW_COMMIT (.num v) noRule (fun _ => onDev (fun d => if v = 1 then commitSlot d else d))

/-- The slot that an update writes: the one not running; of a pushed firmware the one that is not preferred. -/
def Dev.updateSlot (d : Dev) : Nat :=
  if d.boot.slot < 2 then 1 - d.boot.slot else if rdLe d.header 5 1 = 1 then 0 else 1

/-- The image is written, verified, and made TRIAL and preferred (R539). -/
def fwUpdate (image : List Byte) (d : Dev) : Dev :=
  let i := d.updateSlot
  let d1 := { d with flash := if i = 0 then { d.flash with slotA := image } else { d.flash with slotB := image } }
  let r := slotCheck i d1
  if r ≠ 0 then setN Reg.boot_FW_UPDATE_STATUS (0x80 + r) d1
  else if d.holdup then setN Reg.boot_FW_UPDATE_STATUS 1 d1
  else setN Reg.boot_FW_UPDATE_STATUS 2 (writeHeader (putB (setSlot i 2 3 d1.header) 5 (leBytes 1 i)) d1)

/-- A write of FW_UPDATE, in STANDBY or CONFIGURE. -/
def writeFwUpdate (w : Writer) (image : List Byte) : State → WRes :=
  entryWrite w Reg.boot_FW_UPDATE (.bytes image)
    (fun s =>
      if s.dev.mode ≠ mSTANDBY ∧ s.dev.mode ≠ mCONFIGURE then refuse stMODE
      else if slotSize < image.length then refuse 0x0F
      else none)
    (fun _ => onDev (fwUpdate image))

/-- A write of SUBSYSTEM_IDS: the boot header takes the new IDs (R537). -/
def writeSubsystemIds (w : Writer) (v : Nat) : State → WRes :=
  entryWrite w Reg.boot_SUBSYSTEM_IDS (.num v) noRule (fun _ => onDev (fun d =>
    writeHeader (putB d.header 0x10 (leBytes 2 (v / 65536) ++ leBytes 2 v)) (setN Reg.boot_SUBSYSTEM_IDS v d)))

/-! ## The end of BOOT -/

/-- BOOT ends (R34, R45): STANDBY keeps the reset's cause, SERVICE has TRAINING_FAIL. -/
def bootEnd (ok : Bool) (s0 : State) : State :=
  let s := makeRoom 2 0xFFFF s0
  let d := { s.dev with boot := { s.dev.boot with phase := .done, wdtRaw := s.dev.time.raw } }
  let ref := d.posts
  let d1 := if ok then modeSet mSTANDBY (d.get Reg.mode_MODE_EXIT_CAUSE) d else modeSet mSERVICE 3 d
  let d2 := startUnits ref (holdLanes d1.mode ref d1)
  standbyReached (magSettle { s with dev := holdupDone d2 })

/-- Training of the fitted ranks has ended (R277, R278): the map is formed, and BOOT ends if it was in progress. -/
def trainingEnd (results : List RankTrain) (s : State) : State :=
  if !s.dev.dram.training then s
  else
    let r := trainingResult results s.dev
    let s1 := { s with dev := r.2 }
    if s.dev.mode = mBOOT then bootEnd r.1 s1 else magSettle s1

/-! ## Commands -/

/-- FW_UPDATE (R539). -/
def execFwUpdate (w : Writer) (image : List Byte) (s : State) : Host.Outcome State Fault Refusal :=
  .next (finishWrite s (writeFwUpdate w image s))

/-- FW_COMMIT (R540). -/
def execFwCommit (w : Writer) (s : State) : Host.Outcome State Fault Refusal := .next (finishWrite s (writeFwCommit w 1 s))

/-- SUBSYSTEM_IDS (R537). -/
def execSubsystemIds (w : Writer) (v : Nat) (s : State) : Host.Outcome State Fault Refusal :=
  .next (finishWrite s (writeSubsystemIds w v s))

/-- DRAM_TRAINING_COMPLETE (R277). -/
def execDramTrainingComplete (results : List RankTrain) (s : State) : Host.Outcome State Fault Refusal := .next (trainingEnd results s)

/-- VENG_CONFIRM_TIMEOUT (R541): 100 µs have passed without the regulator's confirmation; `reported` is the voltage in mV
that it reports, or 0. -/
def execVengConfirmTimeout (reported : Nat) (s : State) : Host.Outcome State Fault Refusal :=
  .next (match s.dev.boot.vengRaw with
    | some raw =>
      if 120000 ≤ s.dev.since raw then
        onDev (fun d => post 0x0404 0xFFFF d.boot.vengSet reported { d with boot := { d.boot with vengRaw := none } }) s
      else s
    | none => s)

/-- MODE_TRANSITION_COMPLETE (R37). -/
def execModeTransitionComplete (s : State) : Host.Outcome State Fault Refusal :=
  .next (if s.dev.trans.isSome ∧ s.pendingBits = 0 then standbyReached (modeComplete s) else s)

end Sys2Proof.Machine
end

