-- ==== Sys2Proof/Machine/LaneCmds.lean ====
section
/-! DEFINITION. Commands of the sensor lanes, their sidebands and reference clocks, and of the lanes' test entries, sensor
and magazine (R58 to R76, R298). -/

namespace Sys2Proof.Machine

/-! ## Settling -/

/-- What follows a command that may end settings writes or force a mode change (R38, R114). -/
def settleState (s : State) : State := magSettle (forcedGo (onDev settleAll s))

/-! ## Gangs and power requests -/

/-- The GANG value that a port accepts (Table 3.7). -/
def gangOk (p v : Nat) : Bool := if p = 0 then decide (v ≤ 2) else if p = 2 then decide (v ≤ 1) else v == 0

/-- The receive lanes follow a request in the modes that run the port (R70 to R72). -/
def rxFollow (p ref : Nat) (d : Dev) : Dev :=
  if captureMode d.aim && decide ((d.unit (.port (Fin.ofNat 4 p))).phase = .running ∨ (d.unit (.port (Fin.ofNat 4 p))).phase = .starting)
  then rxGo p (d.rxWanted d.aim p) (some ref) d else d

/-- A lane group changes (R47, R48): lanes that join or leave it take their state, and a port with a lane that is not
aligned is not aligned. -/
def regroup (d : Dev) : Dev :=
  (List.range d.nPorts).foldl (fun e p =>
    let e1 := syncLanes p e
    if (List.range (e1.laneCount p)).all (fun k => e1.get (Reg.lan_LANE_ALIGN p k) == 1) then e1 else setStatus p 0 false e1) d

/-! ## The reference clock (R63) -/

/-- A write of CK_FREQ or CK_ENABLE: a change of frequency holds the running output low until it restarts. -/
def ckWrite (p k v : Nat) (d : Dev) : Dev :=
  let d1 := setN k v d
  if k = Reg.sen_CK_ENABLE p then
    (if (d.get k) = v then d1
     else emitCk p (if v = 1 then d1.get (Reg.sen_CK_FREQ p) else 0xFF) (setPort p (fun x => { x with ckTo := none }) d1))
  else if d.get k = v ∨ !(d.flag (Reg.sen_CK_ENABLE p)) then d1
  else emitCk p 0xFF (setPort p (fun x => { x with ckTo := some v }) d1)

/-! ## Pattern checkers -/

/-- A count that saturates at `top`, increased by `n`. -/
def addSat (top k n : Nat) (d : Dev) : Dev := setN k (min top (d.get k + n)) d

/-- The pattern of a sensor lane's quad: that of its lowest lane with a PRBS_SEL (R73, assumption 64). -/
def Dev.quadPattern (d : Dev) (p k : Nat) : Nat :=
  (((List.range 4).map (fun i => d.get (Reg.lan_PRBS_SEL p (k / 4 * 4 + i)))).find? (fun v => v != 0)).getD 0

/-- The taps of pattern `sel` at a port, and what seeds its checker: a pattern 0x05 is the training word (R74). -/
def Dev.pattern (d : Dev) (p sel : Nat) : (Nat × Nat) × (List Bool → Bool) :=
  let w := d.wordWidth p
  (prbsTaps sel w, if sel = 5 then trainingSeen w (d.get (Reg.sen_TRAINING_WORD (d.lead p))) else fun _ => true)

/-- A checker of a sensor lane takes the bits that its receiver hands on (R74): in a parallel loop as many bits of the
quad's transmitter (R73), else those received, complemented by INVERT (R48). -/
def sensorPrbs (p k : Nat) (bits : List Bool) (d : Dev) : Dev :=
  let sel := d.get (Reg.lan_PRBS_SEL p k)
  if sel = 0 ∨ d.get (Reg.lan_LANE_POWER p k) ≠ 3 then d
  else
    let looped := d.get (Reg.lan_LOOP p k) == 2
    let gen := prbsGen (d.pattern p (d.quadPattern p k)).1 bits.length (nth (d.port p).gens (k / 4))
    let got := if looped then gen.1 else if d.flag (Reg.lan_INVERT p k) then bits.map (fun b => !b) else bits
    let d1 := if looped then setPort p (fun x => { x with gens := x.gens.set (k / 4) gen.2 }) d else d
    let pat := d.pattern p sel
    let r := prbsRun pat.1 pat.2 (nth (d.port p).lanes k).prbs got
    setN (Reg.lan_PRBS_LOCK p k) (b2n r.1.locked) (addSat (2 ^ 32 - 1) (Reg.lan_PRBS_ERRORS p k) r.2.2
      (addW 64 (Reg.lan_PRBS_BITS p k) r.2.1 (setLane p k (fun l => { l with prbs := r.1 }) d1)))

/-- A checker of a magazine lane takes the bits that its receiver hands on (R318): in a parallel loop as many bits of the
lane's own transmitter, else those received, complemented by INVERT; a far-end loop sends those again. -/
def magPrbs (p k : Nat) (bits : List Bool) (d : Dev) : Dev :=
  let v := d.get (Reg.mln_PRBS_SEL p k)
  let sel := v % 16
  let loop := d.get (Reg.mln_LOOP p k)
  let d0 := if loop = 3 then emit .magLink p [4, k] (bits.map (fun b => BitVec.ofNat 8 (b2n b))) d else d
  if sel = 0 ∨ d.get (Reg.mln_LANE_POWER p k) % 16 ≠ 3 then d0
  else
    let gen := prbsGen (prbsTaps (v / 16) 66) bits.length (nth (d.mag p).gens k)
    let got := if loop = 2 then gen.1 else if bit (d.get (Reg.mln_INVERT p k)) 0 = 1 then bits.map (fun b => !b) else bits
    let d1 := if loop = 2 then setMag p (fun x => { x with gens := x.gens.set k gen.2 }) d0 else d0
    let r := prbsRun (prbsTaps sel 66) (fun _ => true) (nth (d.mag p).lanes k).prbs got
    addSat (2 ^ 32 - 1) (Reg.mln_PRBS_ERRORS p k) r.2.2
      (addW 64 (Reg.mln_PRBS_BITS p k) r.2.1 (setMagLane p k (fun l => { l with prbs := r.1 }) d1))

/-! ## Writes -/

/-- A frame that a client sends on SB1: a TYPE of Table 3.4 for SB1 with its payload (R59). -/
def sendable (b : List Byte) : Bool :=
  match rdLe b 0 1 with
  | 0x03 => decide (b.length = 1)
  | 0x10 => decide (2 ≤ b.length ∧ b.length ≤ 33)
  | 0x11 => decide (b.length = 2 ∧ rdLe b 1 1 ≤ 2)
  | _ => false

/-- The acceptance rules of a port's lane and sideband entries beyond the tables: GANG, and the frame of SB_SEND. -/
def laneRule (p k : Nat) (v : Val) : Option (Nat × (Dev → Dev)) :=
  match v with
  | .num n => if k = Reg.sen_GANG p ∧ !(gangOk p n) then refuse stRANGE else none
  | .bytes b => if k = Reg.sen_SB_SEND p ∧ !(sendable b) then refuse stRANGE else none

/-- The effect of a write of an entry of a port (Table 3.7); `ref` is the event that records it. -/
def portEffect (p k : Nat) (v : Val) (ref : Nat) (d : Dev) : Dev :=
  match v with
  | .bytes b =>
    if k = Reg.sen_SB_SEND p then
      sbOffer p { ty := rdLe b 0 1, payload := b.drop 1, owner := .none, tb := 0 } d
    else setB k b d
  | .num n =>
    if k = Reg.sen_DESKEW_ARM p then (if n = 1 then armDeskew p d else d)
    else if k = Reg.sen_RX_POWER_REQ p then rxFollow p ref (setN k n d)
    else if k = Reg.sen_SB0_ENABLE p ∨ k = Reg.sen_SB1_ENABLE p ∨ k = Reg.sen_SB_POWER_REQ p then
      sbGo p 1 (sbGo p 0 (setN k n d))
    else if k = Reg.sen_SB_PRBS_SEL p then
      (List.range 2).foldl (fun e i => sbPattern p i (field n (4 * i + 3) (4 * i)) e) (setN k n d)
    else if k = Reg.sen_LANE_COUNT p then regroup (setN k n d)
    else if k = Reg.sen_CK_ENABLE p ∨ k = Reg.sen_CK_FREQ p then ckWrite p k n d
    else if k = Reg.sen_GANG p then regroup (noteGangs (setN k n d))
    else setN k n d

/-- The effect of a write of an entry of a lane (Table 3.8). -/
def laneEffect (p l k : Nat) (v : Val) (d : Dev) : Dev :=
  match v with
  | .bytes b => setB k b d
  | .num n =>
    if k = Reg.lan_SLIP p l then (if n = 1 then slipLane p l d else d)
    else if k = Reg.lan_DWELL p l then (if n = 1 then syncLanes p (startDwell p l d) else d)
    else if k = Reg.lan_PRBS_SEL p l then
      syncLanes p (setN (Reg.lan_PRBS_LOCK p l) 0 (setN (Reg.lan_PRBS_BITS p l) 0 (setN (Reg.lan_PRBS_ERRORS p l) 0
        (setN k n (setLane p l (fun x => { x with prbs := Prbs.reset })
          (setPort p (fun x => { x with gens := x.gens.set (l / 4) (List.replicate 31 true) }) d))))))
    else if k = Reg.lan_LOOP p l then syncLanes p (setN k n d)
    else setN k n d

/-- A write of an entry of a sensor port's range, 0x0800 to 0x0BFF, but for PORT_ENABLE. -/
def writeLaneEntry (w : Writer) (k : Nat) (v : Val) : State → WRes :=
  let p := (k / 256 - 0x0800) / 0x100
  let r := (k / 256 - 0x0800) % 0x100
  entryWrite w k v (fun _ => laneRule p k v)
    (fun ref => onDev (fun d => if 0x10 ≤ r ∧ r < 0x50 then laneEffect p (r - 0x10) k v d else portEffect p k v ref d))

/-- A write of an entry of a magazine lane (Table 12.9). -/
def writeMagLane (w : Writer) (k : Nat) (v : Val) : State → WRes :=
  let p := (k / 256 - 0x2810) / 0x20
  let l := (k / 256 - 0x2810) % 0x20 - 8
  entryWrite w k v noRule (fun _ => onDev (fun d =>
    match v with
    | .bytes b => setB k b d
    | .num n =>
      if k = Reg.mln_SLIP p l then (if n = 1 then magSlip p l d else d)
      else if k = Reg.mln_DWELL p l then (if n = 1 then magDwell p l d else d)
      else if k = Reg.mln_PRBS_SEL p l then
        setN (Reg.mln_PRBS_BITS p l) 0 (setN (Reg.mln_PRBS_ERRORS p l) 0
          (setN k n (setMagLane p l (fun x => { x with prbs := Prbs.reset })
            (setMag p (fun x => { x with gens := x.gens.set l (List.replicate 31 true) }) d))))
      else setN k n d))

/-- The key of an entry of a lane, sensor or magazine. -/
def laneWrite (w : Writer) (l : LaneRef) (sensor : Nat → Nat → Nat) (mag : Nat → Nat → Nat) (v : Nat) : State → WRes :=
  match l with
  | .sensor p k => writeLaneEntry w (sensor p k) (.num v)
  | .mag p k => writeMagLane w (mag p k) (.num v)

/-! ## Commands -/

/-- FRAME_TRIGGER (R61). -/
def execFrameTrigger (p : Fin 4) (s : State) : Host.Outcome State Fault Refusal :=
  .next (if p.val < s.dev.nPorts then onDev (fun d => (sendTrigger p 1 d).2) s else s)

/-- SIDEBAND_FRAME_SENT (R62). -/
def execSidebandFrameSent (p : Fin 4) (sb : Fin 2) (s : State) : Host.Outcome State Fault Refusal :=
  .next (settleState (onDev (sbSent p sb) s))

/-- SB_SEND (R76). -/
def execSbSend (w : Writer) (p : Fin 4) (frame : List Byte) (s : State) : Host.Outcome State Fault Refusal :=
  .next (finishWrite s (writeLaneEntry w (Reg.sen_SB_SEND p) (.bytes frame) s))

/-- CK_FREQ_CHANGE (R63). -/
def execCkFreqChange (w : Writer) (p : Fin 4) (v : Nat) (s : State) : Host.Outcome State Fault Refusal :=
  .next (finishWrite s (writeLaneEntry w (Reg.sen_CK_FREQ p) (.num v) s))

/-- CK_RESTART (R63). -/
def execCkRestart (p : Fin 4) (s : State) : Host.Outcome State Fault Refusal := .next (onDev (ckRestart p) s)

/-- SLIP (R64, R298). -/
def execSlip (w : Writer) (l : LaneRef) (s : State) : Host.Outcome State Fault Refusal :=
  .next (finishWrite s (laneWrite w l Reg.lan_SLIP Reg.mln_SLIP 1 s))

/-- DWELL (R64, R298). -/
def execDwell (w : Writer) (l : LaneRef) (s : State) : Host.Outcome State Fault Refusal :=
  .next (finishWrite s (laneWrite w l Reg.lan_DWELL Reg.mln_DWELL 1 s))

/-- DWELL_DONE (R64, R69, R298). -/
def execDwellDone (l : LaneRef) (matched : Nat) (eq : Equaliser) (s : State) : Host.Outcome State Fault Refusal :=
  .next (match l with
    | .sensor p k => settleState (onDev (dwellDone p k matched eq) s)
    | .mag p k => magSettle (onDev (fun d => downCheck p (magDwellDone p k matched eq d)) s))

/-- DESKEW_ARM (R65). -/
def execDeskewArm (w : Writer) (p : Fin 4) (s : State) : Host.Outcome State Fault Refusal :=
  .next (finishWrite s (writeLaneEntry w (Reg.sen_DESKEW_ARM p) (.num 1) s))

/-- DESKEW_LANDING (R65, R298). -/
def execDeskewLanding (l : LaneRef) (pos : Nat) (s : State) : Host.Outcome State Fault Refusal :=
  .next (match l with
    | .sensor p k => settleState (onDev (deskewLanding p k pos) s)
    | .mag p k => magSettle (onDev (magLanding p k pos) s))

/-- DESKEW_WINDOW_END (R65, R298). -/
def execDeskewWindowEnd (p : LinkRef) (s : State) : Host.Outcome State Fault Refusal :=
  .next (match p with
    | .sensor p => settleState (onDev (deskewWindowEnd p) s)
    | .mag p => if (s.dev.mag p).windowOpen then magSettle (onDev (magDeskewFinish p) s) else s)

/-- LANE_LOCK_LOST (R67): the clock recovery of a lane unlocks. The other causes are what the lane receives. -/
def execLaneLockLost (p : Fin 4) (k : Fin 64) (s : State) : Host.Outcome State Fault Refusal :=
  .next (settleState (onDev (lockLost p k 1) s))

/-- The block that each lane of the port receives in an ALIGN stripe (R54, R66, R67). The next block is the first of a
stripe. -/
def stripeAligned (p : Nat) (blocks : List (Nat × Nat)) (d : Dev) : Dev :=
  let r := (List.range (d.laneCount p)).foldl (fun (a : List StripeBlock × Dev) k =>
    let x := receiveBlock p k (blocks.getD k (0, 0)) a.2
    (a.1 ++ [x.1], x.2)) ([], d)
  alignStripe p (alignedBlocks r.1) (setPort p (fun x => { x with nextLane := 0 }) r.2)

/-- STRIPE_ALIGN_STRIPE (R54, R66, R67): an ALIGN stripe, each block its sync header and its payload as sent. -/
def execStripeAlignStripe (p : Fin 4) (blocks : List (Nat × Nat)) (s : State) : Host.Outcome State Fault Refusal :=
  .next (if s.dev.stripe p && decide ((s.dev.port p).rx = 3) then
      settleState (onDev (stripeAligned p blocks) s)
    else s)

/-- PORT_REALIGNED (R68); the interruption is indexed in the take (R363). -/
def execPortRealigned (p : Fin 4) (s : State) : Host.Outcome State Fault Refusal :=
  .next (
    let d := s.dev
    match (d.port p).realignRaw with
    | some r =>
      let e := realigned p d
      if (e.port p).realignRaw.isSome then s
      else
        let us := satU32 (usOfCycles (d.time.raw - r))
        settleState { s with dev := takeInterrupt (d.lead p) us (d.intake (d.lead p)).frames e }
    | none => s)

/-- RX_POWER_REQ (R71). -/
def execRxPowerReq (w : Writer) (p : Fin 4) (v : Nat) (s : State) : Host.Outcome State Fault Refusal :=
  .next (settleState (finishWrite s (writeLaneEntry w (Reg.sen_RX_POWER_REQ p) (.num v) s)))

/-- SB_POWER_REQ (R70). -/
def execSbPowerReq (w : Writer) (p : Fin 4) (v : Nat) (s : State) : Host.Outcome State Fault Refusal :=
  .next (settleState (finishWrite s (writeLaneEntry w (Reg.sen_SB_POWER_REQ p) (.num v) s)))

/-- LANE_WAKE_DONE (R70). -/
def execLaneWakeDone (p : Fin 4) (which : SideOrRx) (s : State) : Host.Outcome State Fault Refusal :=
  .next (settleState (onDev (fun d =>
    match which with
    | .rx => rxWoken p d
    | .sb i => sbWoken p i d) s))

/-- PRBS_SEL (R74), and SB_PRBS_SEL of the sidebands. -/
def execPrbsSel (w : Writer) (l : PrbsRef) (v : Nat) (s : State) : Host.Outcome State Fault Refusal :=
  .next (finishWrite s (match l with
    | .sensor p k => writeLaneEntry w (Reg.lan_PRBS_SEL p k) (.num v) s
    | .side p => writeLaneEntry w (Reg.sen_SB_PRBS_SEL p) (.num v) s
    | .mag p k => writeMagLane w (Reg.mln_PRBS_SEL p k) (.num v) s))

/-- LOOP (R73). -/
def execLoop (w : Writer) (l : LaneRef) (v : Nat) (s : State) : Host.Outcome State Fault Refusal :=
  .next (finishWrite s (laneWrite w l Reg.lan_LOOP Reg.mln_LOOP v s))

/-- PRBS_LOCK (R74): a run of received bits passes the lane's checker. -/
def execPrbsLock (l : LaneRef) (bits : List Bool) (s : State) : Host.Outcome State Fault Refusal :=
  .next (onDev (fun d =>
    match l with
    | .sensor p k => sensorPrbs p k bits d
    | .mag p k => magPrbs p k bits d) s)

end Sys2Proof.Machine
end

