-- ==== Sys2Proof/Machine/IntakeCmds.lean ====
section
/-! DEFINITION. What arrives on the receive lanes: raw sync sequences and segments (R49 to R51), stripe-link packets (R55 to
R57), the faults of row assembly (R80 to R83, R96, R461), and the burst trigger sources (R103). -/

namespace Sys2Proof.Machine

/-! ## The lane group of a port or gang -/

/-- Lanes of the whole group: of every member (R48). -/
def Dev.groupLanes (d : Dev) (p : Nat) : Nat := (d.members p).length * d.laneCount p

/-- The gang lane of physical lane `k` of port `p` (R48, Table 3.8). -/
def Dev.gangLane (d : Dev) (p k : Nat) : Nat := (p - d.lead p) * 64 + d.get (Reg.lan_LOGICAL p k)

/-- Segments of a row, m. -/
def Dev.segLanes (d : Dev) (p : Nat) : Nat := max 1 (d.get (Reg.sen_SEGMENT_LANES (d.lead p)))

/-- Segment groups, G = n / m (R50). -/
def Dev.segGroups (d : Dev) (p : Nat) : Nat := max 1 (d.groupLanes p / d.segLanes p)

/-- The lane's data reach row assembly: a lane of the group, ACTIVE, aligned and not looped, of a front-end with a ring (R71,
R73). -/
def Dev.hears (d : Dev) (p k : Nat) : Bool :=
  decide (p < d.nPorts) && d.get (Reg.lan_LOOP p k) == 0 && decide (k < d.laneCount p) && decide ((d.port p).rx = 3) && d.aligned p &&
  (d.intake (d.lead p)).hasRing && decide ((d.intake (d.lead p)).run ≠ 0) && (d.port p).realignRaw.isNone

/-- The scan unit's front-end takes the rows of the port's group (R461). -/
def Dev.scanning (d : Dev) (p : Nat) : Bool := d.mode == mSCAN && d.lead p == d.scanPort

/-- Row assembly takes no more of the open segments of the group's lanes. -/
def closeSegs (p : Nat) (d : Dev) : Dev :=
  (d.members p).foldl (fun e q => setPort q (fun x => { x with
    lanes := x.lanes.map (fun l => { l with seg := l.seg.map (fun y => (y.1, false)) }) }) e) d

/-- The oldest frame in progress of the group. -/
def Dev.current (d : Dev) (p : Nat) : Option Asm := (d.intake (d.lead p)).asms.head?

/-- A fault of Table 4.2 ends the frame in progress; in SCAN the frame of the oldest fired line (R461). -/
def faultEnd (p flag : Nat) (s : State) : State :=
  let l := s.dev.lead p
  if s.dev.scanning p then
    match s.dev.scan.lines with
    | [] => s
    | x :: xs =>
      onDev scanDoneCheck (endFrame l x.frame flag true (onDev (fun d => closeSegs p (setScan (fun c => { c with lines := xs }) d)) s))
  else
    match s.dev.current p with
    | some a => endFrame l a.frame flag true (onDev (closeSegs p) s)
    | none => s

/-- Fault 7: the next SOF or FS comes before the frame's end (R82). -/
def nextTooSoon (p : Nat) (a : Asm) (s : State) : State :=
  let l := s.dev.lead p
  let full := decide (a.valid = s.dev.get (Reg.itk_HEIGHT l))
  endFrame l a.frame (2 ^ fMALFORMED) (!full) (onDev (closeSegs p) s)

/-- A frame begins, if the port accepts one (R71, R68, R102). -/
def beginIf (p b field lane : Nat) (s : State) : State :=
  if s.dev.accepts (s.dev.lead p) then beginFrame (s.dev.lead p) b field lane (onDev (closeSegs p) s) else s

/-- The normal end (R81): fault 8 with rows missing. -/
def normalEnd (p : Nat) (a : Asm) (s : State) : State :=
  let l := s.dev.lead p
  let short := decide (a.valid < s.dev.get (Reg.itk_HEIGHT l))
  endFrame l a.frame (if short then 2 ^ fMALFORMED else 0) short (onDev (closeSegs p) s)

/-! ## Complete rows -/

/-- The readouts of row `row` whose parts have all come, each in column order; the front-end's parts without them. -/
def takeRow (readouts segments row : Nat) (parts : List RowPart) : Option (List (List Nat)) × List RowPart :=
  let mine := parts.filter (fun x => x.row == row)
  let sort := fun (l : List RowPart) => l.mergeSort (fun a b => decide (a.first ≤ b.first))
  if mine.length = readouts * segments then
    (some ((List.range readouts).map (fun i => (sort (mine.filter (fun x => x.readout == i))).flatMap (fun x => x.samples))),
     parts.filter (fun x => x.row != row))
  else (none, parts)

/-- A row of the group is complete: it goes to the frame in progress, or in SCAN to the oldest fired line. -/
def rowArrived (p row group : Nat) (readouts : List (List Nat)) (s : State) : State :=
  if s.dev.scanning p then scanRow readouts s
  else match s.dev.current p with
    | some a => rowDone (s.dev.lead p) a.frame row group readouts s
    | none => s

/-! ## Raw coding (R49 to R51) -/

/-- Segments closed on a gang lane in the frame. -/
def Intake.closed (x : Intake) (lane : Nat) : Nat := ((x.segs.find? (fun y => y.1 == lane)).map (·.2)).getD 0

/-- A segment closed on a gang lane. -/
def Intake.close (x : Intake) (lane : Nat) : Intake :=
  { x with segs := (lane, x.closed lane + 1) :: x.segs.filter (fun y => y.1 != lane) }

/-- The row and readout of the next segment of a gang lane (R50). -/
def Dev.nextSegment (d : Dev) (p lane : Nat) : Nat × Nat :=
  let k := (d.intake (d.lead p)).closed lane
  let rc := max 1 (d.get (Reg.itk_READOUT_COUNT (d.lead p)))
  (lane / d.segLanes p + d.segGroups p * (k / rc), k % rc)

/-- Bits of a code word's count field. -/
def Dev.countBits (d : Dev) (p : Nat) : Nat := d.wordWidth p - 4

/-- The segment open on a lane: the count of its SOL, and whether row assembly takes it. -/
def Dev.segOf (d : Dev) (p k : Nat) : Option (Nat × Bool) := (nth (d.port p).lanes k).seg

/-- Words of a lane as received, with INVERT undone (R48). -/
def Dev.words (d : Dev) (p k : Nat) (l : List Nat) : List Nat :=
  let top := 2 ^ d.wordWidth p
  l.map (fun v => if d.flag (Reg.lan_INVERT p k) then top - 1 - v % top else v % top)

/-- The type and count of a sync sequence: all ones, zero, zero and a code word of one of the types of Table 3.1 (R49). -/
def syncOf (w : Nat) (l : List Nat) : Option (Nat × Nat) :=
  match l with
  | [a, b, c, code] =>
    if a = 2 ^ w - 1 ∧ b = 0 ∧ c = 0 ∧ 8 ≤ code / 2 ^ (w - 4) ∧ code / 2 ^ (w - 4) ≤ 11 then
      some (code / 2 ^ (w - 4), code % 2 ^ (w - 4))
    else none
  | _ => none

/-- Four words received outside segments: a sync sequence of type `ty` does `f` with its count; anything else is no sync
sequence, and nothing comes of it (R49). -/
def onSync (p k ty : Nat) (words : List Nat) (f : Nat → State → State) (s : State) : State :=
  match syncOf (s.dev.wordWidth p) (s.dev.words p k words) with
  | some x => if x.1 = ty then f x.2 s else s
  | none => s

/-- SOF on a lane (R80, R82, R96). -/
def rawSof (p k count : Nat) (s : State) : State :=
  let d := s.dev
  let l := d.lead p
  let lane := d.gangLane p k
  let b := d.countBits p
  if d.stripe p ∨ !(d.hears p k) ∨ (d.segOf p k).isSome ∨ d.scanning p then s
  else
    match d.current p with
    | some a =>
      if !(a.sofLanes.contains lane) && a.headField == count % 2 ^ b then
        onDev (setAsm l a.frame (fun a => { a with sofLanes := a.sofLanes ++ [lane] })) s
      else beginIf p b (count % 2 ^ b) lane (nextTooSoon p a s)
    | none =>
      match (d.intake l).tail with
      | some t =>
        if !(t.2.contains lane) && t.1 == count % 2 ^ b then onDev (setItk l (fun x => { x with tail := some (t.1, t.2 ++ [lane]) })) s
        else beginIf p b (count % 2 ^ b) lane s
      | none => beginIf p b (count % 2 ^ b) lane s

/-- SOL on a lane: faults 2 and 4 of Table 4.2. -/
def rawSol (p k count : Nat) (s : State) : State :=
  let d := s.dev
  let l := d.lead p
  let lane := d.gangLane p k
  let b := d.countBits p
  let openSeg := fun (taken : Bool) => onDev (setLane p k (fun x => { x with seg := some (count % 2 ^ b, taken) }))
  if d.stripe p ∨ !(d.hears p k) ∨ (d.segOf p k).isSome then s
  else if d.scanning p then openSeg true s
  else match d.current p with
    | none => openSeg false s
    | some a =>
      if !(a.sofLanes.contains lane) ∨ a.eofLanes.contains lane then openSeg false s
      else
        let row := (d.nextSegment p lane).1
        if count % 2 ^ b ≠ row % 2 ^ b ∨ d.get (Reg.itk_HEIGHT l) ≤ row then openSeg false (faultEnd p (2 ^ fMALFORMED) s)
        else openSeg true s

/-- The segment open on a lane ends; `absent` counts the segments in a row that ended without a sync sequence. -/
def segDone (p k absent : Nat) : Dev → Dev := setLane p k (fun x => { x with seg := none, absent := absent })

/-- A segment of row assembly ends: with faults 2, 3 and 9 of Table 4.2, or with its samples in their row. -/
def segTake (p k : Nat) (bad full : Bool) (samples : List Nat) (s : State) : State :=
  let d := s.dev
  let l := d.lead p
  let lane := d.gangLane p k
  let m := d.segLanes p
  if bad ∨ full then faultEnd p (flags [(fMALFORMED, bad), (fOVERFLOW, full)]) s
  else
    let x := d.nextSegment p lane
    let part : RowPart := { row := x.1, readout := x.2, first := (lane % m) * (d.get (Reg.itk_WIDTH l) / m), samples := samples }
    let r := takeRow (max 1 (d.get (Reg.itk_READOUT_COUNT l))) m x.1 ((d.intake l).parts ++ [part])
    let s1 := onDev (setItk l (fun y => { y.close lane with parts := r.2 })) s
    match r.1 with
    | some v => rowArrived p x.1 (lane / m) v s1
    | none => s1

/-- The words of an open segment and the four behind them (R49, R51): WIDTH / m samples are counted, and a sync sequence is
expected then. A second segment in a row without one loses the lane's lock (R67); `full` is a full lock chamber (R95). -/
def rawSegment (p k : Nat) (words : List Nat) (full : Bool) (s : State) : State :=
  let d := s.dev
  if d.stripe p ∨ !(d.hears p k) then s
  else match d.segOf p k with
    | none => s
    | some (sol, taken) =>
      let n := d.get (Reg.itk_WIDTH (d.lead p)) / d.segLanes p
      let got := d.words p k words
      let take := fun (bad : Bool) (t : State) => if taken then segTake p k bad full (got.take n) t else t
      match syncOf (d.wordWidth p) (got.drop n) with
      | some x => take (x.1 != 0xA || x.2 != sol) (onDev (segDone p k 0) s)
      | none =>
        let gone := (nth (d.port p).lanes k).absent + 1
        let s1 := take true (onDev (segDone p k (gone % 2)) s)
        if gone = 2 then onDev (lockLost p k 2) s1 else s1

/-- EOF on a lane; the last of the group ends the frame (R81). -/
def rawEof (p k : Nat) (s : State) : State :=
  let d := s.dev
  let lane := d.gangLane p k
  if d.stripe p ∨ !(d.hears p k) ∨ (d.segOf p k).isSome ∨ d.scanning p then s
  else match d.current p with
    | none => s
    | some a =>
      if !(a.sofLanes.contains lane) ∨ a.eofLanes.contains lane then s
      else
        let a1 := { a with eofLanes := a.eofLanes ++ [lane] }
        let s1 := onDev (setAsm (d.lead p) a.frame (fun _ => a1)) s
        if a1.eofLanes.length = d.groupLanes p then normalEnd p a1 s1 else s1

/-! ## The stripe link (R53 to R57) -/

/-- A stripe-link packet as the lane layer passes it on (R55, R57): the header, the bytes that follow (payload, pad and CRC),
whether the lane layer found it malformed, and whether the lock chamber was full (R95). -/
structure StripePacket where
  header : List Byte
  body : List Byte
  malformed : Bool
  full : Bool
deriving DecidableEq, Repr

/-- Fields of a packet header (Table 3.3). -/
structure Header where
  fs : Bool
  fe : Bool
  re : Bool
  width : Nat
  readout : Nat
  frame : Nat
  row : Nat
  first : Nat
  count : Nat
  index : Nat
deriving DecidableEq, Repr

/-- The header of a packet, when it has its 16 bytes and HCRC holds. -/
def StripeHeader (h : List Byte) : Option Header :=
  if h.length = 16 ∧ crc16 (h.take 14) = rdLe h 14 2 then
    some { fs := bit (rdLe h 0 1) 7 == 1, fe := bit (rdLe h 0 1) 6 == 1, re := bit (rdLe h 0 1) 5 == 1
           width := 10 + 2 * (rdLe h 1 1 / 64), readout := rdLe h 1 1 / 16 % 4, frame := rdLe h 2 2, row := rdLe h 4 2
           first := rdLe h 6 2, count := rdLe h 8 2, index := rdLe h 10 2 }
  else none

/-- `n` samples of `w` bits, packed from the most significant bit of byte 0 (R55). -/
def unpackMsb (w n : Nat) (b : List Byte) : List Nat :=
  let size := ceilDiv (n * w) 8
  let v := beNat (b.take size) / 2 ^ (8 * size - n * w)
  (List.range n).map (fun i => v / 2 ^ (w * (n - 1 - i)) % 2 ^ w)

/-- The bytes after a header are whole: payload, zero pad, and the CRC-32C of both (R55). -/
def bodyOk (h : Header) (b : List Byte) : Bool :=
  let size := ceilDiv (h.count * h.width) 8
  decide (b.length = roundUp (size + 4) 8) && decide (crc32c (b.take (b.length - 4)) = rdLe b (b.length - 4) 4)

/-- What a member's latest packet left: row, readout, PACKET_INDEX, columns so far, and RE. -/
def Intake.lastOf (x : Intake) (m : Nat) : Option (List Nat) := (x.last.find? (fun y => y.1 == m)).map (·.2)

/-- Fault 4 of the stripe link: a packet out of sequence at its member. -/
def outOfOrder (h : Header) (prev : Option (List Nat)) : Bool :=
  match prev with
  | none => h.index != 0
  | some l =>
    let row := l.getD 0 0
    let ro := l.getD 1 0
    if h.row = row ∧ h.readout = ro then h.index != l.getD 2 0 + 1 || l.getD 4 0 == 1
    else !(decide (row < h.row) || (decide (h.row = row) && decide (ro < h.readout))) || h.index != 0

/-- Fault 5: columns not contiguous, or a row readout that does not add up to WIDTH. -/
def badColumns (w : Nat) (h : Header) (prev : Option (List Nat)) : Bool :=
  let same := match prev with | some l => h.row == l.getD 0 0 && h.readout == l.getD 1 0 | none => false
  let sofar := match prev with | some l => if same then l.getD 3 0 else 0 | none => 0
  let left := match prev with | some l => !same && l.getD 4 0 == 0 | none => false
  left || h.first != sofar || decide (w < sofar + h.count) || (h.re && sofar + h.count != w)

/-- A packet's samples enter its row; the row completes with the RE of its last readout. -/
def stripeTake (p : Nat) (h : Header) (samples : List Nat) (s : State) : State :=
  let d := s.dev
  let l := d.lead p
  let member := p - l
  let x := d.intake l
  let w := d.get (Reg.itk_WIDTH l)
  let rc := max 1 (d.get (Reg.itk_READOUT_COUNT l))
  let parts := x.parts ++ [{ row := h.row, readout := h.readout, first := h.first, samples := samples.map (fun v => v % 2 ^ d.wordWidth p) }]
  let mine := parts.filter (fun y => y.row == h.row)
  let done := (List.range rc).all (fun i => sumN ((mine.filter (fun y => y.readout == i)).map (fun y => y.samples.length)) == w)
  let sort := fun (v : List RowPart) => v.mergeSort (fun a b => decide (a.first ≤ b.first))
  let rows := (List.range rc).map (fun i => (sort (mine.filter (fun y => y.readout == i))).flatMap (fun y => y.samples))
  let left := if h.re && done then parts.filter (fun y => y.row != h.row) else parts
  let s1 := onDev (setItk l (fun y => { y with
    parts := left, last := (member, [h.row, h.readout, h.index, h.first + h.count, b2n h.re]) :: y.last.filter (fun z => z.1 != member) })) s
  if h.re && done then rowArrived p h.row member rows s1 else s1

/-- A packet of the frame in progress, its header good. What is left of the frame before it on a member that has not sent FS yet
is discarded (R96). -/
def stripeData (p : Nat) (h : Header) (pkt : StripePacket) (a : Asm) (s : State) : State :=
  let d := s.dev
  let l := d.lead p
  let member := p - l
  let prev := (d.intake l).lastOf member
  let stale := !h.fs && !(a.sofLanes.contains member) && h.frame != a.headField && (d.intake l).tail.map (·.1) == some h.frame
  let bad := pkt.malformed || !(bodyOk h pkt.body) || h.count == 0 || h.frame != a.headField ||
    decide (d.get (Reg.itk_HEIGHT l) ≤ h.row) || decide (max 1 (d.get (Reg.itk_READOUT_COUNT l)) ≤ h.readout) ||
    outOfOrder h prev || badColumns (d.get (Reg.itk_WIDTH l)) h prev
  if stale then s
  else if bad ∨ pkt.full then faultEnd p (flags [(fMALFORMED, bad), (fOVERFLOW, pkt.full)]) s
  else
    let s1 := stripeTake p h (unpackMsb h.width h.count pkt.body) s
    if h.fe then
      match s1.dev.asm? l a.frame with
      | none => s1
      | some b =>
        let b1 := { b with eofLanes := if b.eofLanes.contains member then b.eofLanes else b.eofLanes ++ [member] }
        let s2 := onDev (setAsm l a.frame (fun _ => b1)) s1
        if b1.eofLanes.length = (d.members p).length then normalEnd p b1 s2 else s2
    else s1

/-- A packet in SCAN: FS, FE, row numbers and their order are not checked (R461). -/
def stripeScan (p : Nat) (h : Header) (pkt : StripePacket) (s : State) : State :=
  let d := s.dev
  let l := d.lead p
  let prev := (d.intake l).lastOf (p - l)
  let bad := pkt.malformed || !(bodyOk h pkt.body) || h.count == 0 || badColumns (d.get (Reg.itk_WIDTH l)) h prev
  if bad ∨ pkt.full then
    faultEnd p (flags [(fMALFORMED, bad), (fOVERFLOW, pkt.full)]) (onDev (setItk l (fun x => { x with parts := [], last := [] })) s)
  else stripeTake p h (unpackMsb h.width h.count pkt.body) s

/-- A stripe-link packet (R57, R80 to R82). -/
def stripePacket (p : Nat) (pkt : StripePacket) (s : State) : State :=
  let d := s.dev
  let l := d.lead p
  let member := p - l
  if !(d.stripe p) ∨ !(d.hears p 0) then s
  else
    match StripeHeader pkt.header with
    | none => if (d.current p).isSome ∨ d.scanning p then faultEnd p (2 ^ fMALFORMED) s else s
    | some h =>
      if d.scanning p then stripeScan p h pkt s
      else
        let go := fun (t : State) => match t.dev.current p with
          | some a => stripeData p h pkt a t
          | none => t
        match d.current p with
        | some a =>
          if h.fs then
            if !(a.sofLanes.contains member) && a.headField == h.frame then
              go (onDev (setAsm l a.frame (fun a => { a with sofLanes := a.sofLanes ++ [member] })) s)
            else go (beginIf p 16 h.frame member (nextTooSoon p a s))
          else go s
        | none =>
          if !h.fs then s
          else match (d.intake l).tail with
            | some t =>
              if !(t.2.contains member) && t.1 == h.frame then onDev (setItk l (fun x => { x with tail := some (t.1, t.2 ++ [member]) })) s
              else go (beginIf p 16 h.frame member s)
            | none => go (beginIf p 16 h.frame member s)

/-- The physical lane at a logical place of the group (R48, R54). -/
def Dev.laneAt (d : Dev) (p j : Nat) : Nat :=
  ((List.range (d.laneCount p)).find? (fun k => d.get (Reg.lan_LOGICAL p k) == j)).getD j

/-- The packet that is open on a port, of the bytes so far, passed to row assembly. -/
def closePacket (p : Nat) (b : List Byte) (malformed full : Bool) (s : State) : State :=
  stripePacket p { header := b.take 16, body := b.drop 16, malformed := malformed, full := full }
    (onDev (setPort p (fun x => { x with packet := none })) s)

/-- A block enters the reassembly of packets (R55, R57): invalid blocks are discarded and make their packet malformed, as do
START within it and data outside one (assumption 65). -/
def stripeBlock (p : Nat) (full : Bool) (b : StripeBlock) (s : State) : State :=
  let put := fun (x : Option (List Byte × Bool)) => onDev (setPort p (fun y => { y with packet := x }))
  match (s.dev.port p).packet, b with
  | none, .start => put (some ([], false)) s
  | none, .data x => put (some (x, true)) s
  | none, _ => s
  | some (l, bad), .data x => put (some (l ++ x, bad)) s
  | some (l, bad), .term => closePacket p l bad full s
  | some (l, _), .start => put (some ([], false)) (closePacket p l true full s)
  | some (l, _), .invalid => put (some (l, true)) s
  | some _, _ => s

/-- Blocks of a port's stream in the order in which they were dealt to the lanes (R54), each its sync header and its payload
as sent. Lanes that are not ACTIVE receive nothing. -/
def stripeFeed (p : Nat) (full : Bool) (blocks : List (Nat × Nat)) (s : State) : State :=
  if !(s.dev.stripe p) ∨ (s.dev.port p).rx ≠ 3 then s
  else blocks.foldl (fun t raw =>
    let j := (t.dev.port p).nextLane
    let k := t.dev.laneAt p j
    let r := receiveBlock p k raw (setPort p (fun x => { x with nextLane := (j + 1) % max 1 (t.dev.laneCount p) }) t.dev)
    if t.dev.hears p k then stripeBlock p full r.1 { t with dev := r.2 } else { t with dev := r.2 }) s

/-! ## Late rows (R83) -/

/-- Row `r` of a frame is complete. -/
def Asm.hasRow (a : Asm) (r : Nat) : Bool := a.rows.any (fun x => x.row == r)

/-- A row of the frame in progress is late: in raw coding per segment group, in the stripe link per port that has not sent its
last packet. -/
def Dev.lateNow (d : Dev) (p : Nat) (a : Asm) : Bool :=
  let l := d.lead p
  let ns := d.get (Reg.itk_ROW_TIMEOUT l) * d.get (Reg.itk_ROW_PERIOD_NS l)
  let h := d.get (Reg.itk_HEIGHT l)
  let passed := fun (raw : Nat) => decide (cyclesOfNs ns ≤ d.since raw)
  ns != 0 &&
    (if d.stripe p then
      (List.range h).any (fun r => !(a.hasRow r)) && (d.members l).any (fun q => !(a.eofLanes.contains (q - l)) &&
        passed (((a.groupRaw.find? (fun x => x.1 == q - l)).map (·.2)).getD a.sofRaw))
    else (List.range (d.segGroups p)).any (fun g =>
      (List.range h).any (fun r => r % d.segGroups p == g && !(a.hasRow r)) &&
        passed (((a.groupRaw.find? (fun x => x.1 == g)).map (·.2)).getD a.sofRaw)))

/-- The row timeout expires with rows to come. -/
def lateRow (p : Nat) (s : State) : State :=
  if s.dev.mode = mSCAN then (if p = s.dev.scanPort then scanLate s else s)
  else match s.dev.current p with
    | some a => if s.dev.lateNow p a then faultEnd p (2 ^ fLATE) s else s
    | none => s

/-! ## Burst triggers (R103) -/

/-- TRIG_PIN names the pin and the edge. -/
def Dev.namesPin (d : Dev) (p : Nat) (tp : Bool) (pin : Nat) (falling : Bool) : Bool :=
  d.get (Reg.itk_TRIG_PIN p) == pin + (if tp then 64 else 0) + (if falling then 128 else 0)

/-- A write of TRIG_NOW. -/
def writeTrigNow (w : Writer) (p v : Nat) : State → WRes :=
  entryWrite w (Reg.itk_TRIG_NOW p) (.num v) noRule (fun _ => onDev (fun d =>
    if v = 1 ∧ d.get (Reg.itk_TRIG_SOURCE p) = 3 then fireTrigger p (tbNow d) none d else d))

/-! ## Commands -/

/-- RAW_SYNC_SOF (R49, R80): four words received outside segments. -/
def execRawSyncSof (p : Fin 4) (k : Fin 64) (words : List Nat) (s : State) : Host.Outcome State Fault Refusal :=
  .next (settleState (onSync p k 0x8 words (rawSof p k) s))

/-- RAW_SYNC_SOL (R49): four words received outside segments. -/
def execRawSyncSol (p : Fin 4) (k : Fin 64) (words : List Nat) (s : State) : Host.Outcome State Fault Refusal :=
  .next (settleState (onSync p k 0x9 words (rawSol p k) s))

/-- RAW_SYNC_EOL (R49, R81): the words of the segment and the sync sequence behind them, and whether the lock chamber was
full. -/
def execRawSyncEol (p : Fin 4) (k : Fin 64) (words : List Nat) (full : Bool) (s : State) :
    Host.Outcome State Fault Refusal := .next (settleState (rawSegment p k words full s))

/-- RAW_SYNC_EOF (R49, R81): four words received outside segments. The count of EOF is not checked (Table 4.2). -/
def execRawSyncEof (p : Fin 4) (k : Fin 64) (words : List Nat) (s : State) : Host.Outcome State Fault Refusal :=
  .next (settleState (onSync p k 0xB words (fun _ => rawEof p k) s))

/-- RAW_SYNC_ABSENT (R81): the words of the segment and those behind them, which are no sync sequence. -/
def execRawSyncAbsent (p : Fin 4) (k : Fin 64) (words : List Nat) (s : State) : Host.Outcome State Fault Refusal :=
  .next (settleState (rawSegment p k words false s))

/-- STRIPE_PACKET (R53 to R57): blocks of the port's stream, the last of them TERM when a packet ends with them. -/
def execStripePacket (p : Fin 4) (blocks : List (Nat × Nat)) (full : Bool) (s : State) : Host.Outcome State Fault Refusal :=
  .next (settleState (stripeFeed p full blocks s))

/-- LATE_ROW (R83, R461). -/
def execLateRow (p : Fin 4) (s : State) : Host.Outcome State Fault Refusal := .next (settleState (lateRow p s))

/-- STATS_FINAL_WRITE (R124). -/
def execStatsFinalWrite (p : Fin 4) (s : State) : Host.Outcome State Fault Refusal := .next (finalStats p s)

/-- TRIG_PIN_EDGE (R103). -/
def execTrigPinEdge (tp : Bool) (pin : Fin 64) (falling : Bool) (s : State) : Host.Outcome State Fault Refusal :=
  .next (settleState (onDev (fun d => (List.range 4).foldl (fun e p =>
    if e.get (Reg.itk_TRIG_SOURCE p) = 1 ∧ e.namesPin p tp pin falling then fireTrigger p (tbNow e) none e else e) d) s))

/-- TRIG_TIME_REACHED (R103): the trigger's TB is TRIG_TIME. -/
def execTrigTimeReached (p : Fin 4) (s : State) : Host.Outcome State Fault Refusal :=
  .next (settleState (onDev (fun d =>
    let t := d.get (Reg.itk_TRIG_TIME p)
    if d.get (Reg.itk_TRIG_SOURCE p) = 2 ∧ tbDue t (tbNow d) then fireTrigger p t none d else d) s))

/-- TRIG_NOW (R103). -/
def execTrigNow (w : Writer) (p : Fin 4) (s : State) : Host.Outcome State Fault Refusal :=
  .next (settleState (finishWrite s (writeTrigNow w p 1 s)))

end Sys2Proof.Machine
end

