-- ==== Sys2Proof/Machine/TpgCmds.lean ====
section
/-! DEFINITION. The timed pulse generators (R398 to R402) and the application of staged time (R395). -/

namespace Sys2Proof.Machine

/-- Instant `k` of a generator (R398). -/
def Tpg.instant (g : Tpg) (k : Nat) : Nat := (g.target + k * g.period) % 2 ^ 64

/-- STAGE_APPLY (R395); when the servo steps time, firmware recomputes ALIGN (R409). -/
def execStageApply (s : State) : Host.Outcome State Fault Refusal :=
  .next (onDev (fun d =>
    if d.stageDue then
      let e := applyStaged d
      if d.flag Reg.ptp_PTP_ENABLE && (e.get Reg.tb_TB_EPOCH != d.get Reg.tb_TB_EPOCH || tbNow e != tbNow d) && d.align != [] then
        realign e
      else e
    else d) s)

/-- Arming is refused: counted mode with COUNT 0, or a pulse not shorter than the period (R399, R400). -/
def Dev.tpgRefuses (d : Dev) (n : Nat) : Bool :=
  (d.get (Reg.tpg_MODE n) == 2 && d.get (Reg.tpg_COUNT n) == 0) ||
    decide (d.get (Reg.tpg_PERIOD n) ≤ d.get (Reg.tpg_WIDTH_NS n) * 65536)

/-- A generator is armed with its settings (R402). -/
def tpgArm (n : Nat) (d : Dev) : Dev :=
  let t := d.get (Reg.tpg_TARGET n)
  let inv := d.flag (Reg.tpg_INVERT n)
  let g := { d.tpgOf n with
    target := t, period := d.get (Reg.tpg_PERIOD n), widthNs := d.get (Reg.tpg_WIDTH_NS n), count := d.get (Reg.tpg_COUNT n)
    mode := d.get (Reg.tpg_MODE n), route := d.get (Reg.tpg_ROUTE n), invert := inv, used := 0, armRaw := d.time.raw
    late := tbDue t (tbNow d) }
  tpgIdle n inv (setN (Reg.tpg_TPG_ARM n) 1 (setN (Reg.tpg_TPG_STATUS n) 1 (setN (Reg.tpg_FIRED n) 0
    (setN (Reg.tpg_MISSED n) 0 (setN (Reg.tpg_NEXT n) t (setTpg n (fun _ => g) d))))))

/-- A generator stops; DONE and LATE stay, and a pulse in progress completes (R402). -/
def tpgStop (n : Nat) (d : Dev) : Dev :=
  setN (Reg.tpg_TPG_ARM n) 0 (setN (Reg.tpg_TPG_STATUS n) (setBit (d.get (Reg.tpg_TPG_STATUS n)) 0 false) d)

/-- A write of an entry of a generator's record. -/
def writeTpg (w : Writer) (n k : Nat) (v : Val) : State → WRes :=
  entryWrite w k v
    (fun s => if k = Reg.tpg_TPG_ARM n ∧ v = .num 1 ∧ s.dev.tpgRefuses n then refuse stREFUSED else none)
    (fun _ => onDev (fun d =>
      if k = Reg.tpg_TPG_ARM n then (if v = .num 1 then tpgArm n d else tpgStop n d)
      else if k = Reg.tpg_INVERT n then
        (let e := setV k v d
         if e.flag (Reg.tpg_TPG_ARM n) then e else tpgIdle n (e.flag k) e)
      else setV k v d))

/-- TPG_ARM (R399, R402). -/
def execTpgArm (w : Writer) (n : Fin 16) (v : Bool) (s : State) : Host.Outcome State Fault Refusal :=
  .next (finishWrite s (writeTpg w n (Reg.tpg_TPG_ARM n) (.num (b2n v)) s))

/-- TPG_INVERT (R402). -/
def execTpgInvert (w : Writer) (n : Fin 16) (v : Bool) (s : State) : Host.Outcome State Fault Refusal :=
  .next (finishWrite s (writeTpg w n (Reg.tpg_INVERT n) (.num (b2n v)) s))

/-- A pulse with route bit `b` is in progress, of any generator: the destination's combination is high (R401). -/
def Dev.routed (d : Dev) (b : Nat) : Bool :=
  d.tpg.any (fun g => match g.pulse with
    | some x => bit x.route b == 1
    | none => false)

/-- The pulse of generator `n` rises: its pin, and FRAME_TRIGGER on the ports whose combination rises (R400, R401). -/
def tpgPulse (n : Nat) (d : Dev) : Dev :=
  let g := d.tpgOf n
  let stop := d.time.raw + max 1 (ceilDiv (g.widthNs * 12) 10)
  let rise := fun b => bit g.route b == 1 && !(d.routed b)
  let d1 := setTpg n (fun g => { g with pulse := some { stop := stop, route := g.route, invert := g.invert } }) d
  let d2 := if rise 0 then emit .pin n [b2n (!g.invert)] [] d1 else d1
  (List.range 4).foldl (fun e p => if rise (p + 1) && decide (p < e.nPorts) then (sendTrigger p 1 e).2 else e) d2

/-- The instants of a generator that are due now, from the next one on (R399). -/
def Dev.tpgDue (d : Dev) (n : Nat) : Nat :=
  let g := d.tpgOf n
  let next := g.instant g.used
  if !(d.flag (Reg.tpg_TPG_ARM n)) || g.armRaw == d.time.raw || !(tbDue next (tbNow d)) then 0
  else
    let m := (tbDiff (tbNow d) next).toNat / max 1 g.period + 1
    if g.mode = 0 then 1 else if g.mode = 2 then min m (g.count - g.used) else m

/-- A generator fires (R399): one pulse for the `m` instants that are due. -/
def tpgFire (n : Nat) (d : Dev) : Dev :=
  let m := d.tpgDue n
  if m = 0 then d
  else
    let g := d.tpgOf n
    let used := g.used + m
    let last := decide (g.mode = 0) || (decide (g.mode = 2) && decide (g.count ≤ used))
    let late := g.late && g.used == 0
    let now := tbNow d
    let next := g.instant used
    let d1 := addW 64 (Reg.tpg_MISSED n) (m - 1) (inc64 (Reg.tpg_FIRED n) (setN (Reg.tpg_NEXT n) next
      (setTpg n (fun g => { g with used := used }) d)))
    let d2 := if late then
      post 0x3003 n (satU32 ((tbDiff now g.target).toNat / 65536000)) 0
        (setN (Reg.tpg_TPG_STATUS n) (setBit (d1.get (Reg.tpg_TPG_STATUS n)) 1 true) d1) else d1
    let d3 := if 1 < m then post 0x3004 n (satU32 (m - 1)) (lo32 next) d2 else d2
    let d4 := if last then
      post 0x3005 n (lo32 (d3.get (Reg.tpg_FIRED n))) (lo32 (d3.get (Reg.tpg_MISSED n)))
        (tpgStop n (setN (Reg.tpg_TPG_STATUS n) (setBit (d3.get (Reg.tpg_TPG_STATUS n)) 2 true) d3)) else d3
    let d5 := if d4.flag (Reg.tpg_LOG_EACH n) then post 0x3006 n (lo32 (d4.get (Reg.tpg_FIRED n))) (lo32 now) d4 else d4
    tpgPulse n d5

/-- TPG_FIRE (R399, R401). -/
def execTpgFire (n : Fin 16) (s : State) : Host.Outcome State Fault Refusal := .next (settleState (onDev (tpgFire n) s))

/-- A pulse ends once its cycles have passed; its pin takes the inactive level in force (R400, R402). -/
def tpgEnd (n : Nat) (d : Dev) : Dev :=
  match (d.tpgOf n).pulse with
  | none => d
  | some x =>
    if x.stop ≤ d.time.raw then
      (let d1 := setTpg n (fun g => { g with pulse := none }) d
       if bit x.route 0 = 1 then emit .pin n [b2n (d1.tpgOf n).idleHigh] [] d1 else d1)
    else d

/-- TPG_PULSE_END (R400). -/
def execTpgPulseEnd (n : Fin 16) (s : State) : Host.Outcome State Fault Refusal := .next (onDev (tpgEnd n) s)

end Sys2Proof.Machine
end

