-- ==== Sys2Proof/Machine/ScanCmds.lean ====
section
/-! DEFINITION. The commands of the scan and strobe unit, and the writes of its entries (R449 to R475). -/

namespace Sys2Proof.Machine

/-- Acceptance rules of the strobe entries: PEAK_LIMIT up to STROBE_PEAK_FUSED (R471), groups 0 to 15, whole entries of
the pattern table, and a STAGGER_NS of whole cycles. -/
def strobeRule (k : Nat) (v : Val) (d : Dev) : Option (Nat × (Dev → Dev)) :=
  match v with
  | .num n =>
    if k = Reg.stb_PEAK_LIMIT ∧ d.get Reg.stb_STROBE_PEAK_FUSED < n then refuse stRANGE
    else if k = Reg.stb_STAGGER_NS ∧ n * 2 % 5 ≠ 0 then refuse stRANGE
    else none
  | .bytes b =>
    if k = Reg.stb_CHANNEL_GROUP ∧ b.any (fun x => decide (15 < x.toNat)) then refuse stRANGE
    else if k = Reg.stb_PATTERN_TABLE ∧ b.length % 80 ≠ 0 then refuse stRANGE
    else none

/-- A write of an entry of record 0x3420 but STROBE_ENABLE: the pattern table goes to the pound (R467). -/
def writeStrobe (w : Writer) (k : Nat) (v : Val) : State → WRes :=
  entryWrite w k v (fun s => strobeRule k v s.dev) (fun _ s =>
    match v with
    | .bytes b =>
      if k = Reg.stb_PATTERN_TABLE then
        onDev (fun d => setN Reg.stb_PATTERN_LINES (b.length / 80) (setScan (fun c => { c with onChip := [] }) d))
          (poundWrite s.dev.patternBase b s)
      else onDev (setV k v) s
    | .num _ => onDev (setV k v) s)

/-- The end of what a scan command may have begun: aborts force CONFIGURE (R465), and front-ends settle. -/
def scanSettle (s : State) : State := forcedGo (settleState s)

/-- A level that has held for `held` further samples is accepted (R449). -/
def Dev.encPasses (d : Dev) (e held : Nat) : Bool := decide (d.get (Reg.enc_ENC_FILTER e) ≤ held)

/-- ENCODER_EDGE (R449, R450, R457). -/
def execEncoderEdge (e : Fin 4) (a b : Bool) (held : Nat) (j : Fin 400) (s : State) : Host.Outcome State Fault Refusal :=
  .next (if s.dev.hasScan && s.dev.encPasses e held then scanSettle (encoderEdge e a b j s) else s)

/-- ENCODER_INDEX (R449, R451). -/
def execEncoderIndex (e : Fin 4) (held : Nat) (s : State) : Host.Outcome State Fault Refusal :=
  .next (if s.dev.hasScan && s.dev.encPasses e held then onDev (encIndex e) s else s)

/-- TRACKING_TICK (R452). -/
def execTrackingTick (e : Fin 4) (s : State) : Host.Outcome State Fault Refusal :=
  .next (if s.dev.hasScan then onDev (trackTick e) s else s)

/-- The start source has acted (R458): entry to SCAN, an index edge of the scan's encoder since then, or a pulse routed to
the scan start that is in progress. -/
def Dev.startSeen (d : Dev) (source : Nat) : Bool :=
  match source with
  | 0 => true
  | 1 => (d.encoder (d.get Reg.scan_SCAN_ENCODER)).indexed
  | _ => d.routed 5

/-- SCAN_START (R458). -/
def execScanStart (source : Nat) (s : State) : Host.Outcome State Fault Refusal :=
  .next (if s.dev.hasScan && s.dev.startSeen source then scanSettle (onDev (scanStart source) s) else s)

/-- SLOT_TRIGGER (R456). -/
def execSlotTrigger (j : Fin 400) (s : State) : Host.Outcome State Fault Refusal :=
  .next (if s.dev.hasScan then scanSettle (slotTrigger j s) else s)

/-- PATTERN_FETCH (R469). -/
def execPatternFetch (idx : Nat) (s : State) : Host.Outcome State Fault Refusal :=
  .next (if s.dev.hasScan then patternFetch idx s else s)

/-- STROBE_SYNC_PULSE (R472): a pulse of a generator routed to the strobes. -/
def execStrobeSyncPulse (s : State) : Host.Outcome State Fault Refusal :=
  .next (if s.dev.routed 6 then onDev strobeSync s else s)

end Sys2Proof.Machine
end

