-- ==== Sys2Proof/Machine/DramCmds.lean ====
section
/-! DEFINITION. Completed reads of DRAM, and the errors of its command bus (R269 to R273, R286 to R288). -/

namespace Sys2Proof.Machine

/-- A completed read: of a requester, of firmware's own region (one that returns POISON resets the device, R272, R527), or of
the migrator. -/
def dramRead (c r : Nat) (read : DramRead) (s : State) : State :=
  if !(s.dev.hasChannel c) then s
  else match read.reader with
    | 0 => forcedGo (requesterRead c r read.line read.result s)
    | 1 =>
      let t := forcedGo (requesterRead c r read.line read.result s)
      let held := (s.dev.dram.lineOf c r read.line).any (linePoisoned s)
      if (read.result = 2 && (s.dev.dram.rank c r).live) || held then requestReset 0x13 t else t
    | _ => forcedGo (migratorRead c r read.line read.result s)

/-- DRAM_READ_COMPLETE (R270). -/
def execDramReadComplete (c : Fin 12) (r : Fin 4) (read : DramRead) (s : State) : Host.Outcome State Fault Refusal :=
  .next (dramRead c r read s)

/-- SCRUB_READ: the scrubber's read of a mapped line (R273). -/
def execScrubRead (c : Fin 12) (r : Fin 4) (read : DramRead) (s : State) : Host.Outcome State Fault Refusal :=
  .next (if s.dev.get Reg.dram_SCRUB_PERIOD_H = 0 || !(s.dev.dram.lineOf c.val r.val read.line).isSome then s
    else forcedGo (requesterRead c.val r.val read.line read.result s))

/-- CA_PARITY_ERROR: a command/address parity error fails its rank (R286). -/
def execCaParityError (c : Fin 12) (r : Fin 4) (s : State) : Host.Outcome State Fault Refusal :=
  .next (forcedGo (onDev (failRank c.val r.val 2) s))

end Sys2Proof.Machine
end

