-- ==== Sys2Proof/Machine/NetOps.lean ====
section
/-! DEFINITION. Ethernet frames and the switch (R403, R404), the internal port's answers (R405), and PTP (R406 to R409). -/

namespace Sys2Proof.Machine

/-- The network changed. -/
def setNet (f : Network → Network) (d : Dev) : Dev := { d with net := f d.net }

/-- MAC_ADDR. -/
def Dev.mac (d : Dev) : Nat := d.get Reg.net_MAC_ADDR

/-- The link of an Ethernet port carries frames. -/
def Dev.ethUp (d : Dev) (p : Nat) : Bool := d.flag (Reg.eth_ETH_STATE p) && d.runs (.eth (Fin.ofNat 2 p))

/-! ## Frames -/

/-- A frame without its VLAN tag: addresses, VLAN (the port's for an untagged frame), priority, and the bytes from its
EtherType on. -/
structure EthView where
  dst : Nat
  src : Nat
  vid : Nat
  pcp : Nat
  body : List Byte

/-- A big-endian field. -/
def be (b : List Byte) (off n : Nat) : Nat := beNat (sliceB b off n)

/-- A frame read at a port with VLAN `pvid`. -/
def viewFrame (b : List Byte) (pvid : Nat) : Option EthView :=
  if b.length < 14 then none
  else if be b 12 2 = 0x8100 then
    (if b.length < 18 then none
     else
       let tci := be b 14 2
       some { dst := be b 0 6, src := be b 6 6, vid := if tci % 4096 = 0 then pvid else tci % 4096, pcp := tci / 8192, body := b.drop 16 })
  else some { dst := be b 0 6, src := be b 6 6, vid := pvid, pcp := 0, body := b.drop 12 }

/-- The bytes of a frame on a port, tagged or not. -/
def EthView.bytes (h : EthView) (tagged : Bool) : List Byte :=
  beBytes 6 h.dst ++ beBytes 6 h.src ++ (if tagged then beBytes 2 0x8100 ++ beBytes 2 (h.pcp * 8192 + h.vid) else []) ++ h.body

/-- The address is a group address. -/
def isGroup (mac : Nat) : Bool := mac / 2 ^ 40 % 2 == 1

/-- MEMBERS and UNTAGGED of a VLAN (R404). -/
def Dev.vlan (d : Dev) (vid : Nat) : Option (Nat × Nat) :=
  let b := d.bytes Reg.net_VLAN_TABLE
  ((List.range 64).find? (fun i => rdLe b (4 * i) 2 == vid && rdLe b (4 * i + 2) 1 != 0)).map
    (fun i => (rdLe b (4 * i + 2) 1, rdLe b (4 * i + 3) 1))

/-- An address learned at a port (R404): 4,096 entries; a full table learns nothing new. Port 0 is the internal port, 1
ETH_A, 2 ETH_B. -/
def learn (vid mac port : Nat) (d : Dev) : Dev :=
  if isGroup mac then d
  else setNet (fun n =>
    if n.macs.any (fun e => e.vid == vid && e.mac == mac) then
      { n with macs := n.macs.map (fun e => if e.vid == vid && e.mac == mac then { e with port := port, raw := d.time.raw } else e) }
    else if n.macs.length < 4096 then { n with macs := n.macs ++ [{ vid := vid, mac := mac, port := port, raw := d.time.raw }] }
    else n) d

/-- The ports a frame goes to from port `from_` (R404). -/
def Dev.targets (d : Dev) (from_ members : Nat) (h : EthView) : List Nat :=
  let flood := [0, 1, 2].filter (fun q => q != from_)
  let l := if h.dst = d.mac then [0]
    else if isGroup h.dst then flood
    else match d.net.macs.find? (fun e => e.vid == h.vid && e.mac == h.dst) with
      | some e => [e.port]
      | none => flood
  l.filter (fun q => q != from_ && bit members (if q = 0 then 2 else q - 1) == 1)

/-! ## PTP messages in frames (R406) -/

/-- Where a PTP message starts in the bytes from the EtherType on: IEEE 802.3, or UDP/IPv4 ports 319 and 320. -/
def ptpAt (body : List Byte) : Option Nat :=
  if be body 0 2 = 0x88F7 then some 2
  else
    let ihl := (be body 2 1) % 16 * 4
    let udp := 2 + ihl
    if be body 0 2 = 0x0800 ∧ be body 2 1 / 16 = 4 ∧ be body 11 1 = 17 ∧ be body 8 2 % 8192 = 0 ∧
        (be body (udp + 2) 2 = 319 ∨ be body (udp + 2) 2 = 320) then some (udp + 8)
    else none

/-- The messageType of a frame that carries a PTP message. -/
def ptpType (body : List Byte) : Option Nat := (ptpAt body).bind (fun o => if body.length < o + 34 then none else some (be body o 1 % 16))

/-- 16-bit words of a field, big-endian. -/
def words16 : List Byte → List Nat
  | a :: b :: l => (a.toNat * 256 + b.toNat) :: words16 l
  | [a] => [a.toNat * 256]
  | [] => []

/-- One's complement sum. -/
def onesSum (l : List Nat) : Nat :=
  let s := sumN l
  let t := s % 65536 + s / 65536
  let u := t % 65536 + t / 65536
  u % 65536 + u / 65536

/-- A field of a PTP message replaced, with a non-zero UDP checksum updated incrementally (R407). -/
def patchPtp (o off : Nat) (new : List Byte) (body : List Byte) : List Byte :=
  let old := sliceB body (o + off) new.length
  let b := putB body (o + off) new
  let c := o - 2
  if be body 0 2 = 0x88F7 ∨ be body c 2 = 0 then b
  else
    let s := onesSum ((0xFFFF - be body c 2) :: (words16 old).map (fun w => 0xFFFF - w) ++ words16 new)
    putB b c (beBytes 2 (if s = 0xFFFF then 0xFFFF else 0xFFFF - s))

/-- `n` added to correctionField, in units of 2^−16 ns. -/
def addCorrection (o n : Nat) (body : List Byte) : List Byte :=
  patchPtp o 8 (beBytes 8 ((be body (o + 8) 8 + n) % 2 ^ 64)) body

/-- The correction of a transiting event message (R407): the residence time, and the ingress port's LINK_DELAY in
peer-to-peer mode. -/
def Dev.transit (d : Dev) (p residence : Nat) (body : List Byte) : List Byte :=
  match ptpAt body, ptpType body with
  | some o, some ty =>
    let mode := d.get Reg.ptp_TC_MODE
    if mode = 1 ∧ (ty = 0 ∨ ty = 1) then addCorrection o residence body
    else if mode = 2 ∧ ty = 0 then
      addCorrection o (residence + ofInt 64 (ratFloor (f32Rat (d.get (Reg.eth_LINK_DELAY p)) * 65536 + 1 / 2))) body
    else body
  | _, _ => body

/-! ## Sending -/

/-- A frame sent on an external port: its egress queue, and its bytes without the FCS. -/
def ethSend (q untagged : Nat) (h : EthView) (d : Dev) : Dev :=
  if d.ethUp (q - 1) then
    let queue := match ptpType h.body with
      | some ty => if ty < 4 then 3 else h.pcp / 2
      | none => h.pcp / 2
    emit .ethernet (q - 1) [queue] (h.bytes (bit untagged (q - 1) == 0)) (inc64 (Reg.eth_TX_FRAMES (q - 1)) d)
  else d

/-- A frame of the internal port sent through the switch. -/
def netSend (h : EthView) (d : Dev) : Dev :=
  match d.vlan h.vid with
  | none => d
  | some (m, u) => ((d.targets 0 m h).filter (fun q => q != 0)).foldl (fun e q => ethSend q u h e) d

/-- `n` datagrams to an IPv4 address, counted at the ports where the switch sends them; the resolved hardware address is not
described and is free. -/
def datagrams (ip n vid : Nat) (d : Dev) : Dev :=
  let r := freeDraw d
  let mac := if ip / 2 ^ 28 = 14 then 0x01005E000000 + ip % 2 ^ 23 else r.1 % 2 ^ 40
  let h : EthView := { dst := mac, src := d.mac, vid := vid, pcp := 0, body := [] }
  match d.vlan vid with
  | none => r.2
  | some (m, _) => ((d.targets 0 m h).filter (fun q => q != 0)).foldl (fun e q =>
      if e.ethUp (q - 1) then addW 64 (Reg.eth_TX_FRAMES (q - 1)) n e else e) r.2

/-! ## The internal port (R405) -/

/-- An Ethernet payload from the internal port. -/
def Dev.ownFrame (d : Dev) (h : EthView) (dst : Nat) (body : List Byte) : EthView :=
  { dst := dst, src := d.mac, vid := h.vid, pcp := h.pcp, body := body }

/-- The reply to an ARP request for the address in use. -/
def arpIn (h : EthView) (d : Dev) : Dev :=
  let b := h.body
  if d.ip ≠ 0 ∧ 30 ≤ b.length ∧ be b 2 8 = 0x0001080006040001 ∧ be b 26 4 = d.ip then
    netSend (d.ownFrame h (be b 10 6) (beBytes 2 0x0806 ++ beBytes 8 0x0001080006040002 ++ beBytes 6 d.mac ++ beBytes 4 d.ip ++
      sliceB b 10 10)) d
  else d

/-- An IPv4 header with its checksum. -/
def ipHeader (proto src dst len : Nat) : List Byte :=
  let f := fun (c : Nat) => beBytes 4 (0x45000000 + (20 + len) % 65536) ++ beBytes 4 0 ++ beBytes 2 (64 * 256 + proto) ++ beBytes 2 c ++
    beBytes 4 src ++ beBytes 4 dst
  f (0xFFFF - onesSum (words16 (f 0)))

/-- The reply to an ICMP echo request. -/
def echoIn (h : EthView) (icmp : List Byte) (src : Nat) (d : Dev) : Dev :=
  if be icmp 0 2 = 0x0800 ∧ 8 ≤ icmp.length ∧ onesSum (words16 icmp) = 0xFFFF then
    let z := putB (putB icmp 0 [0, 0]) 2 [0, 0]
    let r := putB z 2 (beBytes 2 (0xFFFF - onesSum (words16 z)))
    netSend (d.ownFrame h h.src (beBytes 2 0x0800 ++ ipHeader 1 d.ip src r.length ++ r)) d
  else d

/-- The multicast groups that the internal port belongs to: those of PTP over UDP/IPv4 (IEEE 1588-2019 Annex C). -/
def Dev.groups (d : Dev) : List Nat :=
  if d.flag Reg.ptp_PTP_ENABLE && d.get Reg.ptp_PTP_TRANSPORT == 0 then
    (if d.get Reg.ptp_PTP_PROFILE = 1 then [0xE0000181, 0xE000006B] else [0xE0000181])
  else []

/-- An IGMPv3 report (RFC 3376) of the groups, each record of type `ty`. -/
def igmpReport (ty : Nat) (h : EthView) (d : Dev) : Dev :=
  let l := d.groups
  if l.isEmpty || d.ip == 0 then d
  else
    let z := beBytes 4 0x22000000 ++ beBytes 4 l.length ++ (l.map (fun g => beBytes 4 (ty * 2 ^ 24) ++ beBytes 4 g)).flatten
    let r := putB z 2 (beBytes 2 (0xFFFF - onesSum (words16 z)))
    netSend (d.ownFrame h 0x01005E000016 (beBytes 2 0x0800 ++ ipHeader 2 d.ip 0xE0000016 r.length ++ r)) d

/-- A frame that the internal port sends unasked goes to VLAN 1. -/
def plainFrame : EthView := { dst := 0, src := 0, vid := 1, pcp := 0, body := [] }

/-- A DHCP message to the servers (RFC 2131): type `ty`, with an address and server taken from an offer. -/
def dhcpSend (ty xid : Nat) (opts : List Byte) (d : Dev) : Dev :=
  let m := beBytes 4 0x01010600 ++ beBytes 4 xid ++ beBytes 4 0x8000 ++ zeros 16 ++ beBytes 6 d.mac ++ zeros 202 ++
    beBytes 4 0x63825363 ++ beBytes 3 (53 * 65536 + 256 + ty) ++ opts ++ beBytes 1 255
  let u := beBytes 4 (68 * 65536 + 67) ++ beBytes 2 (m.length + 8) ++ beBytes 2 0 ++ m
  netSend (d.ownFrame plainFrame 0xFFFFFFFFFFFF (beBytes 2 0x0800 ++ ipHeader 17 0 0xFFFFFFFF u.length ++ u)) d

/-- The value of a DHCP option. -/
def dhcpOption (code : Nat) : Nat → List Byte → Option (List Byte)
  | 0, _ => none
  | n + 1, b =>
    match b with
    | [] => none
    | t :: l =>
      if t = 0 then dhcpOption code n l
      else if t = 255 then none
      else
        let k := be l 0 1
        if t.toNat = code then some (sliceB l 1 k) else dhcpOption code n (l.drop (1 + k))

/-- A DHCP message received: an offer is asked for, an acknowledgement gives the address. -/
def dhcpIn (m : List Byte) (d : Dev) : Dev :=
  let opts := m.drop 240
  let ty := (dhcpOption 53 opts.length opts).map beNat
  if be m 0 1 = 2 ∧ be m 236 4 = 0x63825363 ∧ be m 28 6 = d.mac ∧ d.get Reg.net_IP_MODE = 1 then
    (if ty = some 2 then
       dhcpSend 3 (be m 4 4) (beBytes 2 (50 * 256 + 4) ++ sliceB m 16 4 ++
         (match dhcpOption 54 opts.length opts with
          | some srv => beBytes 2 (54 * 256 + 4) ++ srv
          | none => [])) d
     else if ty = some 5 then setNet (fun n => { n with lease := be m 16 4 }) d
     else if ty = some 6 then setNet (fun n => { n with lease := 0 }) d
     else d)
  else d

/-- An IPv4 packet delivered to the internal port. Port 47110 is served by the commands of the Turad protocol. -/
def ipv4In (h : EthView) (d : Dev) : Dev :=
  let b := h.body.drop 2
  let hl := be b 0 1 % 16 * 4
  let pkt := b.take (be b 2 2)
  let dst := be b 16 4
  let data := pkt.drop hl
  if be b 0 1 / 16 ≠ 4 ∨ hl < 20 ∨ pkt.length < hl ∨ onesSum (words16 (b.take hl)) ≠ 0xFFFF ∨ be b 6 2 % 16384 ≠ 0 then d
  else if be b 9 1 = 1 ∧ dst = d.ip ∧ d.ip ≠ 0 then echoIn h data (be b 12 4) d
  else if be b 9 1 = 2 ∧ be data 0 1 = 0x11 then igmpReport 2 h d
  else if be b 9 1 = 17 ∧ be data 2 2 = 68 then dhcpIn (data.drop 8) d
  else d

/-! ## The ordinary clock and its servo (R406, R409) -/

/-- TB_STATE changes: EV 0x3002. -/
def tbState (st : Nat) (d : Dev) : Dev :=
  let old := d.get Reg.tb_TB_STATE
  if old = st then d
  else
    let d1 := post 0x3002 0xFFFF st old (setN Reg.tb_TB_STATE st d)
    if st = 2 then d1 else genlockFree d1

/-- PTP_ROLE changes: EV 0x3102. -/
def ptpRole (r : Nat) (d : Dev) : Dev :=
  let old := d.get Reg.ptp_PTP_ROLE
  if old = r then d else post 0x3102 0xFFFF r old (setN Reg.ptp_PTP_ROLE r d)

/-- GM_IDENTITY changes: EV 0x3103. -/
def gmChange (g : Nat) (d : Dev) : Dev :=
  if d.get Reg.ptp_GM_IDENTITY = g then d
  else post 0x3103 0xFFFF (lo32 g) (g / 2 ^ 32) (setN Reg.ptp_GM_IDENTITY g d)

/-- Lexicographic order of announced data: the smaller is the better clock. -/
def betterClock : List Nat → List Nat → Bool
  | a :: l, b :: m => decide (a < b) || (decide (a = b) && betterClock l m)
  | _, _ => false

/-- Data set of the device's own clock: clockClass 248; accuracy and variance unknown (PRESUMED, IEEE 1588-2019), its
identity free. -/
def Dev.ownClock (d : Dev) : List Nat :=
  [d.get Reg.ptp_PRIORITY1, 248, 0xFE, 0xFFFF, d.get Reg.ptp_PRIORITY2, Config.freeNat (2 ^ 99 + d.mac) % 2 ^ 64]

/-- The device becomes master: no better clock is visible. -/
def becomeMaster (d : Dev) : Dev :=
  gmChange ((d.ownClock.getD 5 0)) (ptpRole 2 (setNet (fun n => { n with best := none, good := 0 }) d))

/-- An Announce message. -/
def announceIn (m : List Byte) (d : Dev) : Dev :=
  let a := [be m 47 1, be m 48 1, be m 49 1, be m 50 2, be m 52 1, be m 53 8]
  let src := be m 20 8
  let follow := match d.net.best with
    | none => true
    | some b => b.2 == src || betterClock a b.1
  if !(betterClock a d.ownClock) then
    (match d.net.best with
     | none => becomeMaster d
     | some b => if b.2 = src then becomeMaster d else d)
  else if follow then
    let same := match d.net.best with | some b => b.2 == src | none => false
    let d1 := setNet (fun n => { n with best := some (a, src), good := if same then n.good else 0, utc := be m 44 2 }) d
    let d2 := gmChange (a.getD 5 0) (ptpRole 1 d1)
    if same && d2.get Reg.tb_TB_STATE != 3 then d2 else tbState 1 d2
  else d

/-- A Sync message of the master followed: the offset that the servo measures is free; TB_STATE is LOCKED while it has stayed
within LOCK_THRESH_NS for 16 consecutive Sync intervals. -/
def syncIn (m : List Byte) (d : Dev) : Dev :=
  match d.net.best with
  | none => d
  | some b =>
    if b.2 ≠ be m 20 8 then d
    else
      let r := freeDraw d
      let code := r.1 % 2 ^ 32
      let t : Rat := (d.get Reg.ptp_LOCK_THRESH_NS : Nat)
      let within := code / 2 ^ 23 % 256 != 255 && decide (f32Rat code ≤ t) && decide (-t ≤ f32Rat code)
      let n := if within then min 16 (d.net.good + 1) else 0
      tbState (if n = 16 then 2 else 1) (setN Reg.ptp_OFFSET_NS code (setNet (fun x => { x with good := n }) r.2))

/-- A PTP message at the internal port, of the configured transport and domain. An event message carries its ingress port
and TB to firmware (R409). -/
def ptpIn (p : Nat) (h : EthView) (d : Dev) : Dev :=
  match ptpAt h.body, ptpType h.body with
  | some o, some ty =>
    let m := h.body.drop o
    let onWire := if d.get Reg.ptp_PTP_TRANSPORT = 1 then be h.body 0 2 == 0x88F7 else be h.body 0 2 == 0x0800
    if !(d.flag Reg.ptp_PTP_ENABLE) || !onWire || be m 4 1 != d.get Reg.ptp_PTP_DOMAIN then d
    else
      let d1 := if ty < 4 then emit .ethernet 2 [p, ty, tbNow d] m d else d
      if ty = 11 ∧ 64 ≤ m.length then announceIn m d1
      else if ty = 0 then syncIn m d1
      else d1
  | _, _ => d

/-- A frame delivered to the internal port. -/
def internalIn (p : Nat) (h : EthView) (d : Dev) : Dev :=
  if !d.served then d
  else if (ptpType h.body).isSome then ptpIn p h d
  else if be h.body 0 2 = 0x0806 then arpIn h d
  else if be h.body 0 2 = 0x0800 then ipv4In h d
  else d

/-! ## The switch -/

/-- Longest frame that is forwarded, with its FCS. -/
abbrev maxFrame : Nat := 9216

/-- A frame received at ETH_A (0) or ETH_B (1) (R404). -/
def ethIn (p : Nat) (f : EthFrame) (d : Dev) : Dev :=
  if !(d.ethUp p) then d
  else if !f.good then inc64 (Reg.eth_RX_ERRORS p) d
  else
    let d1 := inc64 (Reg.eth_RX_FRAMES p) d
    match viewFrame f.data (d.get (Reg.eth_PVID p)) with
    | none => d1
    | some h =>
      if maxFrame < f.data.length + 4 then d1
      else match d1.vlan h.vid with
        | none => d1
        | some (m, u) =>
          let d2 := learn h.vid h.src (p + 1) d1
          let peer := match ptpType h.body with
            | some ty => d2.get Reg.ptp_TC_MODE == 2 && (ty == 2 || ty == 3 || ty == 10)
            | none => false
          let l := if peer || h.dst / 16 == 0x0180C200000 then [0] else d2.targets (p + 1) m h
          let d3 := (l.filter (fun q => q != 0)).foldl (fun e q =>
            ethSend q u { h with body := e.transit p f.residence h.body } e) d2
          if l.contains 0 && (h.dst == d3.mac || isGroup h.dst) then internalIn p h d3 else d3

end Sys2Proof.Machine
end

