-- ==== Sys2Proof/Machine/NetCmds.lean ====
section
/-! DEFINITION. The commands of the network (R403 to R411), and the writes of its entries. -/

namespace Sys2Proof.Machine

/-- ETH_FRAME_RECEIVED (R404, R405, R407, R409). -/
def execEthFrameReceived (p : Fin 2) (frame : EthFrame) (s : State) : Host.Outcome State Fault Refusal :=
  .next (onDev (ethIn p frame) s)

/-- The link has come up: the internal port joins its groups and, with DHCP, asks for an address (R405). -/
def linkJoin (d : Dev) : Dev :=
  if !d.served then d
  else if d.get Reg.net_IP_MODE = 1 ∧ d.net.lease = 0 then
    (let r := freeDraw d
     dhcpSend 1 (r.1 % 2 ^ 32) [] r.2)
  else igmpReport 4 plainFrame d

/-- ETH_LINK (R403). -/
def execEthLink (p : Fin 2) (up : Bool) (s : State) : Host.Outcome State Fault Refusal :=
  .next (onDev (fun d =>
    if !up then ethLink p false d
    else if d.runs (.eth p) && !(d.flag (Reg.eth_ETH_STATE p)) then linkJoin (ethLink p true d)
    else d) s)

/-- MAC_AGEING: an entry not refreshed for 300 s ages out (R404). -/
def execMacAgeing (mac : Nat) (s : State) : Host.Outcome State Fault Refusal :=
  .next (onDev (fun d => setNet (fun n => { n with
    macs := n.macs.filter (fun e => e.mac != mac || decide ((d.time.raw + 2 ^ 64 - e.raw) % 2 ^ 64 < 300 * 1200000000)) }) d) s)

/-- MASTER_LOST (R409): HOLDOVER with the last RATE; no better clock is visible, and the ordinary clock becomes master
(R406). -/
def execMasterLost (s : State) : Host.Outcome State Fault Refusal :=
  .next (onDev (fun d =>
    if d.flag Reg.ptp_PTP_ENABLE && d.net.best.isSome then becomeMaster (tbState 3 d) else d) s)

/-- PTP time in ns of an instant near now, and its remainder below a ns (R394). -/
def Dev.ptpTime (d : Dev) (tb : Nat) : Nat :=
  (((d.get Reg.tb_TB_EPOCH * 2 ^ 64 + tbNow d : Nat) : Int) + tbDiff tb (tbNow d)).toNat / 2 ^ 16

/-- The timestamp of a launch time, and the sub-nanosecond remainder in correctionField (R408). -/
def stampLaunch (t : Nat) (d : Dev) (body : List Byte) : List Byte :=
  match ptpAt body with
  | none => body
  | some o =>
    let ns := d.ptpTime t
    addCorrection o (t % 2 ^ 16) (patchPtp o 34 (beBytes 6 (ns / 10 ^ 9) ++ beBytes 4 (ns % 10 ^ 9)) body)

/-- A message that firmware hands over at TB `handed` for launch at TB `t` on port `p` (R408). -/
def ptpLaunch (p t handed : Nat) (frame : List Byte) (d : Dev) : Dev :=
  let lead := d.get Reg.ptp_LAUNCH_LEAD_US * 65536000
  match viewFrame frame (d.get (Reg.eth_PVID p)) with
  | none => d
  | some h =>
    match ptpType h.body with
    | none => d
    | some ty =>
      if !(d.flag Reg.ptp_PTP_ENABLE) || !(d.ethUp p) || decide (3 < ty) then d
      else if tbDiff t handed < lead then
        post 0x3104 p ty (satU32 (((lead : Int) - tbDiff t handed).toNat / 65536000)) (inc64 Reg.ptp_LAUNCH_MISSED d)
      else if tbDue t (tbNow d) then
        ethSend (p + 1) (match d.vlan h.vid with | some x => x.2 | none => 7) { h with body := stampLaunch t d h.body } d
      else d

/-- PTP_LAUNCH (R408). -/
def execPtpLaunch (p : Fin 2) (launch handed : Nat) (frame : List Byte) (s : State) : Host.Outcome State Fault Refusal :=
  .next (onDev (ptpLaunch p launch handed frame) s)

/-! ## Proxy streaming (R411) -/

/-- The NAL units of a byte stream in Annex B form: `cur` holds the unit being read, `open_` after a first start code. -/
def nalUnits : List Byte → Bool → List Byte → List (List Byte)
  | [], open_, cur => if open_ && !cur.isEmpty then [cur.reverse] else []
  | x :: l, open_, cur =>
    match x.toNat, cur with
    | 1, c1 :: c2 :: rest =>
      if c1 = 0 ∧ c2 = 0 then
        let unit := rest.dropWhile (fun b => b == 0)
        (if open_ && !unit.isEmpty then [unit.reverse] else []) ++ nalUnits l true []
      else nalUnits l open_ (x :: cur)
    | _, _ => nalUnits l open_ (x :: cur)

/-- Fragments of `k` bytes, at most `n` of them. -/
def fragments (k : Nat) : Nat → List Byte → List (List Byte)
  | 0, _ => []
  | n + 1, b => if b.length ≤ k then [b] else b.take k :: fragments k n (b.drop k)

/-- RTP payloads of a NAL unit (RFC 7798): itself, or fragmentation units. -/
def rtpPayloads (room : Nat) (u : List Byte) : List (List Byte) :=
  if u.length ≤ room then [u]
  else
    let ty := be u 0 1 / 2 % 64
    let fs := fragments (room - 3) u.length (u.drop 2)
    (fs.zip (List.range fs.length)).map (fun x =>
      beBytes 1 (be u 0 1 / 128 * 128 + 49 * 2 + be u 0 1 % 2) ++ sliceB u 1 1 ++
        beBytes 1 ((if x.2 = 0 then 128 else 0) + (if x.2 + 1 = fs.length then 64 else 0) + ty) ++ x.1)

/-- A released buffer of the proxy service. -/
def proxyDone (k i : Nat) (d : Dev) : Dev := outRelease k i 0 (setHev k (fun h => { h with proxy := h.proxy.drop 1 }) d)

/-- PROXY_SEND: the oldest coded picture that waits is sent, and its buffer released. -/
def proxySend (k : Nat) (s : State) : State :=
  let d := s.dev
  match (d.hev k).proxy with
  | [] => s
  | i :: _ =>
    if !(d.flag (Reg.prx_PROXY_ENABLE k)) then onDev (proxyDone k i) s
    else
      let a := d.encOutAddr k i
      let head := (poundRead a 64 s).1
      let au := (poundRead (a + 64) (rdLe head 0x28 4) s).1
      let ts := d.ptpTime (rdLe head 0x10 8) * 90000 / 10 ^ 9 % 2 ^ 32
      let room := d.get (Reg.prx_PROXY_MTU k) - 40
      let l := ((nalUnits au false []).map (rtpPayloads room)).flatten
      let dest := d.get (Reg.prx_PROXY_DEST k)
      let vlan := d.get (Reg.prx_PROXY_VLAN k)
      let seq := d.net.rtp.getD k 0
      let d1 := (l.zip (List.range l.length)).foldl (fun e x =>
        emit .ethernet 2 [k, dest / 2 ^ 16, dest % 2 ^ 16, vlan]
          (beBytes 2 (0x8000 + (if x.2 + 1 = l.length then 128 else 0) + d.get (Reg.prx_PROXY_PT k)) ++
            beBytes 2 ((seq + x.2) % 65536) ++ beBytes 4 ts ++ beBytes 4 (d.get (Reg.prx_PROXY_SSRC k)) ++ x.1) e) d
      let d2 := addW 64 (Reg.prx_PACKETS k) l.length (setNet (fun n => { n with rtp := n.rtp.set k ((seq + l.length) % 65536) }) d1)
      onDev (fun _ => proxyDone k i (datagrams (dest / 2 ^ 16) l.length (if vlan = 0 then 1 else vlan) d2)) s

/-- PROXY_SEND (R411). -/
def execProxySend (k : Fin 8) (s : State) : Host.Outcome State Fault Refusal := .next (proxySend k s)

/-! ## Writes -/

/-- A write of PTP_ENABLE: FALSE stops the servo and the ordinary clock. -/
def ptpEnable (v : Val) (d : Dev) : Dev :=
  let d1 := setV Reg.ptp_PTP_ENABLE v d
  if d1.flag Reg.ptp_PTP_ENABLE then d1
  else tbState 0 (ptpRole 0 (setNet (fun n => { n with best := none, good := 0, utc := 37 }) d1))

/-- A write of an entry of records 0x3100, 0x3110 + p but ETH_ENABLE, 0x3120, 0x3130 and 0x3140 + s. -/
def writeNet (w : Writer) (k : Nat) (v : Val) : State → WRes :=
  entryWrite w k v noRule (fun _ => onDev (fun d => if k = Reg.ptp_PTP_ENABLE then ptpEnable v d else setV k v d))

end Sys2Proof.Machine
end

