-- ==== Sys2Proof/Machine/TwoWireCmds.lean ====
section
/-! DEFINITION. The commands of the controller buses TW0 to TW7 (R479 to R488). -/

namespace Sys2Proof.Machine

/-- What a bus did is reported, and what waited for its transactions goes on. -/
def twSettle (n : Nat) (s : State) : State := settleState (onDev (twSync n) s)

/-- TW_XFER (R483). -/
def execTwXfer (w : Writer) (n : Fin 8) (blob : List Byte) (s : State) : Host.Outcome State Fault Refusal :=
  .next (twSettle n (finishWrite s (writeTwXfer w n blob s)))

/-- TW_TRANSACTION_START (R481, R485). -/
def execTwTransactionStart (n : Fin 8) (l : TwLines) (s : State) : Host.Outcome State Fault Refusal :=
  .next (twSettle n (onDev (twStart n l) s))

/-- TW_RST_PULSE_END (R480, R485). -/
def execTwRstPulseEnd (n : Fin 8) (l : TwLines) (s : State) : Host.Outcome State Fault Refusal :=
  .next (twSettle n (onDev (twPulseEnd n l) s))

/-- TW_TRANSACTION_COMPLETE (R483, R486 to R488). -/
def execTwTransactionComplete (n : Fin 8) (r : TwEnd) (s : State) : Host.Outcome State Fault Refusal :=
  .next (twSettle n (onDev (twComplete n r) s))

/-- BUS_BUSY_TIMEOUT (R482). -/
def execBusBusyTimeout (n : Fin 8) (s : State) : Host.Outcome State Fault Refusal := .next (twSettle n (onDev (twBusyTimeout n) s))

/-- STRETCH_TIMEOUT (R480): the write bytes acknowledged until then are not reported by the occurrence, and are free. -/
def execStretchTimeout (n : Fin 8) (s : State) : Host.Outcome State Fault Refusal :=
  .next (twSettle n (onDev (fun d =>
    match (d.bus n).run with
    | none => d
    | some x =>
      let r := freeDraw d
      twStretch n (r.1 % (x.wdata.length + 1)) r.2) s))

/-- BUS_IDLE: both lines high for 50 µs (R482). -/
def execBusIdle (n : Fin 8) (s : State) : Host.Outcome State Fault Refusal :=
  .next (twSettle n (onDev (fun d =>
    if (d.bus n).run.isNone then setBus n (fun b => { b with busy := false }) d else d) s))

/-- BUS_CONDITION_SEEN: a START makes the bus busy, a STOP ends that (R482); those of the own transaction are its own. -/
def execBusConditionSeen (n : Fin 8) (stop : Bool) (s : State) : Host.Outcome State Fault Refusal :=
  .next (twSettle n (onDev (fun d =>
    if (d.bus n).run.isNone then setBus n (fun b => { b with busy := !stop }) d else d) s))

/-- SCL_LOW_TIMEOUT (R485). -/
def execSclLowTimeout (n : Fin 8) (s : State) : Host.Outcome State Fault Refusal := .next (twSettle n (onDev (twSclLow n) s))

/-- TW_RST_ASSERT (R479). -/
def execTwRstAssert (w : Writer) (n : Fin 8) (v : Bool) (s : State) : Host.Outcome State Fault Refusal :=
  .next (twSettle n (finishWrite s (writeTwRstAssert w n v s)))

end Sys2Proof.Machine
end

