-- ==== Sys2Proof/Machine/DictWrite.lean ====
section
/-! DEFINITION. A write of any dictionary entry (R419), sent to the rules of its chapter by its index (Table 17.3), and
DICT_WRITE. -/

namespace Sys2Proof.Machine

/-- A key slot holds a key: it is not 32 zero bytes (R433). -/
def Dev.slotKey (d : Dev) (i : Nat) : Option (List Byte) :=
  let k := d.bytes (Reg.pkey_PROV_KEY i)
  if k.any (fun b => b != 0) then some k else none

/-- Some slot holds a key. -/
def Dev.anyKey (d : Dev) : Bool := (List.range 8).any (fun i => (d.slotKey i).isSome)

/-- While any slot holds a key, only an authenticated session of slot 0 writes the PROV_KEY entries and KEY_RIGHTS (R433). -/
def keyRule (w : Writer) (d : Dev) : Option (Nat × (Dev → Dev)) :=
  match w with
  | .firmware => none
  | .client id tr =>
    if d.anyKey && !(decide (id < 0x2000) && d.srv.sessions.any (fun x => x.client == id && x.tr == tr && x.ks.isSome)) then refuse 0x0B
    else none

/-- The port paired with `p`, other than by `p` naming it itself (R101). -/
def Dev.pairedBy (d : Dev) (p : Nat) : Option Nat := (List.range 4).find? (fun q => q != p && d.get (Reg.itk_PAIR_PORT q) == p)

/-- A port pairs with at most one other port (R101). -/
def pairRule (p v : Nat) (d : Dev) : Option (Nat × (Dev → Dev)) :=
  if v = 0xFF then none
  else
    let third := fun (o : Option Nat) (q : Nat) => match o with | some x => x != q | none => false
    let named := d.get (Reg.itk_PAIR_PORT v)
    if v == p || (named != 0xFF && named != p) ||
        third ((List.range 4).find? (fun q => q != v && q != p && d.get (Reg.itk_PAIR_PORT q) == v)) p ||
        third (d.pairedBy p) v then refuse stREFUSED
    else none

/-- A write of an intake entry (R105). -/
def writeIntake (w : Writer) (k : Nat) (v : Val) : State → WRes :=
  let p := (k / 256 - 0x0C00) / 0x100
  match v with
  | .num n =>
    if k = Reg.itk_TRIG_NOW p then writeTrigNow w p n
    else entryWrite w k v (fun s => if k = Reg.itk_PAIR_PORT p then pairRule p n s.dev else none) (fun _ => onDev (setV k v))
  | .bytes _ => entryWrite w k v noRule (fun _ => onDev (setV k v))

/-- The acceptance rules of a sequencer's entries: a gang member's are refused (R110), and a window's last row stays at or
above its first. -/
def seqRule (p k : Nat) (v : Val) (d : Dev) : Option (Nat × (Dev → Dev)) :=
  if d.lead p ≠ p then refuse stREFUSED
  else
    let g := (k / 256 - 0x1000) % 0x40 - 8
    match v with
    | .num n =>
      if k = Reg.grp_WINDOW_FIRST p g ∧ d.get (Reg.grp_WINDOW_LAST p g) < n then refuse stRANGE
      else if k = Reg.grp_WINDOW_LAST p g ∧ n < d.get (Reg.grp_WINDOW_FIRST p g) then refuse stRANGE
      else none
    | .bytes _ => none

/-- A write of a sequencer's entry (Table 5.7). -/
def writeSeq (w : Writer) (k : Nat) (v : Val) (s : State) : WRes :=
  let p := (k / 256 - 0x1000) / 0x40
  match v with
  | .bytes b =>
    if k = Reg.seq_SUBMIT p then writeSubmit w p b s
    else entryWrite w k v (fun t => seqRule p k v t.dev) (fun _ => onDev (setV k v)) s
  | .num _ => entryWrite w k v (fun t => seqRule p k v t.dev) (fun _ => onDev (setV k v)) s

/-- A write of an entry with no rule of its own. -/
def writePlain (w : Writer) (k : Nat) (v : Val) : State → WRes := entryWrite w k v noRule (fun _ => onDev (setV k v))

/-- Writes of the records below 0x0800: modes, service, log, store, boot, clocks. -/
def writeLow (w : Writer) (k : Nat) (v : Val) : State → WRes :=
  match v with
  | .num n =>
    if k = Reg.mode_MODE_REQUEST then writeModeRequest w n
    else if k = Reg.boot_FW_COMMIT then writeFwCommit w n
    else if k = Reg.boot_SUBSYSTEM_IDS then writeSubsystemIds w n
    else if k = Reg.store_STORE_SAVE then writeStoreSave w n
    else if k = Reg.clk_RESET_REQUEST then writeResetRequest w n
    else if k = Reg.auth_KEY_RIGHTS then entryWrite w k v (fun s => keyRule w s.dev) (fun _ => onDev (setV k v))
    else writePlain w k v
  | .bytes b =>
    if k = Reg.boot_FW_UPDATE then writeFwUpdate w b
    else if k / 256 = 0x0111 then entryWrite w k v (fun s => keyRule w s.dev) (fun _ => onDev (setV k v))
    else writePlain w k v

/-- Writes of the records from 0x1000 to 0x23FF: sequencers to video outputs. -/
def writeMid (w : Writer) (k : Nat) (v : Val) (s : State) : WRes :=
  let idx := k / 256
  if idx < 0x1100 then writeSeq w k v s
  else if idx < 0x1400 then writePlain w k v s
  else if idx = 0x1403 then writeFab w k v s
  else if idx = 0x1404 then (match v with
    | .num n => if k = Reg.fb_FB_PHASE then writeFbPhase w n s else writePlain w k v s
    | .bytes _ => writePlain w k v s)
  else if idx < 0x1800 then writeWeir w k v s
  else if idx < 0x1C00 then writeView w ((idx - 0x1800) / 0x100) k v s
  else if 0x1C10 ≤ idx ∧ idx < 0x1C18 then writeAmt w (idx - 0x1C10) k v s
  else if idx = 0x1D00 then (match v with
    | .bytes b => writePoolCmd w b s
    | .num _ => writePlain w k v s)
  else if 0x1E10 ≤ idx ∧ idx < 0x1E18 then writeHev w (idx - 0x1E10) k v s
  else if 0x2010 ≤ idx ∧ idx < 0x2018 then writeOut w (idx - 0x2010) k v s
  else writePlain w k v s

/-- Writes of the records from 0x2400 on: DRAM to thermal. -/
def writeHigh (w : Writer) (k : Nat) (v : Val) (s : State) : WRes :=
  let idx := k / 256
  if idx < 0x2800 then writeDram w k v s
  else if idx < 0x2900 then
    (if 8 ≤ (idx - 0x2810) % 0x20 ∧ (idx - 0x2810) % 0x20 < 16 then writeMagLane w k v s else writeMag w k v s)
  else if idx < 0x2A00 then writeRcq w k v s
  else if idx < 0x2B00 then writeClip w k v s
  else if idx < 0x3000 then writePlain w k v s
  else if idx = 0x3001 then
    (if k = Reg.stg_STAGE_ARM then writeStageArm w (v != .num 0) s else writeStaging w k v s)
  else if 0x3010 ≤ idx ∧ idx < 0x3020 then writeTpg w (idx - 0x3010) k v s
  else if idx < 0x3400 then writeNet w k v s
  else if idx = 0x3420 then writeStrobe w k v s
  else if idx < 0x3810 then writePlain w k v s
  else if idx < 0x3818 then (match v with
    | .bytes b => if k = Reg.tw_TW_XFER (idx - 0x3810) then writeTwXfer w (idx - 0x3810) b s else writeTwEntry w (idx - 0x3810) k v s
    | .num n =>
      if k = Reg.tw_TW_RST_ASSERT (idx - 0x3810) ∧ n ≤ 1 then writeTwRstAssert w (idx - 0x3810) (n == 1) s
      else writeTwEntry w (idx - 0x3810) k v s)
  else writeTherm w k v s

/-- A write of the entry of key `k`, by the rules of its chapter. -/
def dictRoute (w : Writer) (k : Nat) (v : Val) (s : State) : WRes :=
  let idx := k / 256
  if (unitsOf k).isEmpty then
    (if idx < 0x0800 then writeLow w k v s
     else if idx < 0x0C00 then writeLaneEntry w k v s
     else if idx < 0x1000 then writeIntake w k v s
     else if idx < 0x2400 then writeMid w k v s
     else writeHigh w k v s)
  else writeEnable w k v s

/-- A write of the entry of key `k`: the tables' checks come first, but for ARB_MODE, whose mode rule is its own (R144). -/
def dictWriteAny (w : Writer) (k : Nat) (v : Val) (s : State) : WRes :=
  match writeCheck s.dev w k v with
  | none => dictRoute w k v s
  | some c => if k = Reg.fab_ARB_MODE ∧ c = stMODE then dictRoute w k v s else .no c id

/-- What a write of any entry may have set going takes its course. -/
def writeSettle (s : State) : State :=
  settleState (onDev (fun d => (List.range 8).foldl (fun e n => twSync n e) d) s)

end Sys2Proof.Machine
end

