-- ==== Sys2Proof/Machine/TuradOps.lean ====
section
/-! DEFINITION. The dictionary service (R421 to R437): messages, items, reads and writes, blocks, subscriptions, keys and
sessions. -/

namespace Sys2Proof.Machine

/-! ## Messages (R421, R422) -/

/-- A message's header and body. -/
structure TuradHead where
  ver : Nat
  ty : Nat
  flags : Nat
  rsv : Nat
  cid : Nat
  count : Nat
  seq : Nat
  len : Nat
  body : List Byte

/-- The header read; none when it is not whole. -/
def turadHead (b : List Byte) : Option TuradHead :=
  if b.length < 16 then none
  else
    let len := rdLe b 12 4
    some { ver := rdLe b 0 1, ty := rdLe b 1 1, flags := rdLe b 2 1, rsv := rdLe b 3 1, cid := rdLe b 4 2, count := rdLe b 6 2,
           seq := rdLe b 8 4, len := len, body := sliceB b 16 len }

/-- An item (Table 17.5). -/
structure Item where
  key : Nat
  ty : Nat
  val : List Byte

/-- The `n` items that make up a body; none when lengths are inconsistent or a reserved field is not zero. -/
def readItems : Nat → List Byte → Option (List Item)
  | 0, b => if b.isEmpty then some [] else none
  | n + 1, b =>
    let len := rdLe b 4 2
    let size := 8 + roundUp len 4
    if b.length < size ∨ rdLe b 6 2 ≠ 0 then none
    else (readItems n (b.drop size)).map (fun l =>
      { key := rdLe b 0 2 * 256 + rdLe b 2 1, ty := rdLe b 3 1, val := sliceB b 8 len } :: l)

/-- What a message asks for. -/
inductive Ask where
  | read (l : List Item)
  | write (l : List Item)
  | readBlock (i : Item) (off size : Nat)
  | writeBlock (i : Item) (total off : Nat) (data : List Byte)
  | subscribe (fromSeq : Nat) (ranges : List (Nat × Nat))
  | unsubscribe

/-- The body of a message by its TYPE (Table 17.6); none when it is malformed. -/
def askOf (h : TuradHead) : Option Ask :=
  match h.ty with
  | 1 => (readItems h.count h.body).bind (fun l => if l.all (fun i => i.val.isEmpty) then some (.read l) else none)
  | 2 => (readItems h.count h.body).map .write
  | 3 =>
    (match h.count, readItems h.count h.body with
     | 1, some [i] => if i.val.length = 8 then some (.readBlock i (rdLe i.val 0 4) (rdLe i.val 4 4)) else none
     | _, _ => none)
  | 4 =>
    (match h.count, readItems h.count h.body with
     | 1, some [i] => if 8 ≤ i.val.length then some (.writeBlock i (rdLe i.val 0 4) (rdLe i.val 4 4) (i.val.drop 8)) else none
     | _, _ => none)
  | 5 =>
    let n := rdLe h.body 8 2
    if 1 ≤ n ∧ n ≤ 16 ∧ h.body.length = 12 + 4 * n ∧ rdLe h.body 10 2 = 0 then
      some (.subscribe (rdLe h.body 0 8) ((List.range n).map (fun i => (rdLe h.body (12 + 4 * i) 2, rdLe h.body (14 + 4 * i) 2))))
    else none
  | 6 => if h.body.isEmpty then some .unsubscribe else none
  | _ => none

/-- A message of the service, with its MAC when it has a key (R435). -/
def turadMsg (ty cid count seq : Nat) (response auth : Bool) (ks : Option (List Byte)) (body : List Byte) : List Byte :=
  let m := leBytes 1 1 ++ leBytes 1 ty ++ leBytes 1 (2 * b2n response + b2n auth) ++ leBytes 1 0 ++ leBytes 2 cid ++
    leBytes 2 count ++ leBytes 4 seq ++ leBytes 4 body.length ++ body
  match ks with
  | some k => m ++ (hmacSha256 k m).take 16
  | none => m

/-- An ERROR message (R423), with a MAC where it answers an authenticated request (R435). -/
def turadError (code cid seq : Nat) (ks : Option (List Byte)) : List Byte :=
  turadMsg 8 cid 0 seq true ks.isSome ks (leBytes 4 code)

/-- An item of a response. -/
def itemBytes (key ty status : Nat) (val : List Byte) : List Byte :=
  leBytes 2 (key / 256) ++ leBytes 1 (key % 256) ++ leBytes 1 ty ++ leBytes 2 val.length ++ leBytes 1 status ++ leBytes 1 0 ++ padMul 4 val

/-- The longest message of a transport (R438 to R440). -/
def Dev.turadLimit (d : Dev) : Transport → Nat
  | .udp => d.get Reg.srv_UDP_MAX
  | .mailbox => 65536
  | .twm => 128

/-! ## Sessions -/

/-- The session has the identity (R437). -/
def Session.has (x : Session) (r : SessionRef) : Bool := x.tr == r.tr && x.client == r.client && x.ip == r.ip

/-- The session of an identity. -/
def Dev.session? (d : Dev) (r : SessionRef) : Option Session := d.srv.sessions.find? (fun x => x.has r)

/-- The service changed. -/
def setSrv (f : Service → Service) (d : Dev) : Dev := { d with srv := f d.srv }

/-- The session of an identity changed. -/
def setSession (r : SessionRef) (f : Session → Session) (d : Dev) : Dev :=
  setSrv (fun v => { v with sessions := v.sessions.map (fun x => if x.has r then f x else x) }) d

/-- A session opens: EV 0x0102. -/
def openSession (r : SessionRef) (port seq cause : Nat) (ks : Option (List Byte)) (d : Dev) : Dev :=
  let x : Session := { tr := r.tr, client := r.client, ip := r.ip, port := port, ks := ks, last := seq, responses := [], sub := none
                       block := none, raw := d.time.raw }
  post 0x0102 r.client 1 cause (setSrv (fun v => { v with sessions := v.sessions.filter (fun x => !(x.has r)) ++ [x] }) d)

/-- A session ends: EV 0x0102. -/
def closeSession (r : SessionRef) (cause : Nat) (d : Dev) : Dev :=
  if (d.session? r).isSome then
    post 0x0102 r.client 0 cause (setSrv (fun v => { v with sessions := v.sessions.filter (fun x => !(x.has r)) }) d)
  else d

/-- Cycles of `n` seconds. -/
def secs (n : Nat) : Nat := n * 1200000000

/-- Cycles since TB_RAW was `raw`. -/
def Dev.cyclesSince (d : Dev) (raw : Nat) : Nat := (d.time.raw + 2 ^ 64 - raw) % 2 ^ 64

/-- The CLIENT_ID is locked out (R437). -/
def Dev.locked (d : Dev) (client : Nat) : Bool := d.srv.fails.any (fun f => f.client == client && f.lockedRaw.isSome)

/-- A fresh nonce for a CLIENT_ID (R434). -/
def issueNonce (client : Nat) (d : Dev) : List Byte × Dev :=
  let n := draw d
  let nd := (List.range 16).map (Config.trngByte n.1)
  (nd, setSrv (fun v => { v with nonces := { client := client, nd := nd, raw := d.time.raw } :: v.nonces.filter (fun x => x.client != client) }) n.2)

/-- A wrong proof (R434, R437): EV 0x0103. -/
def proofFailed (r : SessionRef) (d : Dev) : Dev :=
  let n := match d.srv.fails.find? (fun f => f.client == r.client) with
    | some f => f.count + 1
    | none => 1
  let lock := if 5 ≤ n then some d.time.raw else none
  post 0x0103 r.client n (trCode r.tr) (inc32 Reg.auth_AUTH_FAILURES (setSrv (fun v => { v with
    fails := { client := r.client, count := n, lockedRaw := lock } :: v.fails.filter (fun f => f.client != r.client) }) d))

/-- CLIENT_ID as two little-endian bytes after a label and the nonces. -/
def authText (label : String) (nd nc : List Byte) (cid : Nat) : List Byte := ascii label ++ nd ++ nc ++ leBytes 2 cid

/-- A write of AUTH_RESPONSE by the client of an identity (R434). -/
def authWrite (w : Writer) (r : SessionRef) (port seq : Nat) (v : Val) (s : State) : WRes :=
  match writeCheck s.dev w Reg.auth_AUTH_RESPONSE v, v with
  | some c, _ => .no c id
  | none, .num _ => .no stTYPE id
  | none, .bytes b =>
    let d := s.dev
    let nonce := d.srv.nonces.find? (fun n => n.client == r.client && decide (d.cyclesSince n.raw ≤ secs 10))
    let used := setSrv (fun v => { v with nonces := v.nonces.filter (fun x => x.client != r.client) })
    let nc := b.take 16
    match nonce, d.slotKey (r.client / 0x2000) with
    | some n, some k =>
      if hmacSha256 k (authText "TURAD-PROOF" n.nd nc r.client) = b.drop 16 then
        (if 16 ≤ (d.srv.sessions.filter (fun x => !(x.has r))).length then .no stBUSY used
         else
           let ks := hmacSha256 k (authText "TURAD-SESSION" n.nd nc r.client)
           .ok (onDev (fun e => openSession r port seq 1 (some ks) (closeSession r 3 (setSrv (fun v => { v with
             fails := v.fails.filter (fun f => f.client != r.client) }) (used (recordWrite w Reg.auth_AUTH_RESPONSE v e))))) (roomToRecord w s)))
      else .no 0x0A (fun e => proofFailed r (used e))
    | _, _ => .no 0x0A (fun e => proofFailed r (used e))

/-! ## Items -/

/-- The type code of an entry in a response: its own, NONE for one that is absent or does not exist. -/
def Dev.itemType (d : Dev) (k : Nat) : Nat :=
  if d.absent k then 0
  else if k % 256 = 0 then (if rowsOf (k / 256) = [] then 0 else 2)
  else ((rowOf k).map (fun r => r.ty.code)).getD 0

/-- The type of an entry's value bytes. -/
def tyOf (k : Nat) : Ty := if k % 256 = 0 then .u8 else ((rowOf k).map (fun r => r.ty)).getD .blob

/-- The entry is readable over the target with AUTH_LOCAL (R436). -/
def Dev.twmReads (d : Dev) (tr : Transport) (k : Nat) : Bool :=
  tr != .twm || !(d.flag Reg.auth_AUTH_LOCAL) || k / 256 == 0x0100 || k / 256 == 0x0200

/-- One read (R425): the status, the value bytes, and the state after. -/
def readOne (tr : Transport) (cid k ty : Nat) (s : State) : Nat × List Byte × State :=
  let d := s.dev
  if 0xF000 ≤ k / 256 then (1, [], s)
  else if (if k % 256 = 0 then decide (rowsOf (k / 256) = []) else (rowOf k).isNone) then (1, [], s)
  else if d.absent k then (2, [], s)
  else if !(d.twmReads tr k) then (0x0A, [], s)
  else if ty ≠ 0xFF ∧ ty ≠ d.itemType k then
    (if ((rowOf k).map (fun r => decide (r.acc = .wo))).getD false then (4, [], s) else (6, [], s))
  else if k = Reg.auth_AUTH_CHALLENGE then
    (if d.locked cid then (0x0B, [], s)
     else
       let n := issueNonce cid d
       (0, n.1, { s with dev := n.2 }))
  else match readEntry s k with
    | none => (4, [], s)
    | some v => (0, valBytes (tyOf k) v, s)

/-- READ: the items in order; `room` is what the transport's limit leaves for values (R425). -/
def readList (tr : Transport) (cid : Nat) : Nat → List Item → State → List Byte × State
  | _, [], s => ([], s)
  | room, i :: l, s =>
    let r := readOne tr cid i.key i.ty s
    let size := roundUp r.2.1.length 4
    let big := decide (room < size)
    let b := if big then itemBytes i.key (s.dev.itemType i.key) 0x0F [] else itemBytes i.key (s.dev.itemType i.key) r.1 r.2.1
    let rest := readList tr cid (if big then room else room - size) l r.2.2
    (b ++ rest.1, rest.2)

/-- The right to write over a transport, in a session: AUTH or DENIED where it lacks (R433, R436, R440). -/
def Dev.writeRight (d : Dev) (tr : Transport) (cid : Nat) (authed : Bool) : Option Nat :=
  match tr with
  | .twm => if d.flag Reg.auth_AUTH_LOCAL then some 0x0A else if d.get Reg.srv_TWM_ACCESS = 0 then some 0x0B else none
  | _ => if authed && cid / 0x2000 != 0 && bit (d.get Reg.auth_KEY_RIGHTS) (cid / 0x2000) == 0 then some 0x0B else none

/-- Value bytes that stand for no value of an entry's type. -/
def misfit (k : Nat) : Val :=
  match rowOf k with
  | some r => if r.ty = .str ∨ r.ty = .blob then .num 0 else .bytes []
  | none => .num 0

/-- One write by a client, of value bytes and their type code. -/
def clientWrite (w : Writer) (r : SessionRef) (port seq : Nat) (authed : Bool) (k ty : Nat) (b : List Byte) (s : State) : WRes :=
  let v := if ty = s.dev.itemType k then (valOf (tyOf k) b).getD (misfit k) else misfit k
  if k = Reg.auth_AUTH_RESPONSE ∧ r.tr ≠ .twm then authWrite w r port seq v s
  else match s.dev.writeRight r.tr r.client authed with
    | some c => .no c id
    | none => dictWriteAny w k v s

/-- WRITE (R426): every item against the state that the items before it leave; the statuses, the state after all, and what
refusals leave. -/
def writeList (w : Writer) (r : SessionRef) (port seq : Nat) (authed : Bool) : List Item → State → List Nat × State × (Dev → Dev)
  | [], s => ([], s, id)
  | i :: l, s =>
    match clientWrite w r port seq authed i.key i.ty i.val s with
    | .ok t =>
      let x := writeList w r port seq authed l t
      (0 :: x.1, x.2)
    | .no c eff =>
      let x := writeList w r port seq authed l s
      (c :: x.1, x.2.1, fun d => x.2.2 (eff d))

/-- The items of the response to a WRITE. -/
def writeAnswer (d : Dev) (l : List Item) (st : List Nat) : List Byte :=
  ((l.zip st).map (fun x => itemBytes x.1.key (d.itemType x.1.key) x.2 [])).flatten

/-- READ_BLOCK (R428): TOTAL, CHANGE and the bytes from OFFSET. -/
def readBlock (tr : Transport) (cid : Nat) (i : Item) (off size room : Nat) (s : State) : List Byte × State :=
  let r := readOne tr cid i.key i.ty s
  let ty := s.dev.itemType i.key
  let part := sliceB r.2.1 off size
  let val := leBytes 4 r.2.1.length ++ leBytes 4 (changeOf i.key s.dev.changes) ++ part
  if r.1 ≠ 0 then (itemBytes i.key ty r.1 [], r.2.2)
  else if room < roundUp val.length 4 ∨ 65535 < val.length then (itemBytes i.key ty 0x0F [], r.2.2)
  else (itemBytes i.key ty 0 val, r.2.2)

/-- WRITE_BLOCK (R428): one chunk; the status and the state after. -/
def writeBlock (w : Writer) (r : SessionRef) (port seq : Nat) (authed : Bool) (i : Item) (total off : Nat) (data : List Byte)
    (s : State) : Nat × State :=
  let d := s.dev
  let mine := (d.session? r).bind (fun x => x.block)
  let drop := onDev (setSession r (fun x => { x with block := none }))
  if d.srv.sessions.any (fun x => !(x.has r) && (match x.block with | some b => b.key == i.key | none => false)) then (stBUSY, s)
  else
    let sofar := if off = 0 then some [] else match mine with
      | some b => if b.key = i.key ∧ b.total = total ∧ b.data.length = off then some b.data else none
      | none => none
    match sofar with
    | none => (0x10, s)
    | some pre =>
      let all := pre ++ data
      if total < all.length then (0x0E, s)
      else if all.length < total then
        (0, onDev (setSession r (fun x => { x with block := some { key := i.key, total := total, data := all, raw := d.time.raw } })) s)
      else match clientWrite w r port seq authed i.key i.ty all (drop s) with
        | .ok t => (0, t)
        | .no c eff => (c, onDev eff (drop s))

/-- SUBSCRIBE (R431): where delivery starts, and the state after. -/
def subscribe (r : SessionRef) (port fromSeq : Nat) (ranges : List (Nat × Nat)) (s : State) : Nat × State :=
  let next := s.arb.next
  let oldest := match s.arb.ring with
    | x :: _ => x.seq
    | [] => next
  let start := if next < fromSeq then next else max oldest fromSeq
  let u0 : Subscription := { ranges := ranges, queue := [], lost := if fromSeq < oldest then oldest - fromSeq else 0, sent := 0 }
  let u := (s.arb.ring.filter (fun x => decide (start ≤ x.seq))).foldl (fun u x => u.offer x) u0
  (start, onDev (setSession r (fun x => { x with sub := some u, port := port })) s)

/-! ## One message -/

/-- The response's count and body, whether it carries AUTH after a challenge exchange, and the state after. -/
structure Reply where
  count : Nat
  body : List Byte
  proof : Bool
  st : State

/-- The items of a WRITE: all accepted, or none takes effect beyond what its refusals leave (R426). -/
def handleWrite (w : Writer) (r : SessionRef) (port seq : Nat) (authed : Bool) (l : List Item) (s : State) : Reply :=
  let x := writeList w r port seq authed l s
  let proof := l.any (fun i => i.key == Reg.auth_AUTH_RESPONSE)
  if x.1.all (fun c => c == 0) then
    { count := l.length, body := writeAnswer s.dev l x.1, proof := proof, st := writeSettle x.2.1 }
  else
    { count := l.length, body := writeAnswer s.dev l (x.1.map (fun c => if c = 0 then 0x11 else c)), proof := proof
      st := onDev x.2.2 s }

/-- The message handled (R424 to R432). -/
def handle (w : Writer) (r : SessionRef) (port : Nat) (h : TuradHead) (authed : Bool) (a : Ask) (s : State) : Reply :=
  let limit := s.dev.turadLimit r.tr - 16 - (if authed then 16 else 0)
  match a with
  | .read l =>
    let x := readList r.tr r.client (limit - 8 * l.length) l s
    { count := l.length, body := x.1, proof := false, st := x.2 }
  | .write l => handleWrite w r port h.seq authed l s
  | .readBlock i off size =>
    let x := readBlock r.tr r.client i off size (limit - 8) s
    { count := 1, body := x.1, proof := false, st := x.2 }
  | .writeBlock i total off data =>
    let x := writeBlock w r port h.seq authed i total off data s
    { count := 1, body := itemBytes i.key (s.dev.itemType i.key) x.1 [], proof := false, st := writeSettle x.2 }
  | .subscribe f l =>
    let x := subscribe r port f l s
    { count := 0, body := leBytes 4 0 ++ leBytes 8 x.1, proof := false, st := x.2 }
  | .unsubscribe =>
    { count := 0, body := leBytes 4 0, proof := false, st := onDev (setSession r (fun x => { x with sub := none })) s }

/-- Authentication is required of a message over the transport (R436). -/
def Dev.authNeeded (d : Dev) : Transport → Bool
  | .udp => d.anyKey
  | .mailbox => d.flag Reg.auth_AUTH_LOCAL
  | .twm => false

/-- The message only does what is allowed without a session: identity, challenge and response (R436). -/
def Ask.exchange : Ask → Bool
  | .read l => l.all (fun i => i.key / 256 == 0x0100 || i.key == Reg.auth_AUTH_CHALLENGE)
  | .write l => l.all (fun i => i.key == Reg.auth_AUTH_RESPONSE)
  | _ => false

/-- The response remembered in its session (R429). -/
def remember (r : SessionRef) (seq : Nat) (b : List Byte) : State → State :=
  onDev (setSession r (fun x => { x with responses := ((seq, b) :: x.responses).take 8 }))

/-- The session that a message with SEQ `seq` has just opened. -/
def Dev.justOpened (d : Dev) (r : SessionRef) (seq : Nat) : Bool :=
  match d.session? r with
  | some x => x.responses.isEmpty && x.last == seq
  | none => false

/-- A message handled in its session, or outside one, and answered; a service that a reset has ended answers nothing. The
response to a message of a session is kept, and so is the one that opened it. -/
def answer (w : Writer) (r : SessionRef) (port : Nat) (h : TuradHead) (authed inside : Bool) (a : Ask) (s : State) :
    Option (List Byte) × State :=
  let ks := if authed then (s.dev.session? r).bind (fun x => x.ks) else none
  let x := handle w r port h authed a s
  let ks' := if x.proof && ks.isNone then (x.st.dev.session? r).bind (fun y => y.ks) else ks
  if !x.st.dev.served || x.st.arb.next < s.arb.next then (none, x.st)
  else
    let b := turadMsg h.ty r.client x.count h.seq true (authed || x.proof) ks' x.body
    (some b, if inside || (x.proof && x.st.dev.justOpened r h.seq) then remember r h.seq b x.st else x.st)

/-- A message of a session or of none: sequence numbers and responses kept (R429). -/
def inSession (w : Writer) (r : SessionRef) (port : Nat) (h : TuradHead) (authed : Bool) (a : Ask) (s : State) : Option (List Byte) × State :=
  match s.dev.session? r with
  | none =>
    if 16 ≤ s.dev.srv.sessions.length then (some (turadError stBUSY r.client h.seq none), s)
    else answer w r port h authed true a (onDev (openSession r port h.seq 4 none) s)
  | some x =>
    let s1 := onDev (fun d => setSession r (fun y => { y with raw := d.time.raw }) d) s
    match x.responses.find? (fun y => y.1 == h.seq) with
    | some y => (some y.2, s1)
    | none =>
      if newer32 h.seq x.last then answer w r port h authed true a (onDev (setSession r (fun y => { y with last := h.seq })) s1)
      else (some (turadError 0x0C r.client h.seq (if authed then x.ks else none)), s1)

/-- The message's header, lengths and transport are in order: the code of the ERROR otherwise (R421, R423). -/
def headFault (d : Dev) (tr : Transport) (waiting size : Nat) (h : TuradHead) : Option Nat :=
  if 16 ≤ waiting then some stBUSY
  else if h.ver ≠ 1 then some 0x0D
  else if 1 < h.flags ∨ h.rsv ≠ 0 ∨ h.ty = 0 ∨ 6 < h.ty ∨ size ≠ 16 + h.len + 16 * (h.flags % 2) then some 0x0E
  else if tr = .twm ∧ (2 < h.ty ∨ h.flags ≠ 0) then some 0x0E
  else if d.turadLimit tr < size then some 0x0F
  else none

/-- The message carries the MAC of a session key (R435). -/
def TuradHead.proves (h : TuradHead) (ks : Option (List Byte)) (b : List Byte) : Bool :=
  match ks with
  | some k => h.flags % 2 == 1 && (hmacSha256 k (b.take (16 + h.len))).take 16 == b.drop (16 + h.len)
  | none => false

/-- The kept response to the AUTH_RESPONSE that opened a session, for the same request sent again (R429). -/
def Session.opening (x : Session) (seq : Nat) (a : Ask) : Option (List Byte) :=
  match a with
  | .write _ => (x.responses.find? (fun y => y.1 == seq && sliceB y.2 16 3 == [0x10, 0x01, 0x02])).map (·.2)
  | _ => none

/-- One message taken by the service (R423 to R437): its answer, and the state after. -/
def turad (tr : Transport) (ip port waiting : Nat) (b : List Byte) (s : State) : Option (List Byte) × State :=
  if !s.dev.served then (none, s)
  else match turadHead b with
    | none => (some (turadError 0x0E 0 0 none), s)
    | some h =>
      let r : SessionRef := { tr := tr, client := h.cid, ip := ip }
      let w : Writer := .client h.cid tr
      let ks := (s.dev.session? r).bind (fun x => x.ks)
      let proven := (if h.proves ks b then ks else none)
      let err := fun c => (some (turadError c h.cid h.seq proven), s)
      match headFault s.dev tr waiting b.length h, askOf h with
      | some c, _ => err c
      | none, none => err 0x0E
      | none, some a =>
        if tr = .twm then
          (let x := handle w r port h false a s
           (some (turadMsg h.ty h.cid x.count h.seq true false none x.body), x.st))
        else if h.flags = 1 then
          (if proven.isSome then inSession w r port h true a s else err 0x0A)
        else if s.dev.authNeeded tr || ks.isSome then
          (if a.exchange then
             (match (s.dev.session? r).bind (fun x => x.opening h.seq a) with
              | some y => (some y, s)
              | none => answer w r port h false false a s)
           else err 0x0A)
        else inSession w r port h false a s

end Sys2Proof.Machine
end

