-- ==== Sys2Proof/Machine/PcieOps.lean ====
section
/-! DEFINITION. The PCI Express endpoint (R370 to R386): the mailbox, the event log copy's registers, MSI-X, the pound
window, power states and host resets, and BAR 0 (R374 to R376). -/

namespace Sys2Proof.Machine

/-- The endpoint changed. -/
def setEp (f : Endpoint → Endpoint) (d : Dev) : Dev := { d with ep := f d.ep }

/-! ## The mailbox (R377, R378) -/

/-- Bytes that a record takes in a ring. -/
def recBytes (n : Nat) : Nat := 8 + roundUp n 8

/-- Where a record of `n` bytes goes in a ring: its offset, whether the end is skipped, and the new tail; none while the ring
is full. -/
def ringPlace (size head tail n : Nat) : Option (Nat × Bool × Nat) :=
  let z := recBytes n
  let used := (tail + size - head % max 1 size) % max 1 size
  if tail + z ≤ size then (if used + z < size then some (tail, false, (tail + z) % size) else none)
  else if used + (size - tail) + z < size then some (0, true, z)
  else none

/-- One message written to the response ring, with vector 1; none while the ring is full or the endpoint is in D3hot. -/
def mbxWrite (b : List Byte) (s : State) : Option State :=
  let e := s.dev.ep
  if !e.mbxEnable || e.d3hot then none
  else (ringPlace e.rspSize e.rspHead e.rspTail b.length).map (fun p =>
    let m := if p.2.1 then s.hostMem.writeBytes (e.rspBase + e.rspTail) (leBytes 4 0) else s.hostMem
    { s with hostMem := m.writeBytes (e.rspBase + p.1) (leBytes 4 b.length ++ zeros 4 ++ padMul 8 b)
             dev := signal 1 (setEp (fun e => { e with rspTail := p.2.2 }) s.dev) })

/-- Responses that wait for room are written, in order. -/
def mbxDrain : List (List Byte) → State → State
  | [], s => onDev (setEp (fun e => { e with responses := [] })) s
  | b :: l, s =>
    match mbxWrite b s with
    | some t => mbxDrain l t
    | none => onDev (setEp (fun e => { e with responses := b :: l })) s

/-- MBX_REQ_HEAD after a record of `n` bytes. -/
def reqAdvance (n : Nat) (e : Endpoint) : Endpoint :=
  let z := recBytes n
  { e with reqHead := if e.reqHead + z ≤ e.reqSize then (e.reqHead + z) % max 1 e.reqSize else z }

/-- The service takes up to `n` request records, while no response waits for room (R378). -/
def mbxServe : Nat → State → State
  | 0, s => s
  | n + 1, s =>
    let e := s.dev.ep
    match e.requests with
    | [] => s
    | b :: l =>
      if !e.mbxEnable || e.d3hot || !s.dev.served || !e.responses.isEmpty then s
      else
        let s1 := onDev (setEp (fun e => reqAdvance b.length { e with requests := l })) s
        let r := turad .mailbox 0 0 0 b s1
        mbxServe n (match r.1 with
          | some a => if r.2.dev.ep.mbxEnable then mbxDrain [a] r.2 else r.2
          | none => r.2)

/-- What waits in the mailbox goes on. -/
def mbxGo (s : State) : State :=
  let s1 := mbxDrain s.dev.ep.responses s
  mbxServe s1.dev.ep.requests.length s1

/-- A write of MBX_CTRL (R378). -/
def mbxControl (v : Nat) (s : State) : State :=
  onDev (setEp (fun e =>
    if v % 2 = 1 then
      (if e.mbxEnable then e
       else { e with mbxEnable := true, reqHead := 0, reqTail := 0, rspHead := 0, rspTail := 0, requests := [], responses := [] })
    else { e with mbxEnable := false, requests := [], responses := [] })) s

/-- A write of MBX_REQ_TAIL, with the records that it makes known; a doorbell of a disabled ring is discarded (R376). -/
def mbxRequest (v : Nat) (records : List (List Byte)) (s : State) : State :=
  if s.dev.ep.mbxEnable then mbxGo (onDev (setEp (fun e => { e with reqTail := v, requests := e.requests ++ records })) s) else s

/-- A write of MBX_RSP_HEAD. -/
def mbxRelease (v : Nat) (s : State) : State := mbxGo (onDev (setEp (fun e => { e with rspHead := v })) s)

/-! ## The event log copy (R379) -/

/-- A write of EVT_SIZE: 0 disables the copy; an invalid size is discarded (R376). -/
def evtResize (v : Nat) (s : State) : State :=
  if v = 0 then
    { s with arb := { s.arb with waiting := [] }, dev := setEp (fun e => { e with evtSize := 0, evtDue := false }) s.dev }
  else if 16 ≤ v ∧ v ≤ 65536 then
    { s with arb := { s.arb with missed := 0, waiting := [] }
             dev := setEp (fun e => { e with evtSize := v, evtHead := 0, evtTail := 0, evtDue := false }) s.dev }
  else s

/-- A write of EVT_TAIL; room again after records were missed logs EV 0x0211 (R25). -/
def evtRelease (v : Nat) (s : State) : State := logOverrun (onDev (setEp (fun e => { e with evtTail := v })) s)

/-- Vector 0 after EVT_HEAD advanced, at most once per EVT_IRQ_HOLDOFF_US (R379). -/
def evtSignal (d : Dev) : Dev :=
  let quiet := match d.ep.evtSignalRaw with
    | some r => decide (d.get Reg.pcie_EVT_IRQ_HOLDOFF_US * 1200 ≤ d.cyclesSince r)
    | none => true
  if d.ep.evtDue && quiet then signal 0 (setEp (fun e => { e with evtDue := false, evtSignalRaw := some d.time.raw }) d) else d

/-! ## MSI-X (R380) -/

/-- The pending message of a vector that may send, sent. -/
def msixSend (v : Nat) (d : Dev) : Dev :=
  let e := nth d.ep.msix v
  if e.pending && !e.masked && !d.ep.d3hot then
    signal v (setEp (fun x => { x with msix := updAt v (fun y => { y with pending := false }) x.msix }) d)
  else d

/-- Vector `v` is unmasked. -/
def msixUnmask (v : Nat) (d : Dev) : Dev :=
  msixSend v (setEp (fun x => { x with msix := updAt v (fun y => { y with masked := false }) x.msix }) d)

/-- A write to the MSI-X table. -/
def msixWrite (off v : Nat) (d : Dev) : Dev :=
  let i := off / 16
  if off % 16 = 0 then setEp (fun x => { x with msix := updAt i (fun y => { y with addr := v }) x.msix }) d
  else
    let m := v / 2 ^ 32 % 2 == 1
    let d1 := setEp (fun x => { x with msix := updAt i (fun y => { y with data := v % 2 ^ 32, masked := y.masked || m }) x.msix }) d
    if m then d1 else msixUnmask i d1

/-! ## The pound window (R381 to R383) -/

/-- BAR2_OPEN: BAR2_ENABLE, and a mode that runs the window. -/
def Dev.bar2Open (d : Dev) : Bool :=
  d.flag Reg.pcie_BAR2_ENABLE && (d.mode == mOFFLOAD || d.mode == mPLAYBACK || (d.mode == mBURST && d.burstDone))

/-- A range of BAR 2 lies in the pound. -/
def Dev.bar2In (d : Dev) (off n : Nat) : Bool :=
  decide (off + n ≤ 2 ^ 36) && decide (d.ep.window + off + n ≤ d.ns5 * 4096)

/-- A BAR 2 read, answered: 0 with data, 1 as an Unsupported Request, 2 as a poisoned completion. -/
def bar2Read (off n : Nat) (s : State) : State :=
  let d := s.dev
  let a := d.ep.window + off
  if !d.bar2Open || d.ep.d3hot || !(d.bar2In off n) then onDev (emit .pcie 2 [1, off, n] []) s
  else
    let r := poundRead a n s
    onDev (fun e =>
      let e1 := poundAsk rqPcie a n (offloadRead a n e)
      if r.2 then post 0x2C04 0xFFFF (lo32 a) (a / 2 ^ 32) (emit .pcie 2 [2, off, n] r.1 e1)
      else emit .pcie 2 [0, off, n] r.1 e1) (poisonReads a n s)

/-- A BAR 2 write. -/
def bar2Write (off : Nat) (b : List Byte) (s : State) : State :=
  let d := s.dev
  if d.ep.d3hot then s
  else if !((d.mode == mOFFLOAD || d.mode == mPLAYBACK) && d.flag Reg.pcie_BAR2_WRITE_ENABLE) then
    onDev (inc64 Reg.pcie_BAR2_WRITES_DISCARDED) s
  else if d.bar2Open && d.bar2In off b.length then onDev (poundAsk rqPcie (d.ep.window + off) b.length) (poundWrite (d.ep.window + off) b s)
  else s

/-- A write of BAR2_WINDOW: discarded unless a multiple of 1 GiB below the pound's size. -/
def bar2Window (v : Nat) (d : Dev) : Dev :=
  if v % 2 ^ 30 = 0 ∧ v < d.get Reg.dram_MAPPED_BYTES then setEp (fun e => { e with window := v }) d else d

/-! ## Power states and host resets (R384, R385) -/

/-- Entry to D3hot. -/
def d3Enter (d : Dev) : Dev :=
  if d.ep.d3hot then d else post 0x2C02 0xFFFF 3 0 (setEp (fun e => { e with d3hot := true }) d)

/-- Return to D0: records, responses, messages and completions that waited go on. -/
def d0Return (s : State) : State :=
  if !s.dev.ep.d3hot then s
  else
    let s1 := onDev (fun d => post 0x2C02 0xFFFF 0 3 (setEp (fun e => { e with d3hot := false }) d)) s
    let s2 := s1.arb.waiting.foldl (fun t r => copyRecord r t) { s1 with arb := { s1.arb with waiting := [] } }
    let s3 := onDev (fun d => (List.range 128).foldl (fun e v => msixSend v e) d) s2
    magSettle (writeTaken (mbxGo s3))

/-- A host command ended by a host reset: aborted, and its completion discarded. -/
def hostDrop (c : RecCmd) (d : Dev) : Dev :=
  let done := decide (c.ph = .ended ∨ c.ph = .taken)
  let d1 := if done then d else inc64 Reg.rcq_ABORTS d
  let d2 := if decide (c.ph = .active) && decide (1 ≤ c.ns ∧ c.ns ≤ 4 ∧ c.op ≠ 6) && c.magEnd.isNone then stopAtMag (c.ns - 1) c.tag d1 else d1
  freeCmd c.tag (setRcq (fun r => { r with comp := r.comp.filter (fun t => t != c.tag) }) d2)

/-- The endpoint's host-facing registers at reset, but for the TB registers. -/
def Endpoint.hostReset (e : Endpoint) : Endpoint :=
  { Endpoint.reset with latchTb := e.latchTb, latchRaw := e.latchRaw, epochAtRead := e.epochAtRead }

/-- A reset of the host-facing state, of kind 1 PERST#, 2 hot reset, 3 FLR or 4 link down. -/
def hostReset (kind : Nat) (s : State) : State :=
  let d := s.dev
  let l := d.rcq.cmds.filter (fun c => decide (c.queue < 64))
  let n := (l.filter (fun c => !(decide (c.ph = .ended ∨ c.ph = .taken)))).length
  let d1 := l.foldl (fun e c => hostDrop c e) d
  let d2 := setRcq (fun r => { r with fetched := r.fetched.map (fun _ => []) })
    { d1 with regs := d1.regs.filter (fun x => !(decide (0x2940 ≤ x.1 / 256) && decide (x.1 / 256 < 0x29C0))), ep := d1.ep.hostReset }
  let d3 := if kind = 3 then d2 else setN Reg.pcie_LINK_SPEED 0 (setN Reg.pcie_LINK_WIDTH 0 d2)
  magSettle (advance { s with
    dev := post 0x2C03 0xFFFF kind n (inc32 Reg.pcie_HOST_RESETS d3), arb := { s.arb with missed := 0, waiting := [] } })

/-- The link has trained, or changed its rate or width (R370). -/
def linkTrained (speed width : Nat) (d : Dev) : Dev :=
  if d.mode = 0 ∨ speed = 0 ∨ min 6 (d.get Reg.pcie_LINK_MAX_SPEED) < speed ∨ !([1, 2, 4, 8].contains width) ∨
      (d.get Reg.pcie_LINK_SPEED = speed ∧ d.get Reg.pcie_LINK_WIDTH = width) then d
  else post 0x2C01 0xFFFF speed width (setN Reg.pcie_LINK_SPEED speed (setN Reg.pcie_LINK_WIDTH width d))

/-! ## BAR 0 (R374 to R376) -/

/-- The ROM runs: the push window and its registers exist (R533). -/
def Dev.romRuns (d : Dev) : Bool := decide (d.boot.phase = .rom ∨ d.boot.phase = .waiting)

/-- A ring's base address is aligned. -/
def baseOk (v : Nat) : Bool := v % 4096 == 0
/-- A mailbox ring's size is allowed. -/
def ringSizeOk (v : Nat) : Bool := decide (4096 ≤ v) && decide (v ≤ 1048576) && 2 ^ Nat.log2 v == v

/-- The value of a register of BAR 0 that a write of one half keeps; 0 for one that is only written. -/
def Dev.bar0Value (d : Dev) (off : Nat) : Nat :=
  let e := d.ep
  match off with
  | 0x1000 => b2n e.mbxEnable
  | 0x1008 => e.reqBase
  | 0x1010 => e.reqSize
  | 0x1020 => e.reqTail
  | 0x1028 => e.rspBase
  | 0x1030 => e.rspSize
  | 0x1038 => e.rspHead
  | 0x3000 => e.evtBase
  | 0x3008 => e.evtSize
  | 0x3018 => e.evtTail
  | 0x4000 => e.window
  | 0x5008 => d.boot.pushLen
  | _ =>
    if 0x20000 ≤ off ∧ off < 0x20800 then
      (let x := nth e.msix ((off - 0x20000) / 16)
       if off % 16 = 0 then x.addr else x.data + 2 ^ 32 * b2n x.masked)
    else 0

/-- ID_STATUS (Table 15.4). -/
def Dev.idStatus (d : Dev) : Nat := flags [(0, d.served), (1, d.mode == mTHERMAL), (2, d.holdup), (3, d.bar2Open)]

/-- A whole register of BAR 0 as a read returns it (Tables 15.4 and 21.4); 0 for one that is only written or not implemented. -/
def Dev.bar0Read (d : Dev) (off : Nat) : Nat :=
  let e := d.ep
  match off with
  | 0x0000 => 0x51555445
  | 0x0008 => d.get Reg.idn_STEPPING * 2 ^ 32 + d.get Reg.idn_VENDOR_ID * 2 ^ 16 + d.get Reg.idn_DEVICE_ID
  | 0x0010 => if d.served then d.boot.version else 0
  | 0x0018 => d.target * 2 ^ 8 + d.mode
  | 0x0020 => d.idStatus
  | 0x1018 => e.reqHead
  | 0x1040 => e.rspTail
  | 0x2000 => tbNow d
  | 0x2008 => d.time.raw
  | 0x2010 => d.get Reg.tb_TB_EPOCH
  | 0x2018 => e.epochAtRead
  | 0x3010 => e.evtHead
  | 0x5010 => d.boot.pushStatus
  | _ =>
    if off = 0x21000 ∨ off = 0x21008 then
      sumN ((List.range 64).map (fun i => if (nth e.msix ((off - 0x21000) * 8 + i)).pending then 2 ^ i else 0))
    else d.bar0Value off

/-- What a read of `width` bytes at offset `off` of BAR 0 returns: 8 or 4, aligned; none is an Unsupported Request (R374).
The high half of TB_NOW and TB_RAW is that of the value latched (R375). -/
def Dev.bar0Answer (d : Dev) (off width : Nat) : Option Nat :=
  if (width ≠ 4 ∧ width ≠ 8) ∨ off % width ≠ 0 ∨ d.ep.d3hot ∨ d.mode = 0 then none
  else if width = 8 then some (d.bar0Read off)
  else if off % 8 = 0 then some (d.bar0Read off % 2 ^ 32)
  else if off = 0x2004 then some (d.ep.latchTb / 2 ^ 32)
  else if off = 0x200C then some (d.ep.latchRaw / 2 ^ 32)
  else some (d.bar0Read (off - 4) / 2 ^ 32)

/-- A whole register of BAR 0 written. The doorbells' queues are named by their offset. -/
def bar0Write (off v : Nat) (s : State) : State :=
  let e := s.dev.ep
  let ep := fun f => onDev (setEp f) s
  match off with
  | 0x0028 => if v = 0xA5A55A5A then requestReset 0x11 s else s
  | 0x1000 => mbxControl v s
  | 0x1008 => if !e.mbxEnable && baseOk v then ep (fun x => { x with reqBase := v }) else s
  | 0x1010 => if !e.mbxEnable && ringSizeOk v then ep (fun x => { x with reqSize := v }) else s
  | 0x1020 => mbxRequest v [] s
  | 0x1028 => if !e.mbxEnable && baseOk v then ep (fun x => { x with rspBase := v }) else s
  | 0x1030 => if !e.mbxEnable && ringSizeOk v then ep (fun x => { x with rspSize := v }) else s
  | 0x1038 => mbxRelease v s
  | 0x3000 => if e.evtSize = 0 ∧ baseOk v then ep (fun x => { x with evtBase := v }) else s
  | 0x3008 => evtResize v s
  | 0x3018 => evtRelease v s
  | 0x4000 => onDev (bar2Window v) s
  | 0x5000 => if s.dev.romRuns ∧ v % 2 = 1 then mbxGo (pushGo s) else s
  | 0x5008 => if s.dev.romRuns ∧ 512 ≤ v ∧ v ≤ 16777216 then onDev (fun d => { d with boot := { d.boot with pushLen := v } }) s else s
  | _ =>
    if 0x10000 ≤ off ∧ off < 0x10200 then onDev (sqTail ((off - 0x10000) / 8) (v % 65536)) s
    else if 0x10400 ≤ off ∧ off < 0x10600 then
      magSettle (cqHead ((off - 0x10400) / 8) v s)
    else if 0x20000 ≤ off ∧ off < 0x20800 then onDev (msixWrite (off - 0x20000) v) s
    else s

/-- A register that is only written: a write of its high half does nothing of its own. -/
def bar0WriteOnly (off : Nat) : Bool := off == 0x28 || off == 0x5000 || (decide (0x10000 ≤ off) && decide (off < 0x10600))

/-- A write of `width` bytes at offset `off` of BAR 0: 8 or 4, aligned; any other is discarded (R374). -/
def registerWrite (off width v : Nat) (s : State) : State :=
  if s.dev.ep.d3hot ∨ s.dev.mode = 0 then s
  else if (width ≠ 4 ∧ width ≠ 8) ∨ off % width ≠ 0 then s
  else if 0x1000000 ≤ off ∧ off + width ≤ 0x2000000 then
    (if s.dev.romRuns then onDev (fun d =>
       { d with boot := { d.boot with window := Mem.writeBytes d.boot.window (off - 0x1000000) (leBytes width v) } }) s
     else s)
  else
    let r := off / 8 * 8
    if width = 8 then bar0Write r (v % 2 ^ 64) s
    else
      let old := s.dev.bar0Value r
      if off % 8 = 0 then bar0Write r (old / 2 ^ 32 * 2 ^ 32 + v % 2 ^ 32) s
      else if bar0WriteOnly r then s
      else bar0Write r (v % 2 ^ 32 * 2 ^ 32 + old % 2 ^ 32) s

end Sys2Proof.Machine
end

