-- ==== Sys2Proof/Machine/PcieCmds.lean ====
section
/-! DEFINITION. The commands of the PCI Express endpoint (R370 to R386). In D3hot its memory space does nothing (R384). -/

namespace Sys2Proof.Machine

/-- A host access to the endpoint's memory space; none in D3hot. -/
def hostAccess (f : State → State) (s : State) : State := if s.dev.ep.d3hot then s else f s

/-- PCIE_LINK_UP (R370). -/
def execPcieLinkUp (speed width : Nat) (s : State) : Host.Outcome State Fault Refusal :=
  .next (onDev (linkTrained speed width) s)

/-- DEV_RESET (R386). -/
def execDevReset (v : Nat) (s : State) : Host.Outcome State Fault Refusal :=
  .next (hostAccess (fun t => if v = 0xA5A55A5A then requestReset 0x11 t else t) s)

/-- MBX_CTRL (R378). -/
def execMbxCtrl (v : Nat) (s : State) : Host.Outcome State Fault Refusal := .next (hostAccess (mbxControl v) s)

/-- MBX_REQ_TAIL (R378). -/
def execMbxReqTail (v : Nat) (records : List (List Byte)) (s : State) : Host.Outcome State Fault Refusal :=
  .next (hostAccess (mbxRequest v records) s)

/-- MBX_RSP_HEAD (R378). -/
def execMbxRspHead (v : Nat) (s : State) : Host.Outcome State Fault Refusal := .next (hostAccess (mbxRelease v) s)

/-- EVT_SIZE (R379). -/
def execEvtSize (v : Nat) (s : State) : Host.Outcome State Fault Refusal := .next (hostAccess (evtResize v) s)

/-- EVT_TAIL (R25). -/
def execEvtTail (v : Nat) (s : State) : Host.Outcome State Fault Refusal := .next (hostAccess (evtRelease v) s)

/-- EVT_VECTOR_SIGNAL (R379). -/
def execEvtVectorSignal (s : State) : Host.Outcome State Fault Refusal := .next (hostAccess (onDev evtSignal) s)

/-- BAR2_WINDOW (R382). -/
def execBar2Window (v : Nat) (s : State) : Host.Outcome State Fault Refusal := .next (hostAccess (onDev (bar2Window v)) s)

/-- BAR2_READ (R383). -/
def execBar2Read (off len : Nat) (s : State) : Host.Outcome State Fault Refusal := .next (bar2Read off len s)

/-- BAR2_WRITE (R383). -/
def execBar2Write (off : Nat) (data : List Byte) (s : State) : Host.Outcome State Fault Refusal := .next (bar2Write off data s)

/-- TB_NOW_READ (R375). -/
def execTbNowRead (s : State) : Host.Outcome State Fault Refusal :=
  .next (hostAccess (onDev (fun d => setEp (fun e => { e with latchTb := tbNow d, epochAtRead := d.get Reg.tb_TB_EPOCH }) d)) s)

/-- TB_RAW_READ (R375). -/
def execTbRawRead (s : State) : Host.Outcome State Fault Refusal :=
  .next (hostAccess (onDev (fun d => setEp (fun e => { e with latchRaw := d.time.raw }) d)) s)

/-- D3HOT_ENTRY (R384). -/
def execD3hotEntry (s : State) : Host.Outcome State Fault Refusal := .next (onDev d3Enter s)

/-- D0_RETURN (R384). -/
def execD0Return (s : State) : Host.Outcome State Fault Refusal := .next (d0Return s)

/-- HOST_RESET (R385). -/
def execHostReset (kind : Nat) (s : State) : Host.Outcome State Fault Refusal := .next (if s.dev.mode = 0 then s else hostReset kind s)

/-- MSIX_UNMASK (R380). -/
def execMsixUnmask (v : Fin 128) (s : State) : Host.Outcome State Fault Refusal := .next (hostAccess (onDev (msixUnmask v)) s)

/-- ROM_BOOT (R538); a mailbox that waited for firmware is served (R378). -/
def execRomBoot (s : State) : Host.Outcome State Fault Refusal := .next (mbxGo (romBoot s))

/-- BOOT_PUSH_GO (R533). -/
def execBootPushGo (s : State) : Host.Outcome State Fault Refusal := .next (mbxGo (pushGo s))

/-- REGISTER_WRITE (R374, R376). -/
def execRegisterWrite (off width v : Nat) (s : State) : Host.Outcome State Fault Refusal := .next (registerWrite off width v s)

end Sys2Proof.Machine
end

