-- ==== Sys2Proof/Machine/TuradCmds.lean ====
section
/-! DEFINITION. The commands of the dictionary service on its three transports (R424 to R440) and the management target's
transactions (R440, R489 to R491). -/

namespace Sys2Proof.Machine

/-! ## Messages over UDP and the mailbox -/

/-- A message sent on the transport of an identity: over UDP to an address and port, else to the mailbox. -/
def turadSend (tr : Transport) (ip port : Nat) (b : List Byte) (s : State) : State :=
  match tr with
  | .udp => onDev (fun d => datagrams ip 1 1 (emit .turad 0 [ip, port] b d)) s
  | .mailbox => if s.dev.ep.mbxEnable then mbxDrain (s.dev.ep.responses ++ [b]) s else s
  | .twm => s

/-- The service takes a message of one of the TYPEs that `ok` accepts, or one that it cannot take as a whole (R423). The
management target's messages come through its registers. -/
def turadTake (ok : Nat → Bool) (m : TuradMsg) (s : State) : State :=
  let ty := rdLe m.data 1 1
  let whole := match turadHead m.data with
    | some h => (headFault s.dev m.tr m.waiting m.data.length h).isNone && (askOf h).isSome
    | none => false
  if m.tr = .twm || (whole && !(ok ty)) then s
  else
    let ip := if m.tr = .udp then m.ip else 0
    let r := turad m.tr ip m.port m.waiting m.data s
    match r.1 with
    | some b => turadSend m.tr ip m.port b r.2
    | none => r.2

/-- TURAD_READ (R425). -/
def execTuradRead (m : TuradMsg) (s : State) : Host.Outcome State Fault Refusal := .next (turadTake (fun t => t == 1) m s)

/-- TURAD_WRITE (R426). -/
def execTuradWrite (m : TuradMsg) (s : State) : Host.Outcome State Fault Refusal := .next (turadTake (fun t => t == 2) m s)

/-- READ_BLOCK (R428). -/
def execReadBlock (m : TuradMsg) (s : State) : Host.Outcome State Fault Refusal := .next (turadTake (fun t => t == 3) m s)

/-- WRITE_BLOCK (R428). -/
def execWriteBlock (m : TuradMsg) (s : State) : Host.Outcome State Fault Refusal := .next (turadTake (fun t => t == 4) m s)

/-- SUBSCRIBE (R431). -/
def execSubscribe (m : TuradMsg) (s : State) : Host.Outcome State Fault Refusal := .next (turadTake (fun t => t == 5) m s)

/-- UNSUBSCRIBE (R432). -/
def execUnsubscribe (m : TuradMsg) (s : State) : Host.Outcome State Fault Refusal := .next (turadTake (fun t => t == 6) m s)

/-- The message is a READ or WRITE with an item of key `k`. -/
def msgNames (m : TuradMsg) (k : Nat) : Bool :=
  match (turadHead m.data).bind askOf with
  | some (.read l) => l.any (fun i => i.key == k)
  | some (.write l) => l.any (fun i => i.key == k)
  | _ => false

/-- AUTH_CHALLENGE: a READ of AUTH_CHALLENGE (R434). -/
def execAuthChallenge (m : TuradMsg) (s : State) : Host.Outcome State Fault Refusal :=
  .next (if msgNames m Reg.auth_AUTH_CHALLENGE then turadTake (fun t => t == 1) m s else s)

/-- AUTH_RESPONSE: a WRITE of AUTH_RESPONSE (R434). -/
def execAuthResponse (m : TuradMsg) (s : State) : Host.Outcome State Fault Refusal :=
  .next (if msgNames m Reg.auth_AUTH_RESPONSE then turadTake (fun t => t == 2) m s else s)

/-- DICT_WRITE: one write of an entry (R419). -/
def execDictWrite (w : Writer) (key : Nat) (v : Val) (s : State) : Host.Outcome State Fault Refusal :=
  .next (writeSettle (finishWrite s (match w with
    | .client id tr =>
      if key = Reg.auth_AUTH_RESPONSE ∧ tr ≠ .twm then authWrite w { tr := tr, client := id, ip := 0 } 0 0 v s
      else dictWriteAny w key v s
    | .firmware => dictWriteAny w key v s)))

/-- BLOCK_WRITE_TIMEOUT (R428). -/
def execBlockWriteTimeout (n : SessionRef) (s : State) : Host.Outcome State Fault Refusal :=
  .next (onDev (fun d => setSession n (fun x => match x.block with
    | some b => if secs 10 ≤ d.cyclesSince b.raw then { x with block := none } else x
    | none => x) d) s)

/-- SESSION_TIMEOUT (R437). -/
def execSessionTimeout (n : SessionRef) (s : State) : Host.Outcome State Fault Refusal :=
  .next (onDev (fun d => match d.session? n with
    | some x => if secs (d.get Reg.auth_SESSION_TIMEOUT_S) ≤ d.cyclesSince x.raw then closeSession n 2 d else d
    | none => d) s)

/-- AUTH_LOCKOUT_END (R437). -/
def execAuthLockoutEnd (client : Nat) (s : State) : Host.Outcome State Fault Refusal :=
  .next (onDev (fun d => setSrv (fun v => { v with fails := v.fails.map (fun f =>
    if f.client == client && (match f.lockedRaw with | some r => decide (secs 10 ≤ d.cyclesSince r) | none => false) then
      { f with lockedRaw := none } else f) }) d) s)

/-- EVENT_MESSAGE_SEND (R432): an EVENT with the records queued, as many as the transport allows. In the mailbox it waits
while responses wait for room. -/
def eventSend (n : SessionRef) (s : State) : State :=
  match s.dev.session? n with
  | none => s
  | some x =>
    match x.sub with
    | none => s
    | some u =>
      if u.queue.isEmpty || (decide (n.tr = .mailbox) && (!s.dev.ep.mbxEnable || !s.dev.ep.responses.isEmpty || s.dev.ep.d3hot)) then s
      else
        let room := (s.dev.turadLimit n.tr - 24 - (if x.ks.isSome then 16 else 0)) / 32
        let l := u.queue.take room
        let b := turadMsg 7 n.client 0 (u.sent % 2 ^ 32) false x.ks.isSome x.ks
          (leBytes 4 (satU32 u.lost) ++ leBytes 4 l.length ++ (l.map (fun r => r.bytes)).flatten)
        turadSend n.tr n.ip x.port b (onDev (setSession n (fun y => { y with
          sub := some { u with queue := u.queue.drop room, lost := 0, sent := u.sent + 1 } })) s)

/-- EVENT_MESSAGE_SEND (R432). -/
def execEventMessageSend (n : SessionRef) (s : State) : Host.Outcome State Fault Refusal := .next (eventSend n s)

/-! ## The management target (R440, R489 to R491) -/

/-- The target's registers changed. -/
def setTwm (f : TwmTarget → TwmTarget) (d : Dev) : Dev := { d with twm := f d.twm }

/-- BUSY of TW_STATUS. -/
def Dev.twmBusy (d : Dev) : Bool := bit d.twm.status 0 == 1

/-- The message in TW_BUF goes to the service; its response replaces it (Table 17.8). -/
def twmSubmit (s : State) : State :=
  if s.dev.twmBusy then s
  else
    let r := turad .twm 0 0 0 (padTo s.dev.twm.reqLen s.dev.twm.buf) s
    match r.1 with
    | some b => onDev (setTwm (fun x => { x with buf := padTo 128 b, rspLen := b.length, status := 2 + (if rdLe b 1 1 = 8 then 4 else 0) })) r.2
    | none => if r.2.dev.served then r.2 else onDev (setTwm (fun x => { x with status := setBit x.status 0 true })) r.2

/-- RSP_READY and ERROR cleared. -/
def twmClear (d : Dev) : Dev := if d.twmBusy then d else setTwm (fun x => { x with status := 0 }) d

/-- A byte written at the pointer; the pointer advances and wraps. -/
def twmPut (b : Byte) (s : State) : State :=
  let p := s.dev.twm.pointer
  let s1 := onDev (setTwm (fun x => { x with pointer := (p + 1) % 256 })) s
  if p = 1 then (if b = 1 then twmSubmit s1 else if b = 2 then onDev twmClear s1 else s1)
  else if p = 2 then onDev (setTwm (fun x => { x with reqLen := b.toNat })) s1
  else if 0x40 ≤ p ∧ p < 0xC0 ∧ !s1.dev.twmBusy then
    onDev (setTwm (fun x => { x with buf := (padTo 128 x.buf).set (p - 0x40) b })) s1
  else s1

/-- The byte that a read finds at offset `p`. -/
def Dev.twmAt (d : Dev) (p : Nat) : Byte :=
  let x := d.twm
  if p = 0 then BitVec.ofNat 8 x.status
  else if p = 2 then BitVec.ofNat 8 x.reqLen
  else if p = 3 then BitVec.ofNat 8 x.rspLen
  else if p = 4 then BitVec.ofNat 8 (d.get Reg.srv_TWM_ACCESS)
  else if 0x40 ≤ p ∧ p < 0xC0 then x.buf.getD (p - 0x40) 0
  else 0

/-- One part of a transaction: a write of the pointer and data, or a read. A START in the acknowledge slot of its last byte
discards that byte (R490). -/
def twmPart (t : TwmXfer) (s : State) : State :=
  if t.addr ≠ s.dev.get Reg.twm_TWM_ADDR then s
  else
    let s0 := onDev (fun d => setTwm (fun x => { x with lastRaw := some d.time.raw })
      (if t.misplaced then inc32 Reg.twm_TWM_ERRORS d else d)) s
    if t.read then
      let p := s0.dev.twm.pointer
      let b := (List.range t.count).map (fun i => s0.dev.twmAt ((p + i) % 256))
      onDev (fun d => emit .twoWire 8 [p, t.count] b (setTwm (fun x => { x with pointer := (p + t.count) % 256 }) d)) s0
    else
      let l := if t.misplaced then t.data.dropLast else t.data
      match l with
      | [] => s0
      | a :: b => b.foldl (fun u x => twmPut x u) (onDev (setTwm (fun x => { x with pointer := a.toNat })) s0)

/-- The target does not acknowledge: a START wakes it, or comes within 50 µs of the one that did (R491). -/
def twmDeaf (s : State) : Option State :=
  let d := s.dev
  if d.twm.asleep && decide (d.mode = mSTANDBY) then some (onDev twmWake s)
  else match d.twm.wakeRaw with
    | some r => if d.cyclesSince r < 60000 then some (onDev (inc32 Reg.twm_TWM_SLEEP_NACKS) s) else none
    | none => none

/-- TWM_TRANSACTION (R489, R490). -/
def execTwmTransaction (t : List TwmXfer) (s : State) : Host.Outcome State Fault Refusal :=
  .next (if s.dev.mode = 0 then s else match twmDeaf s with
    | some u => u
    | none => t.foldl (fun u x => twmPart x u) s)

/-- TW_CONTROL_SUBMIT (R440). -/
def execTwControlSubmit (s : State) : Host.Outcome State Fault Refusal := .next (twmSubmit s)

/-- TW_CONTROL_CLEAR (R440). -/
def execTwControlClear (s : State) : Host.Outcome State Fault Refusal := .next (onDev twmClear s)

end Sys2Proof.Machine
end

