-- ==== Sys2Proof/Machine/Dispatch.lean ====
section
/-! DEFINITION. The one dispatch of the machine: each command goes to its meaning. -/

namespace Sys2Proof.Machine

def exec (i : Instr) (s : State) : Host.Outcome State Fault Refusal :=
  match i with
  | .eventArbitration => Sys2Proof.Machine.execEventArbitration s
  | .evtSourceLost hi inst => Sys2Proof.Machine.execEvtSourceLost hi inst s
  | .unitEnable w u => Sys2Proof.Machine.execUnitEnable w u s
  | .unitDisable w u => Sys2Proof.Machine.execUnitDisable w u s
  | .unitStartupComplete u => Sys2Proof.Machine.execUnitStartupComplete u s
  | .unitShutdownComplete u => Sys2Proof.Machine.execUnitShutdownComplete u s
  | .modeRequest w v => Sys2Proof.Machine.execModeRequest w v s
  | .modeTransitionComplete => Sys2Proof.Machine.execModeTransitionComplete s
  | .modeTimeout => Sys2Proof.Machine.execModeTimeout s
  | .forcedTransition => Sys2Proof.Machine.execForcedTransition s
  | .recordFlushDone ns status => Sys2Proof.Machine.execRecordFlushDone ns status s
  | .rawSyncSof p k words => Sys2Proof.Machine.execRawSyncSof p k words s
  | .rawSyncSol p k words => Sys2Proof.Machine.execRawSyncSol p k words s
  | .rawSyncEol p k words full => Sys2Proof.Machine.execRawSyncEol p k words full s
  | .rawSyncEof p k words => Sys2Proof.Machine.execRawSyncEof p k words s
  | .stripePacket p blocks full => Sys2Proof.Machine.execStripePacket p blocks full s
  | .stripeAlignStripe p blocks => Sys2Proof.Machine.execStripeAlignStripe p blocks s
  | .frameTrigger p => Sys2Proof.Machine.execFrameTrigger p s
  | .sidebandFrameSent p sb => Sys2Proof.Machine.execSidebandFrameSent p sb s
  | .sbSend w p frame => Sys2Proof.Machine.execSbSend w p frame s
  | .ckFreqChange w p v => Sys2Proof.Machine.execCkFreqChange w p v s
  | .ckRestart p => Sys2Proof.Machine.execCkRestart p s
  | .slip w l => Sys2Proof.Machine.execSlip w l s
  | .dwell w l => Sys2Proof.Machine.execDwell w l s
  | .dwellDone l matched eq => Sys2Proof.Machine.execDwellDone l matched eq s
  | .deskewArm w p => Sys2Proof.Machine.execDeskewArm w p s
  | .deskewLanding l pos => Sys2Proof.Machine.execDeskewLanding l pos s
  | .deskewWindowEnd p => Sys2Proof.Machine.execDeskewWindowEnd p s
  | .laneLockLost p k => Sys2Proof.Machine.execLaneLockLost p k s
  | .portRealigned p => Sys2Proof.Machine.execPortRealigned p s
  | .rxPowerReq w p v => Sys2Proof.Machine.execRxPowerReq w p v s
  | .sbPowerReq w p v => Sys2Proof.Machine.execSbPowerReq w p v s
  | .laneWakeDone p which => Sys2Proof.Machine.execLaneWakeDone p which s
  | .prbsSel w l v => Sys2Proof.Machine.execPrbsSel w l v s
  | .loop w l v => Sys2Proof.Machine.execLoop w l v s
  | .prbsLock l bits => Sys2Proof.Machine.execPrbsLock l bits s
  | .lateRow p => Sys2Proof.Machine.execLateRow p s
  | .statsFinalWrite p => Sys2Proof.Machine.execStatsFinalWrite p s
  | .trigPinEdge tp pin falling => Sys2Proof.Machine.execTrigPinEdge tp pin falling s
  | .trigTimeReached p => Sys2Proof.Machine.execTrigTimeReached p s
  | .trigNow w p => Sys2Proof.Machine.execTrigNow w p s
  | .submit w p rec => Sys2Proof.Machine.execSubmit w p rec s
  | .frameTakeUp => Sys2Proof.Machine.execFrameTakeUp s
  | .backlogPost => Sys2Proof.Machine.execBacklogPost s
  | .bargeTakeHead barge => Sys2Proof.Machine.execBargeTakeHead barge s
  | .stealGrant => Sys2Proof.Machine.execStealGrant s
  | .jobComplete barge energy => Sys2Proof.Machine.execJobComplete barge energy s
  | .weirTick base => Sys2Proof.Machine.execWeirTick base s
  | .deadlineMiss => Sys2Proof.Machine.execDeadlineMiss s
  | .c0Late => Sys2Proof.Machine.execC0Late s
  | .clockReview => Sys2Proof.Machine.execClockReview s
  | .clockRaiseConfirmed c => Sys2Proof.Machine.execClockRaiseConfirmed c s
  | .ceilingCheck avg => Sys2Proof.Machine.execCeilingCheck avg s
  | .fbPhaseDark w => Sys2Proof.Machine.execFbPhaseDark w s
  | .fbPhaseFlat w => Sys2Proof.Machine.execFbPhaseFlat w s
  | .fbPhaseBuild w => Sys2Proof.Machine.execFbPhaseBuild w s
  | .fbPhaseClear w => Sys2Proof.Machine.execFbPhaseClear w s
  | .stagedWrite w key v => Sys2Proof.Machine.execStagedWrite w key v s
  | .commitFrame w v frame => Sys2Proof.Machine.execCommitFrame w v frame s
  | .commitRecord w v id => Sys2Proof.Machine.execCommitRecord w v id s
  | .commitCancel w v => Sys2Proof.Machine.execCommitCancel w v s
  | .viewBankLoaded v => Sys2Proof.Machine.execViewBankLoaded v s
  | .forceI w n => Sys2Proof.Machine.execForceI w n s
  | .amtanPictureOffered n pic => Sys2Proof.Machine.execAmtanPictureOffered n pic s
  | .poolCmdMark w k buf clear set tag => Sys2Proof.Machine.execPoolCmdMark w k buf clear set tag s
  | .poolCmdGenerate w k buf set tag => Sys2Proof.Machine.execPoolCmdGenerate w k buf set tag s
  | .poolCmdResetPool w k => Sys2Proof.Machine.execPoolCmdResetPool w k s
  | .poolCmdAllocate w k geometry base count => Sys2Proof.Machine.execPoolCmdAllocate w k geometry base count s
  | .encInputDelayExpiry n => Sys2Proof.Machine.execEncInputDelayExpiry n s
  | .hevcPictureStart => Sys2Proof.Machine.execHevcPictureStart s
  | .pictureCoded n r => Sys2Proof.Machine.execPictureCoded n r s
  | .hevcAccessUnit n au => Sys2Proof.Machine.execHevcAccessUnit n au s
  | .pictureDecoded n r => Sys2Proof.Machine.execPictureDecoded n r s
  | .decWatchdog n r => Sys2Proof.Machine.execDecWatchdog n r s
  | .hevcOutputPublish n => Sys2Proof.Machine.execHevcOutputPublish n s
  | .outRelease w n buf => Sys2Proof.Machine.execOutRelease w n buf s
  | .outputFrameStart n => Sys2Proof.Machine.execOutputFrameStart n s
  | .finderMsg n bytes framing => Sys2Proof.Machine.execFinderMsg n bytes framing s
  | .finderPresent n present => Sys2Proof.Machine.execFinderPresent n present s
  | .dramReadComplete c r read => Sys2Proof.Machine.execDramReadComplete c r read s
  | .scrubRead c r read => Sys2Proof.Machine.execScrubRead c r read s
  | .dramTrainingComplete results => Sys2Proof.Machine.execDramTrainingComplete results s
  | .retrain w => Sys2Proof.Machine.execRetrain w s
  | .refreshTick c r idle => Sys2Proof.Machine.execRefreshTick c r idle s
  | .drfmIssue c r bank rows => Sys2Proof.Machine.execDrfmIssue c r bank rows s
  | .rfmIssue c r bank => Sys2Proof.Machine.execRfmIssue c r bank s
  | .caParityError c r => Sys2Proof.Machine.execCaParityError c r s
  | .migrateDone c => Sys2Proof.Machine.execMigrateDone c s
  | .magLinkUp p rx => Sys2Proof.Machine.execMagLinkUp p rx s
  | .magRetrain p cause => Sys2Proof.Machine.execMagRetrain p cause s
  | .magRetrainFail p => Sys2Proof.Machine.execMagRetrainFail p s
  | .magPacketDiscard p rx => Sys2Proof.Machine.execMagPacketDiscard p rx s
  | .magDataPacket p rx => Sys2Proof.Machine.execMagDataPacket p rx s
  | .magCompletion p rx => Sys2Proof.Machine.execMagCompletion p rx s
  | .ackReceived p a => Sys2Proof.Machine.execAckReceived p a s
  | .nakReceived p a => Sys2Proof.Machine.execNakReceived p a s
  | .ackTimer p => Sys2Proof.Machine.execAckTimer p s
  | .replayTimeout p => Sys2Proof.Machine.execReplayTimeout p s
  | .laneSleepReceived p mode => Sys2Proof.Machine.execLaneSleepReceived p mode s
  | .tempHoldTimeout p => Sys2Proof.Machine.execTempHoldTimeout p s
  | .magRemoved p => Sys2Proof.Machine.execMagRemoved p s
  | .magInserted p => Sys2Proof.Machine.execMagInserted p s
  | .magPowerUpDone p => Sys2Proof.Machine.execMagPowerUpDone p s
  | .magKey w p key => Sys2Proof.Machine.execMagKey w p key s
  | .magKeyClear w p => Sys2Proof.Machine.execMagKeyClear w p s
  | .magKeyApply p => Sys2Proof.Machine.execMagKeyApply p s
  | .sqTailDb n v => Sys2Proof.Machine.execSqTailDb n v s
  | .cqHeadDb n v => Sys2Proof.Machine.execCqHeadDb n v s
  | .sqFetchDone n entries => Sys2Proof.Machine.execSqFetchDone n entries s
  | .sqEnable w n v => Sys2Proof.Machine.execSqEnable w n v s
  | .cqEnable w n v => Sys2Proof.Machine.execCqEnable w n v s
  | .cmdRead tag segs => Sys2Proof.Machine.execCmdRead tag segs s
  | .cmdWrite tag segs => Sys2Proof.Machine.execCmdWrite tag segs s
  | .cmdFlush tag => Sys2Proof.Machine.execCmdFlush tag s
  | .cmdTrim tag => Sys2Proof.Machine.execCmdTrim tag s
  | .cmdAbort tag => Sys2Proof.Machine.execCmdAbort tag s
  | .cmdIdentify tag segs => Sys2Proof.Machine.execCmdIdentify tag segs s
  | .cmdGetLog tag segs => Sys2Proof.Machine.execCmdGetLog tag segs s
  | .completionPost => Sys2Proof.Machine.execCompletionPost s
  | .psTimer p => Sys2Proof.Machine.execPsTimer p s
  | .psExitDone p => Sys2Proof.Machine.execPsExitDone p s
  | .frameUnitWrite p => Sys2Proof.Machine.execFrameUnitWrite p s
  | .clipRecover w p => Sys2Proof.Machine.execClipRecover w p s
  | .clipFormat w p => Sys2Proof.Machine.execClipFormat w p s
  | .pcieLinkUp speed width => Sys2Proof.Machine.execPcieLinkUp speed width s
  | .devReset v => Sys2Proof.Machine.execDevReset v s
  | .mbxCtrl v => Sys2Proof.Machine.execMbxCtrl v s
  | .mbxReqTail v records => Sys2Proof.Machine.execMbxReqTail v records s
  | .mbxRspHead v => Sys2Proof.Machine.execMbxRspHead v s
  | .evtSize v => Sys2Proof.Machine.execEvtSize v s
  | .evtTail v => Sys2Proof.Machine.execEvtTail v s
  | .evtVectorSignal => Sys2Proof.Machine.execEvtVectorSignal s
  | .bar2Window v => Sys2Proof.Machine.execBar2Window v s
  | .bar2Read off len => Sys2Proof.Machine.execBar2Read off len s
  | .bar2Write off data => Sys2Proof.Machine.execBar2Write off data s
  | .tbNowRead => Sys2Proof.Machine.execTbNowRead s
  | .tbRawRead => Sys2Proof.Machine.execTbRawRead s
  | .d3hotEntry => Sys2Proof.Machine.execD3hotEntry s
  | .d0Return => Sys2Proof.Machine.execD0Return s
  | .hostReset kind => Sys2Proof.Machine.execHostReset kind s
  | .msixUnmask v => Sys2Proof.Machine.execMsixUnmask v s
  | .registerWrite off width v => Sys2Proof.Machine.execRegisterWrite off width v s
  | .tbEpochWrap => Sys2Proof.Machine.execTbEpochWrap s
  | .stageArm w v => Sys2Proof.Machine.execStageArm w v s
  | .stageApply => Sys2Proof.Machine.execStageApply s
  | .tpgArm w n v => Sys2Proof.Machine.execTpgArm w n v s
  | .tpgFire n => Sys2Proof.Machine.execTpgFire n s
  | .tpgPulseEnd n => Sys2Proof.Machine.execTpgPulseEnd n s
  | .tpgInvert w n v => Sys2Proof.Machine.execTpgInvert w n v s
  | .ethFrameReceived p frame => Sys2Proof.Machine.execEthFrameReceived p frame s
  | .ethLink p up => Sys2Proof.Machine.execEthLink p up s
  | .ptpLaunch p launch handed frame => Sys2Proof.Machine.execPtpLaunch p launch handed frame s
  | .masterLost => Sys2Proof.Machine.execMasterLost s
  | .proxySend k => Sys2Proof.Machine.execProxySend k s
  | .turadRead m => Sys2Proof.Machine.execTuradRead m s
  | .turadWrite m => Sys2Proof.Machine.execTuradWrite m s
  | .dictWrite w key v => Sys2Proof.Machine.execDictWrite w key v s
  | .readBlock m => Sys2Proof.Machine.execReadBlock m s
  | .writeBlock m => Sys2Proof.Machine.execWriteBlock m s
  | .blockWriteTimeout r => Sys2Proof.Machine.execBlockWriteTimeout r s
  | .subscribe m => Sys2Proof.Machine.execSubscribe m s
  | .unsubscribe m => Sys2Proof.Machine.execUnsubscribe m s
  | .eventMessageSend r => Sys2Proof.Machine.execEventMessageSend r s
  | .authChallenge m => Sys2Proof.Machine.execAuthChallenge m s
  | .authResponse m => Sys2Proof.Machine.execAuthResponse m s
  | .sessionTimeout r => Sys2Proof.Machine.execSessionTimeout r s
  | .authLockoutEnd client => Sys2Proof.Machine.execAuthLockoutEnd client s
  | .storeSave w => Sys2Proof.Machine.execStoreSave w s
  | .storeSaveComplete fail area => Sys2Proof.Machine.execStoreSaveComplete fail area s
  | .twControlSubmit => Sys2Proof.Machine.execTwControlSubmit s
  | .twControlClear => Sys2Proof.Machine.execTwControlClear s
  | .twmTransaction t => Sys2Proof.Machine.execTwmTransaction t s
  | .twmWake => Sys2Proof.Machine.execTwmWake s
  | .twmSleep => Sys2Proof.Machine.execTwmSleep s
  | .encoderEdge e a b held j => Sys2Proof.Machine.execEncoderEdge e a b held j s
  | .encoderIndex e held => Sys2Proof.Machine.execEncoderIndex e held s
  | .trackingTick e => Sys2Proof.Machine.execTrackingTick e s
  | .scanStart source => Sys2Proof.Machine.execScanStart source s
  | .slotTrigger j => Sys2Proof.Machine.execSlotTrigger j s
  | .patternFetch idx => Sys2Proof.Machine.execPatternFetch idx s
  | .strobeSyncPulse => Sys2Proof.Machine.execStrobeSyncPulse s
  | .twXfer w n blob => Sys2Proof.Machine.execTwXfer w n blob s
  | .twTransactionStart n l => Sys2Proof.Machine.execTwTransactionStart n l s
  | .twRstPulseEnd n l => Sys2Proof.Machine.execTwRstPulseEnd n l s
  | .twTransactionComplete n r => Sys2Proof.Machine.execTwTransactionComplete n r s
  | .busBusyTimeout n => Sys2Proof.Machine.execBusBusyTimeout n s
  | .stretchTimeout n => Sys2Proof.Machine.execStretchTimeout n s
  | .busIdle n => Sys2Proof.Machine.execBusIdle n s
  | .twRstAssert w n v => Sys2Proof.Machine.execTwRstAssert w n v s
  | .housekeepingRound codes zones hot => Sys2Proof.Machine.execHousekeepingRound codes zones hot s
  | .thermalRestartTimer => Sys2Proof.Machine.execThermalRestartTimer s
  | .pwrFail source => Sys2Proof.Machine.execPwrFail source s
  | .pwrRestored mv => Sys2Proof.Machine.execPwrRestored mv s
  | .powerOnReset straps => Sys2Proof.Machine.execPowerOnReset straps s
  | .warmReset cause => Sys2Proof.Machine.execWarmReset cause s
  | .clockFail => Sys2Proof.Machine.execClockFail s
  | .resetRequest w v => Sys2Proof.Machine.execResetRequest w v s
  | .bootWatchdogExpiry => Sys2Proof.Machine.execBootWatchdogExpiry s
  | .runtimeWatchdogExpiry => Sys2Proof.Machine.execRuntimeWatchdogExpiry s
  | .romBoot => Sys2Proof.Machine.execRomBoot s
  | .vengConfirmTimeout reported => Sys2Proof.Machine.execVengConfirmTimeout reported s
  | .bootPushGo => Sys2Proof.Machine.execBootPushGo s
  | .fwUpdate w image => Sys2Proof.Machine.execFwUpdate w image s
  | .fwCommit w => Sys2Proof.Machine.execFwCommit w s
  | .subsystemIds w v => Sys2Proof.Machine.execSubsystemIds w v s
  | .rawSyncAbsent p k words => Sys2Proof.Machine.execRawSyncAbsent p k words s
  | .powerLoss => Sys2Proof.Machine.execPowerLoss s
  | .hostDataTransfer tag ok data => Sys2Proof.Machine.execHostDataTransfer tag ok data s
  | .lastActiveLineSent n => Sys2Proof.Machine.execLastActiveLineSent n s
  | .sleepingTransmitterWake p matched => Sys2Proof.Machine.execSleepingTransmitterWake p matched s
  | .macAgeing mac => Sys2Proof.Machine.execMacAgeing mac s
  | .busConditionSeen n stop => Sys2Proof.Machine.execBusConditionSeen n stop s
  | .sclLowTimeout n => Sys2Proof.Machine.execSclLowTimeout n s

end Sys2Proof.Machine
end

