-- ==== Sys2Proof/Machine/Step.lean ====
section
/-! DEFINITION. One step of the block: the oldest command that waits takes effect; with none waiting, one CLK_FAB cycle of
device time passes (assumption 3). -/

namespace Sys2Proof.Machine

/-- A cycle in which no command is given: TB_RAW and with it device time advance (R390, R393), and the DRAM arbiters grant
(R141, R142). -/
def idle (s : State) : State := onDev (fun d => channelCycle (fabricCycle (cycle d))) s

/-- The command at the front of the queue, run on the state with the rest of the queue. -/
def step (s : State) : Host.Outcome State Fault Refusal :=
  match s.pending with
  | [] => .next (idle s)
  | c :: rest => exec c { s with pending := rest }

/-- The state with a command in front of those that wait. -/
def State.withCommand (s : State) (c : Instr) : State := { s with pending := c :: s.pending }

/-- The state with the command that a word of the table spells in front of those that wait; unchanged where it spells
none. -/
def State.withFetchWord (s : State) (nbits w : Nat) : State :=
  match decodeTableWord nbits w with
  | some c => s.withCommand c
  | none => s

end Sys2Proof.Machine
end

