-- ==== Sys2Proof/Safety.lean ====
section
/-! DEFINITION. What a sound state of the block is, in the terms of the statements: its memories are in canonical form, its
event log is the unbroken run of the latest records, and no command stops the machine. -/

namespace Sys2Proof.Machine

/-- The records of the log carry consecutive sequence numbers from `n` upward (R22). -/
def consecutive : Nat → List LogRecord → Bool
  | _, [] => true
  | n, r :: l => decide (r.seq = n) && consecutive (n + 1) l

/-- The log holds at most its depth of records, the latest ones: the last of them carries the number before the next
(R22, R24). -/
def Arbiter.logSound (a : Arbiter) : Bool :=
  decide (a.ring.length ≤ a.depth) && decide (a.ring.length ≤ a.next) && consecutive (a.next - a.ring.length) a.ring

/-- The two sparse memories are canonical and the log is sound. -/
def State.sound (s : State) : Bool := s.mem.wf && s.hostMem.wf && s.arb.logSound

/-- Nothing of the units waits to be followed up: no end of a settings write to be told, no forced transition, no command in
the recorder's queues or at a link, no take that is open, opens or closes, and no shut-down of a transition held back for one. -/
def Dev.calm (d : Dev) : Bool :=
  d.ends.isEmpty && d.recEnds.isEmpty && d.forced.isEmpty && d.rcq.cmds.isEmpty && d.rcq.fetched.all (fun l => l.isEmpty) &&
    d.rcq.iqs.all (fun l => l.isEmpty) && d.mags.all (fun m => m.link.waiting.isEmpty) && !d.take.opening && !d.take.leaving &&
    d.take.members.isEmpty && !((d.trans.map (fun t => t.held)).getD false)

/-- The state after a write that is accepted: the write recorded, once there is room for its event (R565), its effect, and SUCCESS answered to the writer (R419). -/
def accepted (w : Writer) (k : Nat) (v : Val) (effect : Nat → State → State) (s : State) : State :=
  onDev (fun d => { d with answer := 0 }) (effect s.dev.posts (onDev (recordWrite w k v) (roomToRecord w s)))

/-- The outcome is a next state that meets `P`. -/
def completes (o : Host.Outcome State Fault Refusal) (P : State → Prop) : Prop := ∃ t, o = .next t ∧ P t

end Sys2Proof.Machine
end

