-- ==== Sys2Proof/Certificates/Slice0/Obligations.lean ====
section
/-! DEFINITION. What is claimed of the block. A command that is a write of an entry has its effect where the checks of R419
pass; `accepted` is the state after such a write. A calm state (`Dev.calm`) is one in which no unit has anything left to
follow up, so that a command's own effect is all that happens. -/

open Sys2Proof Sys2Proof.Machine

/-! ## The machine -/

/-- The command at the front of the queue is the one that takes effect, on the state with the rest of the queue. -/
def Obligations.StepRunsFrontCommand : Prop :=
  ∀ (c : Instr) (rest : List Instr) (s : State), s.pending = c :: rest → step s = exec c { s with pending := rest }

/-- With no command waiting, one CLK_FAB cycle passes: TB_RAW advances by 1 and wraps at 2^64 (R390), the DRAM arbiters grant
(R141, R142), and no entry but TB_EPOCH, no event and no memory changes. That a step on an empty queue is a cycle is this
model's choice (assumption 3). -/
def Obligations.IdleStepCountsOneCycle : Prop :=
  ∀ s : State, s.pending = [] → completes (step s) (fun t =>
    t.dev.time.raw = (s.dev.time.raw + 1) % 2 ^ 64 ∧ t.arb = s.arb ∧ t.mem = s.mem ∧ t.poison = s.poison ∧
      t.hostMem = s.hostMem ∧ t.pending = [] ∧ t.dev.sources = s.dev.sources ∧ t.dev.out = s.dev.out ∧
      ∀ k, k ≠ Reg.tb_TB_EPOCH → t.dev.val k = s.dev.val k)

/-- Every command answers a next state: none faults, none is refused, and the commands that wait still wait. -/
def Obligations.EveryCommandCompletes : Prop :=
  ∀ (c : Instr) (s : State), completes (exec c s) (fun t => t.pending = s.pending)

/-- Every step keeps a sound state sound: the pound and host memory stay in canonical form, and the log stays the unbroken
run of the latest records (R22, R24). -/
def Obligations.StepKeepsSoundness : Prop :=
  ∀ s t : State, s.sound = true → step s = .next t → t.sound = true

/-- What reset leaves: a sound state in which the mode is BOOT, no transition is in progress, no command waits, and the log
holds only the record of the reset, whose number is 0 (R33, R22). -/
def Obligations.ResetLeaves : Prop :=
  State.reset.sound = true ∧ State.reset.dev.mode = mBOOT ∧ State.reset.dev.target = 0 ∧ State.reset.pending = [] ∧ State.reset.arb.next = 1 ∧
    State.reset.arb.ring.map (fun r => (r.seq, r.code)) = [(0, 0x0401)] ∧ State.reset.dev.sources = []

/-! ## Events -/

/-- The arbiter numbers an event that waits alone: one above the record before, with the TB of its post, and it leaves its
queue (R22, R23, R24). -/
def Obligations.EventIsNumbered : Prop :=
  ∀ (s : State) (x : Source) (e : Event), s.dev.sources = [x] → x.queue = [e] → x.losing = false →
    x.due = none → isSof e.code = false → e.ref = none → s.dev.ep.evtSize = 0 →
    completes (exec .eventArbitration s) (fun t =>
      t.arb.next = s.arb.next + 1 ∧
      t.arb.ring = (s.arb.ring ++ [LogRecord.mk s.arb.next e.tb e.code e.inst (e.arg0 % 2 ^ 32) (e.arg1 % 2 ^ 32)]).drop
        (s.arb.ring.length + 1 - s.arb.depth) ∧
      t.dev.sources.map (fun y => y.queue) = [[]] ∧ t.mem = s.mem ∧ t.hostMem = s.hostMem ∧ t.dev.regs = s.dev.regs)

/-- The loss of a source that is due is recorded by EV 0x0212: ARG0 the number lost, ARG1 the code of the first (R26). -/
def Obligations.LossIsRecorded : Prop :=
  ∀ (s : State) (hi inst n first : Nat), (s.dev.source hi inst).due = some (n, first) → s.dev.ep.evtSize = 0 →
    completes (exec (.evtSourceLost hi inst) s) (fun t =>
      t.arb.next = s.arb.next + 1 ∧
      t.arb.ring = (s.arb.ring ++ [LogRecord.mk s.arb.next (tbNow s.dev) 0x0212 inst (n % 2 ^ 32) (first % 2 ^ 32)]).drop
        (s.arb.ring.length + 1 - s.arb.depth) ∧
      t.dev.source hi inst = { s.dev.source hi inst with due := none } ∧ t.mem = s.mem ∧ t.dev.regs = s.dev.regs)

/-- A post carries TB of its cycle and enters its source's queue while the queue has room; it changes no entry (R22, R23). -/
def Obligations.PostEntersItsQueue : Prop :=
  ∀ (code inst arg0 arg1 : Nat) (d : Dev), isSof code = false → isKept code = false →
    (d.source (code / 256) inst).losing = false → (d.source (code / 256) inst).queue.length < 16 →
    ((post code inst arg0 arg1 d).source (code / 256) inst).queue =
      (d.source (code / 256) inst).queue ++ [{ code := code, inst := inst, arg0 := arg0 % 2 ^ 32, arg1 := arg1 % 2 ^ 32,
                                               tb := tbNow d, cycle := d.time.raw, id := d.posts, ref := none }] ∧
      (post code inst arg0 arg1 d).regs = d.regs ∧ (post code inst arg0 arg1 d).out = d.out ∧
      ∀ hi i, (hi, i) ≠ (code / 256, inst) → (post code inst arg0 arg1 d).source hi i = d.source hi i

/-! ## Writes of entries -/

/-- A write that a check of R419 refuses answers the code of the first check that fails and changes nothing else. -/
def Obligations.RefusedWriteChangesNothing : Prop :=
  ∀ (w : Writer) (s : State) (code : Nat),
    (∀ v, writeCheck s.dev w Reg.mode_MODE_REQUEST (.num v) = some code →
      exec (.modeRequest w v) s = .next (onDev (fun d => { d with answer := code }) s)) ∧
    (∀ v, writeCheck s.dev w Reg.stg_STAGE_ARM (.num (b2n v)) = some code →
      exec (.stageArm w v) s = .next (onDev (fun d => { d with answer := code }) s)) ∧
    (∀ (n : Fin 16) v, writeCheck s.dev w (Reg.tpg_TPG_ARM n) (.num (b2n v)) = some code →
      exec (.tpgArm w n v) s = .next (onDev (fun d => { d with answer := code }) s)) ∧
    (∀ (p : Fin 4) b, writeCheck s.dev w (Reg.sen_SB_SEND p) (.bytes b) = some code →
      exec (.sbSend w p b) s = .next (onDev (fun d => { d with answer := code }) s)) ∧
    (∀ (p : Fin 4) b, writeCheck s.dev w (Reg.mag_MAG_KEY p) (.bytes b) = some code →
      exec (.magKey w p b) s = .next (onDev (fun d => { d with answer := code }) s)) ∧
    (∀ v, writeCheck s.dev w Reg.clk_RESET_REQUEST (.num v) = some code →
      exec (.resetRequest w v) s = .next (onDev (fun d => { d with answer := code }) s))

/-! ## Units and modes -/

/-- UNIT_ENABLE and UNIT_DISABLE, where the checks of R419 pass: the enable entry takes its new value, and the sequences of
its units begin, are held or are called off (R27, R28, R29); an enable of a view whose geometry R178 refuses is refused. -/
def Obligations.UnitEnablesAreWritten : Prop :=
  ∀ (w : Writer) (u : UnitId) (s : State) (on : Bool),
    writeCheck s.dev w u.entry (.num (s.dev.enableValue u on)) = none →
    (enableRule u.entry (.num (s.dev.enableValue u on)) s.dev = none →
      exec (if on then .unitEnable w u else .unitDisable w u) s =
        .next (magSettle (accepted w u.entry (.num (s.dev.enableValue u on)) (fun ref =>
          onDev (enableEffect u.entry (s.dev.enableValue u on) (if byFirmware w then none else some ref))) s))) ∧
    (∀ c e, enableRule u.entry (.num (s.dev.enableValue u on)) s.dev = some (c, e) →
      exec (if on then .unitEnable w u else .unitDisable w u) s =
        .next (magSettle (onDev (fun d => { e d with answer := c }) s)))

/-- A start-up that is done makes its unit run; a shut-down that is done holds its unit in its reset state, and a deferred
enable then starts it again where the mode lets it run (R28, R29). -/
def Obligations.UnitSequencesComplete : Prop :=
  (∀ (u : UnitId) (s : State), s.dev.calm = true → (s.dev.unit u).phase = .starting → s.dev.started u = true →
    (s.dev.unit u).pendingDisable = false →
    completes (exec (.unitStartupComplete u) s) (fun t =>
      t.dev.unit u = { s.dev.unit u with phase := .running } ∧ (∀ v, v ≠ u → t.dev.unit v = s.dev.unit v) ∧
        t.dev.regs = s.dev.regs ∧ t.arb = s.arb ∧ t.mem = s.mem ∧ t.poison = s.poison ∧ t.hostMem = s.hostMem)) ∧
  (∀ (u : UnitId) (s : State), (s.dev.unit u).phase = .stopping → s.dev.unitQuiet u = true →
    (s.dev.unit u).deferred = none → exec (.unitShutdownComplete u) s = .next (magSettle (unitOff u s))) ∧
  (∀ (u : UnitId) (s : State) (r : Option Nat), (s.dev.unit u).phase = .stopping → s.dev.unitQuiet u = true →
    (s.dev.unit u).deferred = some r → (unitOff u s).dev.mayStart u = true →
    exec (.unitShutdownComplete u) s =
      .next (magSettle (onDev (fun d => unitBegin u (postDeferral u.num u.entry r d)) (unitOff u s))))

/-- A disable that arrives while its unit starts is held as pending; the start-up completes and the shut-down then begins at
once; an enable of a unit that runs, or that starts with no disable pending, has no effect (R29). An enable that arrives while
a disable is pending, or while its unit shuts down, is held as deferred with the event that recorded the first such write, and
a later disable calls it off (R28). -/
def Obligations.EnableIsDeferred : Prop :=
  (∀ (u : UnitId) (ref by' : Option Nat) (d : Dev),
    ((d.unit u).phase = .stopping →
      (unitEnable u ref d).unit u = { d.unit u with deferred := some ((d.unit u).deferred.getD ref) } ∧
        ((unitDisable u by' (unitEnable u ref d)).unit u).deferred = none ∧ (unitEnable u ref d).regs = d.regs) ∧
    ((d.unit u).phase = .running → unitEnable u ref d = d) ∧
    ((d.unit u).phase = .off → unitDisable u by' d = d) ∧
    ((d.unit u).phase = .starting → (d.unit u).pendingDisable = false →
      unitEnable u ref d = d ∧ (unitDisable u by' d).unit u = { d.unit u with pendingDisable := true }) ∧
    ((d.unit u).phase = .starting → (d.unit u).pendingDisable = true →
      (unitEnable u ref d).unit u = { d.unit u with deferred := some ((d.unit u).deferred.getD ref) } ∧
        ((unitDisable u by' (unitEnable u ref d)).unit u).deferred = none) ∧
    ((d.unit u).phase = .starting → (d.unit u).pendingDisable = true → d.started u = true →
      ((unitStarted u d).unit u).phase = .stopping ∧ ((unitStarted u d).unit u).pendingDisable = false ∧
        ((unitStarted u d).unit u).deferred = (d.unit u).deferred)) ∧
  (∀ (u : UnitId) (s : State), exec (.unitStartupComplete u) s = .next (magSettle (onDev (unitStarted u) s)))

/-- A mode request that no rule of R36 refuses is accepted: the transition to the mode asked for begins. -/
def Obligations.ModeRequestIsAccepted : Prop :=
  ∀ (w : Writer) (v : Nat) (s : State), writeCheck s.dev w Reg.mode_MODE_REQUEST (.num v) = none → v < 512 →
    modeRefusal s (v % 256) (bit v 8 == 1) = none →
    exec (.modeRequest w v) s = .next (accepted w Reg.mode_MODE_REQUEST (.num v)
      (fun _ t => modeAccept (v % 256) 1 (bit v 8 == 1) (onDev (setN Reg.mode_MODE_REQUEST v) t)) s)

/-- A mode request that is refused logs EV 0x0202 with the reason, leaves it in MODE_REFUSE_REASON, answers REFUSED, and
leaves the mode and every other entry as they were (R36). -/
def Obligations.ModeRequestIsRefused : Prop :=
  ∀ (w : Writer) (v r : Nat) (s : State), writeCheck s.dev w Reg.mode_MODE_REQUEST (.num v) = none → v < 512 →
    modeRefusal s (v % 256) (bit v 8 == 1) = some r →
    completes (exec (.modeRequest w v) s) (fun t =>
      t = onDev (fun d => { post 0x0202 0xFFFF v r (setN Reg.mode_MODE_REFUSE_REASON r d) with answer := stREFUSED }) s ∧
      t.dev.get Reg.mode_MODE_REFUSE_REASON = r ∧ t.dev.mode = s.dev.mode ∧ t.dev.target = s.dev.target ∧
      (∀ k, k ≠ Reg.mode_MODE_REFUSE_REASON → t.dev.val k = s.dev.val k) ∧ t.arb = s.arb ∧ t.mem = s.mem)

/-- A transition whose conditions are met changes the mode; one that has taken MODE_TIMEOUT_S enters CONFIGURE; a forced exit
that waits starts its transition; a FLUSH's report is posted by firmware (R37 to R40). -/
def Obligations.TransitionsProceed : Prop :=
  (∀ (s : State) (x : Transition), s.dev.trans = some x → s.pendingBits = 0 →
    exec .modeTransitionComplete s = .next (standbyReached (modeChange s.dev.target x.cause x.ref s))) ∧
  (∀ (s : State) (x : Transition), s.dev.trans = some x →
    s.dev.get Reg.mode_MODE_TIMEOUT_S * 1200000000 ≤ s.dev.since x.raw →
    completes (exec .modeTimeout s) (fun t => ∃ d, t = modeChange mCONFIGURE 0x0A x.ref
      { (if s.dev.mode = mRECORD ∨ s.dev.mode = mSCAN then takeCut (onDev (post 0x0204 0xFFFF s.pendingBits s.dev.target) s)
         else onDev (post 0x0204 0xFFFF s.pendingBits s.dev.target) s) with dev := d })) ∧
  (∀ (s : State) (c dst : Nat) (rest : List Nat), s.dev.target = 0 → s.dev.forced = c :: rest →
    forcedTo s.dev.mode c = some dst →
    exec .forcedTransition s = .next (modeAccept dst c false (onDev (fun d => { d with forced := rest }) s))) ∧
  (∀ (ns : Fin 4) (status : Nat) (s : State) (data : List Byte) (l : List (Nat × List Byte)),
    (s.dev.mag ns).fw.results = (status, data) :: l →
    exec (.recordFlushDone ns status) s = .next (magSettle (flushDone ns s))) ∧
  (∀ (p : Nat) (r : Nat × List Byte) (l : List (Nat × List Byte)) (rest : List FwOp) (s : State), (s.dev.mag p).fw.busy = false →
    (s.dev.mag p).fw.script = .report :: rest → (s.dev.mag p).fw.results = r :: l →
    flushDone p s = fwRun p fwFuel (onDev (fun d => post 0x0205 (p + 1) r.1 0 (setFw p (fun x => { x with script := rest }) d)) s))

/-- A mode change sets MODE_CURRENT and MODE_EXIT_CAUSE, clears MODE_TARGET, and logs EV 0x0201 with the old and the new mode;
no other entry changes (R37, R45), unless SERVICE is entered or left, where the lanes' test controls act (R72). -/
def Obligations.ModeChangeIsRecorded : Prop :=
  ∀ (dst cause : Nat) (d : Dev),
    (modeSet dst cause d).mode = dst ∧ (modeSet dst cause d).target = 0 ∧
      (modeSet dst cause d).get Reg.mode_MODE_EXIT_CAUSE = cause ∧ (modeSet dst cause d).trans = none ∧
      (dst ≠ mSERVICE → d.mode ≠ mSERVICE → (modeSet dst cause d).sources = (post 0x0201 0xFFFF (d.mode * 256 + dst) cause d).sources ∧
        ∀ k, k ≠ Reg.mode_MODE_CURRENT → k ≠ Reg.mode_MODE_TARGET → k ≠ Reg.mode_MODE_EXIT_CAUSE →
          (modeSet dst cause d).val k = d.val k)

/-! ## Receive lanes and row assembly -/

/-- The raw sync sequences of a lane that row assembly hears, outside SCAN: SOF begins a frame, or joins the frame in
progress; SOL opens a segment; a segment whose EOL follows its samples adds them to their row; EOF of one lane is noted, and the
last lane's EOF ends the frame; a sequence that is absent ends the frame MALFORMED, and a second in a row loses the lane's
lock (R49 to R51, R67, R80, R81). `words` are the words received: the four of a sequence, or a segment's and those behind it. -/
def Obligations.RawSequencesBuildFrames : Prop :=
  ∀ (p : Fin 4) (k : Fin 64) (words : List Nat) (count : Nat) (s : State), s.dev.stripe p = false → s.dev.hears p k = true →
    s.dev.scanning p = false →
    (syncOf (s.dev.wordWidth p) (s.dev.words p k words) = some (0x8, count) → s.dev.segOf p k = none → s.dev.current p = none →
      (s.dev.intake (s.dev.lead p)).tail = none → s.dev.accepts (s.dev.lead p) = true →
      exec (.rawSyncSof p k words) s = .next (settleState (beginFrame (s.dev.lead p) (s.dev.countBits p)
        (count % 2 ^ s.dev.countBits p) (s.dev.gangLane p k) (onDev (closeSegs p) s)))) ∧
    (∀ a, syncOf (s.dev.wordWidth p) (s.dev.words p k words) = some (0x8, count) → s.dev.calm = true → s.dev.segOf p k = none →
      s.dev.current p = some a → a.sofLanes.contains (s.dev.gangLane p k) = false → a.headField = count % 2 ^ s.dev.countBits p →
      exec (.rawSyncSof p k words) s = .next (onDev (setAsm (s.dev.lead p) a.frame
        (fun b => { b with sofLanes := b.sofLanes ++ [s.dev.gangLane p k] })) s)) ∧
    (∀ a, syncOf (s.dev.wordWidth p) (s.dev.words p k words) = some (0x9, count) → s.dev.calm = true → s.dev.segOf p k = none →
      s.dev.current p = some a → a.sofLanes.contains (s.dev.gangLane p k) = true → a.eofLanes.contains (s.dev.gangLane p k) = false →
      count % 2 ^ s.dev.countBits p = (s.dev.nextSegment p (s.dev.gangLane p k)).1 % 2 ^ s.dev.countBits p →
      (s.dev.nextSegment p (s.dev.gangLane p k)).1 < s.dev.get (Reg.itk_HEIGHT (s.dev.lead p)) →
      exec (.rawSyncSol p k words) s =
        .next (onDev (setLane p k (fun x => { x with seg := some (count % 2 ^ s.dev.countBits p, true) })) s)) ∧
    (∀ (sol : Nat) (parts : List RowPart), s.dev.calm = true → s.dev.segOf p k = some (sol, true) →
      syncOf (s.dev.wordWidth p) ((s.dev.words p k words).drop (s.dev.get (Reg.itk_WIDTH (s.dev.lead p)) / s.dev.segLanes p)) =
        some (0xA, sol) →
      parts = (s.dev.intake (s.dev.lead p)).parts ++
        [{ row := (s.dev.nextSegment p (s.dev.gangLane p k)).1, readout := (s.dev.nextSegment p (s.dev.gangLane p k)).2
           first := (s.dev.gangLane p k % s.dev.segLanes p) * (s.dev.get (Reg.itk_WIDTH (s.dev.lead p)) / s.dev.segLanes p)
           samples := (s.dev.words p k words).take (s.dev.get (Reg.itk_WIDTH (s.dev.lead p)) / s.dev.segLanes p) }] →
      (parts.filter (fun x => x.row == (s.dev.nextSegment p (s.dev.gangLane p k)).1)).length <
        max 1 (s.dev.get (Reg.itk_READOUT_COUNT (s.dev.lead p))) * s.dev.segLanes p →
      exec (.rawSyncEol p k words false) s = .next (onDev (fun d =>
        setItk (s.dev.lead p) (fun y => { y.close (s.dev.gangLane p k) with parts := parts }) (segDone p k 0 d)) s)) ∧
    (∀ (sol : Nat) (full : Bool), s.dev.calm = true → s.dev.segOf p k = some (sol, false) →
      syncOf (s.dev.wordWidth p) ((s.dev.words p k words).drop (s.dev.get (Reg.itk_WIDTH (s.dev.lead p)) / s.dev.segLanes p)) =
        some (0xA, sol) →
      exec (.rawSyncEol p k words full) s = .next (onDev (segDone p k 0) s)) ∧
    (∀ a, syncOf (s.dev.wordWidth p) (s.dev.words p k words) = some (0xB, count) → s.dev.segOf p k = none →
      s.dev.current p = some a → a.sofLanes.contains (s.dev.gangLane p k) = true → a.eofLanes.contains (s.dev.gangLane p k) = false →
      (s.dev.calm = true → a.eofLanes.length + 1 < s.dev.groupLanes p →
        exec (.rawSyncEof p k words) s = .next (onDev (setAsm (s.dev.lead p) a.frame
          (fun _ => { a with eofLanes := a.eofLanes ++ [s.dev.gangLane p k] })) s)) ∧
      (a.eofLanes.length + 1 = s.dev.groupLanes p →
        exec (.rawSyncEof p k words) s =
          .next (settleState (normalEnd p { a with eofLanes := a.eofLanes ++ [s.dev.gangLane p k] }
            (onDev (setAsm (s.dev.lead p) a.frame (fun _ => { a with eofLanes := a.eofLanes ++ [s.dev.gangLane p k] })) s))))) ∧
    (∀ sol, s.dev.segOf p k = some (sol, true) →
      syncOf (s.dev.wordWidth p) ((s.dev.words p k words).drop (s.dev.get (Reg.itk_WIDTH (s.dev.lead p)) / s.dev.segLanes p)) =
        none →
      ((nth (s.dev.port p).lanes k).absent = 0 →
        exec (.rawSyncAbsent p k words) s = .next (settleState (faultEnd p (2 ^ fMALFORMED) (onDev (segDone p k 1) s)))) ∧
      ((nth (s.dev.port p).lanes k).absent = 1 →
        exec (.rawSyncAbsent p k words) s =
          .next (settleState (onDev (lockLost p k 2) (faultEnd p (2 ^ fMALFORMED) (onDev (segDone p k 0) s))))))

/-- Blocks of a stripe-link port enter the reassembly of packets; a packet that TERM ends goes to row assembly, where FS begins a
frame with its FRAME_ID, the samples enter their row, and a failed header CRC ends the frame MALFORMED (R53 to R57, R80). An
ALIGN stripe moves only the state of its lanes; a late row ends its frame LATE (R83); the oldest statistics block that
waits is written with STATE 2, or 3 when rows are missing, and with EV 0x1201 (R124). -/
def Obligations.StripeLinkAndRowsEnd : Prop :=
  (∀ (p : Fin 4) (blocks : List (Nat × Nat)) (full : Bool) (s : State),
    exec (.stripePacket p blocks full) s = .next (settleState (stripeFeed p full blocks s)) ∧
    (s.dev.stripe p = false ∨ (s.dev.port p).rx ≠ 3 → s.dev.calm = true → exec (.stripePacket p blocks full) s = .next s)) ∧
  (∀ (p : Fin 4) (raw : Nat × Nat) (full : Bool) (l : List Byte) (bad : Bool) (b : StripeBlock) (e : Dev) (s : State),
    s.dev.stripe p = true → (s.dev.port p).rx = 3 → s.dev.hears p (s.dev.laneAt p (s.dev.port p).nextLane) = true →
    receiveBlock p (s.dev.laneAt p (s.dev.port p).nextLane) raw (setPort p (fun x => { x with
      nextLane := ((s.dev.port p).nextLane + 1) % max 1 (s.dev.laneCount p) }) s.dev) = (b, e) →
    (e.port p).packet = some (l, bad) →
    (b = .term → exec (.stripePacket p [raw] full) s = .next (settleState (closePacket p l bad full { s with dev := e }))) ∧
    (∀ x, b = .data x → exec (.stripePacket p [raw] full) s =
      .next (settleState (onDev (setPort p (fun y => { y with packet := some (l ++ x, bad) })) { s with dev := e })))) ∧
  (∀ (p : Fin 4) (pkt : StripePacket) (h : Header) (a : Asm) (s : State), s.dev.stripe p = true → s.dev.hears p 0 = true →
    s.dev.scanning p = false → StripeHeader pkt.header = some h → h.fs = true → s.dev.current p = none →
    (s.dev.intake (s.dev.lead p)).tail = none → s.dev.accepts (s.dev.lead p) = true →
    (beginFrame (s.dev.lead p) 16 h.frame (p - s.dev.lead p) (onDev (closeSegs p) s)).dev.current p = some a →
    stripePacket p pkt s = stripeData p h pkt a
      (beginFrame (s.dev.lead p) 16 h.frame (p - s.dev.lead p) (onDev (closeSegs p) s))) ∧
  (∀ (p : Fin 4) (pkt : StripePacket) (a : Asm) (s : State), s.dev.stripe p = true → s.dev.hears p 0 = true →
    s.dev.scanning p = false → StripeHeader pkt.header = none → s.dev.current p = some a →
    stripePacket p pkt s = endFrame (s.dev.lead p) a.frame (2 ^ fMALFORMED) true (onDev (closeSegs p) s)) ∧
  (∀ (p : Fin 4) (blocks : List (Nat × Nat)) (s : State), s.dev.stripe p = true → (s.dev.port p).rx = 3 →
    exec (.stripeAlignStripe p blocks) s = .next (settleState (onDev (stripeAligned p blocks) s))) ∧
  (∀ (p : Fin 4) (blocks : List (Option (Nat × Nat))) (k : Nat) (d : Dev), (d.port p).step = .deskew →
    (List.range (d.laneCount p)).find? (fun j => match blocks.getD j none with
      | some b => b.1 != d.get (Reg.lan_LOGICAL p j)
      | none => false) = some k → alignStripe p blocks d = alignFail p k 4 d) ∧
  (∀ (p : Fin 4) (a : Asm) (s : State), s.dev.mode ≠ mSCAN → s.dev.current p = some a → s.dev.lateNow p a = true →
    exec (.lateRow p) s =
      .next (settleState (endFrame (s.dev.lead p) a.frame (2 ^ fLATE) true (onDev (closeSegs p) s)))) ∧
  (∀ (p : Fin 4) (f : FinalStats) (rest : List FinalStats) (s : State), (s.dev.intake p).stats = f :: rest →
    completes (exec (.statsFinalWrite p) s) (fun t => ∃ b : List Byte, b.length = 4096 ∧
      t = onDev (post 0x1201 p (lo32 f.frame) (if f.rowsValid < (s.dev.pixAs p f.live).height then 3 else 2))
        (poundWrite (s.dev.get (Reg.foc_STATS_BASE p) + 4096 * f.slot) b
          (onDev (setItk p (fun x => { x with stats := rest })) s))))

/-- The burst trigger sources (R103): each fires the triggers of the ports that name it. The first firing after arming fixes
T as TRIG_FRAME, with TRIG_PRE_HELD, and logs EV x04; a later one counts in TRIG_IGNORED alone. Where every frame up to
T + BURST_POST − 1 has already ended, EV x05 follows at once (R102). -/
def Obligations.BurstTriggersFire : Prop :=
  (∀ (p : Fin 4) (tb : Nat) (n : Nat) (d : Dev), d.capturing p = true → (d.intake p).burst.fired = none →
    fireTrigger p tb (some n) d = burstCheck p (post (itkEv p 4) 0xFFFF (lo32 n) (d.get (Reg.itk_TRIG_SOURCE p))
      (setN (Reg.itk_TRIG_FRAME p) n (setN (Reg.itk_TRIG_PRE_HELD p) (d.preHeld p n)
        (setBurst p (fun b => { b with fired := some tb, trigFrame := some n }) d)))) ∧
    (fireTrigger p tb (some n) d).get (Reg.itk_TRIG_FRAME p) = n ∧
    (fireTrigger p tb (some n) d).get (Reg.itk_TRIG_PRE_HELD p) = d.preHeld p n ∧
    (∀ k, k ≠ Reg.itk_TRIG_FRAME p → k ≠ Reg.itk_TRIG_PRE_HELD p → (fireTrigger p tb (some n) d).val k = d.val k)) ∧
  (∀ (p : Fin 4) (tb t0 : Nat) (n : Option Nat) (d : Dev), d.capturing p = true → (d.intake p).burst.fired = some t0 →
    fireTrigger p tb n d = inc32 (Reg.itk_TRIG_IGNORED p) d) ∧
  (∀ (p : Fin 4) (t : Nat) (d : Dev), d.capturing p = true → (d.intake p).burst.trigFrame = some t →
    t + d.get (Reg.itk_BURST_POST p) ≤ (d.intake p).frames → (d.intake p).asms = [] → (d.intake p).burst.complete = false →
    (burstCheck p d).sources = (post (itkEv p 5) 0xFFFF (d.preHeld p t + d.get (Reg.itk_BURST_POST p)) (lo32 t) d).sources) ∧
  (∀ (p : Fin 4) (s : State), s.dev.get (Reg.itk_TRIG_SOURCE p) = 2 → tbDue (s.dev.get (Reg.itk_TRIG_TIME p)) (tbNow s.dev) = true →
    exec (.trigTimeReached p) s =
      .next (settleState (onDev (fireTrigger p (s.dev.get (Reg.itk_TRIG_TIME p)) none) s))) ∧
  (∀ (tp falling : Bool) (pin : Fin 64) (p : Fin 4) (s : State), s.dev.get (Reg.itk_TRIG_SOURCE p) = 1 →
    s.dev.namesPin p tp pin falling = true → (∀ q : Fin 4, q ≠ p → s.dev.get (Reg.itk_TRIG_SOURCE q) ≠ 1) →
    exec (.trigPinEdge tp pin falling) s = .next (settleState (onDev (fireTrigger p (tbNow s.dev) none) s))) ∧
  (∀ (tp falling : Bool) (pin : Fin 64) (s : State), s.dev.calm = true →
    (∀ q : Fin 4, s.dev.get (Reg.itk_TRIG_SOURCE q) ≠ 1 ∨ s.dev.namesPin q tp pin falling = false) →
    exec (.trigPinEdge tp pin falling) s = .next s) ∧
  (∀ (w : Writer) (p : Fin 4) (s : State), writeCheck s.dev w (Reg.itk_TRIG_NOW p) (.num 1) = none →
    s.dev.get (Reg.itk_TRIG_SOURCE p) = 3 →
    exec (.trigNow w p) s = .next (settleState (accepted w (Reg.itk_TRIG_NOW p) (.num 1)
      (fun _ => onDev (fun d => fireTrigger p (tbNow d) none d)) s)))

/-! ## Sensor lanes -/

/-- Sidebands and the reference clock (R59, R61 to R63). A trigger for a port whose idle SB0 can carry frames starts a trigger
frame with the port's SEQ and advances SEQ; one for an SB0 that cannot is lost with EV 0x0804 and the SEQ it would have
carried; the end of a frame starts the next of the queue; SB_SEND offers a frame that a client may send on SB1 and refuses any
other; a change of CK_FREQ holds the running clock low until it restarts at the new frequency. -/
def Obligations.SidebandsAndClockRun : Prop :=
  (∀ (p : Fin 4) (s : State), p.val < s.dev.nPorts → s.dev.sbOpen p 0 = true → (s.dev.sb p 0).sending = none →
    completes (exec (.frameTrigger p) s) (fun t =>
      t = onDev (sbStart p 0 { ty := 1, payload := [], owner := .none, tb := tbNow s.dev }) s ∧
      (∃ minus, t.dev.out = s.dev.out ++ [{
        kind := .sideband, inst := 2 * p.val
        info := 1 :: codeGroups (framed (sbBytes 1 (leBytes 1 ((s.dev.port p).trigSeq % 256)))) minus
        data := sbBytes 1 (leBytes 1 ((s.dev.port p).trigSeq % 256)) }]) ∧
      (p.val < s.dev.sen.length → (t.dev.port p).trigSeq = ((s.dev.port p).trigSeq + 1) % 256 ∧
        (t.dev.port p).trigTb = some (tbNow s.dev)) ∧ t.dev.regs = s.dev.regs)) ∧
  (∀ (p : Fin 4) (s : State), p.val < s.dev.nPorts → s.dev.sbOpen p 0 = false →
    exec (.frameTrigger p) s =
      .next (onDev (post ((8 + p) * 256 + 4) 64 ((s.dev.port p).trigSeq % 256) 0) s)) ∧
  (∀ (p : Fin 4) (i : Fin 2) (f g : SbFrame) (q : List SbFrame) (s : State), (s.dev.sb p i).sending = some f →
    f.owner = .none → (s.dev.sb p i).goal = none → (s.dev.sb p i).queue = g :: q → s.dev.calm = true →
    exec (.sidebandFrameSent p i) s = .next (onDev (fun d => sbStart p i g
      (setSb p i (fun l => { l with queue := q }) (setSb p i (fun l => { l with sending := none }) d))) s)) ∧
  (∀ (w : Writer) (p : Fin 4) (b : List Byte) (s : State), writeCheck s.dev w (Reg.sen_SB_SEND p) (.bytes b) = none →
    (sendable b = true → exec (.sbSend w p b) s = .next (accepted w (Reg.sen_SB_SEND p) (.bytes b)
      (fun _ => onDev (sbOffer p { ty := rdLe b 0 1, payload := b.drop 1, owner := .none, tb := 0 })) s)) ∧
    (sendable b = false → exec (.sbSend w p b) s = .next (onDev (fun d => { d with answer := stRANGE }) s))) ∧
  (∀ (w : Writer) (p : Fin 4) (v : Nat) (s : State), writeCheck s.dev w (Reg.sen_CK_FREQ p) (.num v) = none →
    s.dev.flag (Reg.sen_CK_ENABLE p) = true → s.dev.get (Reg.sen_CK_FREQ p) ≠ v →
    completes (exec (.ckFreqChange w p v) s) (fun t => t.dev.get (Reg.sen_CK_FREQ p) = v ∧
      (p.val < s.dev.sen.length → (t.dev.port p).ckTo = some v) ∧
      t.dev.out = s.dev.out ++ [{ kind := .refclk, inst := p.val, info := [0xFF], data := [] }] ∧ t.mem = s.mem ∧
      ∀ k, k ≠ Reg.sen_CK_FREQ p → k ≠ Reg.store_STORE_DIRTY → t.dev.val k = s.dev.val k)) ∧
  (∀ (p : Fin 4) (v : Nat) (s : State), (s.dev.port p).ckTo = some v →
    exec (.ckRestart p) s =
      .next (onDev (fun d => emit .refclk p [v] [] (setPort p (fun x => { x with ckTo := none }) d)) s))

/-- A slip moves SLIP_POS by one modulo the positions: the word width in raw coding, 66 in the stripe link and at a magazine
(R64, R298). A dwell sets its lane dwelling with MATCH_COUNT all ones; its end puts the count there and, with too few matches
in a search with positions left, slips the lane and dwells again. -/
def Obligations.LanesSlipAndDwell : Prop :=
  (∀ (w : Writer) (p : Fin 4) (k : Fin 64) (s : State), writeCheck s.dev w (Reg.lan_SLIP p k) (.num 1) = none →
    completes (exec (.slip w (.sensor p k)) s) (fun t =>
      t.dev.get (Reg.lan_SLIP_POS p k) = (s.dev.get (Reg.lan_SLIP_POS p k) + 1) % max 1 (s.dev.positions p) ∧
      t.mem = s.mem ∧ t.dev.sen = s.dev.sen ∧
      ∀ j, j ≠ Reg.lan_SLIP_POS p k → j ≠ Reg.store_STORE_DIRTY → t.dev.val j = s.dev.val j)) ∧
  (∀ (w : Writer) (p : Fin 4) (k : Fin 8) (s : State), writeCheck s.dev w (Reg.mln_SLIP p k) (.num 1) = none →
    completes (exec (.slip w (.mag p k)) s) (fun t =>
      t.dev.get (Reg.mln_SLIP_POS p k) = (s.dev.get (Reg.mln_SLIP_POS p k) + 1) % 66 ∧ t.mem = s.mem ∧ t.dev.mags = s.dev.mags ∧
      ∀ j, j ≠ Reg.mln_SLIP_POS p k → j ≠ Reg.store_STORE_DIRTY → t.dev.val j = s.dev.val j)) ∧
  (∀ (w : Writer) (p : Fin 4) (k : Fin 64) (s : State), writeCheck s.dev w (Reg.lan_DWELL p k) (.num 1) = none →
    exec (.dwell w (.sensor p k)) s = .next (accepted w (Reg.lan_DWELL p k) (.num 1)
      (fun _ => onDev (fun d => syncLanes p (startDwell p k d))) s)) ∧
  (∀ (p : Fin 4) (k : Fin 64) (d : Dev), (startDwell p k d).get (Reg.lan_MATCH_COUNT p k) = 0xFFFFFFFF ∧
    (p.val < d.sen.length → k.val < (d.port p).lanes.length → (nth ((startDwell p k d).port p).lanes k).dwelling = true) ∧
    ∀ j, j ≠ Reg.lan_MATCH_COUNT p k → (startDwell p k d).val j = d.val j) ∧
  (∀ (w : Writer) (p : Fin 4) (k : Fin 8) (s : State), writeCheck s.dev w (Reg.mln_DWELL p k) (.num 1) = none →
    completes (exec (.dwell w (.mag p k)) s) (fun t => t.dev.get (Reg.mln_MATCH_COUNT p k) = 0xFFFFFFFF ∧ t.mem = s.mem ∧
      ∀ j, j ≠ Reg.mln_MATCH_COUNT p k → j ≠ Reg.store_STORE_DIRTY → t.dev.val j = s.dev.val j)) ∧
  (∀ (p : Fin 4) (k : Fin 64) (matched : Nat) (eq : Equaliser) (s : State), s.dev.calm = true →
    (nth (s.dev.port p).lanes k).dwelling = true → (s.dev.port p).step = .idle → s.dev.flag (Reg.sen_CONT_ADAPT p) = false →
    exec (.dwellDone (.sensor p k) matched eq) s = .next (onDev (fun d =>
      setN (Reg.lan_MATCH_COUNT p k) (min matched (s.dev.get (Reg.sen_ALIGN_DWELL p)))
        (setLane p k (fun l => { l with dwelling := false }) d)) s)) ∧
  (∀ (p : Fin 4) (k : Fin 64) (matched : Nat) (eq : Equaliser) (s : State), (nth (s.dev.port p).lanes k).dwelling = true →
    (s.dev.port p).step = .search → min matched (s.dev.get (Reg.sen_ALIGN_DWELL p)) < s.dev.get (Reg.sen_ALIGN_MIN p) →
    (nth (s.dev.port p).lanes k).slips + 1 < s.dev.positions p → p.val < s.dev.sen.length →
    k.val < (s.dev.port p).lanes.length →
    completes (exec (.dwellDone (.sensor p k) matched eq) s) (fun t => ∃ d, t = settleState { s with dev := d } ∧
      d.get (Reg.lan_SLIP_POS p k) = (s.dev.get (Reg.lan_SLIP_POS p k) + 1) % max 1 (s.dev.positions p) ∧
      d.get (Reg.lan_MATCH_COUNT p k) = 0xFFFFFFFF ∧ d.get (Reg.lan_EYE_MV p k) = eq.eyeMv % 65536 ∧
      d.get (Reg.lan_CTLE p k) = eq.ctle % 16 ∧
      (nth (d.port p).lanes k).dwelling = true ∧
      (nth (d.port p).lanes k).slips = (nth (s.dev.port p).lanes k).slips + 1)) ∧
  (∀ (p : Fin 4) (k : Fin 8) (matched : Nat) (eq : Equaliser) (s : State), s.dev.calm = true →
    (nth (s.dev.mag p).lanes k).dwelling = true → (s.dev.mag p).step = .idle →
    exec (.dwellDone (.mag p k) matched eq) s = .next (magSettle (onDev (fun d => downCheck p
      (setN (Reg.mln_MATCH_COUNT p k) matched (setMagLane p k (fun l => { l with dwelling := false }) d))) s)))

/-- A deskew measurement (R65, R66): arming it sets every LANDING to 0xFF; the first lane to land opens the window with
LANDING 0, a later lane lands at its position, and a window that closes with a lane that has not landed fails the port's
alignment with reason 2. -/
def Obligations.DeskewIsMeasured : Prop :=
  (∀ (w : Writer) (p : Fin 4) (s : State), writeCheck s.dev w (Reg.sen_DESKEW_ARM p) (.num 1) = none →
    exec (.deskewArm w p) s = .next (accepted w (Reg.sen_DESKEW_ARM p) (.num 1) (fun _ => onDev (armDeskew p)) s)) ∧
  (∀ (p : Fin 4) (d : Dev), p.val < d.sen.length → ((armDeskew p d).port p).armed = true ∧
    ((armDeskew p d).port p).landed = [] ∧ ∀ k : Fin 64, k.val < d.laneCount p → (armDeskew p d).get (Reg.lan_LANDING p k) = 0xFF) ∧
  (∀ (p : Fin 4) (k : Fin 64) (pos : Nat) (s : State), s.dev.calm = true → (s.dev.port p).armed = true →
    (s.dev.port p).landed.any (fun y => y.1 == k.val) = false → k.val < s.dev.laneCount p → p.val < s.dev.sen.length →
    (s.dev.port p).landed.length + 1 < s.dev.laneCount p →
    completes (exec (.deskewLanding (.sensor p k) pos) s) (fun t =>
      t.dev.get (Reg.lan_LANDING p k) = (if (s.dev.port p).windowOpen then pos % 128 else 0) ∧
      (t.dev.port p).windowOpen = true ∧ t.arb = s.arb ∧ t.mem = s.mem ∧
      ∀ j, j ≠ Reg.lan_LANDING p k → t.dev.val j = s.dev.val j)) ∧
  (∀ (p : Fin 4) (k : Fin 8) (pos : Nat) (s : State), s.dev.calm = true → (s.dev.mag p).armed = true →
    (s.dev.mag p).landed.any (fun y => y.1 == k.val) = false → (s.dev.mag p).landed.length + 1 < 8 →
    completes (exec (.deskewLanding (.mag p k) pos) s) (fun t => t = magSettle (onDev (setMag p (fun y => { y with
      windowOpen := true, landed := y.landed ++ [(k.val, if y.windowOpen then pos % 128 else 0)] })) s))) ∧
  (∀ (p : Fin 4) (k : Fin 64) (s : State), (s.dev.port p).windowOpen = true → (s.dev.port p).step = .deskew →
    (List.range (s.dev.laneCount p)).filter (fun j => !((s.dev.port p).landed.any (fun y => y.1 == j))) = [k.val] →
    exec (.deskewWindowEnd (.sensor p)) s = .next (settleState (onDev (fun d =>
      alignFail p k 2 (setPort p (fun x => { x with armed := false, windowOpen := false }) d)) s))) ∧
  (∀ (p : Fin 4) (s : State), (s.dev.mag p).windowOpen = true → s.dev.calm = true → (s.dev.mag p).step ≠ .deskew →
    exec (.deskewWindowEnd (.mag p)) s =
      .next (magSettle (onDev (setMag p (fun x => { x with armed := false, windowOpen := false })) s)))

/-- A watched lane whose clock recovery unlocks sets its LANE_ALIGN to 2 and DEGRADED and logs its event (R67); the restart of a
port that is realigned logs its event with the time out and the next frame's number (R68); a request for a lower power state
takes the receive lanes there at once between frames (R71); a lane that wakes becomes ACTIVE (R70). -/
def Obligations.LanesLoseLockAndSleep : Prop :=
  (∀ (p : Fin 4) (k : Fin 64) (s : State), s.dev.watched p k = true → s.dev.get (Reg.lan_LANE_ALIGN p k) ≠ 2 →
    s.dev.flag (Reg.sen_REALIGN_AUTO p) = false → (s.dev.port p).realignRaw = none → s.dev.calm = true →
    completes (exec (.laneLockLost p k) s) (fun t => t.dev.get (Reg.lan_LANE_ALIGN p k) = 2 ∧
      t.dev.get (Reg.sen_PORT_STATUS p) = setBit (s.dev.get (Reg.sen_PORT_STATUS p)) 1 true ∧ t.dev.sen = s.dev.sen ∧
      t.dev.sources = (post ((8 + p) * 256 + 1) k 1 (s.dev.get (Reg.lan_SLIP_POS p k)) s.dev).sources ∧
      t.arb = s.arb ∧ t.mem = s.mem ∧
      ∀ j, j ≠ Reg.lan_LANE_ALIGN p k → j ≠ Reg.sen_PORT_STATUS p → t.dev.val j = s.dev.val j)) ∧
  (∀ (p : Fin 4) (r : Nat) (s : State), (s.dev.port p).realignRaw = some r → (s.dev.port p).realigning = true →
    s.dev.aligned p = true → (s.dev.port p).step = .idle → ((realigned p s.dev).port p).realignRaw = none →
    exec (.portRealigned p) s = .next (settleState (onDev (fun d =>
      takeInterrupt (d.lead p) (satU32 (usOfCycles (d.time.raw - r))) (d.intake (d.lead p)).frames
        (post ((8 + p) * 256 + 5) 0xFFFF (satU32 (usOfCycles (d.time.raw - r))) (d.intake (d.lead p)).frames
          (sendTrain p 0 (setPort p (fun x => { x with realigning := false, realignRaw := none }) d)))) s))) ∧
  (∀ (w : Writer) (p : Fin 4) (v : Nat) (s : State), writeCheck s.dev w (Reg.sen_RX_POWER_REQ p) (.num v) = none →
    exec (.rxPowerReq w p v) s = .next (settleState (accepted w (Reg.sen_RX_POWER_REQ p) (.num v)
      (fun ref => onDev (fun d => rxFollow p ref (setN (Reg.sen_RX_POWER_REQ p) v d))) s))) ∧
  (∀ (p st : Nat) (ref : Option Nat) (d : Dev), (d.port p).goal = none → st < (d.port p).rx → d.inFrame p = false →
    rxGo p st ref d = rxEnter p st d) ∧
  (∀ (w : Writer) (p : Fin 4) (v : Nat) (s : State), writeCheck s.dev w (Reg.sen_SB_POWER_REQ p) (.num v) = none →
    exec (.sbPowerReq w p v) s = .next (settleState (accepted w (Reg.sen_SB_POWER_REQ p) (.num v)
      (fun _ => onDev (fun d => sbGo p 1 (sbGo p 0 (setN (Reg.sen_SB_POWER_REQ p) v d)))) s))) ∧
  (∀ (p : Fin 4) (i : Fin 2) (s : State), s.dev.calm = true → (s.dev.sb p i).waking = true → (s.dev.sb p i).power < 3 →
    p.val < s.dev.sen.length → i.val < (s.dev.port p).sb.length →
    completes (exec (.laneWakeDone p (.sb i)) s) (fun t =>
      (t.dev.sb p i).power = 3 ∧ (t.dev.sb p i).waking = false ∧ (t.dev.sb p i).queue = (s.dev.sb p i).queue ∧
      t.dev.sources = (post ((8 + p) * 256 + 6) (64 + i) ((s.dev.sb p i).power * 256 + 3) 0 s.dev).sources ∧
      t.dev.regs = s.dev.regs ∧ t.arb = s.arb ∧ t.mem = s.mem)) ∧
  (∀ (p : Fin 4) (s : State), (s.dev.port p).waking = true → (s.dev.port p).rx < 2 →
    exec (.laneWakeDone p .rx) s = .next (settleState (onDev (fun d => startSearch p (rxEnter p 3 d)) s)))

/-- The pattern checkers (R74): PRBS_SEL restarts its lane's checker with its counts at 0 and unlocked; a run of received
bits adds the bits it counts and the errors among them, and PRBS_LOCK shows the lock. LOOP takes its value (R73). -/
def Obligations.PatternCheckersCount : Prop :=
  (∀ (w : Writer) (p : Fin 4) (k : Fin 64) (v : Nat) (s : State), writeCheck s.dev w (Reg.lan_PRBS_SEL p k) (.num v) = none →
    completes (exec (.prbsSel w (.sensor p k) v) s) (fun t => t.dev.get (Reg.lan_PRBS_SEL p k) = v ∧
      t.dev.get (Reg.lan_PRBS_LOCK p k) = 0 ∧ t.dev.get (Reg.lan_PRBS_BITS p k) = 0 ∧ t.dev.get (Reg.lan_PRBS_ERRORS p k) = 0 ∧
      (p.val < s.dev.sen.length → k.val < (s.dev.port p).lanes.length → (nth (t.dev.port p).lanes k).prbs = Prbs.reset) ∧
      t.mem = s.mem)) ∧
  (∀ (w : Writer) (p : Fin 4) (v : Nat) (s : State), writeCheck s.dev w (Reg.sen_SB_PRBS_SEL p) (.num v) = none →
    completes (exec (.prbsSel w (.side p) v) s) (fun t => t.dev.get (Reg.sen_SB_PRBS_SEL p) = v ∧ t.mem = s.mem ∧
      t.dev.sen = s.dev.sen ∧ ∀ j, j ≠ Reg.sen_SB_PRBS_SEL p → j ≠ Reg.store_STORE_DIRTY → t.dev.val j = s.dev.val j)) ∧
  (∀ (w : Writer) (p : Fin 4) (k : Fin 8) (v : Nat) (s : State), writeCheck s.dev w (Reg.mln_PRBS_SEL p k) (.num v) = none →
    completes (exec (.prbsSel w (.mag p k) v) s) (fun t => t.dev.get (Reg.mln_PRBS_SEL p k) = v ∧
      t.dev.get (Reg.mln_PRBS_BITS p k) = 0 ∧ t.dev.get (Reg.mln_PRBS_ERRORS p k) = 0 ∧ t.mem = s.mem)) ∧
  (∀ (p : Fin 4) (k : Fin 64) (bits : List Bool) (s : State), s.dev.get (Reg.lan_PRBS_SEL p k) ≠ 0 →
    s.dev.get (Reg.lan_LANE_POWER p k) = 3 → s.dev.get (Reg.lan_LOOP p k) ≠ 2 → s.dev.flag (Reg.lan_INVERT p k) = false →
    completes (exec (.prbsLock (.sensor p k) bits) s) (fun t => ∀ x : Prbs, ∀ n e : Nat,
      prbsRun (s.dev.pattern p (s.dev.get (Reg.lan_PRBS_SEL p k))).1 (s.dev.pattern p (s.dev.get (Reg.lan_PRBS_SEL p k))).2
        (nth (s.dev.port p).lanes k).prbs bits = (x, n, e) →
      t.dev.get (Reg.lan_PRBS_BITS p k) = (s.dev.get (Reg.lan_PRBS_BITS p k) + n) % 2 ^ 64 ∧
      t.dev.get (Reg.lan_PRBS_ERRORS p k) = min (2 ^ 32 - 1) (s.dev.get (Reg.lan_PRBS_ERRORS p k) + e) ∧
      t.dev.get (Reg.lan_PRBS_LOCK p k) = b2n x.locked ∧ t.arb = s.arb ∧ t.mem = s.mem ∧
      ∀ j, j ≠ Reg.lan_PRBS_BITS p k → j ≠ Reg.lan_PRBS_ERRORS p k → j ≠ Reg.lan_PRBS_LOCK p k → t.dev.val j = s.dev.val j)) ∧
  (∀ (p : Fin 4) (k : Fin 8) (bits : List Bool) (s : State), s.dev.get (Reg.mln_PRBS_SEL p k) % 16 ≠ 0 →
    s.dev.get (Reg.mln_LANE_POWER p k) % 16 = 3 → s.dev.get (Reg.mln_LOOP p k) = 0 → bit (s.dev.get (Reg.mln_INVERT p k)) 0 ≠ 1 →
    completes (exec (.prbsLock (.mag p k) bits) s) (fun t => ∀ x : Prbs, ∀ n e : Nat,
      prbsRun (prbsTaps (s.dev.get (Reg.mln_PRBS_SEL p k) % 16) 66) (fun _ => true) (nth (s.dev.mag p).lanes k).prbs bits = (x, n, e) →
      t.dev.get (Reg.mln_PRBS_BITS p k) = (s.dev.get (Reg.mln_PRBS_BITS p k) + n) % 2 ^ 64 ∧
      t.dev.get (Reg.mln_PRBS_ERRORS p k) = min (2 ^ 32 - 1) (s.dev.get (Reg.mln_PRBS_ERRORS p k) + e) ∧
      t.arb = s.arb ∧ t.mem = s.mem ∧
      ∀ j, j ≠ Reg.mln_PRBS_BITS p k → j ≠ Reg.mln_PRBS_ERRORS p k → t.dev.val j = s.dev.val j)) ∧
  (∀ (w : Writer) (p : Fin 4) (k : Fin 64) (v : Nat) (s : State), writeCheck s.dev w (Reg.lan_LOOP p k) (.num v) = none →
    exec (.loop w (.sensor p k) v) s = .next (accepted w (Reg.lan_LOOP p k) (.num v)
      (fun _ => onDev (fun d => syncLanes p (setN (Reg.lan_LOOP p k) v d))) s)) ∧
  (∀ (w : Writer) (p : Fin 4) (k : Fin 8) (v : Nat) (s : State), writeCheck s.dev w (Reg.mln_LOOP p k) (.num v) = none →
    completes (exec (.loop w (.mag p k) v) s) (fun t => t.dev.get (Reg.mln_LOOP p k) = v ∧ t.mem = s.mem ∧
      ∀ j, j ≠ Reg.mln_LOOP p k → j ≠ Reg.store_STORE_DIRTY → t.dev.val j = s.dev.val j))

/-! ## Settings, jobs and the weir -/

/-- A write of SUBMIT whose reserved bits are 0 (R112): with no reason to reject it the record is accepted; with a reason
EV 0x1005 is logged with the record's ID and the reason, REFUSED is answered, and nothing else changes; with reserved bits set
it is refused RANGE. -/
def Obligations.SubmissionsAreDecided : Prop :=
  ∀ (w : Writer) (p : Fin 4) (b : List Byte) (s : State), writeCheck s.dev w (Reg.seq_SUBMIT p) (.bytes b) = none →
    (rdLe b 5 1 / 2 ≠ 0 → exec (.submit w p b) s = .next (onDev (fun d => { d with answer := stRANGE }) s)) ∧
    (rdLe b 5 1 / 2 = 0 → rdLe b 6 2 = 0 →
    (submitReason p b s.dev = none →
      exec (.submit w p b) s = .next (accepted w (Reg.seq_SUBMIT p) (.bytes b) (fun _ => onDev (acceptRecord p b)) s)) ∧
    (∀ r, submitReason p b s.dev = some r →
      exec (.submit w p b) s =
        .next (onDev (fun d => { post 0x1005 p (rdLe b 0 4) r d with answer := stREFUSED }) s)) ∧
    (p.val < s.dev.seqr.length →
      (acceptRecord p b s.dev).get (Reg.seq_PENDING p) = (s.dev.seq p).recs.length + 1 ∧
      ((acceptRecord p b s.dev).seq p).recs.length = (s.dev.seq p).recs.length + 1 ∧
      ∀ k, k ≠ Reg.seq_PENDING p → (acceptRecord p b s.dev).val k = s.dev.val k))

/-- An idle barge takes the head of its basin when the weir admits it: the job runs on it, leaves the basin, and its energy
leaves the bucket (R139, R146); a C1 to C3 job that the weir does not admit stays, and the tick counts as refused. A steal
that is admitted moves the arbiter on and counts in STEALS (R140). -/
def Obligations.JobsAreDispatched : Prop :=
  (∀ (b : Fin 64) (j : Job) (s : State), s.dev.bargeIdle b = true → headOf (s.dev.basin (b / 8)) = some j →
    s.dev.admits j = true → b.val < s.dev.brg.running.length → b.val / 8 < s.dev.brg.basins.length →
    completes (exec (.bargeTakeHead b) s) (fun t => t.dev.brg.level = s.dev.brg.level - j.energy ∧
      t.dev.brg.running.getD b none = some j ∧ t.dev.basin (b / 8) = (s.dev.basin (b / 8)).erase j ∧
      t.dev.regs = s.dev.regs ∧ t.dev.sources = s.dev.sources ∧ t.arb = s.arb ∧ t.mem = s.mem)) ∧
  (∀ (b : Fin 64) (j : Job) (s : State), s.dev.bargeIdle b = true → headOf (s.dev.basin (b / 8)) = some j →
    s.dev.admits j = false → j.cls ≠ 0 →
    exec (.bargeTakeHead b) s = .next (onDev (setBrg (fun x => { x with refused := true })) s)) ∧
  (∀ (b c : Nat) (j : Job) (s : State), s.dev.stealer = some b → s.dev.victim = some (c, j) → s.dev.admits j = true →
    completes (exec .stealGrant s) (fun t => t.dev.brg.rr = b ∧ t.dev.brg.level = s.dev.brg.level - j.energy ∧
      t.dev.get Reg.job_STEALS = (s.dev.get Reg.job_STEALS + 1) % 2 ^ 64 ∧
      (∀ k, k ≠ Reg.job_STEALS → t.dev.val k = s.dev.val k) ∧ t.arb = s.arb ∧ t.mem = s.mem))

/-- Frames are taken up in their order, the backlog is posted, and a job that completes returns the energy it did not use,
counts its work's jobs down in its counter, and frees its barge (R133, R135, R136, R145). -/
def Obligations.JobsComeAndGo : Prop :=
  (∀ (info : FrameInfo) (s : State), s.nextFrame = some info → exec .frameTakeUp s = .next (takeUpFrame info s)) ∧
  (∀ s : State, completes (exec .backlogPost s) (fun t =>
    t.dev.get Reg.job_BACKLOG = t.dev.brg.backlog.length ∧ (∀ k, k ≠ Reg.job_BACKLOG → t.dev.val k = s.dev.val k) ∧
      t.dev.brg.running = s.dev.brg.running ∧ t.dev.brg.level = s.dev.brg.level ∧ t.arb = s.arb ∧ t.mem = s.mem)) ∧
  (∀ (b : Fin 64) (e : Nat) (j : Job) (s : State), s.dev.brg.running.getD b none = some j → s.dev.gated (b / 8) = false →
    s.dev.work? j.work = none →
    completes (exec (.jobComplete b e) s) (fun t =>
      t.dev.brg.level = max (-(s.dev.weirDepth)) (s.dev.brg.level + j.energy - e) ∧
      t.dev.brg.running = s.dev.brg.running.set b none ∧ t.dev.brg.bargeTick = s.dev.brg.bargeTick + e ∧
      t.dev.regs = s.dev.regs ∧ t.arb = s.arb ∧ t.mem = s.mem)) ∧
  (∀ (b : Fin 64) (e : Nat) (j : Job) (w0 w1 : Work) (s s1 s2 : State), s.dev.brg.running.getD b none = some j →
    s.dev.gated (b / 8) = false → s1 = onDev (fun d => fabricEnd b (creditJob b e j (slotRun j (· - 1) d))) s →
    s1.dev.work? j.work = some w0 → runTile w0 j.tile s1 = (w1, false, s2) → 1 < w0.left →
    exec (.jobComplete b e) s = .next (poundWrite w1.counter (leBytes 4 (w0.left - 1))
      (onDev (setWork w1.id (fun _ => { w1 with left := w0.left - 1 })) s2)))

/-- The weir (R145, R149 to R152): a tick refills the bucket within DEPTH of either side; a work past its deadline is
discarded; late C0 jobs are logged once a frame; a cluster's clock is raised only to a goal its confirmed rail suits; and an
average above the ceiling stops the clock of the highest live cluster that runs, with EV 0x1431. -/
def Obligations.WeirMetersPower : Prop :=
  (∀ (base : Nat) (s : State), completes (exec (.weirTick base) s) (fun t =>
    t.dev.brg.level = max (-(s.dev.weirDepth)) (min s.dev.weirDepth (s.dev.brg.level +
      ratFloor (f32Rat (s.dev.get Reg.weir_WEIR_BUDGET_W) * 2560 * s.dev.brg.headroom) - base)) ∧
    t.dev.brg.ticks = s.dev.brg.ticks + 1 ∧ t.dev.brg.refused = false ∧ t.dev.brg.bargeTick = 0 ∧
    t.dev.brg.basins = s.dev.brg.basins ∧ t.dev.brg.running = s.dev.brg.running ∧ t.arb = s.arb ∧ t.mem = s.mem ∧
    ∀ k, k ≠ Reg.weir_WEIR_LEVEL_J → k ≠ Reg.weir_BASE_POWER_W → k ≠ Reg.weir_BARGE_POWER_W → t.dev.val k = s.dev.val k)) ∧
  (∀ (w : Work) (s : State), s.dev.missed = some w → (discardWork true w s).dev.missed = none →
    exec .deadlineMiss s = .next (discardWork true w s)) ∧
  (∀ (w : Work) (s : State), s.dev.brg.works = [w] → w.cls = 0 → w.late = false →
    (s.dev.waitingJobs w.id).any (fun j => tbDue j.deadline (tbNow s.dev)) = true →
    exec .c0Late s = .next (onDev (fun d => post 0x1421 (portInst w.port) (lo32 w.frame) (d.waitingJobs w.id).length
      (setWork w.id (fun x => { x with late := true }) d)) s)) ∧
  (∀ s : State, s.dev.flag Reg.weir_CLOCK_AUTO = false →
    exec .clockReview s = .next (onDev (setBrg (fun x => { x with
      ticks := 0, refusedTicks := 0, high := decide (s.dev.weirDepth < 2 * x.level) })) s)) ∧
  (∀ (c : Fin 8) (s : State), s.dev.boot.vengRaw = none → s.dev.brg.goal.getD c 0 < s.dev.clockStep c →
    stepMv (s.dev.brg.goal.getD c 0) ≤ s.dev.get Reg.clk_VENG_MV →
    exec (.clockRaiseConfirmed c) s = .next (onDev (clockSet c (s.dev.brg.goal.getD c 0)) s)) ∧
  (∀ (avg c : Nat) (s : State), (110000 : Rat) < ((avg : Int) : Rat) →
    (s.dev.liveClusters.filter (fun i => !(s.dev.gated i))).getLast? = some c →
    completes (exec (.ceilingCheck avg) s) (fun t =>
      t.dev.get Reg.weir_CEILING_GATED = setBit (s.dev.get Reg.weir_CEILING_GATED) c true ∧
      t.dev.sources = (post 0x1431 c 1 avg s.dev).sources ∧ t.dev.brg.calm = 0 ∧ t.arb = s.arb ∧ t.mem = s.mem ∧
      ∀ k, k ≠ Reg.weir_CEILING_GATED → t.dev.val k = s.dev.val k))

/-- FB_PHASE in CALIBRATE (R158, R159): DARK and FLAT start their phase for FB_FRAMES frames, or for as many as the
accumulator still holds; BUILD posts the jobs of pass 1; CLEAR zeroes both accumulators and both counts. -/
def Obligations.FlatBuildPhasesStart : Prop :=
  ∀ (w : Writer) (s : State), s.dev.fb.phase = 0 → s.dev.mode = mCALIBRATE →
    s.dev.get (Reg.itk_FLAT_MODE (s.dev.get Reg.fb_FB_PORT)) = 0 →
    s.dev.get (Reg.itk_OUT_FORMAT (s.dev.get Reg.fb_FB_PORT)) = 1 ∨ s.dev.get (Reg.itk_OUT_FORMAT (s.dev.get Reg.fb_FB_PORT)) = 2 →
    (writeCheck s.dev w Reg.fb_FB_PHASE (.num 1) = none → 0 < s.dev.get Reg.fb_FB_FRAMES → s.dev.get Reg.fb_FB_DARK_FRAMES < 256 →
      completes (exec (.fbPhaseDark w) s) (fun t => t.dev.get Reg.fb_FB_PHASE = 1 ∧ t.dev.fb.phase = 1 ∧
        t.dev.fb.left = min (s.dev.get Reg.fb_FB_FRAMES) (256 - s.dev.get Reg.fb_FB_DARK_FRAMES) ∧ t.mem = s.mem ∧
        ∀ k, k ≠ Reg.fb_FB_PHASE → k ≠ Reg.store_STORE_DIRTY → t.dev.val k = s.dev.val k)) ∧
    (writeCheck s.dev w Reg.fb_FB_PHASE (.num 2) = none → 0 < s.dev.get Reg.fb_FB_FRAMES → s.dev.get Reg.fb_FB_FLAT_FRAMES < 256 →
      completes (exec (.fbPhaseFlat w) s) (fun t => t.dev.get Reg.fb_FB_PHASE = 2 ∧ t.dev.fb.phase = 2 ∧
        t.dev.fb.left = min (s.dev.get Reg.fb_FB_FRAMES) (256 - s.dev.get Reg.fb_FB_FLAT_FRAMES) ∧ t.mem = s.mem ∧
        ∀ k, k ≠ Reg.fb_FB_PHASE → k ≠ Reg.store_STORE_DIRTY → t.dev.val k = s.dev.val k)) ∧
    (writeCheck s.dev w Reg.fb_FB_PHASE (.num 3) = none → 0 < s.dev.get Reg.fb_FB_DARK_FRAMES →
      0 < s.dev.get Reg.fb_FB_FLAT_FRAMES →
      exec (.fbPhaseBuild w) s = .next (accepted w Reg.fb_FB_PHASE (.num 3) (fun _ => fbBuild) s)) ∧
    (writeCheck s.dev w Reg.fb_FB_PHASE (.num 4) = none →
      completes (exec (.fbPhaseClear w) s) (fun t => t = accepted w Reg.fb_FB_PHASE (.num 4) (fun _ => fbClear) s ∧
        t.dev.get Reg.fb_FB_DARK_FRAMES = 0 ∧ t.dev.get Reg.fb_FB_FLAT_FRAMES = 0 ∧ t.dev.get Reg.fb_FB_PHASE = 0))

/-! ## Views, pools and pictures -/

/-- A view's staged entries are written at once (R182); a commit closes the staging copy and waits with its aim on the spare
bank, is refused while another is pending, and is withdrawn by COMMIT_CANCEL; the bank loaded holds the staging copy (R183). -/
def Obligations.ViewCommitsWait : Prop :=
  (∀ (w : Writer) (v : Fin 4) (value : Nat) (s : State),
    writeCheck s.dev w (Reg.view_UNPACK_SHIFT v) (.num value) = none → (s.dev.view v).closed = false →
    completes (exec (.stagedWrite w (Reg.view_UNPACK_SHIFT v) (.num value)) s) (fun t =>
      t.dev.get (Reg.view_UNPACK_SHIFT v) = value ∧ t.dev.views = s.dev.views ∧ t.mem = s.mem ∧
      ∀ k, k ≠ Reg.view_UNPACK_SHIFT v → k ≠ Reg.store_STORE_DIRTY → t.dev.val k = s.dev.val k)) ∧
  (∀ (w : Writer) (v : Fin 4) (f : Nat) (s : State), writeCheck s.dev w (Reg.view_COMMIT_FRAME v) (.num f) = none →
    (s.dev.view v).commit = none → s.dev.bankUsed v (s.dev.view v).spare = false →
    exec (.commitFrame w v f) s =
      .next (accepted w (Reg.view_COMMIT_FRAME v) (.num f) (fun _ => onDev (commitSet v false f)) s)) ∧
  (∀ (w : Writer) (v : Fin 4) (id : Nat) (s : State), writeCheck s.dev w (Reg.view_COMMIT_RECORD v) (.num id) = none →
    s.dev.get (Reg.view_VIEW_SOURCE v) < 4 →
    (s.dev.seq (s.dev.get (Reg.view_VIEW_SOURCE v))).recs.any (fun r => r.id == id) = true →
    (s.dev.view v).commit = none → s.dev.bankUsed v (s.dev.view v).spare = false →
    exec (.commitRecord w v id) s =
      .next (accepted w (Reg.view_COMMIT_RECORD v) (.num id) (fun _ => onDev (commitSet v true id)) s)) ∧
  (∀ (v : Fin 4) (r : Bool) (n : Nat) (d : Dev), v.val < d.views.length →
    ((commitSet v r n d).view v).closed = true ∧ (commitSet v r n d).regs = d.regs ∧
      ∃ m, ((commitSet v r n d).view v).commit =
        some { byRecord := r, value := n, bank := (d.view v).spare, loaded := false, missed := m }) ∧
  (∀ (w : Writer) (v : Fin 4) (s : State), writeCheck s.dev w (Reg.view_COMMIT_CANCEL v) (.num 1) = none →
    (s.dev.view v).commit.isSome = true → v.val < s.dev.views.length →
    completes (exec (.commitCancel w v) s) (fun t => t.mem = s.mem ∧ t = accepted w (Reg.view_COMMIT_CANCEL v) (.num 1)
      (fun _ => onDev (fun d => viewSweep v (post (viewEv v 2) 0xFFFF 0 0 (setView v (fun y => { y with commit := none }) d)))) s)) ∧
  (∀ (v : Fin 4) (c : Commit) (s : State), (s.dev.view v).commit = some c → c.loaded = false →
    exec (.viewBankLoaded v) s = .next (onDev (fun d => setView v (fun y =>
      { y with banks := y.banks.set c.bank (d.staging v), commit := some { c with loaded := true } }) d) s))

/-- A pool command that meets no rule of R225 is applied in full: MARK sets and clears marks, GENERATE fills its buffer grey
and marks it, RESET_POOL clears the marks, ALLOCATE makes fresh buffers; POOL_CMD_STATUS reads 0 (R224). -/
def Obligations.PoolCommandsApply : Prop :=
  (∀ (w : Writer) (k : Fin 8) (buf clear set tag : Fin 256) (s : State),
    writeCheck s.dev w Reg.plg_POOL_CMD (.bytes (poolBytes 1 k buf set clear tag 0)) = none → poolCmdRule w s = none →
    exec (.poolCmdMark w k buf clear set tag) s = .next (accepted w Reg.plg_POOL_CMD (.bytes (poolBytes 1 k buf set clear tag 0))
      (fun _ => poolCmd (PoolCmd.read (poolBytes 1 k buf set clear tag 0))) s)) ∧
  (∀ (k : Fin 8) (buf clear set tag : Fin 256) (b : PoolBuf) (s : State), s.dev.served = true →
    poolRule s.dev (PoolCmd.read (poolBytes 1 k buf set clear tag 0)) = none → (s.dev.pool k).bufs[buf.val]? = some b →
    k.val < s.dev.pools.length →
    completes (exec (.poolCmdMark .firmware k buf clear set tag) s) (fun t => t.dev.get Reg.plg_POOL_CMD_STATUS = 0 ∧
      (∃ x, (t.dev.pool k).bufs[buf.val]? = some x ∧ x.pins = b.pins ∧ x.tag = (if set.val = 0 then b.tag else tag)) ∧
      t.arb = s.arb ∧ t.mem = s.mem ∧
      ∀ j, j ≠ Reg.plg_POOL_CMD_STATUS → j ≠ Reg.store_STORE_DIRTY → t.dev.val j = s.dev.val j)) ∧
  (∀ (w : Writer) (k : Fin 8) (buf set tag : Fin 256) (s : State),
    writeCheck s.dev w Reg.plg_POOL_CMD (.bytes (poolBytes 2 k buf set 0 tag 0)) = none → poolCmdRule w s = none →
    exec (.poolCmdGenerate w k buf set tag) s = .next (accepted w Reg.plg_POOL_CMD
      (.bytes (poolBytes 2 k buf set 0 tag 0)) (fun _ => poolCmd (PoolCmd.read (poolBytes 2 k buf set 0 tag 0))) s)) ∧
  (∀ (w : Writer) (k : Fin 8) (s : State),
    writeCheck s.dev w Reg.plg_POOL_CMD (.bytes (poolBytes 3 k 0 0 0 0 0)) = none → poolCmdRule w s = none →
    exec (.poolCmdResetPool w k) s = .next (accepted w Reg.plg_POOL_CMD (.bytes (poolBytes 3 k 0 0 0 0 0))
      (fun _ => poolCmd (PoolCmd.read (poolBytes 3 k 0 0 0 0 0))) s)) ∧
  (∀ (k : Fin 8) (s : State), s.dev.served = true → (s.dev.pool k).bufs ≠ [] → (s.dev.pool k).bufs.any (fun b => decide (0 < b.pins)) = false →
    k.val < s.dev.pools.length →
    completes (exec (.poolCmdResetPool .firmware k) s) (fun t => t.dev.get Reg.plg_POOL_CMD_STATUS = 0 ∧
      (t.dev.pool k).bufs = (s.dev.pool k).bufs.map (fun b => ({ b with marks := 0 }).norm) ∧ t.mem = s.mem)) ∧
  (∀ (k : Fin 8) (g base : Nat) (n : Fin 65) (s : State), s.dev.served = true → 1 ≤ n.val → s.dev.mayAllocate = true → k.val < s.dev.pools.length →
    completes (exec (.poolCmdAllocate .firmware k g base n) s) (fun t => t.dev.get Reg.plg_POOL_CMD_STATUS = 0 ∧
      (t.dev.pool k).bufs = List.replicate n PoolBuf.fresh ∧ (t.dev.pool k).base = base ∧ t.mem = s.mem))

/-- FORCE_I makes the next picture an I picture (R204); a picture offered to a decode stream in PLAYBACK joins those that
wait (R213); the encoder's input delay that expires on a view with nothing new repeats: EV 0x1E01, REPEATS, and a stall when
there is no buffer (R230). -/
def Obligations.StreamsTakeInputs : Prop :=
  (∀ (w : Writer) (k : Fin 8) (s : State), writeCheck s.dev w (Reg.amt_FORCE_I k) (.num 1) = none → k.val < s.dev.amt.length →
    completes (exec (.forceI w k) s) (fun t => (t.dev.amts k).force = true ∧ t.mem = s.mem ∧
      ∀ j, j ≠ Reg.store_STORE_DIRTY → t.dev.val j = s.dev.val j)) ∧
  (∀ (k : Fin 8) (pic : List Byte) (s : State), s.dev.get (Reg.amt_STREAM_MODE k) = 2 → s.dev.mode = mPLAYBACK →
    exec (.amtanPictureOffered k pic) s =
      .next (offerAll k (onDev (setAmt k (fun a => { a with offers := a.offers ++ [pic] })) s))) ∧
  (∀ (k : Fin 8) (x : EncWait) (t : State), t.dev.encRuns k = true → (t.dev.view (t.dev.get (Reg.hev_VIEW k))).latest = none →
    (t.dev.hev k).awaits.find? (fun x => tbDue ((x.eofTb + t.dev.get (Reg.hev_INPUT_DELAY_NS k) * 65536) % 2 ^ 64) (tbNow t.dev)) =
      some x →
    completes (exec (.encInputDelayExpiry k) t) (fun u =>
      u.dev.get (Reg.hev_REPEATS k) = (t.dev.get (Reg.hev_REPEATS k) + 1) % 2 ^ 64 ∧
      u.dev.get (Reg.hev_STALLS k) = (t.dev.get (Reg.hev_STALLS k) + 1) % 2 ^ 64 ∧ u.arb = t.arb ∧ u.mem = t.mem ∧
      (∀ j, j ≠ Reg.hev_REPEATS k → j ≠ Reg.hev_STALLS k → u.dev.val j = t.dev.val j)))

/-- The HEVC engine (R228, R233, R241 to R246): idle it starts the first picture queued; a picture coded frees it; an access
unit offered to a decode stream that runs joins those that wait; a picture decoded, or cut off by the watchdog with EV 0x1E06,
ends with its CTUs written; a publication with nothing decoded repeats the stream's views; and a release clears the host's
hold on its output buffer. -/
def Obligations.HevcEngineWorks : Prop :=
  (∀ (t : PicTask) (x : AuPicture) (rest : List PicTask) (s : State), s.dev.engine = none → s.dev.hevcQ = t :: rest →
    t.au = some x → exec .hevcPictureStart s = .next (decStart t x rest s)) ∧
  (∀ (t : PicTask) (rest : List PicTask) (s : State), s.dev.engine = none → s.dev.hevcQ = t :: rest →
    t.au = none → exec .hevcPictureStart s = .next (onDev (encIssue t.s) (encStart t rest s))) ∧
  (∀ (k : Fin 8) (r : EncResult) (run : PicRun) (s : State), s.dev.engine = some run → run.task.s = k.val →
    run.task.au = none → completes (exec (.pictureCoded k r) s) (fun t => t.dev.engine = none ∧ t.arb = s.arb ∧
      t.hostMem = s.hostMem)) ∧
  (∀ (k : Fin 8) (au : AccessUnit) (s : State), s.dev.get (Reg.hev_HEVC_MODE k) = 2 → s.dev.runs (.hevc k) = true →
    (s.dev.hev k).busy = true → k.val < s.dev.hevc.length →
    exec (.hevcAccessUnit k au) s = .next (onDev (setHev k (fun h => { h with aus := h.aus ++ [au] })) s)) ∧
  (∀ (k : Fin 8) (r : DecResult) (run : PicRun) (x : AuPicture) (s : State), s.dev.engine = some run → run.task.s = k.val →
    run.task.au = some x → exec (.pictureDecoded k r) s = .next (decDone k run r s) ∧
    (s.dev.watchdog k x ≤ s.dev.time.raw - run.began → exec (.decWatchdog k r) s = .next (decDone k run r (onDev
      (post 0x1E06 k run.task.poc (r.ctus.filter (fun c => c.samples.isSome)).length) s)))) ∧
  (∀ (k : Fin 8) (s : State), s.dev.get (Reg.hev_HEVC_MODE k) = 2 → s.dev.runs (.hevc k) = true → (s.dev.hev k).outQ = [] →
    exec (.hevcOutputPublish k) s =
      .next (onDev (fun d => (d.viewsOf (0x20 + k)).foldl (fun e v => viewRepeat v e)
        (encAwait (0x20 + k) { frame := (d.hev k).published + 1, sofTb := tbNow d, eofTb := tbNow d }
          (setHev k (fun y => { y with published := (d.hev k).published + 1 }) d))) s)) ∧
  (∀ (w : Writer) (k : Fin 8) (i : Nat) (s : State), writeCheck s.dev w (Reg.hev_OUT_RELEASE k) (.num i) = none →
    exec (.outRelease w k i) s =
      .next (accepted w (Reg.hev_OUT_RELEASE k) (.num i) (fun _ => onDev (outRelease k i 1)) s))

/-! ## Outputs -/

/-- An output that runs sends a frame at each frame start (R254, R255): OUT_FRAMES counts it, and its words go out; the
buffer it reads is released with the last active line; the back channel counts framing errors (R261); the presence of a
finder is logged by EV 0x2004. -/
def Obligations.OutputsSendFrames : Prop :=
  (∀ (n : Fin 8) (s : State), s.dev.runs (.out n) = true → s.dev.get (Reg.out_OUT_MODE n) ≠ 0 →
    s.dev.get (Reg.out_OUT_MODE n) ≠ 5 →
    completes (exec (.outputFrameStart n) s) (fun t =>
      t.dev.get (Reg.out_OUT_FRAMES n) = (s.dev.get (Reg.out_OUT_FRAMES n) + 1) % 2 ^ 64 ∧
      s.dev.out.length < t.dev.out.length ∧ t.arb = s.arb ∧ t.mem = s.mem)) ∧
  (∀ (n : Fin 8) (i : Nat) (s : State), (s.dev.output n).reading = some i →
    exec (.lastActiveLineSent n) s = .next (onDev (fun d => setOutp n (fun x => { x with sending := false })
      (setOutp n (fun x => { x with reading := none })
        (setViewBuf (d.get (Reg.out_OUT_VIEW n)) i (fun b => { b with readers := b.readers - 1 }) d))) s)) ∧
  (∀ (n : Fin 8) (b : List Byte) (s : State), s.dev.get (Reg.out_OUT_MODE n) = 6 → s.dev.get (Reg.out_FL_BC_PINS n) % 256 ≠ 0xFF →
    exec (.finderMsg n b true) s =
      .next (onDev (fun d => inc32 (Reg.out_FL_RX_ERRORS n) (setOutp n (fun x => { x with rx := [] }) d)) s) ∧
    exec (.finderMsg n b false) s = .next (onDev (fun d => finderBytes n (((s.dev.output n).rx ++ b).length + 1)
      ((s.dev.output n).rx ++ b) (setOutp n (fun x => { x with rx := [] }) d)) s)) ∧
  (∀ (n : Fin 8) (present : Bool) (s : State), (s.dev.output n).present ≠ present →
    s.dev.get (Reg.out_FL_BC_PINS n) / 256 ≠ 0xFF →
    exec (.finderPresent n present) s =
      .next (onDev (fun d => post 0x2004 n (b2n present) 0 (setOutp n (fun x => { x with present := present }) d)) s))

/-! ## DRAM -/

/-- Reads of the DRAM (R269 to R273, R286 to R290): a read whose error was corrected counts in CORRECTED; one that could not be
corrected counts in UNCORRECTED, leaves its line poisoned, and its rank fails; a parity error fails its rank; a migration that
is done puts the spare in the failed rank's place with EV 0x2403. -/
def Obligations.DramErrorsAreHandled : Prop :=
  (∀ (c : Fin 12) (r : Fin 4) (x : DramRead) (s : State), s.dev.hasChannel c = true → x.reader = 0 → x.result = 1 →
    (s.dev.dram.rank c r).live = true → s.dev.calm = true →
    completes (exec (.dramReadComplete c r x) s) (fun t =>
      t.dev.get (Reg.dch_CORRECTED c) = (s.dev.get (Reg.dch_CORRECTED c) + 1) % 2 ^ 64 ∧ t.mem = s.mem ∧ t.poison = s.poison ∧
      t.arb = s.arb ∧ ∀ k, k ≠ Reg.dch_CORRECTED c → t.dev.val k = s.dev.val k)) ∧
  (∀ (c : Fin 12) (r : Fin 4) (x : DramRead) (l : Nat) (s : State), s.dev.get Reg.dram_SCRUB_PERIOD_H ≠ 0 →
    s.dev.dram.lineOf c r x.line = some l → x.result = 2 → (s.dev.dram.rank c r).live = true →
    exec (.scrubRead c r x) s = .next (forcedGo (onDev (failRank c r 1)
      (poisonRecord (l * 256) (poisonLine l (onDev (inc64 (Reg.dch_UNCORRECTED c)) s)))))) ∧
  (∀ (l : Nat) (s : State), (poisonLine l s).poison.contains l = true ∧ (poisonLine l s).mem = s.mem ∧
    (poisonLine l s).dev = s.dev) ∧
  (∀ (c : Fin 12) (r : Fin 4) (s : State), exec (.caParityError c r) s = .next (forcedGo (onDev (failRank c r 2) s))) ∧
  (∀ (c r : Nat) (d : Dev), (d.dram.rank c r).st = rkMAPPED → 4 ≤ d.get (Reg.dch_SPARE_RANK c) →
    failRank c r 2 d = loseRank c r (retireRank c r (post 0x2402 (dramInst c r) 2 0xFF d))) ∧
  (∀ (c : Fin 12) (m : Migration) (g : Geometry) (s : State), (s.dev.dram.chan c).mig = some m →
    geometryOf s.dev.dram.width s.dev.dram.density = some g → c.val < s.dev.dram.chans.length →
    completes (exec (.migrateDone c) s) (fun t => (t.dev.dram.chan c).mig = none ∧
      (t.dev.dram.chan c).order = (s.dev.dram.chan c).order.map (fun r => if r = m.src then m.dst else r) ∧
      t.dev.get (Reg.dch_MIGRATE_WATERMARK c) = g.lines ∧ t.dev.get (Reg.dch_SPARE_RANK c) = 0xFF ∧ t.mem = s.mem ∧
      t.arb = s.arb ∧
      ∀ k, k ≠ Reg.dch_MIGRATE_WATERMARK c → k ≠ Reg.dch_SPARE_RANK c → t.dev.val k = s.dev.val k))

/-- Training, refresh and row disturbance (R277 to R285): RETRAIN in SERVICE starts training, whose contents are not
preserved; the result ends it; a refresh tick that is due adds one to the count owed, less those answered while idle; a DRFM
counts itself and the rows its sampler replaced; an RFM is issued to a live rank. -/
def Obligations.DramIsTrainedAndRefreshed : Prop :=
  (∀ (w : Writer) (s : State), writeCheck s.dev w Reg.dram_RETRAIN (.num 1) = none → s.dev.mode = mSERVICE →
    completes (exec (.retrain w) s) (fun t => t.mem = [] ∧ t.dev.dram.training = true ∧
      t = accepted w Reg.dram_RETRAIN (.num 1) (fun _ => startTraining) s)) ∧
  (∀ (l : List RankTrain) (s : State), s.dev.dram.training = true → s.dev.mode ≠ mBOOT →
    exec (.dramTrainingComplete l) s = .next (magSettle (onDev (fun d => (trainingResult l d).2) s))) ∧
  (∀ (l : List RankTrain) (s : State), s.dev.dram.training = true → s.dev.mode = mBOOT →
    exec (.dramTrainingComplete l) s =
      .next (bootEnd (trainingResult l s.dev).1 (onDev (fun d => (trainingResult l d).2) s))) ∧
  (∀ (c : Fin 12) (r : Fin 4) (idle : Nat) (s : State), (s.dev.dram.rank c r).live = true → (s.dev.dram.rank c r).due = none →
    s.dev.mode ≠ mTHERMAL → (s.dev.dram.rank c r).owed - idle + 1 ≤ 2 → c.val < s.dev.dram.chans.length →
    r.val < (s.dev.dram.chan c).ranks.length →
    completes (exec (.refreshTick c r idle) s) (fun t =>
      (t.dev.dram.rank c r).owed = (s.dev.dram.rank c r).owed - idle + 1 ∧
      (t.dev.dram.rank c r).due = some (s.dev.time.raw + refi (s.dev.doubled c)) ∧ t.dev.regs = s.dev.regs ∧
      t.dev.out = s.dev.out ∧ t.arb = s.arb ∧ t.mem = s.mem)) ∧
  (∀ (c : Fin 12) (r : Fin 4) (bank : Fin 32) (rows : List Nat) (row : Nat) (s : State), rows.getLast? = some row →
    (s.dev.dram.rank c r).live = true →
    completes (exec (.drfmIssue c r bank rows) s) (fun t =>
      t.dev.get Reg.dram_DRFM_ISSUED = (s.dev.get Reg.dram_DRFM_ISSUED + 1) % 2 ^ 64 ∧
      t.dev.get Reg.dram_DRFM_REPLACED = (s.dev.get Reg.dram_DRFM_REPLACED + (rows.length - 1)) % 2 ^ 64 ∧
      t.dev.out = s.dev.out ++ [{ kind := .dram, inst := dramInst c r, info := [2, bank.val, row], data := [] }] ∧
      t.arb = s.arb ∧ t.mem = s.mem ∧
      ∀ k, k ≠ Reg.dram_DRFM_ISSUED → k ≠ Reg.dram_DRFM_REPLACED → t.dev.val k = s.dev.val k)) ∧
  (∀ (c : Fin 12) (r : Fin 4) (bank : Fin 32) (s : State), (s.dev.dram.rank c r).live = true →
    exec (.rfmIssue c r bank) s = .next (onDev (emit .dram (dramInst c r) [3, bank.val] []) s))

/-! ## Magazine links -/

/-- A magazine link trains and retrains (R298, R299): what the lanes carry is read stripe by stripe, or codeword by codeword
while RS-FEC runs (R296, R297); TRAIN blocks enough on every lane of an aligned port make the link UP with EV 0x2802; a retrain
takes it DOWN and counts in RETRAINS; one that fails before the third in a row counts another; a command of a port whose hold
has lasted MAG_HOLD_TIMEOUT_S ends with status 0x80 (R315). -/
def Obligations.MagLinksTrain : Prop :=
  (∀ (p : Fin 4) (l : List (List (Nat × Nat))) (s : State), s.dev.get (Reg.mln_LANE_POWER p 0) % 16 = 3 →
    (s.dev.mag p).fecOn = false → (∀ k, k < 8 → bit (s.dev.get (Reg.mln_INVERT p k)) 0 = 0) →
    exec (.magLinkUp p (.stripes l)) s = .next (magSettle
      (l.foldl (fun t x => magStripe p ((List.range 8).map (fun k => x.getD k (3, 0))) t) s))) ∧
  (∀ (p : Fin 4) (l : List (List Nat)) (s : State), s.dev.get (Reg.mln_LANE_POWER p 0) % 16 = 3 → (s.dev.mag p).fecOn = true →
    exec (.magLinkUp p (.words l)) s = .next (magSettle ((List.range 80).foldl
      (fun t i => magStripe p ((magWords p l s.dev).1.map (fun b => nth b i)) t) { s with dev := (magWords p l s.dev).2 }))) ∧
  (∀ (p : Fin 4) (k fec : Nat) (d : Dev), d.magState p ≠ msUP → d.magAlignedAll p = true → (d.mag p).told = 3 →
    p.val < d.mags.length → (updAt k (fun n => n + 1) (d.mag p).trains).all (fun n => decide (16 ≤ n)) = true →
    ∃ e, trainIn p k 3 fec d = linkUp p e ∧ (e.mag p).theirs = (fec == 1) ∧ (e.mag p).fec = (d.mag p).fec ∧
      e.regs = d.regs ∧ e.sources = d.sources ∧ e.out = d.out) ∧
  (∀ (p : Fin 4) (d : Dev), (d.magState p = msTRAINING ∨ d.magState p = msDOWN) → d.magAlignedAll p = true →
    (d.mag p).wantIdent = false → (d.mag p).exiting = false → p.val < d.mags.length →
    (linkUp p d).magState p = msUP ∧ ((linkUp p d).mag p).link.fails = 0 ∧ ((linkUp p d).mag p).link.ackDue = true ∧
      ((linkUp p d).mag p).fecOn = ((d.mag p).fec && (d.mag p).theirs) ∧
      (linkUp p d).sources = (post 0x2802 (magInst p) (d.mag p).rate (b2n ((d.mag p).fec && (d.mag p).theirs)) d).sources ∧
      ∀ k, k ≠ Reg.mag_MAG_STATE p → k ≠ Reg.magg_PORTS_UP → (linkUp p d).val k = d.val k) ∧
  (∀ (p : Fin 4) (s : State), s.dev.magState p = msUP → s.dev.magPresent p = true →
    exec (.magRetrain p 1) s = .next (magSettle (onDev (magRetrain p 1) s)) ∧
    exec (.magRetrain p 3) s = .next (magSettle (onDev (magRetrain p 3) s))) ∧
  (∀ (p : Fin 4) (d : Dev), d.magState p = msUP → (magRetrain p 1 d).magState p = msDOWN ∧
    (magRetrain p 1 d).get (Reg.mag_RETRAINS p) = (d.get (Reg.mag_RETRAINS p) + 1) % 2 ^ 32) ∧
  (∀ (p : Fin 4) (r : Nat) (s : State), (s.dev.mag p).link.downRaw = some r → s.dev.magState p = msDOWN →
    cyclesOfMs 50 ≤ s.dev.since r → (s.dev.mag p).link.fails < 2 →
    exec (.magRetrainFail p) s = .next (magSettle (onDev (fun d => magDown p (inc32 (Reg.mag_RETRAINS p)
      (setLink p (fun x => { x with fails := (s.dev.mag p).link.fails + 1 }) d))) s))) ∧
  (∀ (p : Fin 4) (c : RecCmd) (s : State),
    (s.dev.portCmds p).filter (fun c => decide (c.ph = .atPort) && (match c.heldRaw with
      | some r => decide (cyclesOfMs (1000 * s.dev.get (Reg.mag_MAG_HOLD_TIMEOUT_S p)) ≤ s.dev.since r)
      | none => false)) = [c] →
    exec (.tempHoldTimeout p) s = .next (magSettle (onDev (endCmd c.tag 0x80 0 0) s)))

/-- Packets of a magazine link (R301 to R306): blocks between START and TERM make a packet; one whose block was invalid or whose
CRC fails is discarded; a packet in sequence is taken and owed an acknowledgement; one out of sequence is discarded, the first
discard sending NAK; an ACK updates the limits and releases what it covers; the ACK timer sends an ACK with limits 64 and 1,024
packets ahead; a NAK or the replay timeout resends everything unacknowledged. -/
def Obligations.MagPacketsFlow : Prop :=
  (∀ (p : Fin 4) (l : List (List (Nat × Nat))) (s : State), s.dev.get (Reg.mln_LANE_POWER p 0) % 16 = 3 →
    (s.dev.mag p).fecOn = false → (∀ k, k < 8 → bit (s.dev.get (Reg.mln_INVERT p k)) 0 = 0) →
    ∀ t, t = magSettle (l.foldl (fun t x => magStripe p ((List.range 8).map (fun k => x.getD k (3, 0))) t) s) →
    exec (.magDataPacket p (.stripes l)) s = .next t ∧ exec (.magCompletion p (.stripes l)) s = .next t ∧
    exec (.magPacketDiscard p (.stripes l)) s = .next t) ∧
  (∀ (p : Fin 4) (b : List Byte) (k : MagPacket) (s t : State), t = onDev (setMag p (fun x => { x with packet := none })) s →
    packetOf b = some k → packetEnd p b false s = packetIn p k t) ∧
  (∀ (p : Fin 4) (b : List Byte) (bad : Bool) (s t : State), t = onDev (setMag p (fun x => { x with packet := none })) s →
    s.dev.magState p = msUP → bad = true ∨ packetOf b = none → packetEnd p b bad s = onDev (discardPkt p) t) ∧
  (∀ (p : Fin 4) (d : Dev), (d.mag p).link.nakOut = false → discardPkt p d =
    setLink p (fun x => { x with nakOut := true }) (sendBlocks p [.nak (d.mag p).link.rx] d)) ∧
  (∀ (p : Fin 4) (k : MagPacket) (d : Dev), d.magState p = msUP → k.seq = ((d.mag p).link.rx + 1) % 4096 → k.ty ≠ 2 →
    (d.mag p).link.owing < 7 → p.val < d.mags.length →
    (takePkt p k d).1 = true ∧ ((takePkt p k d).2.mag p).link.rx = k.seq ∧
    ((takePkt p k d).2.mag p).link.owing = (d.mag p).link.owing + 1 ∧
    ((takePkt p k d).2.mag p).link.ctrlGot = ((d.mag p).link.ctrlGot + 1) % 65536 ∧ (takePkt p k d).2.regs = d.regs ∧
    (takePkt p k d).2.out = d.out) ∧
  (∀ (p : Fin 4) (k : MagPacket) (s t : State), (takePkt p k s.dev).1 = true → t = { s with dev := (takePkt p k s.dev).2 } →
    (k.ty = 2 → packetIn p k s = onDev (takeData p k) t) ∧ (k.ty = 3 → packetIn p k s = takeCompletion p k t)) ∧
  (∀ (p : Fin 4) (l : List MagBlock) (d : Dev), ∃ (n : Nat) (b : List Byte), (sendBlocks p l d).out =
    d.out ++ [{ kind := .magLink, inst := p.val, info := [b2n (d.mag p).fecOn, n], data := b }]) ∧
  (∀ (p : Fin 4) (a : MagAck) (s : State), s.dev.magState p = msUP →
    exec (.ackReceived p a) s = .next (magSettle (onDev (fun d =>
      setLink p (fun x => { x with dataLimit := a.data % 65536, ctrlLimit := a.ctrl % 65536, opened := true })
        (releasePkts p (a.seq % 4096) d)) s))) ∧
  (∀ (p : Fin 4) (s : State), s.dev.magState p = msUP → 0 < (s.dev.mag p).link.owing →
    completes (exec (.ackTimer p) s) (fun t =>
      t.dev.out = (sendBlocks p [.ack (s.dev.mag p).link.rx (((s.dev.mag p).link.dataGot + 64) % 65536)
        (((s.dev.mag p).link.ctrlGot + 1024) % 65536)] s.dev).out ∧
      (p.val < s.dev.mags.length → (t.dev.mag p).link.owing = 0 ∧ (t.dev.mag p).link.ackDue = false) ∧
      (s.dev.get (Reg.mln_LANE_POWER p 0) / 16 ≠ 2 → t.dev.regs = s.dev.regs) ∧ t.arb = s.arb ∧ t.mem = s.mem)) ∧
  (∀ (p : Fin 4) (a : MagAck) (s : State), s.dev.magState p = msUP → s.dev.magPresent p = true →
    exec (.nakReceived p a) s = .next (magSettle (onDev (fun d => resendAll p (releasePkts p (a.seq % 4096) d)) s))) ∧
  (∀ (p : Fin 4) (s : State), s.dev.magState p = msUP → (s.dev.mag p).link.unacked ≠ [] →
    cyclesOfNs (s.dev.get (Reg.mag_REPLAY_TIMEOUT_NS p)) ≤ s.dev.since (s.dev.mag p).link.replayRaw → s.dev.magPresent p = true →
    exec (.replayTimeout p) s = .next (magSettle (onDev (resendAll p) s)))

/-- A magazine's lanes sleep as its LANE_SLEEP says and wake with matches enough on every lane (R316); its supply goes on at
insertion and off at removal, and training starts when its power-up time is over (R317, R321); its key is held until no command
is outstanding and then takes effect, KEY_ID with it, and is checked against the magazine's (R319, R320). -/
def Obligations.MagazinesComeAndGo : Prop :=
  (∀ (p : Fin 4) (s : State), s.dev.magState p = msUP →
    exec (.laneSleepReceived p 1) s = .next (onDev (lanesTo p none (some 2)) s)) ∧
  (∀ (p : Fin 4) (s : State), s.dev.magState p = msUP → s.dev.get (Reg.mln_LANE_POWER p 0) / 16 = 3 →
    exec (.laneSleepReceived p 2) s = .next (onDev (sleepTx p false) s)) ∧
  (∀ (p : Fin 4) (m : List Nat) (s : State), s.dev.magState p = msUP → s.dev.get (Reg.mln_LANE_POWER p 0) % 16 = 2 →
    (List.range 8).all (fun k => decide (4090 ≤ nth m k)) = true →
    exec (.sleepingTransmitterWake p m) s = .next (magSettle (onDev (fun d =>
      (List.range 8).foldl (fun e k => setN (Reg.mln_MATCH_COUNT p k) (min (nth m k) (2 ^ 32 - 1)) e)
        (lanesTo p none (some 3) d)) s))) ∧
  (∀ (p : Fin 4) (s : State), s.dev.get (Reg.mag_MAG_PRESENT_PIN p) ≠ 0xFF → (s.dev.mag p).present = true →
    exec (.magRemoved p) s = .next (magSettle (onDev (magGone p) s))) ∧
  (∀ (p : Fin 4) (s : State), s.dev.get (Reg.mag_MAG_PRESENT_PIN p) ≠ 0xFF → (s.dev.mag p).present = false →
    p.val < s.dev.nMags → s.dev.runs (.mag p) = true →
    exec (.magInserted p) s =
      .next (onDev (fun d => supplyOn p (setMag p (fun x => { x with present := true }) d)) s)) ∧
  (∀ (p : Fin 4) (r : Nat) (s : State), (s.dev.mag p).powerRaw = some r → (s.dev.mag p).supply = true →
    cyclesOfMs (s.dev.powerUpMs p) ≤ s.dev.since r →
    exec (.magPowerUpDone p) s = .next (onDev (fun d => magTrain p (setMag p (fun x => { x with powerRaw := none }) d)) s)) ∧
  (∀ (w : Writer) (p : Fin 4) (key : List Byte) (s : State), writeCheck s.dev w (Reg.mag_MAG_KEY p) (.bytes key) = none →
    exec (.magKey w p key) s = .next (accepted w (Reg.mag_MAG_KEY p) (.bytes key)
      (fun _ => onDev (setMag p (fun x => { x with keyHeld := some (some key) }))) s)) ∧
  (∀ (w : Writer) (p : Fin 4) (s : State), writeCheck s.dev w (Reg.mag_MAG_KEY_CLEAR p) (.num 1) = none →
    exec (.magKeyClear w p) s = .next (accepted w (Reg.mag_MAG_KEY_CLEAR p) (.num 1)
      (fun _ => onDev (setMag p (fun x => { x with keyHeld := some none }))) s)) ∧
  (∀ (p : Fin 4) (key : List Byte) (s : State), (s.dev.mag p).keyHeld = some (some key) → s.dev.outstanding p = 0 →
    p.val < s.dev.mags.length →
    completes (exec (.magKeyApply p) s) (fun t => (t.dev.mag p).key = some key ∧ (t.dev.mag p).keyHeld = none ∧
      t.dev.bytes (Reg.mag_MAG_KEY_ID p) = keyId key ∧ t.arb = s.arb ∧ t.mem = s.mem ∧
      ((s.dev.flag (Reg.mag_MAG_ENCRYPT p) = false ∨ (s.dev.mag p).ready = false) →
        (t.dev.mag p).mismatch = false ∧ t.dev.sources = s.dev.sources) ∧
      ∀ k, k ≠ Reg.mag_MAG_KEY_ID p → t.dev.val k = s.dev.val k)) ∧
  (∀ (key : List Byte), keyId key = (hmacSha256 key (ascii "LMVK-KEYID")).take 16)

/-! ## The recorder queue -/

/-- Doorbells and queues (R325, R326, R330, R350): a tail doorbell of an enabled SQ sets SQ_TAIL and has the entries fetched, and
one of a disabled SQ does nothing; a head doorbell frees entries of its CQ, which completions that wait then take; a fetch that fails stops its SQ with EV 0x2901; a queue that is enabled starts at index 0; and a
completion with room is written at its CQ's tail, which advances. -/
def Obligations.QueuesMove : Prop :=
  (∀ (n : Fin 64) (v : Nat) (s : State), s.dev.ep.d3hot = false → s.dev.flag (Reg.sq_SQ_ENABLE n) = true →
    completes (exec (.sqTailDb n v) s) (fun t => t.dev.get (Reg.sq_SQ_TAIL n) = v % 65536 ∧ t.arb = s.arb ∧ t.mem = s.mem ∧
      t.dev.rcq = s.dev.rcq ∧ t.dev.out = s.dev.out ++ (if v % 65536 = s.dev.get (Reg.sq_SQ_HEAD n) then []
        else [{ kind := .pcie, inst := n.val, info := [0x100, s.dev.get (Reg.sq_SQ_HEAD n), v], data := [] }]) ∧
      ∀ k, k ≠ Reg.sq_SQ_TAIL n → t.dev.val k = s.dev.val k)) ∧
  (∀ (n : Fin 64) (v : Nat) (s : State), s.dev.ep.d3hot = false → s.dev.flag (Reg.cq_CQ_ENABLE n) = true →
    exec (.cqHeadDb n v) s = .next (magSettle (writeTaken (onDev (setN (Reg.cq_CQ_HEAD n) (v % 65536)) s)))) ∧
  (∀ (n : Fin 64) (v : Nat) (s : State), s.dev.flag (Reg.sq_SQ_ENABLE n) = false → exec (.sqTailDb n v) s = .next s) ∧
  (∀ (n : Fin 64) (s : State), s.dev.flag (Reg.sq_SQ_ENABLE n) = true → s.dev.sqAvail n ≠ 0 → s.dev.ep.d3hot = false →
    s.dev.calm = true →
    exec (.sqFetchDone n none) s =
      .next (onDev (fun e => post 0x2901 n (e.get (Reg.sq_SQ_HEAD n)) 0 (setN (Reg.sq_SQ_ENABLE n) 0 e)) s)) ∧
  (∀ (n : Fin 64) (l k : List (List Byte)) (s s1 : State), s.dev.flag (Reg.sq_SQ_ENABLE n) = true → s.dev.sqAvail n ≠ 0 →
    s.dev.ep.d3hot = false → k = (l.take (s.dev.sqAvail n)).map (padTo 64) →
    s1 = onDev (fun e => setN (Reg.sq_SQ_HEAD n) ((e.get (Reg.sq_SQ_HEAD n) + k.length) % max 1 (e.get (Reg.sq_SQ_SIZE n)))
      (setRcq (fun r => { r with fetched := updAt n (fun x => x ++ k) r.fetched }) e)) s →
    exec (.sqFetchDone n (some l)) s = .next (magSettle (advance (admitInvalid s1.dev.entriesWaiting s1)))) ∧
  (∀ (w : Writer) (n : Fin 64) (s : State), writeCheck s.dev w (Reg.sq_SQ_ENABLE n) (.num 1) = none →
    s.dev.get (Reg.sq_SQ_ENABLE n) = 0 →
    completes (exec (.sqEnable w n true) s) (fun t => t.dev.get (Reg.sq_SQ_ENABLE n) = 1 ∧ t.dev.get (Reg.sq_SQ_HEAD n) = 0 ∧
      t.dev.get (Reg.sq_SQ_TAIL n) = 0 ∧ t.mem = s.mem ∧ t.poison = s.poison ∧
      ∀ k, k ≠ Reg.sq_SQ_ENABLE n → k ≠ Reg.sq_SQ_HEAD n → k ≠ Reg.sq_SQ_TAIL n → k ≠ Reg.store_STORE_DIRTY →
        t.dev.val k = s.dev.val k)) ∧
  (∀ (w : Writer) (n : Fin 64) (s : State), writeCheck s.dev w (Reg.cq_CQ_ENABLE n) (.num 1) = none →
    s.dev.get (Reg.cq_CQ_ENABLE n) = 0 → s.dev.rcq.cmds = [] →
    completes (exec (.cqEnable w n true) s) (fun t => t.dev.get (Reg.cq_CQ_ENABLE n) = 1 ∧ t.dev.get (Reg.cq_CQ_HEAD n) = 0 ∧
      t.dev.get (Reg.cq_CQ_TAIL n) = 0 ∧ t.mem = s.mem ∧ t.poison = s.poison)) ∧
  (∀ (tag : Nat) (c : RecCmd) (rest : List Nat) (s : State), s.dev.rcq.comp = tag :: rest → s.dev.cmd? tag = some c →
    c.queue < 64 → s.dev.cqRoom (s.dev.get (Reg.sq_SQ_CQ c.queue)) = true →
    s.dev.rcq.cmds.any (fun x => decide (x.ph = .taken) && s.dev.get (Reg.sq_SQ_CQ x.queue) == s.dev.get (Reg.sq_SQ_CQ c.queue)) = false →
    exec .completionPost s = .next (magSettle (writeCqe c (onDev (setRcq (fun r => { r with comp := rest })) s)))) ∧
  (∀ (c : RecCmd) (s : State), ∃ ph : Bool,
    (writeCqe c s).hostMem = s.hostMem.writeBytes
      (s.dev.get (Reg.cq_CQ_BASE (s.dev.get (Reg.sq_SQ_CQ c.queue))) +
        16 * s.dev.get (Reg.cq_CQ_TAIL (s.dev.get (Reg.sq_SQ_CQ c.queue)))) (cqe s.dev c ph) ∧ (writeCqe c s).mem = s.mem)

/-- The arbiter first admits commands whose OPCODE is not valid, which complete at once; then it admits the command its queues
offer next, with a tag that is free (R333 to R335): READ, WRITE, FLUSH, TRIM, ABORT, IDENTIFY and GET_LOG each enter the
recorder so; what is eligible then starts, and invalid commands behind it end. -/
def Obligations.CommandsAreAdmitted : Prop :=
  ∀ (q cr tag : Nat) (x : Submission) (segs : List (Option (List Byte))) (s s0 : State),
    s0 = admitInvalid s.dev.entriesWaiting s → s0.dev.nextQueue = some (q, cr) →
    s0.dev.front q = some x → tag < 16384 → s0.dev.usedTags.contains tag = false →
    (x.op = 1 → ∀ t, t = advance (admitCmd q cr tag x segs s0) →
      exec (.cmdRead tag segs) s = .next (magSettle (admitInvalid t.dev.entriesWaiting t))) ∧
    (x.op = 2 → ∀ t, t = advance (admitCmd q cr tag x segs s0) →
      exec (.cmdWrite tag segs) s = .next (magSettle (admitInvalid t.dev.entriesWaiting t))) ∧
    (x.op = 3 → ∀ t, t = advance (admitCmd q cr tag x [] s0) →
      exec (.cmdFlush tag) s = .next (magSettle (admitInvalid t.dev.entriesWaiting t))) ∧
    (x.op = 4 → ∀ t, t = advance (admitCmd q cr tag x [] s0) →
      exec (.cmdTrim tag) s = .next (magSettle (admitInvalid t.dev.entriesWaiting t))) ∧
    (x.op = 5 → ∀ t, t = advance (onDev (abortEffect tag) (admitCmd q cr tag x [] s0)) →
      exec (.cmdAbort tag) s = .next (magSettle (admitInvalid t.dev.entriesWaiting t))) ∧
    (x.op = 6 → ∀ t, t = advance (admitCmd q cr tag x segs s0) →
      exec (.cmdIdentify tag segs) s = .next (magSettle (admitInvalid t.dev.entriesWaiting t))) ∧
    (x.op = 7 → ∀ t, t = advance (admitCmd q cr tag x segs s0) →
      exec (.cmdGetLog tag segs) s = .next (magSettle (admitInvalid t.dev.entriesWaiting t)))

/-- A transfer of a WRITE's data from the host gives its next sector to the link (R335); an idle port whose time in PS0 is over
enters its next power state, and one that has left its power state is in PS0 again (R345, R346); the recording service writes
the unit at the front to the member whose turn it is (R363); CLIP_RECOVER and CLIP_FORMAT run in CONFIGURE (R366, R367). -/
def Obligations.RecorderWorks : Prop :=
  (∀ (tag : Nat) (c : RecCmd) (data : List Byte) (s : State), s.dev.cmd? tag = some c → c.queue < 64 → c.ph = .active →
    s.dev.ep.d3hot = false → c.op = 2 → c.next < c.count →
    exec (.hostDataTransfer tag true data) s = .next (magSettle (portRun (c.ns - 1) (onDev (fun d =>
      enqueue (c.ns - 1) (dataPkt d (c.ns - 1) c c.next data) (setCmd tag (fun x => { x with next := x.next + 1 }) d)) s)))) ∧
  (∀ (p : Fin 4) (s : State), s.dev.magIdle p = true → (s.dev.mag p).ready = true → (s.dev.mag p).own = [] →
    (s.dev.mag p).exiting = false → s.dev.holdup = false → s.dev.mode ≠ mTHERMAL → s.dev.magState p = msUP →
    s.dev.psNext p = some 1 →
    exec (.psTimer p) s =
      .next (magSettle (onDev (fun d => setPs p 1 0 (lanesTo p none (some 2) (sleepTx p true d))) s))) ∧
  (∀ (p : Fin 4) (s : State), (s.dev.mag p).exiting = true → s.dev.magState p = msUP → s.dev.magAlignedAll p = true →
    (s.dev.mag p).wantIdent = false → (s.dev.mag p).own.all (fun o => o.op == opTEMP) = true →
    exec (.psExitDone p) s = .next (magSettle (onDev (fun d =>
      setPs p 0 1 (setMag p (fun x => { x with exiting := false, ready := true }) d)) s))) ∧
  (∀ (p : Fin 4) (u : RecUnit) (us : List RecUnit) (s : State), s.dev.frontUnit = u :: us → s.dev.takeOpen = true →
    s.dev.take.members ≠ [] →
    nth s.dev.take.members (s.dev.take.units % max 1 s.dev.take.members.length) = p.val → s.dev.fwIdle p = true →
    (u :: us).any (fun x => !x.ready) = false → (us = [] → s.dev.partnerPending u = false) →
    exec (.frameUnitWrite p) s = .next (magSettle (writeUnit p (u :: us)
      (onDev (fun e => { e with recQ := (u :: us).foldl (fun l x => l.erase x) e.recQ }) s)))) ∧
  (∀ (w : Writer) (p : Nat) (s : State), writeCheck s.dev w Reg.clip_CLIP_RECOVER (.num p) = none → s.dev.mode = mCONFIGURE →
    s.dev.target = 0 → p < s.dev.nMags →
    exec (.clipRecover w p) s = .next (accepted w Reg.clip_CLIP_RECOVER (.num p)
      (fun _ s => fwAll (onDev (fun d => fwAdd p ((d.mag p).openClips.map (fun i => .act (.scan i))) d) s)) s)) ∧
  (∀ (w : Writer) (p : Nat) (s : State), writeCheck s.dev w Reg.clip_CLIP_FORMAT (.num p) = none → s.dev.mode = mCONFIGURE →
    s.dev.target = 0 → p < s.dev.nMags →
    exec (.clipFormat w p) s = .next (accepted w Reg.clip_CLIP_FORMAT (.num p) (fun _ s => fwAll (onDev (fun d =>
      storeReport p (fwAdd p (formatOps p d) (setMag p (fun x => { x with store := none, clip := none }) d))) s)) s))

/-! ## The PCI Express endpoint -/

/-- The endpoint's link and mailbox (R370, R378, R384 to R386): a link that trains sets its speed and width and logs EV
0x2C01; the reset word of DEV_RESET asks for a reset of cause 0x11; enabling the mailbox empties both rings; the tail of the
request ring makes its records known, the head of the response ring frees room, and what waits goes on. -/
def Obligations.EndpointTakesWrites : Prop :=
  (∀ (speed width : Nat) (s : State), s.dev.mode ≠ 0 → 1 ≤ speed → speed ≤ min 6 (s.dev.get Reg.pcie_LINK_MAX_SPEED) →
    [1, 2, 4, 8].contains width = true → s.dev.get Reg.pcie_LINK_SPEED ≠ speed →
    completes (exec (.pcieLinkUp speed width) s) (fun t => t.dev.get Reg.pcie_LINK_SPEED = speed ∧
      t.dev.get Reg.pcie_LINK_WIDTH = width ∧ t.dev.sources = (post 0x2C01 0xFFFF speed width s.dev).sources ∧
      t.arb = s.arb ∧ t.mem = s.mem ∧
      ∀ k, k ≠ Reg.pcie_LINK_SPEED → k ≠ Reg.pcie_LINK_WIDTH → t.dev.val k = s.dev.val k)) ∧
  (∀ s : State, s.dev.ep.d3hot = false → exec (.devReset 0xA5A55A5A) s = .next (requestReset 0x11 s)) ∧
  (∀ (v : Nat) (s : State), s.dev.ep.d3hot = false → v % 2 = 1 → s.dev.ep.mbxEnable = false →
    exec (.mbxCtrl v) s = .next (onDev (setEp (fun e => { e with
      mbxEnable := true, reqHead := 0, reqTail := 0, rspHead := 0, rspTail := 0, requests := [], responses := [] })) s)) ∧
  (∀ (v : Nat) (l : List (List Byte)) (s : State), s.dev.ep.d3hot = false → s.dev.ep.mbxEnable = true →
    exec (.mbxReqTail v l) s =
      .next (mbxGo (onDev (setEp (fun e => { e with reqTail := v, requests := e.requests ++ l })) s))) ∧
  (∀ (v : Nat) (s : State), s.dev.ep.d3hot = false → s.dev.ep.responses = [] → s.dev.ep.requests = [] →
    exec (.mbxRspHead v) s = .next (onDev (setEp (fun e => { e with rspHead := v })) s))

/-- The host's copy of the event log and its vectors (R25, R379, R380): EVT_SIZE 0 disables the copy and a valid size enables
it empty; EVT_TAIL frees room; vector 0 is signalled once a record was copied and the hold-off is over; a vector unmasked with a
message pending sends it. -/
def Obligations.EventCopyIsHandled : Prop :=
  (∀ s : State, s.dev.ep.d3hot = false → completes (exec (.evtSize 0) s) (fun t => t.dev.ep.evtSize = 0 ∧ t.arb.waiting = [] ∧
    t.arb.ring = s.arb.ring ∧ t.arb.next = s.arb.next ∧ t.dev.regs = s.dev.regs ∧ t.mem = s.mem ∧ t.hostMem = s.hostMem)) ∧
  (∀ (v : Nat) (s : State), s.dev.ep.d3hot = false → 16 ≤ v → v ≤ 65536 →
    completes (exec (.evtSize v) s) (fun t => t.dev.ep.evtSize = v ∧ t.dev.ep.evtHead = 0 ∧ t.dev.ep.evtTail = 0 ∧
      t.arb.missed = 0 ∧ t.arb.ring = s.arb.ring ∧ t.arb.next = s.arb.next ∧ t.dev.regs = s.dev.regs ∧ t.mem = s.mem ∧
      t.hostMem = s.hostMem)) ∧
  (∀ (v : Nat) (s : State), s.dev.ep.d3hot = false → s.arb.missed = 0 →
    exec (.evtTail v) s = .next (onDev (setEp (fun e => { e with evtTail := v })) s)) ∧
  (∀ s : State, s.dev.ep.d3hot = false → s.dev.ep.evtDue = true → s.dev.ep.evtSignalRaw = none →
    exec .evtVectorSignal s =
      .next (onDev (fun d => signal 0 (setEp (fun e => { e with evtDue := false, evtSignalRaw := some d.time.raw }) d)) s)) ∧
  (∀ (v : Fin 128) (s : State), s.dev.ep.d3hot = false →
    exec (.msixUnmask v) s = .next (onDev (fun d =>
      msixSend v (setEp (fun x => { x with msix := updAt v (fun y => { y with masked := false }) x.msix }) d)) s))

/-- The pound window (R381 to R383): BAR2_WINDOW takes a multiple of 1 GiB below the pound's size; a write through an open
window changes the bytes it covers and no others, and a write that the mode or BAR2_WRITE_ENABLE does not let through is counted
and discarded; a read through a window that is not open is answered as an Unsupported Request, one of poisoned lines as a
poisoned completion with EV 0x2C04, and any other with its data. -/
def Obligations.PoundWindowOpens : Prop :=
  (∀ (v : Nat) (s : State), s.dev.ep.d3hot = false → v % 2 ^ 30 = 0 → v < s.dev.get Reg.dram_MAPPED_BYTES →
    exec (.bar2Window v) s = .next (onDev (setEp (fun e => { e with window := v })) s)) ∧
  (∀ (off : Nat) (b : List Byte) (s : State), s.dev.ep.d3hot = false → s.dev.mode = mOFFLOAD →
    s.dev.flag Reg.pcie_BAR2_WRITE_ENABLE = true → s.dev.flag Reg.pcie_BAR2_ENABLE = true → s.dev.bar2In off b.length = true →
    s.dev.dram.anyLost = false → s.mem.wf = true →
    completes (exec (.bar2Write off b) s) (fun t => t.dev.regs = s.dev.regs ∧ t.arb = s.arb ∧ t.hostMem = s.hostMem ∧
      (∀ i, i < b.length → t.mem.read (s.dev.ep.window + off + i) = b.getD i 0) ∧
      ∀ a, (a < s.dev.ep.window + off ∨ s.dev.ep.window + off + b.length ≤ a) → t.mem.read a = s.mem.read a)) ∧
  (∀ (off : Nat) (b : List Byte) (s : State), s.dev.ep.d3hot = false → s.dev.mode ≠ mOFFLOAD → s.dev.mode ≠ mPLAYBACK →
    exec (.bar2Write off b) s = .next (onDev (inc64 Reg.pcie_BAR2_WRITES_DISCARDED) s)) ∧
  (∀ (off n : Nat) (s : State), s.dev.bar2Open = false →
    exec (.bar2Read off n) s = .next (onDev (emit .pcie 2 [1, off, n] []) s)) ∧
  (∀ (off n : Nat) (s : State), s.dev.bar2Open = true → s.dev.ep.d3hot = false → s.dev.bar2In off n = true →
    ∀ a, a = s.dev.ep.window + off →
    ((poundRead a n s).2 = false → exec (.bar2Read off n) s = .next (onDev (fun e =>
      emit .pcie 2 [0, off, n] (poundRead a n s).1 (poundAsk rqPcie a n (offloadRead a n e))) (poisonReads a n s))) ∧
    ((poundRead a n s).2 = true → exec (.bar2Read off n) s = .next (onDev (fun e =>
      post 0x2C04 0xFFFF (lo32 a) (a / 2 ^ 32) (emit .pcie 2 [2, off, n] (poundRead a n s).1
        (poundAsk rqPcie a n (offloadRead a n e)))) (poisonReads a n s))))

/-- A read of TB_NOW or TB_RAW latches the whole count (R375); a write of 8 bytes at an aligned offset of BAR 0 acts on its
register (R374); D3hot is entered and left with EV 0x2C02 (R384); a host reset counts in HOST_RESETS (R385). -/
def Obligations.HostReadsAndPowers : Prop :=
  (∀ s : State, s.dev.ep.d3hot = false → exec .tbNowRead s = .next (onDev (fun d =>
    setEp (fun e => { e with latchTb := tbNow d, epochAtRead := d.get Reg.tb_TB_EPOCH }) d) s)) ∧
  (∀ s : State, s.dev.ep.d3hot = false →
    exec .tbRawRead s = .next (onDev (fun d => setEp (fun e => { e with latchRaw := d.time.raw }) d) s)) ∧
  (∀ (off v : Nat) (s : State), s.dev.ep.d3hot = false → s.dev.mode ≠ 0 → off % 8 = 0 → off < 0x1000000 →
    exec (.registerWrite off 8 v) s = .next (bar0Write off (v % 2 ^ 64) s)) ∧
  (∀ s : State, s.dev.ep.d3hot = false →
    exec .d3hotEntry s = .next (onDev (fun d => post 0x2C02 0xFFFF 3 0 (setEp (fun e => { e with d3hot := true }) d)) s)) ∧
  (∀ s : State, s.dev.ep.d3hot = true → s.arb.waiting = [] → s.dev.ep.msix.any (fun v => v.pending) = false →
    s.dev.ep.responses = [] → s.dev.ep.requests = [] → s.dev.calm = true →
    exec .d0Return s = .next (onDev (fun d => post 0x2C02 0xFFFF 0 3 (setEp (fun e => { e with d3hot := false }) d)) s)) ∧
  (∀ (kind : Nat) (s : State), s.dev.mode ≠ 0 → s.dev.calm = true → kind ≠ 3 →
    completes (exec (.hostReset kind) s) (fun t =>
      t.dev.get Reg.pcie_HOST_RESETS = (s.dev.get Reg.pcie_HOST_RESETS + 1) % 2 ^ 32 ∧
      t.dev.get Reg.pcie_LINK_SPEED = 0 ∧ t.dev.ep.d3hot = false ∧ t.dev.ep.mbxEnable = false ∧ t.arb.ring = s.arb.ring ∧
      t.mem = s.mem ∧ t.hostMem = s.hostMem))

/-! ## The time base and its pulses -/

/-- TB_EPOCH is a 32-bit count of wraps (R393): with d the signed difference between the TB of a cycle and that of the cycle
before, it rises by 1 where TB falls as unsigned and d is positive, falls by 1 where TB rises and d is negative, and is as before
otherwise; TB_EPOCH and TB together form a 96-bit time that moves by d. TB_EPOCH_WRAP is a cycle in which it changes. -/
def Obligations.EpochCountsWraps : Prop :=
  (∀ d : Dev, (cycle d).time.raw = (d.time.raw + 1) % 2 ^ 64 ∧
    (tbNow (cycle d) < tbNow d → 0 < tbDiff (tbNow (cycle d)) (tbNow d) →
      (cycle d).get Reg.tb_TB_EPOCH = (d.get Reg.tb_TB_EPOCH + 1) % 2 ^ 32) ∧
    (tbNow d < tbNow (cycle d) → tbDiff (tbNow (cycle d)) (tbNow d) < 0 →
      (cycle d).get Reg.tb_TB_EPOCH = (d.get Reg.tb_TB_EPOCH + 2 ^ 32 - 1) % 2 ^ 32) ∧
    (((((cycle d).get Reg.tb_TB_EPOCH * 2 ^ 64 + tbNow (cycle d) : Nat) : Int) -
      ((d.get Reg.tb_TB_EPOCH * 2 ^ 64 + tbNow d : Nat) : Int) - tbDiff (tbNow (cycle d)) (tbNow d)) % 2 ^ 96 = 0) ∧
    (∀ k, k ≠ Reg.tb_TB_EPOCH → (cycle d).val k = d.val k)) ∧
  (∀ s : State, (cycle s.dev).get Reg.tb_TB_EPOCH ≠ s.dev.get Reg.tb_TB_EPOCH → exec .tbEpochWrap s = .next (onDev cycle s))

/-- STAGE_ARM TRUE arms the staged set, FALSE withdraws it; a client is refused while PTP_ENABLE is TRUE, and arming an armed
set is refused with BUSY (R395, R412; that TRUE is no exception to BUSY is this model's choice); in the first cycle after arming
in which TB_RAW has reached STAGE_AT the set is applied as a whole, and STAGE_STATUS says whether that was the cycle asked
for. -/
def Obligations.StagedTimeIsApplied : Prop :=
  (∀ (w : Writer) (s : State), writeCheck s.dev w Reg.stg_STAGE_ARM (.num 1) = none → (stageRule w s.dev).isNone = true →
    s.dev.stageArmed = false →
    completes (exec (.stageArm w true) s) (fun t => t.dev.get Reg.stg_STAGE_ARM = 1 ∧
      t.dev.get Reg.stg_STAGE_STATUS = 1 ∧ t.dev.time.armRaw = some s.dev.time.raw ∧ t.mem = s.mem ∧
      ∀ k, k ≠ Reg.stg_STAGE_ARM → k ≠ Reg.stg_STAGE_STATUS → k ≠ Reg.store_STORE_DIRTY → t.dev.val k = s.dev.val k)) ∧
  (∀ (w : Writer) (s : State), writeCheck s.dev w Reg.stg_STAGE_ARM (.num 0) = none → (stageRule w s.dev).isNone = true →
    s.dev.stageArmed = true →
    completes (exec (.stageArm w false) s) (fun t => t.dev.get Reg.stg_STAGE_ARM = 0 ∧
      t.dev.get Reg.stg_STAGE_STATUS = 0 ∧ t.dev.time.armRaw = none ∧ t.mem = s.mem ∧
      ∀ k, k ≠ Reg.stg_STAGE_ARM → k ≠ Reg.stg_STAGE_STATUS → k ≠ Reg.store_STORE_DIRTY → t.dev.val k = s.dev.val k)) ∧
  (∀ (w : Writer) (s : State), writeCheck s.dev w Reg.stg_STAGE_ARM (.num 1) = none → (stageRule w s.dev).isNone = true →
    s.dev.stageArmed = true →
    exec (.stageArm w true) s = .next (onDev (fun d => { d with answer := stBUSY }) s)) ∧
  (∀ (w : Writer) (v : Bool) (s : State), writeCheck s.dev w Reg.stg_STAGE_ARM (.num (b2n v)) = none →
    (stageRule w s.dev).isNone = false →
    exec (.stageArm w v) s = .next (onDev (fun d => { d with answer := stREFUSED }) s)) ∧
  (∀ s : State, s.dev.stageDue = true →
    completes (exec .stageApply s) (fun t => t.dev.get Reg.tb_TB_OFFSET = s.dev.get Reg.stg_STAGE_OFFSET ∧
      t.dev.get Reg.tb_TB_RATE = s.dev.get Reg.stg_STAGE_RATE ∧ t.dev.get Reg.tb_TB_ANCHOR = s.dev.get Reg.stg_STAGE_ANCHOR ∧
      t.dev.get Reg.stg_STAGE_ARM = 0 ∧
      t.dev.get Reg.stg_STAGE_STATUS = (if s.dev.time.raw = s.dev.get Reg.stg_STAGE_AT then 2 else 3) ∧
      (bit (s.dev.get Reg.stg_STAGE_FLAGS) 0 = 1 → t.dev.get Reg.tb_TB_EPOCH = s.dev.get Reg.stg_STAGE_EPOCH) ∧
      (∀ k, k ≠ Reg.tb_TB_OFFSET → k ≠ Reg.tb_TB_RATE → k ≠ Reg.tb_TB_ANCHOR → k ≠ Reg.tb_TB_EPOCH → k ≠ Reg.stg_STAGE_ARM →
        k ≠ Reg.stg_STAGE_STATUS → t.dev.val k = s.dev.val k) ∧ t.arb = s.arb ∧ t.mem = s.mem))

/-- A pulse generator is armed with its settings and is refused when counted with COUNT 0 or with a pulse not shorter than its
period (R399, R400, R402); disarmed it stops. INVERT takes its value. -/
def Obligations.GeneratorsAreArmed : Prop :=
  (∀ (w : Writer) (n : Fin 16) (s : State), writeCheck s.dev w (Reg.tpg_TPG_ARM n) (.num 1) = none → s.dev.tpgRefuses n = false →
    completes (exec (.tpgArm w n true) s) (fun t => t.dev.get (Reg.tpg_TPG_ARM n) = 1 ∧ t.dev.get (Reg.tpg_TPG_STATUS n) = 1 ∧
      t.dev.get (Reg.tpg_FIRED n) = 0 ∧ t.dev.get (Reg.tpg_MISSED n) = 0 ∧
      t.dev.get (Reg.tpg_NEXT n) = s.dev.get (Reg.tpg_TARGET n) ∧ t.mem = s.mem)) ∧
  (∀ (w : Writer) (n : Fin 16) (s : State), writeCheck s.dev w (Reg.tpg_TPG_ARM n) (.num 1) = none → s.dev.tpgRefuses n = true →
    exec (.tpgArm w n true) s = .next (onDev (fun d => { d with answer := stREFUSED }) s)) ∧
  (∀ (w : Writer) (n : Fin 16) (s : State), writeCheck s.dev w (Reg.tpg_TPG_ARM n) (.num 0) = none →
    completes (exec (.tpgArm w n false) s) (fun t => t.dev.get (Reg.tpg_TPG_ARM n) = 0 ∧
      t.dev.get (Reg.tpg_TPG_STATUS n) = setBit (s.dev.get (Reg.tpg_TPG_STATUS n)) 0 false ∧ t.dev.tpg = s.dev.tpg ∧
      t.mem = s.mem ∧
      ∀ k, k ≠ Reg.tpg_TPG_ARM n → k ≠ Reg.tpg_TPG_STATUS n → k ≠ Reg.store_STORE_DIRTY → t.dev.val k = s.dev.val k)) ∧
  (∀ (w : Writer) (n : Fin 16) (v : Bool) (s : State), writeCheck s.dev w (Reg.tpg_INVERT n) (.num (b2n v)) = none →
    completes (exec (.tpgInvert w n v) s) (fun t => t.dev.get (Reg.tpg_INVERT n) = b2n v ∧ t.mem = s.mem ∧
      ∀ k, k ≠ Reg.tpg_INVERT n → k ≠ Reg.store_STORE_DIRTY → t.dev.val k = s.dev.val k))

/-- A generator with `m` instants due gives one pulse for them (R399): FIRED rises by 1, MISSED by m − 1, and NEXT is the
instant after them; it changes no other entry of the dictionary but its ARM and STATUS. A pulse whose cycles have passed ends and
its pin takes the inactive level (R400, R402). -/
def Obligations.GeneratorsFire : Prop :=
  (∀ (n : Fin 16) (m : Nat) (s : State), s.dev.calm = true → s.dev.tpgDue n = m + 1 →
    completes (exec (.tpgFire n) s) (fun t =>
      t.dev.get (Reg.tpg_FIRED n) = (s.dev.get (Reg.tpg_FIRED n) + 1) % 2 ^ 64 ∧
      t.dev.get (Reg.tpg_MISSED n) = (s.dev.get (Reg.tpg_MISSED n) + m) % 2 ^ 64 ∧
      t.dev.get (Reg.tpg_NEXT n) = (s.dev.tpgOf n).instant ((s.dev.tpgOf n).used + m + 1) ∧ t.arb = s.arb ∧ t.mem = s.mem ∧
      (n.val < s.dev.tpg.length → (t.dev.tpgOf n).used = (s.dev.tpgOf n).used + m + 1 ∧ (t.dev.tpgOf n).pulse.isSome = true) ∧
      ∀ k, k ≠ Reg.tpg_FIRED n → k ≠ Reg.tpg_MISSED n → k ≠ Reg.tpg_NEXT n → k ≠ Reg.tpg_TPG_ARM n → k ≠ Reg.tpg_TPG_STATUS n →
        t.dev.val k = s.dev.val k)) ∧
  (∀ (n : Fin 16) (x : Pulse) (s : State), (s.dev.tpgOf n).pulse = some x → x.stop ≤ s.dev.time.raw → bit x.route 0 = 1 →
    completes (exec (.tpgPulseEnd n) s) (fun t => t.dev.regs = s.dev.regs ∧
      t.dev.out = s.dev.out ++ [{ kind := .pin, inst := n.val, info := [b2n (s.dev.tpgOf n).idleHigh], data := [] }] ∧
      (n.val < s.dev.tpg.length → (t.dev.tpgOf n).pulse = none) ∧ t.arb = s.arb ∧ t.mem = s.mem))

/-! ## The network -/

/-- The switch and the clocks on the network (R404, R406, R408, R409, R411): a frame received with an error counts in RX_ERRORS
alone; a good frame counts in RX_FRAMES, is learned, and leaves on the ports of its VLAN, and one whose VLAN is not in the table
is dropped; a MAC address ages out after 300 s; a launch handed over too late is missed with EV 0x3104, and one in time leaves
with its timestamp; the loss of the master puts the time base into HOLDOVER; a picture sent counts its packets and releases its
buffer. -/
def Obligations.NetworkMovesFrames : Prop :=
  (∀ (p : Fin 2) (f : EthFrame) (s : State), s.dev.ethUp p = true → f.good = false →
    exec (.ethFrameReceived p f) s = .next (onDev (inc64 (Reg.eth_RX_ERRORS p)) s)) ∧
  (∀ (p : Fin 2) (f : EthFrame) (h : EthView) (s : State), s.dev.ethUp p = true → f.good = true →
    viewFrame f.data (s.dev.get (Reg.eth_PVID p)) = some h → s.dev.vlan h.vid = none →
    exec (.ethFrameReceived p f) s = .next (onDev (inc64 (Reg.eth_RX_FRAMES p)) s)) ∧
  (∀ (p : Fin 2) (f : EthFrame) (h : EthView) (m u : Nat) (s : State), s.dev.ethUp p = true → f.good = true →
    viewFrame f.data (s.dev.get (Reg.eth_PVID p)) = some h → f.data.length + 4 ≤ maxFrame → s.dev.vlan h.vid = some (m, u) →
    ptpType h.body = none → h.dst / 16 ≠ 0x0180C200000 →
    ((learn h.vid h.src (p + 1) (inc64 (Reg.eth_RX_FRAMES p) s.dev)).targets (p + 1) m h).contains 0 = false →
    exec (.ethFrameReceived p f) s = .next (onDev (fun d =>
      ((learn h.vid h.src (p + 1) (inc64 (Reg.eth_RX_FRAMES p) d)).targets (p + 1) m h).foldl
        (fun e q => ethSend q u { h with body := e.transit p f.residence h.body } e)
        (learn h.vid h.src (p + 1) (inc64 (Reg.eth_RX_FRAMES p) d))) s)) ∧
  (∀ (p : Fin 2) (s : State), exec (.ethLink p false) s = .next (onDev (Sys2Proof.Machine.ethLink p false) s)) ∧
  (∀ (p : Fin 2) (s : State), s.dev.runs (.eth p) = true → s.dev.flag (Reg.eth_ETH_STATE p) = false →
    exec (.ethLink p true) s = .next (onDev (fun d => linkJoin (Sys2Proof.Machine.ethLink p true d)) s)) ∧
  (∀ (mac : Nat) (s : State), completes (exec (.macAgeing mac) s) (fun t =>
    (∀ e, e ∈ t.dev.net.macs ↔ e ∈ s.dev.net.macs ∧
      (e.mac = mac → (s.dev.time.raw + 2 ^ 64 - e.raw) % 2 ^ 64 < 300 * 1200000000)) ∧
    t.dev.regs = s.dev.regs ∧ t.dev.sources = s.dev.sources ∧ t.arb = s.arb ∧ t.mem = s.mem)) ∧
  (∀ (p : Fin 2) (launch handed ty : Nat) (frame : List Byte) (h : EthView) (s : State),
    viewFrame frame (s.dev.get (Reg.eth_PVID p)) = some h → ptpType h.body = some ty → ty ≤ 3 →
    s.dev.flag Reg.ptp_PTP_ENABLE = true → s.dev.ethUp p = true →
    (tbDiff launch handed < s.dev.get Reg.ptp_LAUNCH_LEAD_US * 65536000 →
      completes (exec (.ptpLaunch p launch handed frame) s) (fun t =>
        t.dev.get Reg.ptp_LAUNCH_MISSED = (s.dev.get Reg.ptp_LAUNCH_MISSED + 1) % 2 ^ 64 ∧
        t.dev.sources = (post 0x3104 p ty (satU32 ((((s.dev.get Reg.ptp_LAUNCH_LEAD_US * 65536000 : Nat) : Int) -
          tbDiff launch handed).toNat / 65536000)) s.dev).sources ∧ t.dev.out = s.dev.out ∧
        ∀ k, k ≠ Reg.ptp_LAUNCH_MISSED → t.dev.val k = s.dev.val k)) ∧
    (∀ m u, s.dev.get Reg.ptp_LAUNCH_LEAD_US * 65536000 ≤ tbDiff launch handed → tbDue launch (tbNow s.dev) = true →
      s.dev.vlan h.vid = some (m, u) →
      exec (.ptpLaunch p launch handed frame) s =
        .next (onDev (fun d => ethSend (p + 1) u { h with body := stampLaunch launch d h.body } d) s))) ∧
  (∀ s : State, s.dev.flag Reg.ptp_PTP_ENABLE = true → s.dev.net.best.isSome = true →
    exec .masterLost s = .next (onDev (fun d => becomeMaster (tbState 3 d)) s)) ∧
  (∀ (k : Fin 8) (i : Nat) (rest : List Nat) (s : State), (s.dev.hev k).proxy = i :: rest →
    s.dev.flag (Reg.prx_PROXY_ENABLE k) = false → exec (.proxySend k) s = .next (onDev (proxyDone k i) s)) ∧
  (∀ (k : Fin 8) (i n : Nat) (rest : List Nat) (s : State), (s.dev.hev k).proxy = i :: rest →
    s.dev.flag (Reg.prx_PROXY_ENABLE k) = true →
    n = ((nalUnits (poundRead (s.dev.encOutAddr k i + 64)
        (rdLe (poundRead (s.dev.encOutAddr k i) 64 s).1 0x28 4) s).1 false []).map
      (rtpPayloads (s.dev.get (Reg.prx_PROXY_MTU k) - 40))).flatten.length →
    completes (exec (.proxySend k) s) (fun t => ∃ d : Dev,
      t = onDev (fun _ => proxyDone k i (datagrams (s.dev.get (Reg.prx_PROXY_DEST k) / 2 ^ 16) n
        (if s.dev.get (Reg.prx_PROXY_VLAN k) = 0 then 1 else s.dev.get (Reg.prx_PROXY_VLAN k)) d)) s ∧
      d.get (Reg.prx_PACKETS k) = (s.dev.get (Reg.prx_PACKETS k) + n) % 2 ^ 64 ∧ d.out.length = s.dev.out.length + n ∧
      ∀ j, j ≠ Reg.prx_PACKETS k → d.val j = s.dev.val j))

/-! ## The dictionary service -/

/-- The service (R419, R423 to R437): a message of a session whose SEQ is new is handled, answered on its transport with the
message's TYPE, and its response kept; what is handled of a WRITE, a READ_BLOCK or any other TYPE is `handle`'s; a message
without a whole header is answered with ERROR 0x0E; a write of an entry that a check refuses answers its code and changes nothing
else, and one accepted gives the entry its value; an EVENT message carries the records queued and leaves the queue; a block
write, a session and a lockout end when their time is over. -/
def Obligations.ServiceAnswers : Prop :=
  (∀ (m : TuradMsg) (h : TuradHead) (a : Ask) (r : SessionRef) (x : Session) (s s1 : State) (y : Reply) (b : List Byte),
    m.tr ≠ .twm → s.dev.served = true → turadHead m.data = some h → headFault s.dev m.tr m.waiting m.data.length h = none →
    askOf h = some a → h.flags = 0 → s.dev.authNeeded m.tr = false →
    r = { tr := m.tr, client := h.cid, ip := if m.tr = .udp then m.ip else 0 } →
    s.dev.session? r = some x → x.ks = none → x.responses.find? (fun z => z.1 == h.seq) = none → newer32 h.seq x.last = true →
    s1 = onDev (setSession r (fun z => { z with last := h.seq }))
      (onDev (fun d => setSession r (fun z => { z with raw := d.time.raw }) d) s) →
    y = handle (.client h.cid m.tr) r m.port h false a s1 →
    (h.ty = 2 ∨ h.ty = 4 → y.st.dev.served = true ∧ s.arb.next ≤ y.st.arb.next ∧ y.proof = false) →
    b = turadMsg h.ty h.cid y.count h.seq true false none y.body →
    ∀ t, t = turadSend m.tr r.ip m.port b (remember r h.seq b y.st) →
    (h.ty = 1 → exec (.turadRead m) s = .next t) ∧ (h.ty = 2 → exec (.turadWrite m) s = .next t) ∧
    (h.ty = 3 → exec (.readBlock m) s = .next t) ∧ (h.ty = 4 → exec (.writeBlock m) s = .next t) ∧
    (h.ty = 5 → exec (.subscribe m) s = .next t) ∧ (h.ty = 6 → exec (.unsubscribe m) s = .next t) ∧
    (h.ty = 1 → msgNames m Reg.auth_AUTH_CHALLENGE = true → exec (.authChallenge m) s = .next t)) ∧
  (∀ (m : TuradMsg) (h : TuradHead) (l : List Item) (r : SessionRef) (s : State) (y : Reply) (b : List Byte),
    m.tr ≠ .twm → s.dev.served = true → turadHead m.data = some h → headFault s.dev m.tr m.waiting m.data.length h = none →
    askOf h = some (.write l) → h.flags = 0 → s.dev.authNeeded m.tr = true →
    r = { tr := m.tr, client := h.cid, ip := if m.tr = .udp then m.ip else 0 } →
    l ≠ [] → (∀ i, i ∈ l → i.key = Reg.auth_AUTH_RESPONSE) → s.dev.session? r = none →
    y = handle (.client h.cid m.tr) r m.port h false (.write l) s → y.st.dev.served = true → s.arb.next ≤ y.st.arb.next →
    b = turadMsg h.ty h.cid y.count h.seq true true ((y.st.dev.session? r).bind (fun z => z.ks)) y.body →
    exec (.authResponse m) s = .next (turadSend m.tr r.ip m.port b
      (if y.st.dev.justOpened r h.seq then remember r h.seq b y.st else y.st))) ∧
  (∀ (m : TuradMsg) (s : State), s.dev.served = true → m.tr ≠ .twm → turadHead m.data = none → rdLe m.data 1 1 = 1 →
    exec (.turadRead m) s =
      .next (turadSend m.tr (if m.tr = .udp then m.ip else 0) m.port (turadError 0x0E 0 0 none) s)) ∧
  (∀ (w : Writer) (k c : Nat) (v : Val) (s : State), s.dev.calm = true → writeCheck s.dev w k v = some c →
    k ≠ Reg.fab_ARB_MODE → k ≠ Reg.auth_AUTH_RESPONSE →
    completes (exec (.dictWrite w k v) s) (fun t => t.dev.answer = c ∧ t.mem = s.mem ∧ t.arb = s.arb ∧
      t.dev.sources = s.dev.sources ∧ ∀ j, (∀ n, n < 8 → j ≠ Reg.tw_TW_STATE n) → t.dev.val j = s.dev.val j)) ∧
  (∀ (w : Writer) (n : Nat) (s : State), s.dev.calm = true → writeCheck s.dev w Reg.auth_SESSION_TIMEOUT_S (.num n) = none →
    completes (exec (.dictWrite w Reg.auth_SESSION_TIMEOUT_S (.num n)) s) (fun t => t.dev.answer = 0 ∧
      t.dev.get Reg.auth_SESSION_TIMEOUT_S = n ∧ t.mem = s.mem ∧ t.poison = s.poison ∧
      ∀ j, j ≠ Reg.auth_SESSION_TIMEOUT_S → j ≠ Reg.store_STORE_DIRTY → (∀ i, i < 8 → j ≠ Reg.tw_TW_STATE i) →
        t.dev.val j = s.dev.val j)) ∧
  (∀ (n : SessionRef) (x : Session) (u : Subscription) (room : Nat) (s : State), s.dev.session? n = some x → x.sub = some u →
    u.queue ≠ [] → n.tr ≠ .mailbox → room = (s.dev.turadLimit n.tr - 24 - (if x.ks.isSome then 16 else 0)) / 32 →
    exec (.eventMessageSend n) s = .next (turadSend n.tr n.ip x.port
      (turadMsg 7 n.client 0 (u.sent % 2 ^ 32) false x.ks.isSome x.ks (leBytes 4 (satU32 u.lost) ++
        leBytes 4 (u.queue.take room).length ++ ((u.queue.take room).map (fun r => r.bytes)).flatten))
      (onDev (setSession n (fun y => { y with
        sub := some { u with queue := u.queue.drop room, lost := 0, sent := u.sent + 1 } })) s))) ∧
  (∀ (n : SessionRef) (s : State), (∀ x, x ∈ s.dev.srv.sessions → x.has n = true →
      ∃ b, x.block = some b ∧ secs 10 ≤ s.dev.cyclesSince b.raw) →
    exec (.blockWriteTimeout n) s = .next (onDev (setSession n (fun x => { x with block := none })) s)) ∧
  (∀ (n : SessionRef) (x : Session) (s : State), s.dev.session? n = some x →
    secs (s.dev.get Reg.auth_SESSION_TIMEOUT_S) ≤ s.dev.cyclesSince x.raw →
    completes (exec (.sessionTimeout n) s) (fun t => t.dev.session? n = none ∧
      t.dev.sources = (post 0x0102 n.client 0 2 s.dev).sources ∧ t.dev.regs = s.dev.regs ∧ t.arb = s.arb ∧
      ∀ r, (∀ y : Session, y.has r = true → y.has n = false) → t.dev.session? r = s.dev.session? r)) ∧
  (∀ (c : Nat) (s : State), (∀ f, f ∈ s.dev.srv.fails → f.client = c →
      ∃ r, f.lockedRaw = some r ∧ secs 10 ≤ s.dev.cyclesSince r) →
    completes (exec (.authLockoutEnd c) s) (fun t => t.dev.locked c = false ∧ (∀ o, o ≠ c → t.dev.locked o = s.dev.locked o) ∧
      t.dev.regs = s.dev.regs ∧ t.dev.srv.sessions = s.dev.srv.sessions ∧ t.arb = s.arb))

/-- The store and the management target (R440, R444, R445, R489 to R491): a save that begins sets STORE_STATUS 1, one asked for
during a save waits with 2, and one asked for in hold-up is refused with 4 and EV 0x0324; a save that succeeds puts its image in
force with EV 0x0323, one that fails leaves 3, or 4 where hold-up came before its area was begun. The target's SUBMIT answers the message in its buffer, CLEAR zeroes an idle
status, a transaction is taken part by part, and a START wakes the sleeping target without an acknowledge. -/
def Obligations.StoreAndTargetWork : Prop :=
  (∀ (w : Writer) (s : State), writeCheck s.dev w Reg.store_STORE_SAVE (.num 1) = none →
    exec (.storeSave w) s = .next (accepted w Reg.store_STORE_SAVE (.num 1) (fun _ => onDev saveAsk) s)) ∧
  (∀ d : Dev, (d.srv.save.isSome = true → (saveAsk d).get Reg.store_STORE_STATUS = 2 ∧ (saveAsk d).srv.savePending = true ∧
      (saveAsk d).flash = d.flash ∧ ∀ k, k ≠ Reg.store_STORE_STATUS → (saveAsk d).val k = d.val k) ∧
    (d.srv.save = none → d.holdup = true → (saveAsk d).get Reg.store_STORE_STATUS = 4 ∧ (saveAsk d).srv = d.srv ∧
      (saveAsk d).sources = (post 0x0324 0xFFFF 5 0 d).sources ∧ (saveAsk d).flash = d.flash)) ∧
  (∀ (j : SaveJob) (area : Nat) (s : State), s.dev.srv.save = some j → s.dev.srv.savePending = false →
    completes (exec (.storeSaveComplete 0 area) s) (fun t => t.dev.get Reg.store_STORE_STATUS = 0 ∧
      t.dev.get Reg.store_STORE_SEQ = rdLe j.bank 8 4 ∧ t.dev.get Reg.store_CALIB_SEQ = rdLe j.bank 0x18 4 ∧
      t.dev.get Reg.store_STORE_BANK = otherArea s.dev.bankInForce ∧ t.dev.srv.save = none ∧
      (j.dirtyAfter = false → t.dev.get Reg.store_STORE_DIRTY = 0) ∧
      (if otherArea s.dev.bankInForce = 0 then t.dev.flash.bank0 = j.bank ∧ t.dev.flash.bank1 = s.dev.flash.bank1
        else t.dev.flash.bank1 = j.bank ∧ t.dev.flash.bank0 = s.dev.flash.bank0) ∧
      t.dev.sources = (post 0x0323 0xFFFF (rdLe j.bank 8 4) (rdLe j.bank 0x18 4) s.dev).sources ∧ t.arb = s.arb ∧ t.mem = s.mem)) ∧
  (∀ (j : SaveJob) (fail area : Nat) (s : State), s.dev.srv.save = some j → s.dev.srv.savePending = false → fail ≠ 0 →
    completes (exec (.storeSaveComplete fail area) s) (fun t =>
      t.dev.get Reg.store_STORE_STATUS = (if fail = 5 then 4 else 3) ∧ t.dev.srv.save = none ∧
      t.dev.sources = (post 0x0324 0xFFFF fail area s.dev).sources ∧
      (∀ k, k ≠ Reg.store_STORE_STATUS → t.dev.val k = s.dev.val k) ∧ t.arb = s.arb ∧ t.mem = s.mem)) ∧
  (∀ (h : TuradHead) (a : Ask) (y : Reply) (b q : List Byte) (s : State), s.dev.twmBusy = false → s.dev.served = true →
    q = padTo s.dev.twm.reqLen s.dev.twm.buf → turadHead q = some h → headFault s.dev .twm 0 q.length h = none →
    askOf h = some a → y = handle (.client h.cid .twm) { tr := .twm, client := h.cid, ip := 0 } 0 h false a s →
    b = turadMsg h.ty h.cid y.count h.seq true false none y.body →
    exec .twControlSubmit s = .next (onDev (setTwm (fun x => { x with
      buf := padTo 128 b, rspLen := b.length, status := 2 })) y.st)) ∧
  (∀ (b : List Byte) (s t : State), s.dev.twmBusy = false →
    turad .twm 0 0 0 (padTo s.dev.twm.reqLen s.dev.twm.buf) s = (some b, t) →
    exec .twControlSubmit s = .next (onDev (setTwm (fun x => { x with
      buf := padTo 128 b, rspLen := b.length, status := 2 + (if rdLe b 1 1 = 8 then 4 else 0) })) t)) ∧
  (∀ s : State, s.dev.twmBusy = false → completes (exec .twControlClear s) (fun t => t.dev.twm.status = 0 ∧
    t.dev.twm.buf = s.dev.twm.buf ∧ t.dev.twm.rspLen = s.dev.twm.rspLen ∧ t.dev.regs = s.dev.regs ∧ t.arb = s.arb ∧ t.mem = s.mem)) ∧
  (∀ (l : List TwmXfer) (s : State), s.dev.mode ≠ 0 → twmDeaf s = none →
    exec (.twmTransaction l) s = .next (l.foldl (fun u x => twmPart x u) s)) ∧
  (∀ (n : Nat) (s : State), s.dev.mode ≠ 0 → twmDeaf s = none →
    completes (exec (.twmTransaction [{ addr := s.dev.get Reg.twm_TWM_ADDR, read := true, data := [], count := n, misplaced := false }]) s)
      (fun t => t.dev.twm.pointer = (s.dev.twm.pointer + n) % 256 ∧ t.dev.regs = s.dev.regs ∧ t.arb = s.arb ∧ t.mem = s.mem ∧
        t.dev.out = s.dev.out ++ [{ kind := .twoWire, inst := 8, info := [s.dev.twm.pointer, n]
                                    data := (List.range n).map (fun i => s.dev.twmAt ((s.dev.twm.pointer + i) % 256)) }])) ∧
  (∀ s : State, s.dev.twm.asleep = true → s.dev.mode = mSTANDBY →
    completes (exec .twmWake s) (fun t => t.dev.twm.asleep = false ∧ t.dev.twm.wakeRaw = some s.dev.time.raw ∧
      t.dev.get Reg.twm_TWM_SLEEP_NACKS = (s.dev.get Reg.twm_TWM_SLEEP_NACKS + 1) % 2 ^ 32 ∧
      t.dev.sources = (post 0x3806 8 ((s.dev.get Reg.twm_TWM_SLEEP_NACKS + 1) % 2 ^ 32) 0 s.dev).sources ∧
      (∀ k, k ≠ Reg.twm_TWM_SLEEP_NACKS → t.dev.val k = s.dev.val k) ∧ t.arb = s.arb)) ∧
  (∀ s : State, s.dev.mode = mSTANDBY → s.dev.twmIdle = false → exec .twmSleep s = .next s) ∧
  (∀ s : State, s.dev.mode = mSTANDBY → s.dev.twmIdle = true → completes (exec .twmSleep s) (fun t => t.dev.twm.asleep = true ∧
    t.dev.regs = s.dev.regs ∧ t.dev.sources = s.dev.sources ∧ t.arb = s.arb ∧ t.mem = s.mem))

/-! ## The scan and strobe unit -/

/-- Encoders and lines (R449 to R472): a level that has not held for the filter's length changes nothing; a quadrature step moves its encoder's count by one in its direction and an edge that
skips a state counts an error; an index edge latches the position in index mode 2; a tick runs the tracking loop; the scan
starts with EV 0x3401 and its counters at 0; a slot that the position has reached is fired, or skipped when it comes too soon; a
fetched pattern entry joins those on chip; a strobe-sync pulse that comes too soon is counted, another fires the next entry. -/
def Obligations.ScanFollowsEncoders : Prop :=
  (∀ (e : Fin 4) (a b : Bool) (held : Nat) (j : Fin 400) (s : State), s.dev.hasScan = true →
    (s.dev.get (Reg.enc_ENC_FILTER e) ≤ held →
      exec (.encoderEdge e a b held j) s = .next (scanSettle (Sys2Proof.Machine.encoderEdge e a b j s))) ∧
    (held < s.dev.get (Reg.enc_ENC_FILTER e) → exec (.encoderEdge e a b held j) s = .next s ∧
      exec (.encoderIndex e held) s = .next s)) ∧
  (∀ (e : Nat) (a b : Bool) (d : Dev), e < d.enc.length → d.flag (Reg.enc_ENC_INVERT e) = false →
    ((quadPhase a b + 4 - quadPhase (d.encoder e).a (d.encoder e).b) % 4 = 1 →
      (encLevels e a b d).encoder e =
        { d.encoder e with a := a, b := b, c := toInt 48 (ofInt 48 ((d.encoder e).c + 1)) } ∧
      (encLevels e a b d).get (Reg.enc_ENC_POSITION e) = ofInt 64 (toInt 48 (ofInt 48 ((d.encoder e).c + 1)))) ∧
    ((quadPhase a b + 4 - quadPhase (d.encoder e).a (d.encoder e).b) % 4 = 3 →
      (encLevels e a b d).encoder e =
        { d.encoder e with a := a, b := b, c := toInt 48 (ofInt 48 ((d.encoder e).c - 1)) }) ∧
    ((quadPhase a b + 4 - quadPhase (d.encoder e).a (d.encoder e).b) % 4 = 2 →
      (encLevels e a b d).get (Reg.enc_ENC_ERRORS e) = (d.get (Reg.enc_ENC_ERRORS e) + 1) % 2 ^ 64 ∧
      ((encLevels e a b d).encoder e).c = (d.encoder e).c)) ∧
  (∀ (e : Fin 4) (held : Nat) (s : State), s.dev.hasScan = true → s.dev.get (Reg.enc_ENC_FILTER e) ≤ held →
    s.dev.get (Reg.enc_ENC_INDEX_MODE e) = 2 → completes (exec (.encoderIndex e held) s) (fun t => t.dev.get (Reg.enc_ENC_INDEX_POS e) = ofInt 64 (s.dev.encoder e).c ∧
      (t.dev.encoder e).c = (s.dev.encoder e).c ∧ (∀ k, k ≠ Reg.enc_ENC_INDEX_POS e → t.dev.val k = s.dev.val k) ∧
      t.dev.sources = s.dev.sources ∧ t.arb = s.arb ∧ t.mem = s.mem)) ∧
  (∀ (e : Fin 4) (s : State), s.dev.hasScan = true →
    completes (exec (.trackingTick e) s) (fun t => t = onDev (trackTick e) s ∧ (t.dev.encoder e).c = (s.dev.encoder e).c ∧
      t.arb = s.arb ∧ t.mem = s.mem)) ∧
  (∀ s : State, s.dev.hasScan = true → s.dev.calm = true → s.dev.mode = mSCAN → s.dev.target = 0 →
    s.dev.get Reg.scan_SCAN_STATE = 1 → s.dev.startSeen (s.dev.get Reg.scan_START_SOURCE) = true →
    completes (exec (.scanStart (s.dev.get Reg.scan_START_SOURCE)) s) (fun t => t.dev.get Reg.scan_SCAN_STATE = 2 ∧
      t.dev.get Reg.scan_LINES_FIRED = 0 ∧ t.dev.get Reg.scan_LINE_SLOT = 0 ∧ t.dev.scan.live = true ∧
      t.dev.scan.taken = 0 ∧ t.dev.scan.consumed = 0 ∧
      t.dev.sources = (post 0x3401 0xFFFF (s.dev.get Reg.scan_START_SOURCE) (tbNow s.dev % 2 ^ 32) s.dev).sources ∧
      (∀ k, k ≠ Reg.scan_SCAN_STATE → k ≠ Reg.scan_LINES_FIRED → k ≠ Reg.scan_LINE_SLOT → t.dev.val k = s.dev.val k) ∧
      t.arb = s.arb ∧ t.mem = s.mem)) ∧
  (∀ (j : Fin 400) (s : State), s.dev.hasScan = true → s.dev.scan.live = true → s.dev.scan.dirKnown = true →
    s.dev.scan.waitTurn = false → s.dev.moreFrames = true → s.dev.scan.forward = true →
    s.dev.slotPos s.dev.scan.slot true ≤ (s.dev.encoder (s.dev.get Reg.scan_SCAN_ENCODER)).posAt j →
    exec (.slotTrigger j) s = .next (scanSettle (if (openFrame s).dev.tooSoon
      then skipLine ((s.dev.encoder (s.dev.get Reg.scan_SCAN_ENCODER)).posAt j) (openFrame s)
      else fireLine ((s.dev.encoder (s.dev.get Reg.scan_SCAN_ENCODER)).posAt j) (openFrame s)))) ∧
  (∀ (i : Nat) (s : State), s.dev.hasScan = true → i < s.dev.get Reg.stb_PATTERN_LINES →
    completes (exec (.patternFetch i) s) (fun t => t.dev.scan.onChip = s.dev.scan.onChip ++
        [(i, if (poundRead (s.dev.patternBase + 80 * i) 80 s).2 then none
             else some (poundRead (s.dev.patternBase + 80 * i) 80 s).1)] ∧
      t.dev.regs = s.dev.regs ∧ t.dev.sources = s.dev.sources ∧ t.arb = s.arb ∧ t.mem = s.mem)) ∧
  (∀ s : State, s.dev.routed 6 = true → s.dev.mode = mCALIBRATE → s.dev.get Reg.stb_STROBE_SOURCE = 1 → s.dev.hasScan = true →
    s.dev.get Reg.stb_PATTERN_LINES ≠ 0 →
    (s.dev.tooSoon = true → exec .strobeSyncPulse s = .next (onDev (inc64 Reg.scan_LINES_SKIPPED) s)) ∧
    (s.dev.tooSoon = false → exec .strobeSyncPulse s = .next (onDev (fun d =>
      (fireEntry (d.scan.syncIdx % d.get Reg.stb_PATTERN_LINES) (freeDraw d).1 (d.scan.syncIdx % d.get Reg.stb_PATTERN_LINES)
        (setScan (fun c => { c with syncIdx := d.scan.syncIdx % d.get Reg.stb_PATTERN_LINES + 1, fireRaw := some d.time.raw })
          (freeDraw d).2)).2.2.2) s)))

/-! ## The two-wire buses -/

/-- The controller buses (R479 to R488): TW_XFER queues a client's transaction; the first of the queue starts on idle lines; a
transaction that succeeds counts in TW_TRANSACTIONS alone, leaves its result in TW_RESULT and posts EV 0x3801; one that has
waited too long for a busy bus ends with status 6; a clock stretched too long ends its transaction with 8 and pulses TWn_RST_N;
START and STOP conditions of others make a bus busy and idle; SCL held low begins the reset pulse, and its end releases the pin. -/
def Obligations.BusesRunTransactions : Prop :=
  (∀ (w : Writer) (n : Fin 8) (b : List Byte) (s : State), writeCheck s.dev w (Reg.tw_TW_XFER n) (.bytes b) = none →
    twXferOk b = true → (s.dev.bus n).clients < 8 →
    exec (.twXfer w n b) s = .next (twSettle n (accepted w (Reg.tw_TW_XFER n) (.bytes b)
      (fun _ => onDev (fun d => twSync n (twOffer n (twClient b) d))) s))) ∧
  (∀ (n : Fin 8) (x : TwXfer) (q : List TwXfer) (l : TwLines) (s : State), (s.dev.bus n).queue = x :: q →
    (s.dev.bus n).canStart = true → (s.dev.bus n).stuckAt = none → l.sclLow = false → l.sdaLow = false →
    exec (.twTransactionStart n l) s =
      .next (twSettle n (onDev (fun d => twBegin n x (setBus n (fun b => { b with queue := q }) d)) s))) ∧
  (∀ (n : Fin 8) (x : TwXfer) (r : TwEnd) (s : State), s.dev.calm = true → (s.dev.bus n).run = some x → x.owner = .client →
    (x.result r).1 = 0 → n.val < s.dev.tw.length →
    completes (exec (.twTransactionComplete n r) s) (fun t => (t.dev.bus n).run = none ∧ (t.dev.bus n).busy = false ∧
      t.dev.get (Reg.tw_TW_TRANSACTIONS n) = (s.dev.get (Reg.tw_TW_TRANSACTIONS n) + 1) % 2 ^ 64 ∧
      t.dev.get (Reg.tw_TW_FAILURES n) = s.dev.get (Reg.tw_TW_FAILURES n) ∧
      t.dev.bytes (Reg.tw_TW_RESULT n) = leBytes 4 x.tag ++ leBytes 1 0 ++ leBytes 1 x.wdata.length ++
        leBytes 1 (padTo x.rlen r.data).length ++ leBytes 1 x.attempts ++ leBytes 8 x.startTb ++ leBytes 8 (tbNow s.dev) ++
        padTo 64 (padTo x.rlen r.data) ∧
      t.dev.sources = (post 0x3801 n x.tag 0 s.dev).sources ∧ t.arb = s.arb ∧ t.mem = s.mem ∧
      ∀ k, k ≠ Reg.tw_TW_TRANSACTIONS n → k ≠ Reg.tw_TW_RESULT n → k ≠ Reg.tw_TW_STATE n → t.dev.val k = s.dev.val k)) ∧
  (∀ (x : TwXfer) (r : TwEnd), r.cut.val = 0 → (∀ a, a ∈ r.acks → a = true) → x.wdata.length + 2 ≤ r.acks.length →
    x.result r = (0, x.wdata.length, padTo x.rlen r.data)) ∧
  (∀ (x : TwXfer) (r : TwEnd), r.cut.val = 0 → x.wdata ≠ [] → r.acks = [] → (x.result r).1 = 1) ∧
  (∀ (n : Fin 8) (x : TwXfer) (d : Dev), ∃ b : Dev, b.regs = d.regs ∧ b.out = d.out ∧
    twBegin n x d = emit .twoWire n (0 :: (d.twTimes n ++ x.wires)) [] b) ∧
  (∀ (n : Fin 8) (x : TwXfer) (q : List TwXfer) (s : State), (s.dev.bus n).queue = x :: q → (s.dev.bus n).busy = true →
    s.dev.twWaited n = true →
    exec (.busBusyTimeout n) s =
      .next (twSettle n (onDev (fun d => twFinish n x 6 0 [] (setBus n (fun b => { b with queue := q }) d)) s))) ∧
  (∀ (n : Fin 8) (x : TwXfer) (s : State), (s.dev.bus n).run = some x →
    completes (exec (.stretchTimeout n) s) (fun t => ∃ acked, acked ≤ x.wdata.length ∧
      t = twSettle n (onDev (fun d => emitRst n (setBus n (fun b => { b with pulse := true })
        (twFinish n x 8 acked [] (twRunEnded n true d)))) (onDev (fun d => (freeDraw d).2) s)))) ∧
  (∀ (n : Fin 8) (s : State), s.dev.calm = true → (s.dev.bus n).run = none → n.val < s.dev.tw.length →
    completes (exec (.busIdle n) s) (fun t => (t.dev.bus n).busy = false ∧ (t.dev.bus n).queue = (s.dev.bus n).queue ∧
      (t.dev.bus n).run = none ∧ (t.dev.bus n).clearing = (s.dev.bus n).clearing ∧ t.arb = s.arb ∧ t.mem = s.mem ∧ t.dev.sources = s.dev.sources ∧ ∀ k, k ≠ Reg.tw_TW_STATE n → t.dev.val k = s.dev.val k)) ∧
  (∀ (n : Fin 8) (stop : Bool) (s : State), s.dev.calm = true → (s.dev.bus n).run = none → n.val < s.dev.tw.length →
    completes (exec (.busConditionSeen n stop) s) (fun t => (t.dev.bus n).busy = (!stop) ∧ (t.dev.bus n).queue = (s.dev.bus n).queue ∧
      (t.dev.bus n).run = none ∧ (t.dev.bus n).clearing = (s.dev.bus n).clearing ∧ t.arb = s.arb ∧ t.mem = s.mem ∧ t.dev.sources = s.dev.sources ∧ ∀ k, k ≠ Reg.tw_TW_STATE n → t.dev.val k = s.dev.val k)) ∧
  (∀ (n : Fin 8) (x : TwXfer) (q : List TwXfer) (s : State), (s.dev.bus n).queue = x :: q → (s.dev.bus n).canStart = true →
    s.dev.twWaited n = true → exec (.sclLowTimeout n) s =
      .next (twSettle n (onDev (fun d => clearPulse n x true (setBus n (fun b => { b with queue := q }) d)) s))) ∧
  (∀ (n : Fin 8) (l : TwLines) (s : State), (s.dev.bus n).pulse = true → (s.dev.bus n).clearing = none →
    s.dev.get (Reg.tw_TW_RST_TIME_US n) * 1200 ≤ (s.dev.time.raw + 2 ^ 64 - (s.dev.bus n).pulseAt) % 2 ^ 64 →
    exec (.twRstPulseEnd n l) s =
      .next (twSettle n (onDev (fun d => emitRst n (setBus n (fun b => { b with pulse := false }) d)) s))) ∧
  (∀ (n : Fin 8) (x : TwXfer) (via : Bool) (k : Nat) (l : TwLines) (s : State), (s.dev.bus n).pulse = true →
    (s.dev.bus n).clearing = some (x, via) → l.sclLow = false → clearPulses l.samples = some k →
    s.dev.get (Reg.tw_TW_RST_TIME_US n) * 1200 ≤ (s.dev.time.raw + 2 ^ 64 - (s.dev.bus n).pulseAt) % 2 ^ 64 →
    exec (.twRstPulseEnd n l) s = .next (twSettle n (onDev (fun d =>
      clearDone n x k 1 (emitRst n (setBus n (fun b => { b with pulse := false }) d))) s))) ∧
  (∀ (w : Writer) (n : Fin 8) (v : Bool) (s : State), writeCheck s.dev w (Reg.tw_TW_RST_ASSERT n) (.num (b2n v)) = none →
    exec (.twRstAssert w n v) s = .next (twSettle n (accepted w (Reg.tw_TW_RST_ASSERT n) (.num (b2n v))
      (fun _ => onDev (fun d => emitRst n (setN (Reg.tw_TW_RST_ASSERT n) (b2n v) d))) s)))

/-- Disabling a bus lets the running transaction complete, and its queued transactions complete DISABLED; a transaction offered
to a disabled bus, by whomever, completes DISABLED at once and is never sent; an enable written while a transaction runs takes
effect when it ends (R484). -/
def Obligations.DisabledBusSendsNothing : Prop :=
  (∀ (w : Writer) (n : Fin 8) (v : Bool) (s : State), writeCheck s.dev w (Reg.tw_TW_ENABLE n) (.num (b2n v)) = none →
    exec (.dictWrite w (Reg.tw_TW_ENABLE n) (.num (b2n v))) s = .next (writeSettle (accepted w (Reg.tw_TW_ENABLE n)
      (.num (b2n v)) (fun _ => onDev (fun d => twSync n (twEnable n v (setN (Reg.tw_TW_ENABLE n) (b2n v) d)))) s))) ∧
  (∀ (n : Fin 8) (d : Dev), n.val < d.tw.length →
    ((twEnable n false d).bus n).run = (d.bus n).run ∧ ((twEnable n false d).bus n).queue = [] ∧
    ((twEnable n false d).bus n).live = false ∧
    (twEnable n false d).get (Reg.tw_TW_FAILURES n) % 2 ^ 64 =
      (d.get (Reg.tw_TW_FAILURES n) + (d.bus n).queue.length) % 2 ^ 64) ∧
  (∀ (n : Fin 8) (x : TwXfer) (d : Dev), (d.bus n).live = false → twOffer n x d = twFinish n x 9 0 [] d ∧
    (twFinish n x 9 0 [] d).tw = d.tw ∧ (twFinish n x 9 0 [] d).out = d.out) ∧
  (∀ (n : Fin 8) (d : Dev), (d.bus n).run.isSome = true → twEnable n true d = d) ∧
  (∀ (n : Fin 8) (busy : Bool) (d : Dev), n.val < d.tw.length →
    ((twRunEnded n busy d).bus n).live = d.flag (Reg.tw_TW_ENABLE n) ∧ ((twRunEnded n busy d).bus n).run = none)

/-! ## Heat, power and resets -/

/-- Housekeeping and hold-up (R497, R508, R509, R512, R516): a round that finds a cause shuts the device down, another only
brings its readings and decisions; the restart timer ends THERMAL_HOLD by a warm reset of cause 0x10; PWR_FAIL begins hold-up
once, posting EV 0x3C07 and starting the recorder's gate; a restored input is posted with EV 0x3C08. -/
def Obligations.HeatAndHoldupAreHandled : Prop :=
  (∀ (codes : List Nat) (zones : List Rat) (hot : List (Nat × Nat)) (s : State), s.dev.mode ≠ 0 →
    (hkRound codes zones hot s.dev).shutCause = none →
    exec (.housekeepingRound codes zones hot) s = .next (magSettle (onDev (hkRound codes zones hot) s))) ∧
  (∀ (codes : List Nat) (zones : List Rat) (hot : List (Nat × Nat)) (c : Nat) (s : State), s.dev.mode ≠ 0 →
    (hkRound codes zones hot s.dev).shutCause = some c →
    exec (.housekeepingRound codes zones hot) s =
      .next (magSettle (hardwareShutdown c (onDev (hkRound codes zones hot) s)))) ∧
  (∀ (n : Nat) (s : State), s.dev.mode = mTHERMAL → s.dev.therm.holdMs = some n →
    s.dev.get Reg.thm_HOLD_TIME_S * 1000 ≤ n → exec .thermalRestartTimer s = .next (warmReset 0x10 s)) ∧
  (∀ (src : Nat) (s : State), s.dev.holdup = false → s.dev.mode = mPREVIEW →
    completes (exec (.pwrFail src) s) (fun t => ∃ d : Dev, t = magSettle (forceStandby (onDev (fun _ =>
        (List.finRange 8).foldl (fun e k => unitDisable (.bank k) none e) d) s)) ∧
      d.holdup = true ∧ d.get Reg.hold_HOLDUP_STATE = 1 ∧ d.mode = mPREVIEW ∧ d.units = s.dev.units ∧
      d.pwr.raw = s.dev.time.raw ∧ d.pwr.done = false ∧
      d.sources = (post 0x2903 0xFFFF (satU32 s.dev.rcq.refused) 3 (post 0x3C07 0xFFFF src s.dev.mode s.dev)).sources)) ∧
  (∀ (src : Nat) (s : State), s.dev.holdup = true → exec (.pwrFail src) s = .next s) ∧
  (∀ (mv : Nat) (s : State), s.dev.holdup = true → s.dev.pwr.restored = false → s.dev.pwr.done = false →
    s.dev.get Reg.rail_PWR_RESTORE_S * 1200000000 ≤ s.dev.since s.dev.pwr.raw →
    f32Rat (s.dev.get Reg.rail_PWR_FAIL_V) + f32Rat (s.dev.get Reg.rail_PWR_FAIL_HYST_V) ≤ ((mv : Nat) : Rat) / 1000 →
    completes (exec (.pwrRestored mv) s) (fun t => t.dev.get Reg.hold_HOLDUP_STATE = 3 ∧ t.dev.pwr.restored = true ∧
      t.dev.sources = (post 0x3C08 0xFFFF mv 0 s.dev).sources ∧ t.dev.mode = s.dev.mode ∧
      (∀ k, k ≠ Reg.hold_HOLDUP_STATE → t.dev.val k = s.dev.val k) ∧ t.arb = s.arb ∧ t.mem = s.mem))

/-- Resets (R529, and R22, R526 to R530, R554): after every reset RESET_CAUSE holds its code, the first record of the new
sequence is EV 0x0401 with ARG0 that code, and MODE_EXIT_CAUSE has the value that Table 21.3 maps it to. A reset puts the mode to
BOOT and loses the pound; of two requests during one reset the cause that stands first in R527 is that of the one reset; a
power-on reset sets RESET_COUNT 0, a warm reset counts in it; what Table 21.2 keeps is kept. A request
in THERMAL_HOLD is refused with EV 0x0403, and one of a host or a client in hold-up is held with EV 0x0402. Without power the
device is in OFF. -/
def Obligations.ResetsStartAnew : Prop :=
  (∀ (straps : Nat) (s : State), completes (exec (.powerOnReset straps) s) (fun t => t.dev.mode = mBOOT ∧ t.mem = [] ∧
    t.poison = [] ∧ t.arb.next = 1 ∧ t.arb.ring = [LogRecord.mk 0 (tbNow t.dev) 0x0401 0xFFFF (straps / 16 % 2) 0] ∧
    t.dev.get Reg.clk_RESET_CAUSE = straps / 16 % 2 ∧ t.dev.get Reg.mode_MODE_EXIT_CAUSE = 0 ∧
    t.dev.get Reg.clk_RESET_COUNT = 0 ∧ t.dev.boot.straps = straps % 16 ∧
    t.dev.sources = [] ∧ t.dev.fuses = s.dev.fuses ∧ t.hostMem = s.hostMem ∧ t.pending = s.pending)) ∧
  (∀ (c : Nat) (s : State), s.dev.mode ≠ 0 → s.dev.inReset = false → 0x10 ≤ c → c ≤ 0x15 →
    (warmReset c s).dev.mode = mBOOT ∧ (warmReset c s).mem = [] ∧ (warmReset c s).poison = [] ∧
    (warmReset c s).arb.next = 1 ∧ (warmReset c s).arb.ring.map (fun r => (r.seq, r.code, r.arg0)) = [(0, 0x0401, c)] ∧
    (warmReset c s).dev.get Reg.clk_RESET_CAUSE = c ∧
    (warmReset c s).dev.get Reg.mode_MODE_EXIT_CAUSE = (if c = 0x10 then 0x09 else 0x0B) ∧
    (warmReset c s).dev.get Reg.clk_RESET_COUNT = (s.dev.get Reg.clk_RESET_COUNT + 1) % 2 ^ 32 ∧
    (∀ k, k = Reg.tb_TB_OFFSET ∨ k = Reg.tb_TB_RATE ∨ k = Reg.tb_TB_ANCHOR ∨ k = Reg.tb_TB_EPOCH ∨ k = Reg.thm_SHUTDOWNS →
      (warmReset c s).dev.val k = s.dev.val k) ∧
    (warmReset c s).dev.time.raw = s.dev.time.raw ∧ (warmReset c s).dev.sources = [] ∧
    (warmReset c s).dev.fuses = s.dev.fuses ∧ (warmReset c s).hostMem = s.hostMem ∧ (warmReset c s).pending = s.pending) ∧
  (∀ (c : Nat) (s : State), s.dev.mode ≠ 0 → s.dev.inReset = true →
    (causeRank (s.dev.get Reg.clk_RESET_CAUSE) ≤ causeRank c → warmReset c s = s) ∧
    (causeRank c < causeRank (s.dev.get Reg.clk_RESET_CAUSE) → 0x10 ≤ c → c ≤ 0x15 →
      (warmReset c s).dev.get Reg.clk_RESET_CAUSE = c ∧
      (warmReset c s).arb.ring.map (fun r => (r.seq, r.code, r.arg0)) = [(0, 0x0401, c)] ∧
      (warmReset c s).dev.get Reg.mode_MODE_EXIT_CAUSE = (if c = 0x10 then 0x09 else 0x0B) ∧
      (warmReset c s).dev.get Reg.clk_RESET_COUNT = s.dev.get Reg.clk_RESET_COUNT)) ∧
  (∀ s : State, exec .clockFail s = .next (warmReset 0x15 s)) ∧
  (∀ (c : Nat) (s : State), s.dev.mode ≠ 0 → 0x11 ≤ c → c ≤ 0x14 →
    (s.dev.mode = mTHERMAL → exec (.warmReset c) s = .next (onDev (post 0x0403 0xFFFF c mTHERMAL) s)) ∧
    (s.dev.mode ≠ mTHERMAL → s.dev.holdup = false → exec (.warmReset c) s = .next (warmReset c s)) ∧
    (s.dev.mode ≠ mTHERMAL → s.dev.holdup = true → s.dev.pwr.done = false → c ≤ 0x12 → s.dev.pwr.held = none →
      completes (exec (.warmReset c) s) (fun t => t.dev.pwr.held = some c ∧ t.dev.mode = s.dev.mode ∧
        t.dev.sources = (post 0x0402 0xFFFF c 0 s.dev).sources ∧ t.dev.regs = s.dev.regs ∧ t.arb = s.arb ∧ t.mem = s.mem))) ∧
  (∀ (w : Writer) (s : State), writeCheck s.dev w Reg.clk_RESET_REQUEST (.num 0xA5A55A5A) = none →
    exec (.resetRequest w 0xA5A55A5A) s =
      .next (accepted w Reg.clk_RESET_REQUEST (.num 0xA5A55A5A) (fun _ => requestReset 0x12) s)) ∧
  (∀ s : State, (s.dev.boot.phase = .rom ∨ s.dev.boot.phase = .training) →
    s.dev.get Reg.clk_BOOT_WDT_S * 1200000000 ≤ s.dev.since s.dev.boot.wdtRaw →
    exec .bootWatchdogExpiry s = .next (requestReset 0x14 s)) ∧
  (∀ s : State, s.dev.boot.phase = .done → s.dev.mode ≠ mTHERMAL → 1200000000 ≤ s.dev.since s.dev.boot.wdtRaw →
    exec .runtimeWatchdogExpiry s = .next (requestReset 0x14 s)) ∧
  (∀ s : State, completes (exec .powerLoss s) (fun t => t.dev.mode = 0 ∧ t.mem = [] ∧ t.poison = [] ∧ t.arb.ring = [] ∧
    t.dev.fuses = s.dev.fuses ∧ t.hostMem = s.hostMem ∧ t.pending = s.pending))

/-- Boot and firmware (R532, R533, R537 to R541): the ROM takes the fastest I/O that the flash's parameter table declares; with
BOOT_SEL 1 it waits for a push, otherwise 0 tries the preferred slot and
then the other; a pushed image that passes its checks runs, and one that fails is reported with EV 0x0304; an update writes the
slot that is not running and makes it a trial; a commit and new IDs go to the boot header; VDD_ENG without a confirmation is
logged with EV 0x0404. -/
def Obligations.FirmwareBootsAndUpdates : Prop :=
  (∀ s : State, s.dev.mode = mBOOT → s.dev.boot.phase = .rom → s.dev.boot.straps % 4 = 1 →
    exec .romBoot s = .next (mbxGo (onDev (waitPush 1) (onDev norDiscover s)))) ∧
  (∀ d : Dev, (waitPush 1 (norDiscover d)).boot.phase = .waiting ∧ (waitPush 1 (norDiscover d)).get Reg.boot_BOOT_SOURCE = 1 ∧
    (waitPush 1 (norDiscover d)).sources = d.sources ∧ (waitPush 1 (norDiscover d)).flash = d.flash ∧
    (∀ k, k ≠ Reg.boot_BOOT_SOURCE → (waitPush 1 (norDiscover d)).val k = d.val k) ∧
    (d.flash.table = none → (norDiscover d).boot = d.boot) ∧
    (∀ a, d.flash.table = some a → (norDiscover d).boot.norLines = d.flash.lines ∧ (norDiscover d).boot.norMhz = 100)) ∧
  (∀ s t : State, s.dev.mode = mBOOT → s.dev.boot.phase = .rom → s.dev.boot.straps % 4 = 0 →
    t = onDev (norOut 1 0 0x2000) (onDev norDiscover s) →
    (rdLe s.dev.header 5 1 = 1 → exec .romBoot s = .next (mbxGo (romSlots [1, 0] [] 1 t))) ∧
    (rdLe s.dev.header 5 1 ≠ 1 → exec .romBoot s = .next (mbxGo (romSlots [0, 1] [] 0 t)))) ∧
  (∀ s : State, s.dev.mode = mBOOT → s.dev.boot.phase = .waiting →
    (imageCheck (fun o n => Mem.readBytes s.dev.boot.window o n) s.dev.boot.pushLen s.dev = 0 →
      exec .bootPushGo s = .next (mbxGo (firmwareStart 0xFF (s.dev.get Reg.boot_BOOT_SOURCE) false
        (s.dev.get Reg.boot_BOOT_SOURCE == 2) (Mem.readBytes s.dev.boot.window 0 512) s))) ∧
    (∀ r, imageCheck (fun o n => Mem.readBytes s.dev.boot.window o n) s.dev.boot.pushLen s.dev = r → r ≠ 0 →
      exec .bootPushGo s = .next (mbxGo (onDev (fun e => post 0x0304 0xFFFF 0xFF r
        { e with boot := { e.boot with pushStatus := r * 256 + 3 } }) s)))) ∧
  (∀ (w : Writer) (image : List Byte) (s : State), writeCheck s.dev w Reg.boot_FW_UPDATE (.bytes image) = none →
    (s.dev.mode = mSTANDBY ∨ s.dev.mode = mCONFIGURE) → image.length ≤ slotSize →
    exec (.fwUpdate w image) s =
      .next (accepted w Reg.boot_FW_UPDATE (.bytes image) (fun _ => onDev (Sys2Proof.Machine.fwUpdate image)) s)) ∧
  (∀ (w : Writer) (image : List Byte) (s : State), writeCheck s.dev w Reg.boot_FW_UPDATE (.bytes image) = none →
    s.dev.mode ≠ mSTANDBY → s.dev.mode ≠ mCONFIGURE →
    exec (.fwUpdate w image) s = .next (onDev (fun d => { d with answer := stMODE }) s)) ∧
  (∀ (w : Writer) (s : State), writeCheck s.dev w Reg.boot_FW_COMMIT (.num 1) = none →
    exec (.fwCommit w) s = .next (accepted w Reg.boot_FW_COMMIT (.num 1) (fun _ => onDev commitSlot) s)) ∧
  (∀ (w : Writer) (v : Nat) (s : State), writeCheck s.dev w Reg.boot_SUBSYSTEM_IDS (.num v) = none →
    exec (.subsystemIds w v) s = .next (accepted w Reg.boot_SUBSYSTEM_IDS (.num v) (fun _ => onDev (fun d =>
      writeHeader (putB d.header 0x10 (leBytes 2 (v / 65536) ++ leBytes 2 v)) (setN Reg.boot_SUBSYSTEM_IDS v d))) s)) ∧
  (∀ (mv raw : Nat) (s : State), s.dev.boot.vengRaw = some raw → 120000 ≤ s.dev.since raw →
    completes (exec (.vengConfirmTimeout mv) s) (fun t => t.dev.boot.vengRaw = none ∧
      t.dev.sources = (post 0x0404 0xFFFF s.dev.boot.vengSet mv s.dev).sources ∧ t.dev.regs = s.dev.regs ∧ t.arb = s.arb ∧
      t.mem = s.mem))

/-! ## Frames -/

/-- Commands that act on the units alone leave the log, the pound and its poison, the host's memory and the waiting commands as
they were. A write of an entry leaves the pound, its poison and the waiting commands: where its event's queue is full, the log
and the host's copy of it first take what waits there (R565). -/
def Obligations.UnitCommandsLeaveMemory : Prop :=
  (∀ (s : State) (c : Instr), (match c with
      | .weirTick _ | .backlogPost | .clockReview | .clockRaiseConfirmed _ | .ceilingCheck _ | .ckRestart _ | .tpgPulseEnd _
      | .stageApply | .tbEpochWrap | .ethFrameReceived _ _ | .ethLink _ _ | .macAgeing _ | .ptpLaunch _ _ _ _ | .masterLost
      | .proxySend _ | .encoderIndex _ _ | .trackingTick _ | .patternFetch _ | .strobeSyncPulse | .twmWake | .twmSleep
      | .twControlClear | .sessionTimeout _ | .blockWriteTimeout _ | .authLockoutEnd _ | .storeSaveComplete _ _
      | .vengConfirmTimeout _ | .prbsLock _ _ => true
      | _ => false) = true →
    completes (exec c s) (fun t => t.arb = s.arb ∧ t.mem = s.mem ∧ t.poison = s.poison ∧ t.hostMem = s.hostMem ∧
      t.pending = s.pending)) ∧
  (∀ (s : State) (c : Instr), (match c with
      | .storeSave _ | .fwUpdate _ _ | .fwCommit _ | .subsystemIds _ _ | .slip _ _ | .dwell _ _ | .prbsSel _ _ _
      | .loop _ _ _ | .submit _ _ _ | .tpgInvert _ _ _ | .tpgArm _ _ _ | .stageArm _ _ | .magKey _ _ _ | .magKeyClear _ _ => true
      | _ => false) = true →
    completes (exec c s) (fun t => t.mem = s.mem ∧ t.poison = s.poison ∧ t.pending = s.pending))
end

