-- ==== Sys2Proof/Laws/Memory.lean ====
section
/-! SUPPORT. Laws of the sparse memory: a read after a write, and the canonical form kept by every write. -/

namespace Sys2Proof.Machine

@[simp] theorem Mem.wf_nil : Mem.wf [] = true := rfl

/-- A list in canonical form above `lo` lists nothing at or below `lo`. -/
theorem Mem.read_below {m : Mem} {l x : Nat} (h : Mem.wfFrom (some l) m = true) (hx : x ≤ l) : m.read x = 0 := by
  induction m generalizing l with
  | nil => rfl
  | cons c m ih =>
    obtain ⟨b, w⟩ := c
    simp only [Mem.wfFrom, Bool.and_eq_true, decide_eq_true_eq] at h
    have hb : b ≠ x := by omega
    simp only [Mem.read, hb, if_false]
    exact ih h.2 (by omega)

/-- A list in canonical form above `lo` is so above anything lower. -/
theorem Mem.wfFrom_mono {m : Mem} {l k : Nat} (h : Mem.wfFrom (some l) m = true) (hk : k ≤ l) :
    Mem.wfFrom (some k) m = true := by
  cases m with
  | nil => rfl
  | cons c m =>
    obtain ⟨b, w⟩ := c
    simp only [Mem.wfFrom, Bool.and_eq_true, decide_eq_true_eq] at h ⊢
    exact ⟨⟨by omega, h.1.2⟩, h.2⟩

theorem Mem.wfFrom_none {m : Mem} {l : Nat} (h : Mem.wfFrom (some l) m = true) : Mem.wf m = true := by
  cases m with
  | nil => rfl
  | cons c m =>
    obtain ⟨b, w⟩ := c
    simp only [Mem.wf, Mem.wfFrom, Bool.and_eq_true, decide_eq_true_eq] at h ⊢
    exact ⟨⟨trivial, h.1.2⟩, h.2⟩

/-- One byte written above `lo` keeps the form above `lo`. -/
theorem Mem.wfFrom_write {m : Mem} {lo : Option Nat} {a : Nat} (v : Byte) (h : Mem.wfFrom lo m = true)
    (ha : ∀ l, lo = some l → l < a) : Mem.wfFrom lo (m.write a v) = true := by
  induction m generalizing lo with
  | nil => cases lo <;> simp only [Mem.write] <;> split <;> simp_all [Mem.wfFrom]
  | cons c m ih =>
    obtain ⟨b, w⟩ := c
    have h' := h
    simp only [Mem.wfFrom, Bool.and_eq_true, decide_eq_true_eq] at h
    obtain ⟨⟨h1, h2⟩, h3⟩ := h
    simp only [Mem.write]
    split
    · split
      · exact h'
      · rename_i hab hv
        have : Mem.wfFrom (some a) ((b, w) :: m) = true := by
          simp only [Mem.wfFrom, Bool.and_eq_true, decide_eq_true_eq]; exact ⟨⟨hab, h2⟩, h3⟩
        cases lo with
        | none => simp only [Mem.wfFrom, Bool.and_eq_true, decide_eq_true_eq] at this ⊢; exact ⟨⟨trivial, hv⟩, this⟩
        | some l =>
          simp only [Mem.wfFrom, Bool.and_eq_true, decide_eq_true_eq] at this ⊢
          exact ⟨⟨ha l rfl, hv⟩, this⟩
    · split
      · rename_i _ hab
        subst hab
        split
        · cases lo with
          | none => exact Mem.wfFrom_none h3
          | some l => exact Mem.wfFrom_mono h3 (Nat.le_of_lt (ha l rfl))
        · rename_i hv
          cases lo with
          | none => simp only [Mem.wfFrom, Bool.and_eq_true, decide_eq_true_eq]; exact ⟨⟨trivial, hv⟩, h3⟩
          | some l =>
            simp only [Mem.wfFrom, Bool.and_eq_true, decide_eq_true_eq]
            exact ⟨⟨ha l rfl, hv⟩, h3⟩
      · rename_i hn hne
        have hr := ih (lo := some b) h3 (by intro l hl; cases hl; omega)
        cases lo with
        | none => simp only [Mem.wfFrom, Bool.and_eq_true, decide_eq_true_eq] at *; exact ⟨⟨trivial, h2⟩, hr⟩
        | some l => simp only [Mem.wfFrom, Bool.and_eq_true, decide_eq_true_eq] at *; exact ⟨⟨h1, h2⟩, hr⟩

/-- One byte written keeps the canonical form. -/
theorem Mem.wf_write {m : Mem} (a : Nat) (v : Byte) (h : m.wf = true) : (m.write a v).wf = true :=
  Mem.wfFrom_write v h (by intro l hl; cases hl)

/-- Bytes written keep the canonical form. -/
theorem Mem.wf_writeBytes {m : Mem} (a : Nat) (bs : List Byte) (h : m.wf = true) : (m.writeBytes a bs).wf = true := by
  induction bs generalizing m a with
  | nil => exact h
  | cons b bs ih => exact ih (a + 1) (Mem.wf_write a b h)

/-- Reading the byte written gives it; every other byte reads as before. -/
theorem Mem.read_write_from {m : Mem} {lo : Option Nat} (a : Nat) (v : Byte) (x : Nat) (h : Mem.wfFrom lo m = true) :
    (m.write a v).read x = if x = a then v else m.read x := by
  induction m generalizing lo with
  | nil => grind [Mem.write, Mem.read]
  | cons c m ih =>
    obtain ⟨b, w⟩ := c
    simp only [Mem.wfFrom, Bool.and_eq_true, decide_eq_true_eq] at h
    obtain ⟨_, h3⟩ := h
    have h0 : x ≤ b → Mem.read m x = 0 := fun hx => Mem.read_below h3 hx
    grind [Mem.write, Mem.read]

/-- Reading the byte written gives it; every other byte reads as before. -/
theorem Mem.read_write {m : Mem} (a : Nat) (v : Byte) (x : Nat) (h : m.wf = true) :
    (m.write a v).read x = if x = a then v else m.read x := Mem.read_write_from a v x h

/-- Bytes outside those written read as before. -/
theorem Mem.read_writeBytes_other {m : Mem} (a : Nat) (bs : List Byte) (x : Nat) (h : m.wf = true)
    (hx : x < a ∨ a + bs.length ≤ x) : (m.writeBytes a bs).read x = m.read x := by
  induction bs generalizing m a with
  | nil => rfl
  | cons b bs ih =>
    simp only [List.length_cons] at hx
    rw [Mem.writeBytes, ih (a + 1) (Mem.wf_write a b h) (by omega), Mem.read_write a b x h, if_neg (by omega)]

/-- The bytes written read back. -/
theorem Mem.read_writeBytes_same {m : Mem} (a : Nat) (bs : List Byte) (i : Nat) (h : m.wf = true) (hi : i < bs.length) :
    (m.writeBytes a bs).read (a + i) = bs[i] := by
  induction bs generalizing m a i with
  | nil => simp at hi
  | cons b bs ih =>
    cases i with
    | zero =>
      rw [Mem.writeBytes, Mem.read_writeBytes_other (a + 1) bs (a + 0) (Mem.wf_write a b h) (by omega)]
      rw [Mem.read_write a b _ h]; simp
    | succ i =>
      have := ih (a + 1) i (Mem.wf_write a b h) (by simpa using hi)
      rw [Mem.writeBytes, show a + (i + 1) = a + 1 + i by omega, this]; rfl

end Sys2Proof.Machine
end

