-- ==== Sys2Proof/Laws/Keeps.lean ====
section
/-! SUPPORT. What every operation on the state keeps: the queue of commands, the canonical form of the two memories, and the
soundness of the log. -/

namespace Sys2Proof.Machine

/-- `t` has the queue of `s`, and the memories and the log are sound in `t` where they are in `s`. -/
structure Keeps (s t : State) : Prop where
  pending : t.pending = s.pending
  mem : s.mem.wf = true → t.mem.wf = true
  host : s.hostMem.wf = true → t.hostMem.wf = true
  log : s.arb.logSound = true → t.arb.logSound = true

/-- The state of an accepted write is kept so. -/
inductive KeepsW (s : State) : WRes → Prop where
  | ok {t : State} (h : Keeps s t) : KeepsW s (.ok t)
  | no (c : Nat) (e : Dev → Dev) : KeepsW s (.no c e)

theorem Keeps.rfl' (s : State) : Keeps s s := ⟨rfl, id, id, id⟩

/-- A change of the units alone. -/
theorem keeps_mk {s t : State} (e : Dev) (p : List Nat) :
    Keeps s { dev := e, arb := t.arb, mem := t.mem, poison := p, hostMem := t.hostMem, pending := t.pending } ↔ Keeps s t :=
  ⟨fun h => ⟨h.1, h.2, h.3, h.4⟩, fun h => ⟨h.1, h.2, h.3, h.4⟩⟩

/-- Nothing of the log that its soundness speaks of is changed. -/
theorem keeps_arb {s t : State} (e : Dev) (m : Nat) (w : List LogRecord) (q : List (Nat × Nat)) (p : List Nat) :
    Keeps s { dev := e, arb := { next := t.arb.next, depth := t.arb.depth, ring := t.arb.ring, missed := m, waiting := w, seqOf := q }
              mem := t.mem, poison := p, hostMem := t.hostMem, pending := t.pending } ↔ Keeps s t :=
  ⟨fun h => ⟨h.1, h.2, h.3, h.4⟩, fun h => ⟨h.1, h.2, h.3, h.4⟩⟩

/-- Bytes written to host memory. -/
theorem keeps_host {s t : State} (e : Dev) (a : Nat) (b : List Byte) (h : Keeps s t) :
    Keeps s { t with dev := e, hostMem := t.hostMem.writeBytes a b } :=
  ⟨h.1, h.2, fun x => Mem.wf_writeBytes _ _ (h.3 x), h.4⟩

/-- The pound cleared. -/
theorem keeps_nomem {s t : State} (e : Dev) (p : List Nat) (h : Keeps s t) :
    Keeps s { dev := e, arb := t.arb, mem := [], poison := p, hostMem := t.hostMem, pending := t.pending } :=
  ⟨h.1, fun _ => rfl, h.3, h.4⟩

theorem consecutive_append (n : Nat) (l : List LogRecord) (r : LogRecord) :
    consecutive n (l ++ [r]) = (consecutive n l && decide (r.seq = n + l.length)) := by
  induction l generalizing n with
  | nil => simp [consecutive]
  | cons x l ih => simp [consecutive, ih, Bool.and_assoc, Nat.add_assoc, Nat.add_comm 1]

theorem consecutive_drop (n k : Nat) (l : List LogRecord) (h : consecutive n l = true) (hk : k ≤ l.length) :
    consecutive (n + k) (l.drop k) = true := by
  induction k generalizing n l with
  | zero => simpa using h
  | succ k ih =>
    cases l with
    | nil => simp at hk
    | cons x l =>
      simp only [consecutive, Bool.and_eq_true] at h
      have := ih (n + 1) l h.2 (by simpa using hk)
      simpa [Nat.add_assoc, Nat.add_comm 1 k] using this

/-- A record appended to a sound log leaves it sound (R22, R24). -/
theorem Arbiter.logSound_append (a : Arbiter) (r : LogRecord) (hr : r.seq = a.next) (h : a.logSound = true) :
    (a.append r).logSound = true := by
  simp only [Arbiter.logSound, Arbiter.append, Bool.and_eq_true, decide_eq_true_eq, List.length_drop, List.length_append,
    List.length_singleton] at h ⊢
  obtain ⟨⟨h1, h2⟩, h3⟩ := h
  refine ⟨⟨by omega, by omega⟩, ?_⟩
  have hc : consecutive (a.next - a.ring.length) (a.ring ++ [r]) = true := by
    rw [consecutive_append, h3, hr]; simp; omega
  have := consecutive_drop _ (a.ring.length + 1 - a.depth) _ hc (by simp)
  have e : a.next + 1 - (a.ring.length + 1 - (a.ring.length + 1 - a.depth)) =
      a.next - a.ring.length + (a.ring.length + 1 - a.depth) := by omega
  rw [e]; exact this

/-- A log cut to another depth stays sound (R24). -/
theorem Arbiter.logSound_resize (a : Arbiter) (n : Nat) (h : a.logSound = true) : (a.resize n).logSound = true := by
  simp only [Arbiter.logSound, Arbiter.resize, Bool.and_eq_true, decide_eq_true_eq, List.length_drop] at h ⊢
  obtain ⟨⟨h1, h2⟩, h3⟩ := h
  refine ⟨⟨by omega, by omega⟩, ?_⟩
  have := consecutive_drop _ (a.ring.length - n) _ h3 (by omega)
  have e : a.next - (a.ring.length - (a.ring.length - n)) = a.next - a.ring.length + (a.ring.length - n) := by omega
  rw [e]; exact this

/-- A log of another depth. -/
theorem keeps_resize {s t : State} (e : Dev) (n : Nat) (h : Keeps s t) : Keeps s { t with dev := e, arb := t.arb.resize n } :=
  ⟨h.1, h.2, h.3, fun x => Arbiter.logSound_resize _ _ (h.4 x)⟩

theorem ite_keeps {c : Prop} [Decidable c] {s a b : State} (ha : Keeps s a) (hb : Keeps s b) : Keeps s (if c then a else b) := by
  split
  · exact ha
  · exact hb

theorem ite_keepsW {c : Prop} [Decidable c] {s : State} {a b : WRes} (ha : KeepsW s a) (hb : KeepsW s b) :
    KeepsW s (if c then a else b) := by
  split
  · exact ha
  · exact hb

theorem ite_keeps2 {α : Type} {c : Prop} [Decidable c] {s : State} {a b : α × State} (ha : Keeps s a.2) (hb : Keeps s b.2) :
    Keeps s (if c then a else b).2 := by
  split
  · exact ha
  · exact hb

theorem ite_keepsR {c : Prop} [Decidable c] {s : State} {a b : Reply} (ha : Keeps s a.st) (hb : Keeps s b.st) :
    Keeps s (if c then a else b).st := by
  split
  · exact ha
  · exact hb

theorem Mem.wfFrom_filter {m : Mem} {lo : Option Nat} (p : Host.Cell → Bool) (h : Mem.wfFrom lo m = true) :
    Mem.wfFrom lo (m.filter p) = true := by
  induction m generalizing lo with
  | nil => rfl
  | cons c m ih =>
    obtain ⟨b, w⟩ := c
    simp only [Mem.wfFrom, Bool.and_eq_true, decide_eq_true_eq] at h
    obtain ⟨⟨h1, h2⟩, h3⟩ := h
    cases hp : p (b, w) with
    | true =>
      simp only [List.filter, hp, Mem.wfFrom, Bool.and_eq_true, decide_eq_true_eq]
      exact ⟨⟨h1, h2⟩, ih h3⟩
    | false =>
      simp only [List.filter, hp]
      cases lo with
      | none => exact Mem.wfFrom_none (ih h3)
      | some l => exact ih (Mem.wfFrom_mono h3 (by simpa using Nat.le_of_lt (of_decide_eq_true (by simpa using h1))))

/-- A memory cleared over a range stays canonical. -/
theorem Mem.wf_filter {m : Mem} (p : Host.Cell → Bool) (h : m.wf = true) : Mem.wf (m.filter p) = true :=
  Mem.wfFrom_filter p h

theorem wf_scatter (l : List (Nat × Nat)) (o : Nat) (b : List Byte) (m : Mem) (h : m.wf = true) :
    Mem.wf (scatter l o b m) = true := by
  induction l generalizing o b m with
  | nil => exact h
  | cons x l ih =>
    obtain ⟨a, n⟩ := x
    unfold scatter
    split
    · exact ih _ _ _ h
    · exact ih _ _ _ (Mem.wf_writeBytes _ _ h)

theorem Keeps.foldl {α : Type} {s : State} (f : State → α → State) (hf : ∀ u x, Keeps s u → Keeps s (f u x)) (l : List α)
    (t : State) (h : Keeps s t) : Keeps s (l.foldl f t) := by
  induction l generalizing t with
  | nil => exact h
  | cons a l ih => exact ih _ (hf t a h)

end Sys2Proof.Machine
end

