-- ==== Sys2Proof/Laws/KeepsUnits.lean ====
section
/-! SUPPORT. The operations of the units keep the queue, the memories and the log (first part). -/

set_option linter.unusedTactic false
set_option linter.unreachableTactic false
set_option linter.unusedSimpArgs false

namespace Sys2Proof.Machine

theorem keeps_poundWrite (s t) (a0) (a1) (h : Keeps s t) : Keeps s (poundWrite a0 a1 t) := by
  refine ⟨h.1, ?_, h.3, h.4⟩
  intro hm
  have hw := h.2 hm
  simp only [poundWrite]
  split
  · generalize (a1.zipIdx) = l
    revert hw
    generalize t.mem = m
    intro hw
    induction l generalizing m with
    | nil => exact hw
    | cons x l ih =>
      refine ih _ ?_
      dsimp only
      split
      · exact hw
      · exact Mem.wf_write _ _ hw
  · exact Mem.wf_writeBytes _ _ hw

theorem keeps_onDev (s t) (a0) (h : Keeps s t) : Keeps s (onDev a0 t) := by
  unfold onDev
  (try extract_lets); (repeat' (first | assumption | with_reducible apply KeepsW.no | with_reducible apply keeps_poundWrite | with_reducible apply KeepsW.ok | split | (intro _) | extract_lets | simp only [keeps_mk, keeps_arb]))

theorem keeps_copyRecord (s t) (a0) (h : Keeps s t) : Keeps s (copyRecord a0 t) := by
  unfold copyRecord
  extract_lets e
  split
  · exact h
  · split
    · exact ⟨h.1, h.2, h.3, h.4⟩
    · split
      · exact ⟨h.1, h.2, h.3, h.4⟩
      · exact keeps_host _ _ _ h

theorem keeps_logRecord (s t) (a0) (a1) (a2) (a3) (a4) (h : Keeps s t) : Keeps s (logRecord a0 a1 a2 a3 a4 t) := by
  unfold logRecord
  dsimp only
  simp only [keeps_mk]
  exact keeps_copyRecord _ _ _ ⟨h.1, h.2, h.3, fun x => Arbiter.logSound_append _ _ rfl (h.4 x)⟩

theorem keeps_logOverrun (s t) (h : Keeps s t) : Keeps s (logOverrun t) := by
  unfold logOverrun
  (try extract_lets); (repeat' (first | assumption | with_reducible apply KeepsW.no | with_reducible apply keeps_logRecord | with_reducible apply keeps_onDev | with_reducible apply keeps_poundWrite | with_reducible apply KeepsW.ok | split | (intro _) | extract_lets | simp only [keeps_mk, keeps_arb] | dsimp +zetaDelta only))

theorem keeps_logEvent (s t) (a0) (h : Keeps s t) : Keeps s (logEvent a0 t) := by
  unfold logEvent
  (try extract_lets); (repeat' (first | assumption | with_reducible apply KeepsW.no | with_reducible apply keeps_logRecord | with_reducible apply keeps_onDev | with_reducible apply keeps_poundWrite | with_reducible apply KeepsW.ok | split | (intro _) | extract_lets | simp only [keeps_mk, keeps_arb] | dsimp +zetaDelta only))

theorem keeps_logLost (s t) (a0) (h : Keeps s t) : Keeps s (logLost a0 t) := by
  unfold logLost
  (try extract_lets); (repeat' (first | assumption | with_reducible apply KeepsW.no | with_reducible apply keeps_logRecord | with_reducible apply keeps_onDev | with_reducible apply keeps_poundWrite | with_reducible apply KeepsW.ok | split | (intro _) | extract_lets | simp only [keeps_mk, keeps_arb]))

theorem keeps_takeHead (s t) (a0) (h : Keeps s t) : Keeps s (takeHead a0 t) := by
  unfold takeHead
  (try extract_lets); (repeat' (first | assumption | with_reducible apply KeepsW.no | with_reducible apply keeps_logEvent | with_reducible apply keeps_logLost | with_reducible apply keeps_onDev | with_reducible apply keeps_poundWrite | with_reducible apply KeepsW.ok | split | (intro _) | extract_lets | simp only [keeps_mk, keeps_arb]))

theorem keeps_takeRest (s t) (a0) (a1) (h : Keeps s t) : Keeps s (takeRest a0 a1 t) := by
  induction a0 generalizing t with
  | zero => exact h
  | succ n ih =>
    unfold takeRest
    dsimp only
    repeat' (first | assumption | with_reducible apply ih | with_reducible apply keeps_takeHead | split | (intro _))

theorem keeps_arbitrate (s t) (h : Keeps s t) : Keeps s (arbitrate t) := by
  unfold arbitrate
  (try extract_lets); (repeat' (first | assumption | with_reducible apply KeepsW.no | with_reducible apply keeps_takeHead | with_reducible apply keeps_takeRest | with_reducible apply keeps_onDev | with_reducible apply keeps_poundWrite | with_reducible apply KeepsW.ok | with_reducible apply Keeps.foldl | split | (intro _) | extract_lets | simp only [keeps_mk, keeps_arb]))

theorem keeps_roomLoop (s t) (a0) (a1) (a2) (h : Keeps s t) : Keeps s (roomLoop a0 a1 a2 t) := by
  induction a2 generalizing t with
  | zero => exact h
  | succ n ih =>
    simp only [roomLoop]
    split
    · exact h
    · exact ih _ (keeps_arbitrate _ _ h)

theorem keeps_makeRoom (s t) (a0) (a1) (h : Keeps s t) : Keeps s (makeRoom a0 a1 t) := by
  unfold makeRoom
  (try extract_lets); (repeat' (first | assumption | with_reducible apply KeepsW.no | with_reducible apply keeps_roomLoop | with_reducible apply keeps_onDev | with_reducible apply keeps_poundWrite | with_reducible apply KeepsW.ok | with_reducible apply Keeps.foldl | split | (intro _) | extract_lets | simp only [keeps_mk, keeps_arb]))

theorem keeps_roomToRecord (s t) (a0) (h : Keeps s t) : Keeps s (roomToRecord a0 t) := by
  unfold roomToRecord
  (try extract_lets); (repeat' (first | assumption | with_reducible apply KeepsW.no | with_reducible apply keeps_makeRoom | with_reducible apply keeps_onDev | with_reducible apply keeps_poundWrite | with_reducible apply KeepsW.ok | split | (intro _) | extract_lets | simp only [keeps_mk, keeps_arb]))

theorem keeps_entryWrite (s t) (a0) (a1) (a2) (a3) (a4 : Nat → State → State) (_ : ∀ x u, Keeps s u → Keeps s (a4 x u)) (h :
    Keeps s t) : KeepsW s (entryWrite a0 a1 a2 a3 a4 t) := by
  unfold entryWrite
  split
  · exact KeepsW.no _ _
  · split
    · exact KeepsW.no _ _
    · exact KeepsW.ok (‹∀ x u, Keeps s u → Keeps s (a4 x u)› _ _ (keeps_onDev _ _ _ (keeps_roomToRecord _ _ _ h)))

theorem keeps_finishWrite (s t r) (h : Keeps s t) (hr : KeepsW s r) : Keeps s (finishWrite t r) := by
  cases hr with
  | ok h' => simpa only [finishWrite, keeps_mk] using h'
  | no c e => simpa only [finishWrite, keeps_mk] using h

theorem keeps_writeStageArm (s t) (a0) (a1) (h : Keeps s t) : KeepsW s (writeStageArm a0 a1 t) := by
  unfold writeStageArm
  (try extract_lets); (repeat' (first | assumption | with_reducible apply KeepsW.no | with_reducible apply keeps_entryWrite | with_reducible apply keeps_onDev | with_reducible apply keeps_poundWrite | with_reducible apply KeepsW.ok | split | (intro _) | extract_lets | simp only [keeps_mk, keeps_arb]))

theorem keeps_writeStaging (s t) (a0) (a1) (a2) (h : Keeps s t) : KeepsW s (writeStaging a0 a1 a2 t) := by
  unfold writeStaging
  (try extract_lets); (repeat' (first | assumption | with_reducible apply KeepsW.no | with_reducible apply keeps_entryWrite | with_reducible apply keeps_onDev | with_reducible apply keeps_poundWrite | with_reducible apply KeepsW.ok | split | (intro _) | extract_lets | simp only [keeps_mk, keeps_arb]))

theorem keeps_writeTwXfer (s t) (a0) (a1) (a2) (h : Keeps s t) : KeepsW s (writeTwXfer a0 a1 a2 t) := by
  unfold writeTwXfer
  (try extract_lets); (repeat' (first | assumption | with_reducible apply KeepsW.no | with_reducible apply keeps_entryWrite | with_reducible apply keeps_onDev | with_reducible apply keeps_poundWrite | with_reducible apply KeepsW.ok | split | (intro _) | extract_lets | simp only [keeps_mk, keeps_arb]))

theorem keeps_writeTwRstAssert (s t) (a0) (a1) (a2) (h : Keeps s t) : KeepsW s (writeTwRstAssert a0 a1 a2 t) := by
  unfold writeTwRstAssert
  (try extract_lets); (repeat' (first | assumption | with_reducible apply KeepsW.no | with_reducible apply keeps_entryWrite | with_reducible apply keeps_onDev | with_reducible apply keeps_poundWrite | with_reducible apply KeepsW.ok | split | (intro _) | extract_lets | simp only [keeps_mk, keeps_arb]))

theorem keeps_writeTwEntry (s t) (a0) (a1) (a2) (a3) (h : Keeps s t) : KeepsW s (writeTwEntry a0 a1 a2 a3 t) := by
  unfold writeTwEntry
  (try extract_lets); (repeat' (first | assumption | with_reducible apply KeepsW.no | with_reducible apply keeps_entryWrite | with_reducible apply keeps_onDev | with_reducible apply keeps_poundWrite | with_reducible apply KeepsW.ok | split | (intro _) | extract_lets | simp only [keeps_mk, keeps_arb]))

theorem keeps_writeSubmit (s t) (a0) (a1) (a2) (h : Keeps s t) : KeepsW s (writeSubmit a0 a1 a2 t) := by
  unfold writeSubmit
  (try extract_lets); (repeat' (first | assumption | with_reducible apply KeepsW.no | with_reducible apply keeps_entryWrite | with_reducible apply keeps_onDev | with_reducible apply keeps_poundWrite | with_reducible apply KeepsW.ok | split | (intro _) | extract_lets | simp only [keeps_mk, keeps_arb]))

theorem keeps_writeRecord (s t) (a0) (a1) (a2) (h : Keeps s t) : Keeps s (writeRecord a0 a1 a2 t) := by
  unfold writeRecord
  (try extract_lets); (repeat' (first | assumption | with_reducible apply KeepsW.no | with_reducible apply keeps_onDev | with_reducible apply keeps_poundWrite | with_reducible apply KeepsW.ok | split | (intro _) | extract_lets | simp only [keeps_mk, keeps_arb]))

theorem keeps_updateRecord (s t) (a0) (a1) (a2) (a3) (a4) (h : Keeps s t) : Keeps s (updateRecord a0 a1 a2 a3 a4 t) := by
  unfold updateRecord
  (try extract_lets); (repeat' (first | assumption | with_reducible apply KeepsW.no | with_reducible apply keeps_onDev | with_reducible apply keeps_poundWrite | with_reducible apply KeepsW.ok | split | (intro _) | extract_lets | simp only [keeps_mk, keeps_arb]))

theorem keeps_writePass (s t) (a0) (a1) (a2) (a3) (h : Keeps s t) : Keeps s (writePass a0 a1 a2 a3 t) := by
  unfold writePass
  (try extract_lets); (repeat' (first | assumption | with_reducible apply KeepsW.no | with_reducible apply keeps_onDev | with_reducible apply keeps_poundWrite | with_reducible apply KeepsW.ok | split | (intro _) | extract_lets | simp only [keeps_mk, keeps_arb]))

theorem keeps_writeRows (s t) (a0) (a1) (a2) (a3) (h : Keeps s t) : Keeps s (writeRows a0 a1 a2 a3 t) := by
  unfold writeRows
  (try extract_lets); (repeat' (first | assumption | with_reducible apply KeepsW.no | with_reducible apply keeps_writePass | with_reducible apply keeps_onDev | with_reducible apply keeps_poundWrite | with_reducible apply KeepsW.ok | with_reducible apply Keeps.foldl | split | (intro _) | extract_lets | simp only [keeps_mk, keeps_arb]))

theorem keeps_writeStats (s t) (a0) (a1) (a2) (a3) (a4) (a5) (a6) (a7) (a8) (h : Keeps s t) : Keeps s (writeStats a0 a1 a2 a3
    a4 a5 a6 a7 a8 t) := by
  unfold writeStats
  (try extract_lets); (repeat' (first | assumption | with_reducible apply KeepsW.no | with_reducible apply keeps_onDev | with_reducible apply keeps_poundWrite | with_reducible apply KeepsW.ok | split | (intro _) | extract_lets | simp only [keeps_mk, keeps_arb]))

theorem keeps_levelCheck (s t) (a0) (a1) (a2) (a3) (h : Keeps s t) : Keeps s (levelCheck a0 a1 a2 a3 t) := by
  unfold levelCheck
  (try extract_lets); (repeat' (first | assumption | with_reducible apply KeepsW.no | with_reducible apply keeps_onDev | with_reducible apply keeps_poundWrite | with_reducible apply KeepsW.ok | split | (intro _) | extract_lets | simp only [keeps_mk, keeps_arb]))

theorem keeps_endFrame (s t) (a0) (a1) (a2) (a3) (h : Keeps s t) : Keeps s (endFrame a0 a1 a2 a3 t) := by
  unfold endFrame
  cases t.dev.asm? a0 a1 with
  | none => exact h
  | some x =>
    refine (keeps_mk _ _).2 ?_
    exact keeps_writeRecord _ _ _ _ _ ((keeps_mk _ _).2 (keeps_levelCheck _ _ _ _ _ _ h))

theorem keeps_beginFrame (s t) (a0) (a1) (a2) (a3) (h : Keeps s t) : Keeps s (beginFrame a0 a1 a2 a3 t) := by
  unfold beginFrame
  extract_lets r hh d x n slot
  clear_value slot
  cases slot with
  | none => exact keeps_endFrame _ _ _ _ _ _ ((keeps_mk _ _).2 h)
  | some x => exact (keeps_mk _ _).2 h

theorem keeps_rowDone (s t) (a0) (a1) (a2) (a3) (a4) (h : Keeps s t) : Keeps s (rowDone a0 a1 a2 a3 a4 t) := by
  unfold rowDone
  extract_lets now d1
  clear_value d1
  cases d1.asm? a0 a1 with
  | none => exact h
  | some a =>
    dsimp -zeta only
    extract_lets c sA sB sC
    have h1 : Keeps s sA := keeps_writeRows _ _ _ _ _ _ ((keeps_mk _ _).2 h)
    have h2 : Keeps s sB := keeps_onDev _ _ _ h1
    clear_value sB
    have h3 : Keeps s sC := by
      dsimp only [sC]
      refine ite_keeps ?_ h2
      cases a.slot with
      | some i => exact keeps_writeStats _ _ _ _ _ _ _ _ _ _ _ h2
      | none => exact h2
    exact keeps_levelCheck _ _ _ _ _ _ h3

theorem keeps_finalStats (s t) (a0) (h : Keeps s t) : Keeps s (finalStats a0 t) := by
  unfold finalStats
  (try extract_lets); (repeat' (first | assumption | with_reducible apply KeepsW.no | with_reducible apply keeps_writeStats | with_reducible apply keeps_onDev | with_reducible apply keeps_poundWrite | with_reducible apply KeepsW.ok | split | (intro _) | extract_lets | simp only [keeps_mk, keeps_arb]))

theorem keeps_patternFetch (s t) (a0) (h : Keeps s t) : Keeps s (patternFetch a0 t) := by
  unfold patternFetch
  (try extract_lets); (repeat' (first | assumption | with_reducible apply KeepsW.no | with_reducible apply keeps_onDev | with_reducible apply keeps_poundWrite | with_reducible apply KeepsW.ok | split | (intro _) | extract_lets | simp only [keeps_mk, keeps_arb]))

theorem keeps_scanBegin (s t) (h : Keeps s t) : Keeps s (scanBegin t) := by
  unfold scanBegin
  (try extract_lets); (repeat' (first | assumption | with_reducible apply KeepsW.no | with_reducible apply keeps_beginFrame | with_reducible apply keeps_onDev | with_reducible apply keeps_poundWrite | with_reducible apply KeepsW.ok | split | (intro _) | extract_lets | simp only [keeps_mk, keeps_arb]))

theorem keeps_scanEndCheck (s t) (a0) (h : Keeps s t) : Keeps s (scanEndCheck a0 t) := by
  unfold scanEndCheck
  extract_lets p
  repeat' (first | assumption | with_reducible apply keeps_onDev | with_reducible apply keeps_endFrame | split)

theorem keeps_writeLineRec (s t) (a0) (a1) (h : Keeps s t) : Keeps s (writeLineRec a0 a1 t) := by
  unfold writeLineRec
  (try extract_lets); (repeat' (first | assumption | with_reducible apply KeepsW.no | with_reducible apply keeps_onDev | with_reducible apply keeps_poundWrite | with_reducible apply KeepsW.ok | split | (intro _) | extract_lets | simp only [keeps_mk, keeps_arb]))

theorem keeps_zeroRow (s t) (a0) (h : Keeps s t) : Keeps s (zeroRow a0 t) := by
  unfold zeroRow
  (try extract_lets); (repeat' (first | assumption | with_reducible apply KeepsW.no | with_reducible apply keeps_rowDone | with_reducible apply keeps_onDev | with_reducible apply keeps_poundWrite | with_reducible apply KeepsW.ok | split | (intro _) | extract_lets | simp only [keeps_mk, keeps_arb]))

theorem keeps_consumeSlot (s t) (h : Keeps s t) : Keeps s (consumeSlot t) := by
  unfold consumeSlot
  (try extract_lets); (repeat' (first | assumption | with_reducible apply KeepsW.no | with_reducible apply keeps_scanEndCheck | with_reducible apply keeps_onDev | with_reducible apply keeps_poundWrite | with_reducible apply KeepsW.ok | split | (intro _) | extract_lets | simp only [keeps_mk, keeps_arb] | dsimp +zetaDelta only))

theorem keeps_openFrame (s t) (h : Keeps s t) : Keeps s (openFrame t) := by
  unfold openFrame
  (try extract_lets); (repeat' (first | assumption | with_reducible apply KeepsW.no | with_reducible apply keeps_scanBegin | with_reducible apply keeps_onDev | with_reducible apply keeps_poundWrite | with_reducible apply KeepsW.ok | split | (intro _) | extract_lets | simp only [keeps_mk, keeps_arb]))

theorem keeps_reversalSkip (s t) (a0) (h : Keeps s t) : Keeps s (reversalSkip a0 t) := by
  unfold reversalSkip
  (try extract_lets); (repeat' (first | assumption | with_reducible apply KeepsW.no | with_reducible apply keeps_writeLineRec | with_reducible apply keeps_zeroRow | with_reducible apply keeps_consumeSlot | with_reducible apply keeps_openFrame | with_reducible apply keeps_onDev | with_reducible apply keeps_poundWrite | with_reducible apply KeepsW.ok | split | (intro _) | extract_lets | simp only [keeps_mk, keeps_arb]))

theorem keeps_scanStop (s t) (a0) (h : Keeps s t) : Keeps s (scanStop a0 t) := by
  unfold scanStop
  (try extract_lets); (repeat' (first | assumption | with_reducible apply KeepsW.no | with_reducible apply keeps_scanEndCheck | with_reducible apply keeps_onDev | with_reducible apply keeps_poundWrite | with_reducible apply KeepsW.ok | split | (intro _) | extract_lets | simp only [keeps_mk, keeps_arb] | dsimp +zetaDelta only))

theorem keeps_fireLine (s t) (a0) (h : Keeps s t) : Keeps s (fireLine a0 t) := by
  unfold fireLine
  (try extract_lets); (repeat' (first | assumption | with_reducible apply KeepsW.no | with_reducible apply keeps_writeLineRec | with_reducible apply keeps_consumeSlot | with_reducible apply keeps_onDev | with_reducible apply keeps_poundWrite | with_reducible apply KeepsW.ok | split | (intro _) | extract_lets | simp only [keeps_mk, keeps_arb]))

theorem keeps_skipLine (s t) (a0) (h : Keeps s t) : Keeps s (skipLine a0 t) := by
  unfold skipLine
  (try extract_lets); (repeat' (first | assumption | with_reducible apply KeepsW.no | with_reducible apply keeps_writeLineRec | with_reducible apply keeps_zeroRow | with_reducible apply keeps_consumeSlot | with_reducible apply keeps_scanStop | with_reducible apply keeps_onDev | with_reducible apply keeps_poundWrite | with_reducible apply KeepsW.ok | split | (intro _) | extract_lets | simp only [keeps_mk, keeps_arb]))

theorem keeps_slotTrigger (s t) (a0) (h : Keeps s t) : Keeps s (slotTrigger a0 t) := by
  unfold slotTrigger
  (try extract_lets); (repeat' (first | assumption | with_reducible apply KeepsW.no | with_reducible apply keeps_openFrame | with_reducible apply keeps_fireLine | with_reducible apply keeps_skipLine | with_reducible apply keeps_onDev | with_reducible apply keeps_poundWrite | with_reducible apply KeepsW.ok | split | (intro _) | extract_lets | simp only [keeps_mk, keeps_arb]))

theorem keeps_turnPass (s t) (a0) (a1) (h : Keeps s t) : Keeps s (turnPass a0 a1 t) := by
  unfold turnPass
  (try extract_lets); (repeat' (first | assumption | with_reducible apply KeepsW.no | with_reducible apply keeps_reversalSkip | with_reducible apply keeps_onDev | with_reducible apply keeps_poundWrite | with_reducible apply KeepsW.ok | with_reducible apply Keeps.foldl | split | (intro _) | extract_lets | simp only [keeps_mk, keeps_arb]))

theorem keeps_scanFollow (s t) (a0) (a1) (h : Keeps s t) : Keeps s (scanFollow a0 a1 t) := by
  unfold scanFollow
  (try extract_lets); (repeat' (first | assumption | with_reducible apply KeepsW.no | with_reducible apply keeps_turnPass | with_reducible apply keeps_onDev | with_reducible apply keeps_poundWrite | with_reducible apply KeepsW.ok | split | (intro _) | extract_lets | simp only [keeps_mk, keeps_arb]))

theorem keeps_encoderEdge (s t) (a0) (a1) (a2) (a3) (h : Keeps s t) : Keeps s (encoderEdge a0 a1 a2 a3 t) := by
  unfold encoderEdge
  (try extract_lets); (repeat' (first | assumption | with_reducible apply KeepsW.no | with_reducible apply keeps_scanFollow | with_reducible apply keeps_onDev | with_reducible apply keeps_poundWrite | with_reducible apply KeepsW.ok | split | (intro _) | extract_lets | simp only [keeps_mk, keeps_arb]))

theorem keeps_scanRow (s t) (a0) (h : Keeps s t) : Keeps s (scanRow a0 t) := by
  unfold scanRow
  (try extract_lets); (repeat' (first | assumption | with_reducible apply KeepsW.no | with_reducible apply keeps_rowDone | with_reducible apply keeps_scanEndCheck | with_reducible apply keeps_onDev | with_reducible apply keeps_poundWrite | with_reducible apply KeepsW.ok | split | (intro _) | extract_lets | simp only [keeps_mk, keeps_arb]))

theorem keeps_scanLate (s t) (h : Keeps s t) : Keeps s (scanLate t) := by
  unfold scanLate
  (try extract_lets); (repeat' (first | assumption | with_reducible apply KeepsW.no | with_reducible apply keeps_endFrame | with_reducible apply keeps_onDev | with_reducible apply keeps_poundWrite | with_reducible apply KeepsW.ok | split | (intro _) | extract_lets | simp only [keeps_mk, keeps_arb]))

theorem keeps_rowPad (s t) (a0) (a1) (a2) (a3) (a4) (h : Keeps s t) : Keeps s (rowPad a0 a1 a2 a3 a4 t) := by
  unfold rowPad
  (try extract_lets); (repeat' (first | assumption | with_reducible apply KeepsW.no | with_reducible apply keeps_onDev | with_reducible apply keeps_poundWrite | with_reducible apply KeepsW.ok | split | (intro _) | extract_lets | simp only [keeps_mk, keeps_arb]))

theorem keeps_writePixel (s t) (a0) (a1) (a2) (a3) (a4) (a5) (a6) (h : Keeps s t) : Keeps s (writePixel a0 a1 a2 a3 a4 a5 a6
    t) := by
  unfold writePixel
  (try extract_lets); (repeat' (first | assumption | with_reducible apply KeepsW.no | with_reducible apply keeps_rowPad | with_reducible apply keeps_onDev | with_reducible apply keeps_poundWrite | with_reducible apply KeepsW.ok | with_reducible apply Keeps.foldl | split | (intro _) | extract_lets | simp only [keeps_mk, keeps_arb]))

theorem keeps_writeLane (s t) (a0) (a1) (a2) (a3) (a4) (h : Keeps s t) : Keeps s (writeLane a0 a1 a2 a3 a4 t) := by
  unfold writeLane
  (try extract_lets); (repeat' (first | assumption | with_reducible apply KeepsW.no | with_reducible apply keeps_writePixel | with_reducible apply keeps_onDev | with_reducible apply keeps_poundWrite | with_reducible apply KeepsW.ok | with_reducible apply Keeps.foldl | split | (intro _) | extract_lets | simp only [keeps_mk, keeps_arb]))

theorem keeps_greyLane (s t) (a0) (a1) (a2) (a3) (h : Keeps s t) : Keeps s (greyLane a0 a1 a2 a3 t) := by
  unfold greyLane
  (try extract_lets); (repeat' (first | assumption | with_reducible apply KeepsW.no | with_reducible apply keeps_rowPad | with_reducible apply keeps_onDev | with_reducible apply keeps_poundWrite | with_reducible apply KeepsW.ok | with_reducible apply Keeps.foldl | split | (intro _) | extract_lets | simp only [keeps_mk, keeps_arb]))

theorem keeps_developTile (s t) (a0) (a1) (a2) (h : Keeps s t) : Keeps s (developTile a0 a1 a2 t).2 := by
  unfold developTile
  (try extract_lets); (repeat' (first | assumption | with_reducible apply KeepsW.no | with_reducible apply keeps_writeLane | with_reducible apply keeps_greyLane | with_reducible apply keeps_onDev | with_reducible apply keeps_poundWrite | with_reducible apply KeepsW.ok | with_reducible apply Keeps.foldl | split | (intro _) | extract_lets | simp only [keeps_mk, keeps_arb]))

theorem keeps_fillGrey (s t) (a0) (a1) (h : Keeps s t) : Keeps s (fillGrey a0 a1 t) := by
  unfold fillGrey
  (try extract_lets); (repeat' (first | assumption | with_reducible apply KeepsW.no | with_reducible apply keeps_onDev | with_reducible apply keeps_poundWrite | with_reducible apply KeepsW.ok | with_reducible apply Keeps.foldl | split | (intro _) | extract_lets | simp only [keeps_mk, keeps_arb]))

theorem keeps_poolCmd (s t) (a0) (h : Keeps s t) : Keeps s (poolCmd a0 t) := by
  unfold poolCmd
  (try extract_lets); (repeat' (first | assumption | with_reducible apply KeepsW.no | with_reducible apply keeps_fillGrey | with_reducible apply keeps_onDev | with_reducible apply keeps_poundWrite | with_reducible apply KeepsW.ok | split | (intro _) | extract_lets | simp only [keeps_mk, keeps_arb] | dsimp +zetaDelta only))

theorem keeps_fwMark (s t) (a0) (a1) (a2) (a3) (a4) (h : Keeps s t) : Keeps s (fwMark a0 a1 a2 a3 a4 t) := by
  unfold fwMark
  (try extract_lets); (repeat' (first | assumption | with_reducible apply KeepsW.no | with_reducible apply keeps_poolCmd | with_reducible apply keeps_onDev | with_reducible apply keeps_poundWrite | with_reducible apply KeepsW.ok | split | (intro _) | extract_lets | simp only [keeps_mk, keeps_arb]))

theorem keeps_fwGenerate (s t) (a0) (a1) (h : Keeps s t) : Keeps s (fwGenerate a0 a1 t) := by
  unfold fwGenerate
  (try extract_lets); (repeat' (first | assumption | with_reducible apply KeepsW.no | with_reducible apply keeps_poolCmd | with_reducible apply keeps_onDev | with_reducible apply keeps_poundWrite | with_reducible apply KeepsW.ok | split | (intro _) | extract_lets | simp only [keeps_mk, keeps_arb]))

theorem keeps_writePoolCmd (s t) (a0) (a1) (h : Keeps s t) : KeepsW s (writePoolCmd a0 a1 t) := by
  unfold writePoolCmd
  (try extract_lets); (repeat' (first | assumption | with_reducible apply KeepsW.no | with_reducible apply keeps_entryWrite | with_reducible apply keeps_poolCmd | with_reducible apply keeps_onDev | with_reducible apply keeps_poundWrite | with_reducible apply KeepsW.ok | split | (intro _) | extract_lets | simp only [keeps_mk, keeps_arb]))

theorem keeps_encTake (s t) (a0) (a1) (a2) (a3) (h : Keeps s t) : Keeps s (encTake a0 a1 a2 a3 t) := by
  unfold encTake
  (try extract_lets); (repeat' (first | assumption | with_reducible apply KeepsW.no | with_reducible apply keeps_onDev | with_reducible apply keeps_poundWrite | with_reducible apply KeepsW.ok | split | (intro _) | extract_lets | simp only [keeps_mk, keeps_arb]))

theorem keeps_encPublish (s t) (a0) (a1) (a2) (h : Keeps s t) : Keeps s (encPublish a0 a1 a2 t) := by
  unfold encPublish
  apply Keeps.foldl
  · intro u x hu
    split
    · split
      · exact keeps_encTake _ _ _ _ _ _ (keeps_onDev _ _ _ hu)
      · exact hu
    · exact hu
  · exact h

theorem keeps_encExpiry (s t) (a0) (h : Keeps s t) : Keeps s (encExpiry a0 t) := by
  unfold encExpiry
  (try extract_lets); (repeat' (first | assumption | with_reducible apply KeepsW.no | with_reducible apply keeps_encTake | with_reducible apply keeps_onDev | with_reducible apply keeps_poundWrite | with_reducible apply KeepsW.ok | split | (intro _) | extract_lets | simp only [keeps_mk, keeps_arb]))

theorem keeps_viewPublish (s t) (a0) (a1) (h : Keeps s t) : Keeps s (viewPublish a0 a1 t) := by
  unfold viewPublish
  extract_lets v x d0 d1 d2
  refine ite_keeps ?_ ?_
  · exact keeps_onDev _ _ _ h
  · exact keeps_encPublish _ _ _ _ _ ((keeps_mk _ _).2 h)

theorem keeps_writeStaged (s t) (a0) (a1) (a2) (a3) (h : Keeps s t) : KeepsW s (writeStaged a0 a1 a2 a3 t) := by
  unfold writeStaged
  (try extract_lets); (repeat' (first | assumption | with_reducible apply KeepsW.no | with_reducible apply keeps_entryWrite | with_reducible apply keeps_onDev | with_reducible apply keeps_poundWrite | with_reducible apply KeepsW.ok | split | (intro _) | extract_lets | simp only [keeps_mk, keeps_arb]))

theorem keeps_writeCommitFrame (s t) (a0) (a1) (a2) (h : Keeps s t) : KeepsW s (writeCommitFrame a0 a1 a2 t) := by
  unfold writeCommitFrame
  (try extract_lets); (repeat' (first | assumption | with_reducible apply KeepsW.no | with_reducible apply keeps_entryWrite | with_reducible apply keeps_onDev | with_reducible apply keeps_poundWrite | with_reducible apply KeepsW.ok | split | (intro _) | extract_lets | simp only [keeps_mk, keeps_arb]))

theorem keeps_writeCommitRecord (s t) (a0) (a1) (a2) (h : Keeps s t) : KeepsW s (writeCommitRecord a0 a1 a2 t) := by
  unfold writeCommitRecord
  (try extract_lets); (repeat' (first | assumption | with_reducible apply KeepsW.no | with_reducible apply keeps_entryWrite | with_reducible apply keeps_onDev | with_reducible apply keeps_poundWrite | with_reducible apply KeepsW.ok | split | (intro _) | extract_lets | simp only [keeps_mk, keeps_arb]))

theorem keeps_writeCommitCancel (s t) (a0) (a1) (a2) (h : Keeps s t) : KeepsW s (writeCommitCancel a0 a1 a2 t) := by
  unfold writeCommitCancel
  (try extract_lets); (repeat' (first | assumption | with_reducible apply KeepsW.no | with_reducible apply keeps_entryWrite | with_reducible apply keeps_onDev | with_reducible apply keeps_poundWrite | with_reducible apply KeepsW.ok | split | (intro _) | extract_lets | simp only [keeps_mk, keeps_arb]))

theorem keeps_statsTile (s t) (a0) (a1) (a2) (a3) (a4) (a5) (a6) (a7) (h : Keeps s t) : Keeps s (statsTile a0 a1 a2 a3 a4 a5
    a6 a7 t).2 := by
  unfold statsTile
  (try extract_lets); (repeat' (first | assumption | with_reducible apply KeepsW.no | with_reducible apply keeps_onDev | with_reducible apply keeps_poundWrite | with_reducible apply KeepsW.ok | split | (intro _) | extract_lets | simp only [keeps_mk, keeps_arb]))

theorem keeps_fbAccumulate (s t) (a0) (a1) (a2) (h : Keeps s t) : Keeps s (fbAccumulate a0 a1 a2 t) := by
  unfold fbAccumulate
  (try extract_lets); (repeat' (first | assumption | with_reducible apply KeepsW.no | with_reducible apply keeps_onDev | with_reducible apply keeps_poundWrite | with_reducible apply KeepsW.ok | with_reducible apply Keeps.foldl | split | (intro _) | extract_lets | simp only [keeps_mk, keeps_arb]))

theorem keeps_fbPass2 (s t) (a0) (a1) (a2) (a3) (a4) (a5) (a6) (a7) (a8) (a9) (a10) (h : Keeps s t) : Keeps s (fbPass2 a0 a1
    a2 a3 a4 a5 a6 a7 a8 a9 a10 t).2.2 := by
  unfold fbPass2
  extract_lets tt
  generalize tileSites tt = l
  generalize h0 : (([] : List Nat), 0, t) = z
  have hz : Keeps s z.2.2 := by rw [← h0]; exact h
  clear h0
  induction l generalizing z with
  | nil => exact hz
  | cons x l ih => exact ih _ (keeps_poundWrite _ _ _ _ hz)

theorem keeps_postWork (s t) (a0) (a1) (h : Keeps s t) : Keeps s (postWork a0 a1 t) := by
  unfold postWork
  (try extract_lets); (repeat' (first | assumption | with_reducible apply KeepsW.no | with_reducible apply keeps_onDev | with_reducible apply keeps_poundWrite | with_reducible apply KeepsW.ok | split | (intro _) | extract_lets | simp only [keeps_mk, keeps_arb]))

theorem keeps_takeUpCode (s t) (a0) (a1) (a2) (a3) (h : Keeps s t) : Keeps s (takeUpCode a0 a1 a2 a3 t).2 := by
  unfold takeUpCode
  (try extract_lets); (repeat' (first | assumption | with_reducible apply KeepsW.no | with_reducible apply keeps_postWork | with_reducible apply keeps_onDev | with_reducible apply keeps_poundWrite | with_reducible apply KeepsW.ok | split | (intro _) | extract_lets | simp only [keeps_mk, keeps_arb]))

theorem keeps_takeUpDevelop (s t) (a0) (a1) (a2) (a3) (a4) (a5) (h : Keeps s t) : Keeps s (takeUpDevelop a0 a1 a2 a3 a4 a5 t)
    := by
  unfold takeUpDevelop
  (try extract_lets); (repeat' (first | assumption | with_reducible apply KeepsW.no | with_reducible apply keeps_postWork | with_reducible apply keeps_onDev | with_reducible apply keeps_poundWrite | with_reducible apply KeepsW.ok | with_reducible apply Keeps.foldl | split | (intro _) | extract_lets | simp only [keeps_mk, keeps_arb]))

theorem keeps_takeUpRecord (s t) (a0) (h : Keeps s t) : Keeps s (takeUpRecord a0 t) := by
  unfold takeUpRecord
  (try extract_lets); (repeat' (first | assumption | with_reducible apply KeepsW.no | with_reducible apply keeps_takeUpCode | with_reducible apply keeps_onDev | with_reducible apply keeps_poundWrite | with_reducible apply KeepsW.ok | split | (intro _) | extract_lets | simp only [keeps_mk, keeps_arb]))

theorem keeps_takeUpStats (s t) (a0) (h : Keeps s t) : Keeps s (takeUpStats a0 t) := by
  unfold takeUpStats
  (try extract_lets); (repeat' (first | assumption | with_reducible apply KeepsW.no | with_reducible apply keeps_postWork | with_reducible apply keeps_onDev | with_reducible apply keeps_poundWrite | with_reducible apply KeepsW.ok | split | (intro _) | extract_lets | simp only [keeps_mk, keeps_arb]))

theorem keeps_takeUpFlat (s t) (a0) (h : Keeps s t) : Keeps s (takeUpFlat a0 t) := by
  unfold takeUpFlat
  (try extract_lets); (repeat' (first | assumption | with_reducible apply KeepsW.no | with_reducible apply keeps_postWork | with_reducible apply keeps_onDev | with_reducible apply keeps_poundWrite | with_reducible apply KeepsW.ok | split | (intro _) | extract_lets | simp only [keeps_mk, keeps_arb]))

theorem keeps_takeUpFrame (s t) (a0) (h : Keeps s t) : Keeps s (takeUpFrame a0 t) := by
  unfold takeUpFrame
  (try extract_lets); (repeat' (first | assumption | with_reducible apply KeepsW.no | with_reducible apply keeps_takeUpDevelop | with_reducible apply keeps_takeUpRecord | with_reducible apply keeps_takeUpStats | with_reducible apply keeps_takeUpFlat | with_reducible apply keeps_onDev | with_reducible apply keeps_poundWrite | with_reducible apply KeepsW.ok | split | (intro _) | extract_lets | simp only [keeps_mk, keeps_arb]))

theorem keeps_offloadFrames (s t) (h : Keeps s t) : Keeps s (offloadFrames t) := by
  unfold offloadFrames
  (try extract_lets); (repeat' (first | assumption | with_reducible apply KeepsW.no | with_reducible apply keeps_onDev | with_reducible apply keeps_poundWrite | with_reducible apply KeepsW.ok | with_reducible apply Keeps.foldl | split | (intro _) | extract_lets | simp only [keeps_mk, keeps_arb]))

theorem keeps_developDecoded (s t) (a0) (a1) (a2) (a3) (a4) (a5) (a6) (h : Keeps s t) : Keeps s (developDecoded a0 a1 a2 a3
    a4 a5 a6 t).2 := by
  unfold developDecoded
  (try extract_lets); (repeat' (first | assumption | with_reducible apply KeepsW.no | with_reducible apply keeps_writeLane | with_reducible apply keeps_greyLane | with_reducible apply keeps_onDev | with_reducible apply keeps_poundWrite | with_reducible apply KeepsW.ok | with_reducible apply Keeps.foldl | split | (intro _) | extract_lets | simp only [keeps_mk, keeps_arb]))

theorem keeps_runDevelop (s t) (a0) (a1) (h : Keeps s t) : Keeps s (runDevelop a0 a1 t).2 := by
  unfold runDevelop
  (try extract_lets); (repeat' (first | assumption | with_reducible apply KeepsW.no | with_reducible apply keeps_developTile | with_reducible apply keeps_developDecoded | with_reducible apply keeps_onDev | with_reducible apply keeps_poundWrite | with_reducible apply KeepsW.ok | with_reducible apply Keeps.foldl | split | (intro _) | extract_lets | simp only [keeps_mk, keeps_arb] | dsimp +zetaDelta only))

theorem keeps_runCode (s t) (a0) (a1) (h : Keeps s t) : Keeps s (runCode a0 a1 t).2.2 := by
  unfold runCode
  (try extract_lets); (repeat' (first | assumption | with_reducible apply KeepsW.no | with_reducible apply keeps_onDev | with_reducible apply keeps_poundWrite | with_reducible apply KeepsW.ok | with_reducible apply Keeps.foldl | split | (intro _) | extract_lets | simp only [keeps_mk, keeps_arb] | dsimp +zetaDelta only))

theorem keeps_runDecode (s t) (a0) (a1) (h : Keeps s t) : Keeps s (runDecode a0 a1 t).2.2 := by
  unfold runDecode
  (try extract_lets); (repeat' (first | assumption | with_reducible apply KeepsW.no | with_reducible apply keeps_onDev | with_reducible apply keeps_poundWrite | with_reducible apply KeepsW.ok | with_reducible apply Keeps.foldl | split | (intro _) | extract_lets | simp only [keeps_mk, keeps_arb] | dsimp +zetaDelta only))

theorem keeps_runFlat (s t) (a0) (a1) (h : Keeps s t) : Keeps s (runFlat a0 a1 t) := by
  unfold runFlat
  (try extract_lets); (repeat' (first | assumption | with_reducible apply KeepsW.no | with_reducible apply keeps_fbAccumulate | with_reducible apply keeps_fbPass2 | with_reducible apply keeps_onDev | with_reducible apply keeps_poundWrite | with_reducible apply KeepsW.ok | split | (intro _) | extract_lets | simp only [keeps_mk, keeps_arb]))

theorem keeps_runTile (s t) (a0) (a1) (h : Keeps s t) : Keeps s (runTile a0 a1 t).2.2 := by
  unfold runTile
  (try extract_lets); (repeat' (first | assumption | with_reducible apply KeepsW.no | with_reducible apply keeps_statsTile | with_reducible apply keeps_runDevelop | with_reducible apply keeps_runCode | with_reducible apply keeps_runDecode | with_reducible apply keeps_runFlat | with_reducible apply keeps_onDev | with_reducible apply keeps_poundWrite | with_reducible apply KeepsW.ok | split | (intro _) | extract_lets | simp only [keeps_mk, keeps_arb]))

theorem keeps_sweepAmt (s t) (a0) (h : Keeps s t) : Keeps s (sweepAmt a0 t) := by
  unfold sweepAmt
  (try extract_lets); (repeat' (first | assumption | with_reducible apply KeepsW.no | with_reducible apply keeps_fwMark | with_reducible apply keeps_onDev | with_reducible apply keeps_poundWrite | with_reducible apply KeepsW.ok | with_reducible apply Keeps.foldl | split | (intro _) | extract_lets | simp only [keeps_mk, keeps_arb]))

theorem keeps_sweepHevc (s t) (a0) (h : Keeps s t) : Keeps s (sweepHevc a0 t) := by
  unfold sweepHevc
  (try extract_lets); (repeat' (first | assumption | with_reducible apply KeepsW.no | with_reducible apply keeps_fwMark | with_reducible apply keeps_onDev | with_reducible apply keeps_poundWrite | with_reducible apply KeepsW.ok | with_reducible apply Keeps.foldl | split | (intro _) | extract_lets | simp only [keeps_mk, keeps_arb]))

theorem keeps_sweepSource (s t) (a0) (h : Keeps s t) : Keeps s (sweepSource a0 t) := by
  unfold sweepSource
  (try extract_lets); (repeat' (first | assumption | with_reducible apply KeepsW.no | with_reducible apply keeps_sweepAmt | with_reducible apply keeps_sweepHevc | with_reducible apply keeps_onDev | with_reducible apply keeps_poundWrite | with_reducible apply KeepsW.ok | split | (intro _) | extract_lets | simp only [keeps_mk, keeps_arb]))

theorem keeps_showAmt (s t) (a0) (a1) (a2) (h : Keeps s t) : Keeps s (showAmt a0 a1 a2 t) := by
  unfold showAmt
  (try extract_lets); (repeat' (first | assumption | with_reducible apply KeepsW.no | with_reducible apply keeps_takeUpDevelop | with_reducible apply keeps_sweepAmt | with_reducible apply keeps_onDev | with_reducible apply keeps_poundWrite | with_reducible apply KeepsW.ok | split | (intro _) | extract_lets | simp only [keeps_mk, keeps_arb]))

theorem keeps_startOffer (s t) (a0) (h : Keeps s t) : Keeps s (startOffer a0 t) := by
  unfold startOffer
  (try dsimp only); (repeat' (first | assumption | with_reducible apply KeepsW.no | with_reducible apply keeps_fwGenerate | with_reducible apply keeps_postWork | with_reducible apply keeps_onDev | with_reducible apply keeps_poundWrite | with_reducible apply KeepsW.ok | split | (intro _) | extract_lets | simp only [keeps_mk, keeps_arb]))

theorem keeps_startOffers (s t) (a0) (a1) (h : Keeps s t) : Keeps s (startOffers a0 a1 t) := by
  induction a1 generalizing t with
  | zero => exact h
  | succ n ih =>
    unfold startOffers
    dsimp only
    repeat' (first | assumption | with_reducible apply ih | with_reducible apply keeps_startOffer | split | (intro _))

theorem keeps_offerAll (s t) (a0) (h : Keeps s t) : Keeps s (offerAll a0 t) := by
  unfold offerAll
  (try extract_lets); (repeat' (first | assumption | with_reducible apply KeepsW.no | with_reducible apply keeps_startOffers | with_reducible apply keeps_onDev | with_reducible apply keeps_poundWrite | with_reducible apply KeepsW.ok | split | (intro _) | extract_lets | simp only [keeps_mk, keeps_arb]))

theorem keeps_assemble (s t) (a0) (h : Keeps s t) : Keeps s (assemble a0 t).2 := by
  unfold assemble
  extract_lets n tiles read p0 r
  refine keeps_poundWrite _ _ _ _ ?_
  show Keeps s r.2.2
  dsimp only [r]
  generalize tiles = l
  generalize h0 : (p0, ([] : List Byte), t) = z
  have hz : Keeps s z.2.2 := by rw [← h0]; exact h
  clear_value p0
  clear h0
  induction l generalizing z with
  | nil => exact hz
  | cons x l ih => exact ih _ (keeps_poundWrite _ _ _ _ hz)

theorem keeps_endCode (s t) (a0) (h : Keeps s t) : Keeps s (endCode a0 t) := by
  unfold endCode
  (try extract_lets); (repeat' (first | assumption | with_reducible apply KeepsW.no | with_reducible apply keeps_updateRecord | with_reducible apply keeps_fwMark | with_reducible apply keeps_assemble | with_reducible apply keeps_onDev | with_reducible apply keeps_poundWrite | with_reducible apply KeepsW.ok | split | (intro _) | extract_lets | simp only [keeps_mk, keeps_arb] | dsimp +zetaDelta only))

theorem keeps_endDevelop (s t) (a0) (h : Keeps s t) : Keeps s (endDevelop a0 t) := by
  unfold endDevelop
  (try extract_lets); (repeat' (first | assumption | with_reducible apply KeepsW.no | with_reducible apply keeps_viewPublish | with_reducible apply keeps_onDev | with_reducible apply keeps_poundWrite | with_reducible apply KeepsW.ok | with_reducible apply Keeps.foldl | split | (intro _) | extract_lets | simp only [keeps_mk, keeps_arb]))

theorem keeps_endDecode (s t) (a0) (h : Keeps s t) : Keeps s (endDecode a0 t) := by
  unfold endDecode
  (try extract_lets); (repeat' (first | assumption | with_reducible apply KeepsW.no | with_reducible apply keeps_fwMark | with_reducible apply keeps_showAmt | with_reducible apply keeps_offerAll | with_reducible apply keeps_onDev | with_reducible apply keeps_poundWrite | with_reducible apply KeepsW.ok | split | (intro _) | extract_lets | simp only [keeps_mk, keeps_arb]))

theorem keeps_fbSecondPass (s t) (a0) (h : Keeps s t) : Keeps s (fbSecondPass a0 t) := by
  unfold fbSecondPass
  (try extract_lets); (repeat' (first | assumption | with_reducible apply KeepsW.no | with_reducible apply keeps_postWork | with_reducible apply keeps_onDev | with_reducible apply keeps_poundWrite | with_reducible apply KeepsW.ok | split | (intro _) | extract_lets | simp only [keeps_mk, keeps_arb]))

theorem keeps_fbDone (s t) (a0) (h : Keeps s t) : Keeps s (fbDone a0 t) := by
  unfold fbDone
  (try extract_lets); (repeat' (first | assumption | with_reducible apply KeepsW.no | with_reducible apply keeps_onDev | with_reducible apply keeps_poundWrite | with_reducible apply KeepsW.ok | split | (intro _) | extract_lets | simp only [keeps_mk, keeps_arb]))

theorem keeps_endFlat (s t) (a0) (h : Keeps s t) : Keeps s (endFlat a0 t) := by
  unfold endFlat
  (try extract_lets); (repeat' (first | assumption | with_reducible apply KeepsW.no | with_reducible apply keeps_fbSecondPass | with_reducible apply keeps_fbDone | with_reducible apply keeps_onDev | with_reducible apply keeps_poundWrite | with_reducible apply KeepsW.ok | split | (intro _) | extract_lets | simp only [keeps_mk, keeps_arb]))

theorem keeps_endDead (s t) (a0) (h : Keeps s t) : Keeps s (endDead a0 t) := by
  unfold endDead
  (try extract_lets); (repeat' (first | assumption | with_reducible apply KeepsW.no | with_reducible apply keeps_fwMark | with_reducible apply keeps_offerAll | with_reducible apply keeps_onDev | with_reducible apply keeps_poundWrite | with_reducible apply KeepsW.ok | with_reducible apply Keeps.foldl | split | (intro _) | extract_lets | simp only [keeps_mk, keeps_arb]))

theorem keeps_endWork (s t) (a0) (h : Keeps s t) : Keeps s (endWork a0 t) := by
  unfold endWork
  (try extract_lets); (repeat' (first | assumption | with_reducible apply KeepsW.no | with_reducible apply keeps_sweepSource | with_reducible apply keeps_endCode | with_reducible apply keeps_endDevelop | with_reducible apply keeps_endDecode | with_reducible apply keeps_endFlat | with_reducible apply keeps_endDead | with_reducible apply keeps_onDev | with_reducible apply keeps_poundWrite | with_reducible apply KeepsW.ok | split | (intro _) | extract_lets | simp only [keeps_mk, keeps_arb] | dsimp +zetaDelta only))

theorem keeps_markSlot (s t) (a0) (h : Keeps s t) : Keeps s (markSlot a0 t) := by
  unfold markSlot
  (try extract_lets); (repeat' (first | assumption | with_reducible apply KeepsW.no | with_reducible apply keeps_updateRecord | with_reducible apply keeps_onDev | with_reducible apply keeps_poundWrite | with_reducible apply KeepsW.ok | split | (intro _) | extract_lets | simp only [keeps_mk, keeps_arb]))

theorem keeps_completeJob (s t) (a0) (a1) (h : Keeps s t) : Keeps s (completeJob a0 a1 t) := by
  unfold completeJob
  (try extract_lets); (repeat' (first | assumption | with_reducible apply KeepsW.no | with_reducible apply keeps_runTile | with_reducible apply keeps_endWork | with_reducible apply keeps_markSlot | with_reducible apply keeps_onDev | with_reducible apply keeps_poundWrite | with_reducible apply KeepsW.ok | split | (intro _) | extract_lets | simp only [keeps_mk, keeps_arb] | dsimp +zetaDelta only))

theorem keeps_discardWork (s t) (a0) (a1) (h : Keeps s t) : Keeps s (discardWork a0 a1 t) := by
  unfold discardWork
  (try extract_lets); (repeat' (first | assumption | with_reducible apply KeepsW.no | with_reducible apply keeps_endWork | with_reducible apply keeps_onDev | with_reducible apply keeps_poundWrite | with_reducible apply KeepsW.ok | with_reducible apply Keeps.foldl | split | (intro _) | extract_lets | simp only [keeps_mk, keeps_arb]))

theorem keeps_deadlineMiss (s t) (a0) (h : Keeps s t) : Keeps s (deadlineMiss a0 t) := by
  induction a0 generalizing t with
  | zero => exact h
  | succ n ih =>
    unfold deadlineMiss
    
    repeat' (first | assumption | with_reducible apply ih | with_reducible apply keeps_discardWork | split | (intro _))

theorem keeps_writeForceI (s t) (a0) (a1) (a2) (h : Keeps s t) : KeepsW s (writeForceI a0 a1 a2 t) := by
  unfold writeForceI
  (try extract_lets); (repeat' (first | assumption | with_reducible apply KeepsW.no | with_reducible apply keeps_entryWrite | with_reducible apply keeps_onDev | with_reducible apply keeps_poundWrite | with_reducible apply KeepsW.ok | split | (intro _) | extract_lets | simp only [keeps_mk, keeps_arb]))

theorem keeps_fbBuild (s t) (h : Keeps s t) : Keeps s (fbBuild t) := by
  unfold fbBuild
  (try extract_lets); (repeat' (first | assumption | with_reducible apply KeepsW.no | with_reducible apply keeps_postWork | with_reducible apply keeps_onDev | with_reducible apply keeps_poundWrite | with_reducible apply KeepsW.ok | split | (intro _) | extract_lets | simp only [keeps_mk, keeps_arb]))

theorem keeps_fbClear (s t) (h : Keeps s t) : Keeps s (fbClear t) := by
  unfold fbClear
  (try extract_lets); (repeat' (first | assumption | with_reducible apply KeepsW.no | with_reducible apply keeps_onDev | with_reducible apply keeps_poundWrite | with_reducible apply KeepsW.ok | split | (intro _) | extract_lets | simp only [keeps_mk, keeps_arb]))

theorem keeps_writeFbPhase (s t) (a0) (a1) (h : Keeps s t) : KeepsW s (writeFbPhase a0 a1 t) := by
  unfold writeFbPhase
  (try extract_lets); (repeat' (first | assumption | with_reducible apply KeepsW.no | with_reducible apply keeps_entryWrite | with_reducible apply keeps_fbBuild | with_reducible apply keeps_fbClear | with_reducible apply keeps_onDev | with_reducible apply keeps_poundWrite | with_reducible apply KeepsW.ok | split | (intro _) | extract_lets | simp only [keeps_mk, keeps_arb]))

theorem keeps_writeWeir (s t) (a0) (a1) (a2) (h : Keeps s t) : KeepsW s (writeWeir a0 a1 a2 t) := by
  unfold writeWeir
  (try extract_lets); (repeat' (first | assumption | with_reducible apply KeepsW.no | with_reducible apply keeps_entryWrite | with_reducible apply keeps_onDev | with_reducible apply keeps_poundWrite | with_reducible apply KeepsW.ok | split | (intro _) | extract_lets | simp only [keeps_mk, keeps_arb]))

theorem keeps_writeFab (s t) (a0) (a1) (a2) (h : Keeps s t) : KeepsW s (writeFab a0 a1 a2 t) := by
  unfold writeFab
  (try extract_lets); (repeat' (first | assumption | with_reducible apply KeepsW.no | with_reducible apply keeps_entryWrite | with_reducible apply keeps_roomToRecord | with_reducible apply keeps_onDev | with_reducible apply keeps_poundWrite | with_reducible apply KeepsW.ok | split | (intro _) | extract_lets | simp only [keeps_mk, keeps_arb]))

theorem keeps_writeAmt (s t) (a0) (a1) (a2) (a3) (h : Keeps s t) : KeepsW s (writeAmt a0 a1 a2 a3 t) := by
  unfold writeAmt
  (try extract_lets); (repeat' (first | assumption | with_reducible apply KeepsW.no | with_reducible apply keeps_entryWrite | with_reducible apply keeps_writeForceI | with_reducible apply keeps_onDev | with_reducible apply keeps_poundWrite | with_reducible apply KeepsW.ok | split | (intro _) | extract_lets | simp only [keeps_mk, keeps_arb]))

theorem keeps_writeView (s t) (a0) (a1) (a2) (a3) (h : Keeps s t) : KeepsW s (writeView a0 a1 a2 a3 t) := by
  unfold writeView
  (try extract_lets); (repeat' (first | assumption | with_reducible apply KeepsW.no | with_reducible apply keeps_entryWrite | with_reducible apply keeps_writeStaged | with_reducible apply keeps_writeCommitFrame | with_reducible apply keeps_writeCommitRecord | with_reducible apply keeps_writeCommitCancel | with_reducible apply keeps_onDev | with_reducible apply keeps_poundWrite | with_reducible apply KeepsW.ok | split | (intro _) | extract_lets | simp only [keeps_mk, keeps_arb]))

theorem keeps_encStart (s t) (a0) (a1) (h : Keeps s t) : Keeps s (encStart a0 a1 t) := by
  unfold encStart
  (try extract_lets); (repeat' (first | assumption | with_reducible apply KeepsW.no | with_reducible apply keeps_fwMark | with_reducible apply keeps_onDev | with_reducible apply keeps_poundWrite | with_reducible apply KeepsW.ok | with_reducible apply Keeps.foldl | split | (intro _) | extract_lets | simp only [keeps_mk, keeps_arb]))

theorem keeps_encDone (s t) (a0) (a1) (a2) (h : Keeps s t) : Keeps s (encDone a0 a1 a2 t) := by
  unfold encDone
  extract_lets d pool a cap au spilt total mark status p sA sB sC d1 d2 d3 host rtp mask d4 d5 s4
  have hA : Keeps s sA := keeps_poundWrite _ _ _ _ (keeps_poundWrite _ _ _ _ (keeps_onDev _ _ _ (keeps_onDev _ _ _ h)))
  clear_value sA
  have hB : Keeps s sB := keeps_poundWrite _ _ _ _ hA
  clear_value sB
  have hC : Keeps s sC := keeps_poundWrite _ _ _ _ (keeps_poundWrite _ _ _ _ (keeps_poundWrite _ _ _ _ hB))
  clear_value d5 sC
  have h4 : Keeps s s4 := (keeps_mk _ _).2 hC
  exact ite_keeps (keeps_fwMark _ _ _ _ _ _ _ h4) (keeps_fwMark _ _ _ _ _ _ _ h4)

theorem keeps_dpbMarks (s t) (a0) (a1) (h : Keeps s t) : Keeps s (dpbMarks a0 a1 t) := by
  unfold dpbMarks
  (try extract_lets); (repeat' (first | assumption | with_reducible apply KeepsW.no | with_reducible apply keeps_fwMark | with_reducible apply keeps_onDev | with_reducible apply keeps_poundWrite | with_reducible apply KeepsW.ok | with_reducible apply Keeps.foldl | split | (intro _) | extract_lets | simp only [keeps_mk, keeps_arb] | dsimp +zetaDelta only))

theorem keeps_dpbMissing (s t) (a0) (a1) (a2) (h : Keeps s t) : Keeps s (dpbMissing a0 a1 a2 t) := by
  unfold dpbMissing
  (try extract_lets); (repeat' (first | assumption | with_reducible apply KeepsW.no | with_reducible apply keeps_fwMark | with_reducible apply keeps_fwGenerate | with_reducible apply keeps_onDev | with_reducible apply keeps_poundWrite | with_reducible apply KeepsW.ok | with_reducible apply Keeps.foldl | split | (intro _) | extract_lets | simp only [keeps_mk, keeps_arb]))

theorem keeps_decQueue (s t) (a0) (a1) (h : Keeps s t) : Keeps s (decQueue a0 a1 t) := by
  unfold decQueue
  (try extract_lets); (repeat' (first | assumption | with_reducible apply KeepsW.no | with_reducible apply keeps_dpbMarks | with_reducible apply keeps_dpbMissing | with_reducible apply keeps_onDev | with_reducible apply keeps_poundWrite | with_reducible apply KeepsW.ok | split | (intro _) | extract_lets | simp only [keeps_mk, keeps_arb] | dsimp +zetaDelta only))

theorem keeps_decUnit (s t) (a0) (a1) (h : Keeps s t) : Keeps s (decUnit a0 a1 t) := by
  unfold decUnit
  (try extract_lets); (repeat' (first | assumption | with_reducible apply KeepsW.no | with_reducible apply keeps_decQueue | with_reducible apply keeps_onDev | with_reducible apply keeps_poundWrite | with_reducible apply KeepsW.ok | with_reducible apply Keeps.foldl | split | (intro _) | extract_lets | simp only [keeps_mk, keeps_arb]))

theorem keeps_decUnits (s t) (a0) (a1) (h : Keeps s t) : Keeps s (decUnits a0 a1 t) := by
  induction a1 generalizing t with
  | zero => exact h
  | succ n ih =>
    unfold decUnits
    dsimp only
    repeat' (first | assumption | with_reducible apply ih | with_reducible apply keeps_decUnit | with_reducible apply keeps_onDev | split | (intro _))

theorem keeps_decAll (s t) (a0) (h : Keeps s t) : Keeps s (decAll a0 t) := by
  unfold decAll
  (try extract_lets); (repeat' (first | assumption | with_reducible apply KeepsW.no | with_reducible apply keeps_decUnits | with_reducible apply keeps_onDev | with_reducible apply keeps_poundWrite | with_reducible apply KeepsW.ok | split | (intro _) | extract_lets | simp only [keeps_mk, keeps_arb]))

theorem keeps_decStart (s t) (a0) (a1) (a2) (h : Keeps s t) : Keeps s (decStart a0 a1 a2 t) := by
  unfold decStart
  (try extract_lets); (repeat' (first | assumption | with_reducible apply KeepsW.no | with_reducible apply keeps_decAll | with_reducible apply keeps_onDev | with_reducible apply keeps_poundWrite | with_reducible apply KeepsW.ok | split | (intro _) | extract_lets | simp only [keeps_mk, keeps_arb]))

theorem keeps_pictureStartCmd (s t) (h : Keeps s t) : Keeps s (pictureStartCmd t) := by
  unfold pictureStartCmd
  (try extract_lets); (repeat' (first | assumption | with_reducible apply KeepsW.no | with_reducible apply keeps_encStart | with_reducible apply keeps_decStart | with_reducible apply keeps_onDev | with_reducible apply keeps_poundWrite | with_reducible apply KeepsW.ok | split | (intro _) | extract_lets | simp only [keeps_mk, keeps_arb]))

theorem keeps_writeCtu (s t) (a0) (a1) (a2) (a3) (a4) (a5) (h : Keeps s t) : Keeps s (writeCtu a0 a1 a2 a3 a4 a5 t) := by
  unfold writeCtu
  (try extract_lets); (repeat' (first | assumption | with_reducible apply KeepsW.no | with_reducible apply keeps_onDev | with_reducible apply keeps_poundWrite | with_reducible apply KeepsW.ok | with_reducible apply Keeps.foldl | split | (intro _) | extract_lets | simp only [keeps_mk, keeps_arb]))

theorem keeps_decDone (s t) (a0) (a1) (a2) (h : Keeps s t) : Keeps s (decDone a0 a1 a2 t) := by
  unfold decDone
  (try extract_lets); (repeat' (first | assumption | with_reducible apply KeepsW.no | with_reducible apply keeps_fwMark | with_reducible apply keeps_decAll | with_reducible apply keeps_writeCtu | with_reducible apply keeps_onDev | with_reducible apply keeps_poundWrite | with_reducible apply KeepsW.ok | with_reducible apply Keeps.foldl | split | (intro _) | extract_lets | simp only [keeps_mk, keeps_arb] | dsimp +zetaDelta only))

theorem keeps_hevcPublish (s t) (a0) (h : Keeps s t) : Keeps s (hevcPublish a0 t) := by
  unfold hevcPublish
  (try extract_lets); (repeat' (first | assumption | with_reducible apply KeepsW.no | with_reducible apply keeps_takeUpDevelop | with_reducible apply keeps_sweepHevc | with_reducible apply keeps_onDev | with_reducible apply keeps_poundWrite | with_reducible apply KeepsW.ok | with_reducible apply Keeps.foldl | split | (intro _) | extract_lets | simp only [keeps_mk, keeps_arb]))

theorem keeps_writeOutRelease (s t) (a0) (a1) (a2) (h : Keeps s t) : KeepsW s (writeOutRelease a0 a1 a2 t) := by
  unfold writeOutRelease
  (try extract_lets); (repeat' (first | assumption | with_reducible apply KeepsW.no | with_reducible apply keeps_entryWrite | with_reducible apply keeps_onDev | with_reducible apply keeps_poundWrite | with_reducible apply KeepsW.ok | split | (intro _) | extract_lets | simp only [keeps_mk, keeps_arb]))

theorem keeps_writeHev (s t) (a0) (a1) (a2) (a3) (h : Keeps s t) : KeepsW s (writeHev a0 a1 a2 a3 t) := by
  unfold writeHev
  (try extract_lets); (repeat' (first | assumption | with_reducible apply KeepsW.no | with_reducible apply keeps_entryWrite | with_reducible apply keeps_writeOutRelease | with_reducible apply keeps_onDev | with_reducible apply keeps_poundWrite | with_reducible apply KeepsW.ok | split | (intro _) | extract_lets | simp only [keeps_mk, keeps_arb]))

theorem keeps_hevcStop (s t) (a0) (h : Keeps s t) : Keeps s (hevcStop a0 t) := by
  unfold hevcStop
  (try extract_lets); (repeat' (first | assumption | with_reducible apply KeepsW.no | with_reducible apply keeps_poolCmd | with_reducible apply keeps_onDev | with_reducible apply keeps_poundWrite | with_reducible apply KeepsW.ok | split | (intro _) | extract_lets | simp only [keeps_mk, keeps_arb] | dsimp +zetaDelta only))

theorem keeps_outputFrame (s t) (a0) (h : Keeps s t) : Keeps s (outputFrame a0 t) := by
  unfold outputFrame
  (try extract_lets); (repeat' (first | assumption | with_reducible apply KeepsW.no | with_reducible apply keeps_onDev | with_reducible apply keeps_poundWrite | with_reducible apply KeepsW.ok | split | (intro _) | extract_lets | simp only [keeps_mk, keeps_arb]))

theorem keeps_writeOut (s t) (a0) (a1) (a2) (a3) (h : Keeps s t) : KeepsW s (writeOut a0 a1 a2 a3 t) := by
  unfold writeOut
  (try extract_lets); (repeat' (first | assumption | with_reducible apply KeepsW.no | with_reducible apply keeps_entryWrite | with_reducible apply keeps_onDev | with_reducible apply keeps_poundWrite | with_reducible apply KeepsW.ok | split | (intro _) | extract_lets | simp only [keeps_mk, keeps_arb]))

theorem keeps_poisonRecord (s t) (a0) (h : Keeps s t) : Keeps s (poisonRecord a0 t) := by
  unfold poisonRecord
  (try extract_lets); (repeat' (first | assumption | with_reducible apply KeepsW.no | with_reducible apply keeps_updateRecord | with_reducible apply keeps_onDev | with_reducible apply keeps_poundWrite | with_reducible apply KeepsW.ok | with_reducible apply Keeps.foldl | split | (intro _) | extract_lets | simp only [keeps_mk, keeps_arb]))

theorem keeps_poisonReads (s t) (a0) (a1) (h : Keeps s t) : Keeps s (poisonReads a0 a1 t) := by
  unfold poisonReads
  (try extract_lets); (repeat' (first | assumption | with_reducible apply KeepsW.no | with_reducible apply keeps_poisonRecord | with_reducible apply keeps_onDev | with_reducible apply keeps_poundWrite | with_reducible apply KeepsW.ok | with_reducible apply Keeps.foldl | split | (intro _) | extract_lets | simp only [keeps_mk, keeps_arb]))

theorem keeps_poisonLine (s t) (a0) (h : Keeps s t) : Keeps s (poisonLine a0 t) := by
  unfold poisonLine
  (try extract_lets); (repeat' (first | assumption | with_reducible apply KeepsW.no | with_reducible apply keeps_onDev | with_reducible apply keeps_poundWrite | with_reducible apply KeepsW.ok | split | (intro _) | extract_lets | simp only [keeps_mk, keeps_arb]))

theorem keeps_readUncorrectable (s t) (a0) (a1) (a2) (h : Keeps s t) : Keeps s (readUncorrectable a0 a1 a2 t) := by
  unfold readUncorrectable
  (try extract_lets); (repeat' (first | assumption | with_reducible apply KeepsW.no | with_reducible apply keeps_poisonRecord | with_reducible apply keeps_poisonLine | with_reducible apply keeps_onDev | with_reducible apply keeps_poundWrite | with_reducible apply KeepsW.ok | split | (intro _) | extract_lets | simp only [keeps_mk, keeps_arb] | dsimp +zetaDelta only))

theorem keeps_migratorRead (s t) (a0) (a1) (a2) (a3) (h : Keeps s t) : Keeps s (migratorRead a0 a1 a2 a3 t) := by
  unfold migratorRead
  (try extract_lets); (repeat' (first | assumption | with_reducible apply KeepsW.no | with_reducible apply keeps_poisonLine | with_reducible apply keeps_onDev | with_reducible apply keeps_poundWrite | with_reducible apply KeepsW.ok | split | (intro _) | extract_lets | simp only [keeps_mk, keeps_arb]))

theorem keeps_requesterRead (s t) (a0) (a1) (a2) (a3) (h : Keeps s t) : Keeps s (requesterRead a0 a1 a2 a3 t) := by
  unfold requesterRead
  (try extract_lets); (repeat' (first | assumption | with_reducible apply KeepsW.no | with_reducible apply keeps_readUncorrectable | with_reducible apply keeps_onDev | with_reducible apply keeps_poundWrite | with_reducible apply KeepsW.ok | split | (intro _) | extract_lets | simp only [keeps_mk, keeps_arb]))

theorem keeps_startTraining (s t) (h : Keeps s t) : Keeps s (startTraining t) := by
  exact keeps_onDev _ _ _ (keeps_nomem _ _ h)

theorem keeps_rebuildMap (s t) (h : Keeps s t) : Keeps s (rebuildMap t) := by
  unfold rebuildMap
  extract_lets x g
  split
  · exact h
  · exact ⟨h.1, fun _ => rfl, h.3, h.4⟩

theorem keeps_dramEffect (s t) (a0) (a1) (h : Keeps s t) : Keeps s (dramEffect a0 a1 t) := by
  unfold dramEffect
  cases a1 with
  | bytes b => exact keeps_onDev _ _ _ h
  | num n =>
    refine ite_keeps ?_ (ite_keeps ?_ ?_)
    · exact ite_keeps (keeps_startTraining _ _ h) h
    · exact keeps_onDev _ _ _ h
    · exact keeps_onDev _ _ _ h

theorem keeps_writeDram (s t) (a0) (a1) (a2) (h : Keeps s t) : KeepsW s (writeDram a0 a1 a2 t) := by
  unfold writeDram
  (try extract_lets); (repeat' (first | assumption | with_reducible apply KeepsW.no | with_reducible apply keeps_entryWrite | with_reducible apply keeps_dramEffect | with_reducible apply keeps_onDev | with_reducible apply keeps_poundWrite | with_reducible apply KeepsW.ok | split | (intro _) | extract_lets | simp only [keeps_mk, keeps_arb]))

theorem keeps_srcPoison (s t) (a0) (a1) (a2) (h : Keeps s t) : Keeps s (srcPoison a0 a1 a2 t) := by
  induction a0 generalizing a1 a2 t with
  | nil => exact h
  | cons x l ih =>
    cases x with
    | lit b => exact ih _ _ _ h
    | mem a len => exact ih _ _ _ (keeps_poisonReads _ _ _ _ h)

theorem keeps_pump (s t) (a0) (a1) (h : Keeps s t) : Keeps s (pump a0 a1 t) := by
  induction a1 generalizing t with
  | zero => exact h
  | succ n ih =>
    unfold pump
    extract_lets d l
    refine ite_keeps h ?_
    cases l.waiting.find? (fun k => l.credit k.ty && l.room k) with
    | some k => exact ih _ (keeps_onDev _ _ _ h)
    | none =>
      cases d.sourceCmd a0 with
      | none => exact h
      | some c => exact ite_keeps (ih _ (keeps_onDev _ _ _ (keeps_srcPoison _ _ _ _ _ h))) h

theorem keeps_portRun (s t) (a0) (h : Keeps s t) : Keeps s (portRun a0 t) := by
  unfold portRun
  (try extract_lets); (repeat' (first | assumption | with_reducible apply KeepsW.no | with_reducible apply keeps_pump | with_reducible apply keeps_onDev | with_reducible apply keeps_poundWrite | with_reducible apply KeepsW.ok | with_reducible apply Keeps.foldl | split | (intro _) | extract_lets | simp only [keeps_mk, keeps_arb]))

theorem keeps_ns5Read (s t) (a0) (h : Keeps s t) : Keeps s (ns5Read a0 t) := by
  unfold ns5Read
  (try extract_lets); (repeat' (first | assumption | with_reducible apply KeepsW.no | with_reducible apply keeps_poisonReads | with_reducible apply keeps_onDev | with_reducible apply keeps_poundWrite | with_reducible apply KeepsW.ok | with_reducible apply Keeps.foldl | split | (intro _) | extract_lets | simp only [keeps_mk, keeps_arb]))

theorem keeps_release (s t) (a0) (h : Keeps s t) : Keeps s (release a0 t) := by
  unfold release
  (try extract_lets); (repeat' (first | assumption | with_reducible apply KeepsW.no | with_reducible apply keeps_ns5Read | with_reducible apply keeps_onDev | with_reducible apply keeps_poundWrite | with_reducible apply KeepsW.ok | split | (intro _) | extract_lets | simp only [keeps_mk, keeps_arb]))

theorem keeps_advance (s t) (h : Keeps s t) : Keeps s (advance t) := by
  unfold advance
  refine Keeps.foldl _ (fun u x hu => keeps_portRun _ _ _ hu) _ _ ?_
  refine Keeps.foldl _ (fun u x hu => ?_) _ _ h
  exact ite_keeps (keeps_release _ _ _ hu) hu

theorem keeps_admitCmd (s t) (a0) (a1) (a2) (a3) (a4) (h : Keeps s t) : Keeps s (admitCmd a0 a1 a2 a3 a4 t) := by
  unfold admitCmd
  (try extract_lets); (repeat' (first | assumption | with_reducible apply KeepsW.no | with_reducible apply keeps_answer | with_reducible apply keeps_onDev | with_reducible apply keeps_poundWrite | with_reducible apply KeepsW.ok | split | (intro _) | extract_lets | simp only [keeps_mk, keeps_arb]))

theorem keeps_admitInvalid (s t) (a0) (h : Keeps s t) : Keeps s (admitInvalid a0 t) := by
  induction a0 generalizing t with
  | zero => exact h
  | succ n ih =>
    unfold admitInvalid
    cases t.dev.nextQueue with
    | none => exact h
    | some q =>
      dsimp -zeta only
      cases t.dev.front q.1 with
      | none => exact h
      | some x => exact ite_keeps h (ih _ (keeps_admitCmd _ _ _ _ _ _ _ h))

theorem keeps_admitNext (s t) (a0) (a1) (a2) (a3 : State → State) (_ : ∀ u, Keeps s u → Keeps s (a3 u)) (h : Keeps s t) :
    Keeps s (admitNext a0 a1 a2 a3 t) := by
  rename_i ha
  unfold admitNext
  extract_lets s0
  have h0 : Keeps s s0 := keeps_admitInvalid _ _ _ h
  clear_value s0
  cases s0.dev.nextQueue with
  | none => exact h0
  | some q =>
    dsimp -zeta only
    cases s0.dev.front q.1 with
    | none => exact h0
    | some x =>
      refine ite_keeps h0 ?_
      exact keeps_admitInvalid _ _ _ (keeps_advance _ _ (ha _ (keeps_admitCmd _ _ _ _ _ _ _ h0)))

theorem keeps_hostWrite (s t) (a0) (a1) (h : Keeps s t) : Keeps s (hostWrite a0 a1 t) := by
  unfold hostWrite
  extract_lets s1 rest s2 n
  have h1 : Keeps s s1 := ⟨h.1, h.2, fun x => wf_scatter _ _ _ _ (h.3 x), h.4⟩
  have h2 : Keeps s s2 := keeps_onDev _ _ _ h1
  clear_value s2
  refine ite_keeps (ite_keeps (keeps_onDev _ _ _ h2) (keeps_onDev _ _ _ h2)) (ite_keeps (keeps_onDev _ _ _ h2) ?_)
  clear_value rest
  cases a0.magEnd with
  | none => exact h2
  | some x =>
    cases rest with
    | nil => exact keeps_onDev _ _ _ h2
    | cons b l => exact h2

theorem keeps_hostFail (s t) (a0) (h : Keeps s t) : Keeps s (hostFail a0 t) := by
  unfold hostFail
  (try extract_lets); (repeat' (first | assumption | with_reducible apply KeepsW.no | with_reducible apply keeps_onDev | with_reducible apply keeps_poundWrite | with_reducible apply KeepsW.ok | split | (intro _) | extract_lets | simp only [keeps_mk, keeps_arb]))

theorem keeps_hostTransfer (s t) (a0) (a1) (a2) (h : Keeps s t) : Keeps s (hostTransfer a0 a1 a2 t) := by
  unfold hostTransfer
  cases t.dev.cmd? a0 with
  | none => exact h
  | some c =>
    have hf := keeps_advance _ _ (keeps_hostFail _ _ c h)
    refine ite_keeps h (ite_keeps (ite_keeps h (ite_keeps hf ?_)) (ite_keeps (ite_keeps hf ?_) ?_))
    · exact keeps_portRun _ _ _ (keeps_onDev _ _ _ h)
    · extract_lets r c1 sA
      have h1 : Keeps s sA := keeps_poisonReads _ _ _ _ h
      exact keeps_advance _ _ (keeps_hostWrite _ _ _ _ (keeps_onDev _ _ _ h1))
    · cases c.buf with
      | nil => exact h
      | cons b l => exact ite_keeps (keeps_advance _ _ (keeps_hostWrite _ _ _ _ h)) hf

end Sys2Proof.Machine
end

