-- ==== Sys2Proof/Laws/KeepsAll.lean ====
section
/-! SUPPORT. The operations of the units keep the queue, the memories and the log (second part). -/

set_option linter.unusedTactic false
set_option linter.unreachableTactic false
set_option linter.unusedSimpArgs false

namespace Sys2Proof.Machine

theorem keeps_writeCqe (s t) (a0) (h : Keeps s t) : Keeps s (writeCqe a0 t) := by
  unfold writeCqe
  exact keeps_host _ _ _ h

theorem keeps_writeTaken (s t) (h : Keeps s t) : Keeps s (writeTaken t) := by
  unfold writeTaken
  (try extract_lets); (repeat' (first | assumption | with_reducible apply KeepsW.no | with_reducible apply keeps_writeCqe | with_reducible apply keeps_onDev | with_reducible apply keeps_poundWrite | with_reducible apply KeepsW.ok | with_reducible apply Keeps.foldl | split | (intro _) | extract_lets | simp only [keeps_mk, keeps_arb]))

theorem keeps_takeHost (s t) (a0) (h : Keeps s t) : Keeps s (takeHost a0 t) := by
  unfold takeHost
  (try extract_lets); (repeat' (first | assumption | with_reducible apply KeepsW.no | with_reducible apply keeps_writeCqe | with_reducible apply keeps_onDev | with_reducible apply keeps_poundWrite | with_reducible apply KeepsW.ok | split | (intro _) | extract_lets | simp only [keeps_mk, keeps_arb]))

theorem keeps_cqHead (s t) (a0) (a1) (h : Keeps s t) : Keeps s (cqHead a0 a1 t) := by
  unfold cqHead
  (try extract_lets); (repeat' (first | assumption | with_reducible apply KeepsW.no | with_reducible apply keeps_writeTaken | with_reducible apply keeps_onDev | with_reducible apply keeps_poundWrite | with_reducible apply KeepsW.ok | split | (intro _) | extract_lets | simp only [keeps_mk, keeps_arb]))

theorem keeps_sqFetched (s t) (a0) (a1) (h : Keeps s t) : Keeps s (sqFetched a0 a1 t) := by
  unfold sqFetched
  extract_lets d
  refine ite_keeps h ?_
  cases a1 with
  | none => exact keeps_onDev _ _ _ h
  | some l => exact keeps_advance _ _ (keeps_admitInvalid _ _ _ (keeps_onDev _ _ _ h))

theorem keeps_rcqEffect (s t) (a0) (a1) (h : Keeps s t) : Keeps s (rcqEffect a0 a1 t) := by
  unfold rcqEffect
  (try extract_lets); (repeat' (first | assumption | with_reducible apply KeepsW.no | with_reducible apply keeps_writeTaken | with_reducible apply keeps_onDev | with_reducible apply keeps_poundWrite | with_reducible apply KeepsW.ok | split | (intro _) | extract_lets | simp only [keeps_mk, keeps_arb]))

theorem keeps_writeRcq (s t) (a0) (a1) (a2) (h : Keeps s t) : KeepsW s (writeRcq a0 a1 a2 t) := by
  unfold writeRcq
  (try extract_lets); (repeat' (first | assumption | with_reducible apply KeepsW.no | with_reducible apply keeps_entryWrite | with_reducible apply keeps_rcqEffect | with_reducible apply keeps_onDev | with_reducible apply keeps_poundWrite | with_reducible apply KeepsW.ok | split | (intro _) | extract_lets | simp only [keeps_mk, keeps_arb]))

theorem keeps_fwOpenTake (s t) (a0) (a1) (a2) (h : Keeps s t) : Keeps s (fwOpenTake a0 a1 a2 t) := by
  unfold fwOpenTake
  extract_lets d
  cases (d.mag a0).store with
  | none => exact h
  | some c =>
    dsimp -zeta only
    cases c.freeEntry with
    | none => exact h
    | some i => exact keeps_onDev _ _ _ h

theorem keeps_fwAct (s t) (a0) (a1) (a2) (h : Keeps s t) : Keeps s (fwAct a0 a1 a2 t) := by
  unfold fwAct
  (try extract_lets); (repeat' (first | assumption | with_reducible apply KeepsW.no | with_reducible apply keeps_fwOpenTake | with_reducible apply keeps_onDev | with_reducible apply keeps_poundWrite | with_reducible apply KeepsW.ok | split | (intro _) | extract_lets | simp only [keeps_mk, keeps_arb]))

theorem keeps_fwRun (s t) (a0) (a1) (h : Keeps s t) : Keeps s (fwRun a0 a1 t) := by
  induction a1 generalizing t with
  | zero => exact h
  | succ n ih =>
    unfold fwRun
    extract_lets f
    refine ite_keeps h ?_
    cases f.script with
    | nil => exact h
    | cons x rest =>
      cases x with
      | report => exact h
      | cmd q op lba count src => exact keeps_onDev _ _ _ h
      | key => exact keeps_onDev _ _ _ h
      | act a => exact ih _ (keeps_fwAct _ _ _ _ _ (keeps_onDev _ _ _ h))

theorem keeps_fwDone (s t) (a0) (a1) (a2) (h : Keeps s t) : Keeps s (fwDone a0 a1 a2 t) := by
  unfold fwDone
  (try extract_lets); (repeat' (first | assumption | with_reducible apply KeepsW.no | with_reducible apply keeps_fwRun | with_reducible apply keeps_onDev | with_reducible apply keeps_poundWrite | with_reducible apply KeepsW.ok | split | (intro _) | extract_lets | simp only [keeps_mk, keeps_arb]))

theorem keeps_fwAll (s t) (h : Keeps s t) : Keeps s (fwAll t) := by
  unfold fwAll
  (try extract_lets); (repeat' (first | assumption | with_reducible apply KeepsW.no | with_reducible apply keeps_fwRun | with_reducible apply keeps_onDev | with_reducible apply keeps_poundWrite | with_reducible apply KeepsW.ok | with_reducible apply Keeps.foldl | split | (intro _) | extract_lets | simp only [keeps_mk, keeps_arb]))

theorem keeps_takeSettle (s t) (a0) (h : Keeps s t) : Keeps s (takeSettle a0 t) := by
  unfold takeSettle
  (try extract_lets); (repeat' (first | assumption | with_reducible apply KeepsW.no | with_reducible apply keeps_fwAll | with_reducible apply keeps_onDev | with_reducible apply keeps_poundWrite | with_reducible apply KeepsW.ok | with_reducible apply Keeps.foldl | split | (intro _) | extract_lets | simp only [keeps_mk, keeps_arb]))

theorem keeps_flushDone (s t) (a0) (h : Keeps s t) : Keeps s (flushDone a0 t) := by
  unfold flushDone
  (try extract_lets); (repeat' (first | assumption | with_reducible apply KeepsW.no | with_reducible apply keeps_fwRun | with_reducible apply keeps_onDev | with_reducible apply keeps_poundWrite | with_reducible apply KeepsW.ok | split | (intro _) | extract_lets | simp only [keeps_mk, keeps_arb]))

theorem keeps_writeUnitIn (s t) (a0) (a1) (a2) (a3) (a4) (h : Keeps s t) : Keeps s (writeUnitIn a0 a1 a2 a3 a4 t) := by
  unfold writeUnitIn
  cases a4 with
  | none => exact keeps_fwAll _ _ (keeps_onDev _ _ _ h)
  | some x => exact keeps_fwAll _ _ (keeps_onDev _ _ _ h)

theorem keeps_writeUnitTo (s t) (a0) (a1) (a2) (a3) (h : Keeps s t) : Keeps s (writeUnitTo a0 a1 a2 a3 t) := by
  exact keeps_writeUnitIn _ _ _ _ _ _ _ h

theorem keeps_writeUnit (s t) (a0) (a1) (h : Keeps s t) : Keeps s (writeUnit a0 a1 t) := by
  unfold writeUnit
  cases (t.dev.mag a0).store with
  | none => exact keeps_onDev _ _ _ h
  | some c =>
    cases (t.dev.mag a0).clip with
    | none => exact keeps_onDev _ _ _ h
    | some r => exact keeps_writeUnitTo _ _ _ _ _ _ h

theorem keeps_takeWrite (s t) (a0) (h : Keeps s t) : Keeps s (takeWrite a0 t) := by
  unfold takeWrite
  (try extract_lets); (repeat' (first | assumption | with_reducible apply KeepsW.no | with_reducible apply keeps_writeUnit | with_reducible apply keeps_onDev | with_reducible apply keeps_poundWrite | with_reducible apply KeepsW.ok | with_reducible apply Keeps.foldl | split | (intro _) | extract_lets | simp only [keeps_mk, keeps_arb]))

theorem keeps_magSettle (s t) (h : Keeps s t) : Keeps s (magSettle t) := by
  unfold magSettle
  exact keeps_takeSettle _ _ _ (keeps_advance _ _ (keeps_admitInvalid _ _ _ h))

theorem keeps_ownDone (s t) (a0) (a1) (a2) (a3) (h : Keeps s t) : Keeps s (ownDone a0 a1 a2 a3 t) := by
  unfold ownDone
  (try extract_lets); (repeat' (first | assumption | with_reducible apply KeepsW.no | with_reducible apply keeps_fwRun | with_reducible apply keeps_fwDone | with_reducible apply keeps_onDev | with_reducible apply keeps_poundWrite | with_reducible apply KeepsW.ok | split | (intro _) | extract_lets | simp only [keeps_mk, keeps_arb]))

theorem keeps_takeCompletion (s t) (a0) (a1) (h : Keeps s t) : Keeps s (takeCompletion a0 a1 t) := by
  unfold takeCompletion
  (try extract_lets); (repeat' (first | assumption | with_reducible apply KeepsW.no | with_reducible apply keeps_ownDone | with_reducible apply keeps_onDev | with_reducible apply keeps_poundWrite | with_reducible apply KeepsW.ok | split | (intro _) | extract_lets | simp only [keeps_mk, keeps_arb]))

theorem keeps_packetIn (s t) (a0) (a1) (h : Keeps s t) : Keeps s (packetIn a0 a1 t) := by
  unfold packetIn
  (try extract_lets); (repeat' (first | assumption | with_reducible apply KeepsW.no | with_reducible apply keeps_takeCompletion | with_reducible apply keeps_onDev | with_reducible apply keeps_poundWrite | with_reducible apply KeepsW.ok | split | (intro _) | extract_lets | simp only [keeps_mk, keeps_arb] | dsimp +zetaDelta only))

theorem keeps_packetEnd (s t) (a0) (a1) (a2) (h : Keeps s t) : Keeps s (packetEnd a0 a1 a2 t) := by
  unfold packetEnd
  (try extract_lets); (repeat' (first | assumption | with_reducible apply KeepsW.no | with_reducible apply keeps_packetIn | with_reducible apply keeps_onDev | with_reducible apply keeps_poundWrite | with_reducible apply KeepsW.ok | split | (intro _) | extract_lets | simp only [keeps_mk, keeps_arb]))

theorem keeps_packetBlock (s t) (a0) (a1) (h : Keeps s t) : Keeps s (packetBlock a0 a1 t) := by
  unfold packetBlock
  (try extract_lets); (repeat' (first | assumption | with_reducible apply KeepsW.no | with_reducible apply keeps_packetEnd | with_reducible apply keeps_onDev | with_reducible apply keeps_poundWrite | with_reducible apply KeepsW.ok | split | (intro _) | extract_lets | simp only [keeps_mk, keeps_arb]))

theorem keeps_magBlock (s t) (a0) (a1) (a2) (h : Keeps s t) : Keeps s (magBlock a0 a1 a2 t) := by
  unfold magBlock
  (try extract_lets); (repeat' (first | assumption | with_reducible apply KeepsW.no | with_reducible apply keeps_packetBlock | with_reducible apply keeps_onDev | with_reducible apply keeps_poundWrite | with_reducible apply KeepsW.ok | split | (intro _) | extract_lets | simp only [keeps_mk, keeps_arb]))

theorem keeps_magStripe (s t) (a0) (a1) (h : Keeps s t) : Keeps s (magStripe a0 a1 t) := by
  unfold magStripe
  extract_lets r isAlign wrong s1
  have h1 : Keeps s s1 := (keeps_mk _ _).2 h
  split
  · split
    · split
      · exact h1
      · exact keeps_onDev _ _ _ h1
    · split
      · split
        · exact keeps_onDev _ _ _ h1
        · exact h1
      · exact h1
  · exact Keeps.foldl _ (fun u x hu => keeps_magBlock _ _ _ _ _ hu) _ _ h1

theorem keeps_magFeed (s t) (a0) (a1) (h : Keeps s t) : Keeps s (magFeed a0 a1 t) := by
  unfold magFeed
  extract_lets d
  split
  · exact h
  · split
    · exact Keeps.foldl _ (fun u x hu => keeps_magStripe _ _ _ _ hu) _ _ h
    · exact Keeps.foldl _ (fun u x hu => keeps_magStripe _ _ _ _ hu) _ _ ((keeps_mk _ _).2 h)
    · exact h

theorem keeps_writeMag (s t) (a0) (a1) (a2) (h : Keeps s t) : KeepsW s (writeMag a0 a1 a2 t) := by
  unfold writeMag
  (try extract_lets); (repeat' (first | assumption | with_reducible apply KeepsW.no | with_reducible apply keeps_entryWrite | with_reducible apply keeps_onDev | with_reducible apply keeps_poundWrite | with_reducible apply KeepsW.ok | split | (intro _) | extract_lets | simp only [keeps_mk, keeps_arb]))

theorem keeps_completionTake (s t) (h : Keeps s t) : Keeps s (completionTake t) := by
  unfold completionTake
  (try extract_lets); (repeat' (first | assumption | with_reducible apply KeepsW.no | with_reducible apply keeps_takeHost | with_reducible apply keeps_fwDone | with_reducible apply keeps_onDev | with_reducible apply keeps_poundWrite | with_reducible apply KeepsW.ok | split | (intro _) | extract_lets | simp only [keeps_mk, keeps_arb]))

theorem keeps_writeClip (s t) (a0) (a1) (a2) (h : Keeps s t) : KeepsW s (writeClip a0 a1 a2 t) := by
  unfold writeClip
  (try extract_lets); (repeat' (first | assumption | with_reducible apply KeepsW.no | with_reducible apply keeps_entryWrite | with_reducible apply keeps_fwAll | with_reducible apply keeps_onDev | with_reducible apply keeps_poundWrite | with_reducible apply KeepsW.ok | split | (intro _) | extract_lets | simp only [keeps_mk, keeps_arb]))

theorem keeps_writeTherm (s t) (a0) (a1) (a2) (h : Keeps s t) : KeepsW s (writeTherm a0 a1 a2 t) := by
  unfold writeTherm
  (try extract_lets); (repeat' (first | assumption | with_reducible apply KeepsW.no | with_reducible apply keeps_entryWrite | with_reducible apply keeps_onDev | with_reducible apply keeps_poundWrite | with_reducible apply KeepsW.ok | split | (intro _) | extract_lets | simp only [keeps_mk, keeps_arb]))

theorem keeps_poundClear (s t) (a0) (a1) (h : Keeps s t) : Keeps s (poundClear a0 a1 t) := by
  unfold poundClear
  exact ⟨h.1, fun x => Mem.wf_filter _ (h.2 x), h.3, h.4⟩

theorem keeps_clearFlat (s t) (h : Keeps s t) : Keeps s (clearFlat t) := by
  unfold clearFlat
  (try extract_lets); (repeat' (first | assumption | with_reducible apply KeepsW.no | with_reducible apply keeps_poundClear | with_reducible apply keeps_onDev | with_reducible apply keeps_poundWrite | with_reducible apply KeepsW.ok | split | (intro _) | extract_lets | simp only [keeps_mk, keeps_arb]))

theorem keeps_unitOff (s t) (a0) (h : Keeps s t) : Keeps s (unitOff a0 t) := by
  unfold unitOff
  (try extract_lets); (repeat' (first | assumption | with_reducible apply KeepsW.no | with_reducible apply keeps_hevcStop | with_reducible apply keeps_onDev | with_reducible apply keeps_poundWrite | with_reducible apply KeepsW.ok | split | (intro _) | extract_lets | simp only [keeps_mk, keeps_arb]))

theorem keeps_unitStopped (s t) (a0) (h : Keeps s t) : Keeps s (unitStopped a0 t) := by
  unfold unitStopped
  (try extract_lets); (repeat' (first | assumption | with_reducible apply KeepsW.no | with_reducible apply keeps_unitOff | with_reducible apply keeps_onDev | with_reducible apply keeps_poundWrite | with_reducible apply KeepsW.ok | split | (intro _) | extract_lets | simp only [keeps_mk, keeps_arb]))

theorem keeps_writeEnable (s t) (a0) (a1) (a2) (h : Keeps s t) : KeepsW s (writeEnable a0 a1 a2 t) := by
  unfold writeEnable
  (try extract_lets); (repeat' (first | assumption | with_reducible apply KeepsW.no | with_reducible apply keeps_entryWrite | with_reducible apply keeps_onDev | with_reducible apply keeps_poundWrite | with_reducible apply KeepsW.ok | split | (intro _) | extract_lets | simp only [keeps_mk, keeps_arb]))

theorem keeps_enterCapture (s t) (a0) (a1) (h : Keeps s t) : Keeps s (enterCapture a0 a1 t) := by
  unfold enterCapture
  (try extract_lets); (repeat' (first | assumption | with_reducible apply KeepsW.no | with_reducible apply keeps_rebuildMap | with_reducible apply keeps_clearFlat | with_reducible apply keeps_onDev | with_reducible apply keeps_poundWrite | with_reducible apply KeepsW.ok | with_reducible apply Keeps.foldl | split | (intro _) | extract_lets | simp only [keeps_mk, keeps_arb] | dsimp +zetaDelta only))

theorem keeps_takeCut (s t) (h : Keeps s t) : Keeps s (takeCut t) := by
  unfold takeCut
  (try extract_lets); (repeat' (first | assumption | with_reducible apply KeepsW.no | with_reducible apply keeps_fwAll | with_reducible apply keeps_onDev | with_reducible apply keeps_poundWrite | with_reducible apply KeepsW.ok | split | (intro _) | extract_lets | simp only [keeps_mk, keeps_arb]))

theorem keeps_dropJobs (s t) (h : Keeps s t) : Keeps s (dropJobs t) := by
  unfold dropJobs
  (try extract_lets); (repeat' (first | assumption | with_reducible apply KeepsW.no | with_reducible apply keeps_discardWork | with_reducible apply keeps_onDev | with_reducible apply keeps_poundWrite | with_reducible apply KeepsW.ok | with_reducible apply Keeps.foldl | split | (intro _) | extract_lets | simp only [keeps_mk, keeps_arb]))

theorem keeps_offloadLeave (s t) (h : Keeps s t) : Keeps s (offloadLeave t) := by
  unfold offloadLeave
  (try extract_lets); (repeat' (first | assumption | with_reducible apply KeepsW.no | with_reducible apply keeps_takeCut | with_reducible apply keeps_dropJobs | with_reducible apply keeps_onDev | with_reducible apply keeps_poundWrite | with_reducible apply KeepsW.ok | split | (intro _) | extract_lets | simp only [keeps_mk, keeps_arb]))

theorem keeps_modeAccept (s t) (a0) (a1) (a2) (h : Keeps s t) : Keeps s (modeAccept a0 a1 a2 t) := by
  unfold modeAccept
  extract_lets u d ref d0 dx d1 d2 d3 sA sB sC
  have h0 : Keeps s u := keeps_makeRoom _ _ _ _ h
  have h1 : Keeps s sA := (keeps_mk _ _).2 h0
  clear_value sA
  have h2 : Keeps s sB := ite_keeps (keeps_scanStop _ _ _ h1) (ite_keeps (keeps_offloadLeave _ _ h1) h1)
  clear_value sB
  have h3 : Keeps s sC := ite_keeps (keeps_enterCapture _ _ _ _ h2) h2
  exact keeps_magSettle _ _ (keeps_fwAll _ _ h3)

theorem keeps_leaveCapture (s t) (h : Keeps s t) : Keeps s (leaveCapture t) := by
  unfold leaveCapture
  exact keeps_onDev _ _ _ (keeps_dropJobs _ _ h)

theorem keeps_enterMode (s t) (a0) (h : Keeps s t) : Keeps s (enterMode a0 t) := by
  unfold enterMode
  (try extract_lets); (repeat' (first | assumption | with_reducible apply KeepsW.no | with_reducible apply keeps_onDev | with_reducible apply keeps_poundWrite | with_reducible apply KeepsW.ok | split | (intro _) | extract_lets | simp only [keeps_mk, keeps_arb]))

theorem keeps_offloadBegin (s t) (h : Keeps s t) : Keeps s (offloadBegin t) := by
  unfold offloadBegin
  (try extract_lets); (repeat' (first | assumption | with_reducible apply KeepsW.no | with_reducible apply keeps_offloadFrames | with_reducible apply keeps_onDev | with_reducible apply keeps_poundWrite | with_reducible apply KeepsW.ok | split | (intro _) | extract_lets | simp only [keeps_mk, keeps_arb]))

theorem keeps_modeChange (s t) (a0) (a1) (a2) (h : Keeps s t) : Keeps s (modeChange a0 a1 a2 t) := by
  unfold modeChange
  extract_lets u old sA sB v sC
  have h0 : Keeps s u := keeps_makeRoom _ _ _ _ h
  clear_value u
  have h1 : Keeps s sA := ite_keeps (keeps_leaveCapture _ _ h0) h0
  clear_value sA
  have h2 : Keeps s sB := ite_keeps ((keeps_mk _ _).2 h1) (ite_keeps h1 (keeps_onDev _ _ _ h1))
  clear_value sB
  have he : Keeps s v := keeps_enterMode _ _ a0 (keeps_onDev _ _ (modeSet a0 a1) h2)
  clear_value v
  have h3 : Keeps s sC := ite_keeps (keeps_offloadBegin _ _ he) he
  exact keeps_magSettle _ _ (keeps_onDev _ _ _ h3)

theorem keeps_modeComplete (s t) (h : Keeps s t) : Keeps s (modeComplete t) := by
  unfold modeComplete
  cases t.dev.trans with
  | none => exact h
  | some x => exact ite_keeps (keeps_modeChange _ _ _ _ _ h) h

theorem keeps_modeTimeout (s t) (h : Keeps s t) : Keeps s (modeTimeout t) := by
  unfold modeTimeout
  extract_lets d sA sB d2 d3
  cases d.trans with
  | none => exact h
  | some x =>
    have h1 : Keeps s sA := keeps_onDev _ _ _ h
    clear_value sA
    have h2 : Keeps s sB := ite_keeps (keeps_takeCut _ _ h1) h1
    exact ite_keeps h (keeps_modeChange _ _ _ _ _ ((keeps_mk _ _).2 h2))

theorem keeps_forcedGo (s t) (h : Keeps s t) : Keeps s (forcedGo t) := by
  unfold forcedGo
  refine ite_keeps h ?_
  cases t.dev.forced with
  | nil => exact h
  | cons c rest =>
    dsimp -zeta only
    cases forcedTo t.dev.mode c with
    | none => exact keeps_onDev _ _ _ h
    | some x => exact keeps_modeAccept _ _ _ _ _ (keeps_onDev _ _ _ h)

theorem keeps_forceStandby (s t) (h : Keeps s t) : Keeps s (forceStandby t) := by
  unfold forceStandby
  extract_lets u d
  have h0 : Keeps s u := keeps_makeRoom _ _ _ _ h
  cases d.trans with
  | none => exact keeps_modeAccept _ _ _ _ _ h0
  | some x => exact ite_keeps h0 (keeps_magSettle _ _ (keeps_fwAll _ _ ((keeps_mk _ _).2 h0)))

theorem keeps_writeModeRequest (s t) (a0) (a1) (h : Keeps s t) : KeepsW s (writeModeRequest a0 a1 t) := by
  exact keeps_entryWrite _ _ _ _ _ _ _ (fun x u hu => keeps_modeAccept _ _ _ _ _ (keeps_onDev _ _ _ hu)) h

theorem keeps_writeStoreSave (s t) (a0) (a1) (h : Keeps s t) : KeepsW s (writeStoreSave a0 a1 t) := by
  unfold writeStoreSave
  (try extract_lets); (repeat' (first | assumption | with_reducible apply KeepsW.no | with_reducible apply keeps_entryWrite | with_reducible apply keeps_onDev | with_reducible apply keeps_poundWrite | with_reducible apply KeepsW.ok | split | (intro _) | extract_lets | simp only [keeps_mk, keeps_arb]))

theorem keeps_afterReset (s t) (a0) (a1) (a2) (h : Keeps s t) : Keeps s (afterReset a0 a1 a2 t) := by
  unfold afterReset
  exact keeps_logRecord _ _ _ _ _ _ _ ⟨h.1, fun _ => rfl, h.3, fun _ => rfl⟩

theorem keeps_mergeReset (s t) (a0) (h : Keeps s t) : Keeps s (mergeReset a0 t) := by
  unfold mergeReset
  (try extract_lets); (repeat' (first | assumption | with_reducible apply KeepsW.no | with_reducible apply keeps_afterReset | with_reducible apply keeps_onDev | with_reducible apply keeps_poundWrite | with_reducible apply KeepsW.ok | split | (intro _) | extract_lets | simp only [keeps_mk, keeps_arb]))

theorem keeps_warmReset (s t) (a0) (h : Keeps s t) : Keeps s (warmReset a0 t) := by
  unfold warmReset
  (try extract_lets); (repeat' (first | assumption | with_reducible apply KeepsW.no | with_reducible apply keeps_afterReset | with_reducible apply keeps_mergeReset | with_reducible apply keeps_onDev | with_reducible apply keeps_poundWrite | with_reducible apply KeepsW.ok | with_reducible apply Keeps.foldl | split | (intro _) | extract_lets | simp only [keeps_mk, keeps_arb]))

theorem keeps_requestReset (s t) (a0) (h : Keeps s t) : Keeps s (requestReset a0 t) := by
  unfold requestReset
  (try extract_lets); (repeat' (first | assumption | with_reducible apply KeepsW.no | with_reducible apply keeps_warmReset | with_reducible apply keeps_onDev | with_reducible apply keeps_poundWrite | with_reducible apply KeepsW.ok | split | (intro _) | extract_lets | simp only [keeps_mk, keeps_arb]))

theorem keeps_drainSource (s t) (a0) (a1) (h : Keeps s t) : Keeps s (drainSource a0 a1 t) := by
  induction a0 generalizing t with
  | zero => exact h
  | succ n ih => exact ite_keeps h (ih _ (keeps_takeHead _ _ _ h))

theorem keeps_afterHoldup (s t) (h : Keeps s t) : Keeps s (afterHoldup t) := by
  unfold afterHoldup
  (try extract_lets); (repeat' (first | assumption | with_reducible apply KeepsW.no | with_reducible apply keeps_warmReset | with_reducible apply keeps_drainSource | with_reducible apply keeps_onDev | with_reducible apply keeps_poundWrite | with_reducible apply KeepsW.ok | split | (intro _) | extract_lets | simp only [keeps_mk, keeps_arb]))

theorem keeps_powerOn (s t) (a0) (h : Keeps s t) : Keeps s (powerOn a0 t) := by
  unfold powerOn
  (try extract_lets); (repeat' (first | assumption | with_reducible apply KeepsW.no | with_reducible apply keeps_afterReset | with_reducible apply keeps_onDev | with_reducible apply keeps_poundWrite | with_reducible apply KeepsW.ok | split | (intro _) | extract_lets | simp only [keeps_mk, keeps_arb]))

theorem keeps_powerOff (s t) (h : Keeps s t) : Keeps s (powerOff t) := by
  unfold powerOff
  exact ⟨h.1, fun _ => rfl, h.3, fun _ => rfl⟩

theorem keeps_hardwareShutdown (s t) (a0) (h : Keeps s t) : Keeps s (hardwareShutdown a0 t) := by
  unfold hardwareShutdown
  exact keeps_magSettle _ _ (keeps_onDev _ _ _ (keeps_makeRoom _ _ _ _ (keeps_drainSource _ _ _ _ ((keeps_mk _ _).2 h))))

theorem keeps_roundEnd (s t) (a0) (a1) (a2) (h : Keeps s t) : Keeps s (roundEnd a0 a1 a2 t) := by
  unfold roundEnd
  refine ite_keeps h ?_
  extract_lets s1
  have h1 : Keeps s s1 := keeps_onDev _ _ _ h
  clear_value s1
  cases s1.dev.shutCause with
  | none => exact keeps_magSettle _ _ h1
  | some c => exact keeps_magSettle _ _ (keeps_hardwareShutdown _ _ _ h1)

theorem keeps_thermalRestart (s t) (h : Keeps s t) : Keeps s (thermalRestart t) := by
  unfold thermalRestart
  (try extract_lets); (repeat' (first | assumption | with_reducible apply KeepsW.no | with_reducible apply keeps_warmReset | with_reducible apply keeps_onDev | with_reducible apply keeps_poundWrite | with_reducible apply KeepsW.ok | split | (intro _) | extract_lets | simp only [keeps_mk, keeps_arb]))

theorem keeps_powerFail (s t) (a0) (h : Keeps s t) : Keeps s (powerFail a0 t) := by
  unfold powerFail
  extract_lets d d1 d2 d3 s1
  refine ite_keeps h ?_
  have h1 : Keeps s s1 := (keeps_mk _ _).2 h
  clear_value s1
  refine keeps_magSettle _ _ (ite_keeps ?_ (ite_keeps h1 (keeps_forceStandby _ _ h1)))
  exact keeps_afterHoldup _ _ (keeps_onDev _ _ _ h1)

theorem keeps_powerRestored (s t) (a0) (h : Keeps s t) : Keeps s (powerRestored a0 t) := by
  unfold powerRestored
  (try extract_lets); (repeat' (first | assumption | with_reducible apply KeepsW.no | with_reducible apply keeps_afterHoldup | with_reducible apply keeps_onDev | with_reducible apply keeps_poundWrite | with_reducible apply KeepsW.ok | split | (intro _) | extract_lets | simp only [keeps_mk, keeps_arb]))

theorem keeps_writeResetRequest (s t) (a0) (a1) (h : Keeps s t) : KeepsW s (writeResetRequest a0 a1 t) := by
  unfold writeResetRequest
  (try extract_lets); (repeat' (first | assumption | with_reducible apply KeepsW.no | with_reducible apply keeps_entryWrite | with_reducible apply keeps_requestReset | with_reducible apply keeps_onDev | with_reducible apply keeps_poundWrite | with_reducible apply KeepsW.ok | split | (intro _) | extract_lets | simp only [keeps_mk, keeps_arb]))

theorem keeps_firmwareStart (s t) (a0) (a1) (a2) (a3) (a4) (h : Keeps s t) : Keeps s (firmwareStart a0 a1 a2 a3 a4 t) := by
  unfold firmwareStart
  extract_lets d hd version trial status x d1 d2 d3 d4 d5 s1
  have h1 : Keeps s s1 := keeps_startTraining _ _ ((keeps_mk _ _).2 h)
  clear_value s1 d5
  exact keeps_magSettle _ _ ⟨h1.1, h1.2, h1.3, fun x => Arbiter.logSound_resize _ _ (h1.4 x)⟩

theorem keeps_romSlots (s t) (a0) (a1) (a2) (h : Keeps s t) : Keeps s (romSlots a0 a1 a2 t) := by
  induction a0 generalizing t a1 with
  | nil => exact keeps_onDev _ _ _ h
  | cons i rest ih =>
    unfold romSlots
    extract_lets d hd st
    refine ite_keeps (ih _ _ ((keeps_mk _ _).2 h)) (ite_keeps ?_ (ih _ _ h))
    extract_lets d1 r
    refine ite_keeps (keeps_firmwareStart _ _ _ _ _ _ _ ((keeps_mk _ _).2 h)) ?_
    exact ih _ _ ((keeps_mk _ _).2 h)

theorem keeps_romBoot (s t) (h : Keeps s t) : Keeps s (romBoot t) := by
  unfold romBoot
  (try extract_lets); (repeat' (first | assumption | with_reducible apply KeepsW.no | with_reducible apply keeps_romSlots | with_reducible apply keeps_onDev | with_reducible apply keeps_poundWrite | with_reducible apply KeepsW.ok | split | (intro _) | extract_lets | simp only [keeps_mk, keeps_arb]))

theorem keeps_pushGo (s t) (h : Keeps s t) : Keeps s (pushGo t) := by
  unfold pushGo
  extract_lets d read r
  exact ite_keeps h (ite_keeps (keeps_firmwareStart _ _ _ _ _ _ _ h) (keeps_onDev _ _ _ h))

theorem keeps_standbyReached (s t) (h : Keeps s t) : Keeps s (standbyReached t) := by
  unfold standbyReached
  (try extract_lets); (repeat' (first | assumption | with_reducible apply KeepsW.no | with_reducible apply keeps_afterHoldup | with_reducible apply keeps_onDev | with_reducible apply keeps_poundWrite | with_reducible apply KeepsW.ok | split | (intro _) | extract_lets | simp only [keeps_mk, keeps_arb]))

theorem keeps_writeFwCommit (s t) (a0) (a1) (h : Keeps s t) : KeepsW s (writeFwCommit a0 a1 t) := by
  unfold writeFwCommit
  (try extract_lets); (repeat' (first | assumption | with_reducible apply KeepsW.no | with_reducible apply keeps_entryWrite | with_reducible apply keeps_onDev | with_reducible apply keeps_poundWrite | with_reducible apply KeepsW.ok | split | (intro _) | extract_lets | simp only [keeps_mk, keeps_arb]))

theorem keeps_writeFwUpdate (s t) (a0) (a1) (h : Keeps s t) : KeepsW s (writeFwUpdate a0 a1 t) := by
  unfold writeFwUpdate
  (try extract_lets); (repeat' (first | assumption | with_reducible apply KeepsW.no | with_reducible apply keeps_entryWrite | with_reducible apply keeps_onDev | with_reducible apply keeps_poundWrite | with_reducible apply KeepsW.ok | split | (intro _) | extract_lets | simp only [keeps_mk, keeps_arb]))

theorem keeps_writeSubsystemIds (s t) (a0) (a1) (h : Keeps s t) : KeepsW s (writeSubsystemIds a0 a1 t) := by
  unfold writeSubsystemIds
  (try extract_lets); (repeat' (first | assumption | with_reducible apply KeepsW.no | with_reducible apply keeps_entryWrite | with_reducible apply keeps_onDev | with_reducible apply keeps_poundWrite | with_reducible apply KeepsW.ok | split | (intro _) | extract_lets | simp only [keeps_mk, keeps_arb]))

theorem keeps_bootEnd (s t) (a0) (h : Keeps s t) : Keeps s (bootEnd a0 t) := by
  unfold bootEnd
  extract_lets u d ref d1 d2
  exact keeps_standbyReached _ _ (keeps_magSettle _ _ ((keeps_mk _ _).2 (keeps_makeRoom _ _ _ _ h)))

theorem keeps_trainingEnd (s t) (a0) (h : Keeps s t) : Keeps s (trainingEnd a0 t) := by
  unfold trainingEnd
  refine ite_keeps h (ite_keeps ?_ ?_)
  · exact keeps_bootEnd _ _ _ ((keeps_mk _ _).2 h)
  · exact keeps_magSettle _ _ ((keeps_mk _ _).2 h)

theorem keeps_settleState (s t) (h : Keeps s t) : Keeps s (settleState t) := by
  exact keeps_magSettle _ _ (keeps_forcedGo _ _ (keeps_onDev _ _ _ h))

theorem keeps_writeLaneEntry (s t) (a0) (a1) (a2) (h : Keeps s t) : KeepsW s (writeLaneEntry a0 a1 a2 t) := by
  unfold writeLaneEntry
  (try extract_lets); (repeat' (first | assumption | with_reducible apply KeepsW.no | with_reducible apply keeps_entryWrite | with_reducible apply keeps_onDev | with_reducible apply keeps_poundWrite | with_reducible apply KeepsW.ok | split | (intro _) | extract_lets | simp only [keeps_mk, keeps_arb]))

theorem keeps_writeMagLane (s t) (a0) (a1) (a2) (h : Keeps s t) : KeepsW s (writeMagLane a0 a1 a2 t) := by
  unfold writeMagLane
  (try extract_lets); (repeat' (first | assumption | with_reducible apply KeepsW.no | with_reducible apply keeps_entryWrite | with_reducible apply keeps_onDev | with_reducible apply keeps_poundWrite | with_reducible apply KeepsW.ok | split | (intro _) | extract_lets | simp only [keeps_mk, keeps_arb]))

theorem keeps_laneWrite (s t) (a0) (a1) (a2) (a3) (a4) (h : Keeps s t) : KeepsW s (laneWrite a0 a1 a2 a3 a4 t) := by
  unfold laneWrite
  (try extract_lets); (repeat' (first | assumption | with_reducible apply KeepsW.no | with_reducible apply keeps_writeLaneEntry | with_reducible apply keeps_writeMagLane | with_reducible apply keeps_onDev | with_reducible apply keeps_poundWrite | with_reducible apply KeepsW.ok | split | (intro _) | extract_lets | simp only [keeps_mk, keeps_arb]))

theorem keeps_faultEnd (s t) (a0) (a1) (h : Keeps s t) : Keeps s (faultEnd a0 a1 t) := by
  unfold faultEnd
  (try extract_lets); (repeat' (first | assumption | with_reducible apply KeepsW.no | with_reducible apply keeps_endFrame | with_reducible apply keeps_onDev | with_reducible apply keeps_poundWrite | with_reducible apply KeepsW.ok | split | (intro _) | extract_lets | simp only [keeps_mk, keeps_arb]))

theorem keeps_nextTooSoon (s t) (a0) (a1) (h : Keeps s t) : Keeps s (nextTooSoon a0 a1 t) := by
  unfold nextTooSoon
  (try extract_lets); (repeat' (first | assumption | with_reducible apply KeepsW.no | with_reducible apply keeps_endFrame | with_reducible apply keeps_onDev | with_reducible apply keeps_poundWrite | with_reducible apply KeepsW.ok | split | (intro _) | extract_lets | simp only [keeps_mk, keeps_arb]))

theorem keeps_beginIf (s t) (a0) (a1) (a2) (a3) (h : Keeps s t) : Keeps s (beginIf a0 a1 a2 a3 t) := by
  unfold beginIf
  (try extract_lets); (repeat' (first | assumption | with_reducible apply KeepsW.no | with_reducible apply keeps_beginFrame | with_reducible apply keeps_onDev | with_reducible apply keeps_poundWrite | with_reducible apply KeepsW.ok | split | (intro _) | extract_lets | simp only [keeps_mk, keeps_arb]))

theorem keeps_normalEnd (s t) (a0) (a1) (h : Keeps s t) : Keeps s (normalEnd a0 a1 t) := by
  unfold normalEnd
  (try extract_lets); (repeat' (first | assumption | with_reducible apply KeepsW.no | with_reducible apply keeps_endFrame | with_reducible apply keeps_onDev | with_reducible apply keeps_poundWrite | with_reducible apply KeepsW.ok | split | (intro _) | extract_lets | simp only [keeps_mk, keeps_arb]))

theorem keeps_rowArrived (s t) (a0) (a1) (a2) (a3) (h : Keeps s t) : Keeps s (rowArrived a0 a1 a2 a3 t) := by
  unfold rowArrived
  (try extract_lets); (repeat' (first | assumption | with_reducible apply KeepsW.no | with_reducible apply keeps_rowDone | with_reducible apply keeps_scanRow | with_reducible apply keeps_onDev | with_reducible apply keeps_poundWrite | with_reducible apply KeepsW.ok | split | (intro _) | extract_lets | simp only [keeps_mk, keeps_arb]))

theorem keeps_onSync (s t) (a0) (a1) (a2) (a3) (a4 : Nat → State → State) (_ : ∀ x u, Keeps s u → Keeps s (a4 x u)) (h :
    Keeps s t) : Keeps s (onSync a0 a1 a2 a3 a4 t) := by
  unfold onSync
  split
  · split
    · exact ‹∀ x u, Keeps s u → Keeps s (a4 x u)› _ _ h
    · exact h
  · exact h

theorem keeps_rawSof (s t) (a0) (a1) (a2) (h : Keeps s t) : Keeps s (rawSof a0 a1 a2 t) := by
  unfold rawSof
  (try extract_lets); (repeat' (first | assumption | with_reducible apply KeepsW.no | with_reducible apply keeps_nextTooSoon | with_reducible apply keeps_beginIf | with_reducible apply keeps_onDev | with_reducible apply keeps_poundWrite | with_reducible apply KeepsW.ok | split | (intro _) | extract_lets | simp only [keeps_mk, keeps_arb]))

theorem keeps_rawSol (s t) (a0) (a1) (a2) (h : Keeps s t) : Keeps s (rawSol a0 a1 a2 t) := by
  unfold rawSol
  (try extract_lets); (repeat' (first | assumption | with_reducible apply KeepsW.no | with_reducible apply keeps_faultEnd | with_reducible apply keeps_onDev | with_reducible apply keeps_poundWrite | with_reducible apply KeepsW.ok | split | (intro _) | extract_lets | simp only [keeps_mk, keeps_arb]))

theorem keeps_segTake (s t) (a0) (a1) (a2) (a3) (a4) (h : Keeps s t) : Keeps s (segTake a0 a1 a2 a3 a4 t) := by
  unfold segTake
  (try extract_lets); (repeat' (first | assumption | with_reducible apply KeepsW.no | with_reducible apply keeps_faultEnd | with_reducible apply keeps_rowArrived | with_reducible apply keeps_onDev | with_reducible apply keeps_poundWrite | with_reducible apply KeepsW.ok | split | (intro _) | extract_lets | simp only [keeps_mk, keeps_arb]))

theorem keeps_rawSegment (s t) (a0) (a1) (a2) (a3) (h : Keeps s t) : Keeps s (rawSegment a0 a1 a2 a3 t) := by
  unfold rawSegment
  (try extract_lets); (repeat' (first | assumption | with_reducible apply KeepsW.no | with_reducible apply keeps_segTake | with_reducible apply keeps_onDev | with_reducible apply keeps_poundWrite | with_reducible apply KeepsW.ok | split | (intro _) | extract_lets | simp only [keeps_mk, keeps_arb]))

theorem keeps_rawEof (s t) (a0) (a1) (h : Keeps s t) : Keeps s (rawEof a0 a1 t) := by
  unfold rawEof
  (try extract_lets); (repeat' (first | assumption | with_reducible apply KeepsW.no | with_reducible apply keeps_normalEnd | with_reducible apply keeps_onDev | with_reducible apply keeps_poundWrite | with_reducible apply KeepsW.ok | split | (intro _) | extract_lets | simp only [keeps_mk, keeps_arb]))

theorem keeps_stripeTake (s t) (a0) (a1) (a2) (h : Keeps s t) : Keeps s (stripeTake a0 a1 a2 t) := by
  unfold stripeTake
  (try extract_lets); (repeat' (first | assumption | with_reducible apply KeepsW.no | with_reducible apply keeps_rowArrived | with_reducible apply keeps_onDev | with_reducible apply keeps_poundWrite | with_reducible apply KeepsW.ok | split | (intro _) | extract_lets | simp only [keeps_mk, keeps_arb]))

theorem keeps_stripeData (s t) (a0) (a1) (a2) (a3) (h : Keeps s t) : Keeps s (stripeData a0 a1 a2 a3 t) := by
  unfold stripeData
  (try extract_lets); (repeat' (first | assumption | with_reducible apply KeepsW.no | with_reducible apply keeps_faultEnd | with_reducible apply keeps_normalEnd | with_reducible apply keeps_stripeTake | with_reducible apply keeps_onDev | with_reducible apply keeps_poundWrite | with_reducible apply KeepsW.ok | split | (intro _) | extract_lets | simp only [keeps_mk, keeps_arb]))

theorem keeps_stripeScan (s t) (a0) (a1) (a2) (h : Keeps s t) : Keeps s (stripeScan a0 a1 a2 t) := by
  unfold stripeScan
  (try extract_lets); (repeat' (first | assumption | with_reducible apply KeepsW.no | with_reducible apply keeps_faultEnd | with_reducible apply keeps_stripeTake | with_reducible apply keeps_onDev | with_reducible apply keeps_poundWrite | with_reducible apply KeepsW.ok | split | (intro _) | extract_lets | simp only [keeps_mk, keeps_arb]))

theorem keeps_stripePacket (s t) (a0) (a1) (h : Keeps s t) : Keeps s (stripePacket a0 a1 t) := by
  unfold stripePacket
  (try extract_lets); (repeat' (first | assumption | with_reducible apply KeepsW.no | with_reducible apply keeps_faultEnd | with_reducible apply keeps_nextTooSoon | with_reducible apply keeps_beginIf | with_reducible apply keeps_stripeData | with_reducible apply keeps_stripeScan | with_reducible apply keeps_onDev | with_reducible apply keeps_poundWrite | with_reducible apply KeepsW.ok | split | (intro _) | extract_lets | simp only [keeps_mk, keeps_arb] | dsimp +zetaDelta only))

theorem keeps_closePacket (s t) (a0) (a1) (a2) (a3) (h : Keeps s t) : Keeps s (closePacket a0 a1 a2 a3 t) := by
  unfold closePacket
  (try extract_lets); (repeat' (first | assumption | with_reducible apply KeepsW.no | with_reducible apply keeps_stripePacket | with_reducible apply keeps_onDev | with_reducible apply keeps_poundWrite | with_reducible apply KeepsW.ok | split | (intro _) | extract_lets | simp only [keeps_mk, keeps_arb]))

theorem keeps_stripeBlock (s t) (a0) (a1) (a2) (h : Keeps s t) : Keeps s (stripeBlock a0 a1 a2 t) := by
  unfold stripeBlock
  (try extract_lets); (repeat' (first | assumption | with_reducible apply KeepsW.no | with_reducible apply keeps_closePacket | with_reducible apply keeps_onDev | with_reducible apply keeps_poundWrite | with_reducible apply KeepsW.ok | split | (intro _) | extract_lets | simp only [keeps_mk, keeps_arb]))

theorem keeps_stripeFeed (s t) (a0) (a1) (a2) (h : Keeps s t) : Keeps s (stripeFeed a0 a1 a2 t) := by
  unfold stripeFeed
  (try extract_lets); (repeat' (first | assumption | with_reducible apply KeepsW.no | with_reducible apply keeps_stripeBlock | with_reducible apply keeps_onDev | with_reducible apply keeps_poundWrite | with_reducible apply KeepsW.ok | with_reducible apply Keeps.foldl | split | (intro _) | extract_lets | simp only [keeps_mk, keeps_arb]))

theorem keeps_lateRow (s t) (a0) (h : Keeps s t) : Keeps s (lateRow a0 t) := by
  unfold lateRow
  (try extract_lets); (repeat' (first | assumption | with_reducible apply KeepsW.no | with_reducible apply keeps_scanLate | with_reducible apply keeps_faultEnd | with_reducible apply keeps_onDev | with_reducible apply keeps_poundWrite | with_reducible apply KeepsW.ok | split | (intro _) | extract_lets | simp only [keeps_mk, keeps_arb]))

theorem keeps_writeTrigNow (s t) (a0) (a1) (a2) (h : Keeps s t) : KeepsW s (writeTrigNow a0 a1 a2 t) := by
  unfold writeTrigNow
  (try extract_lets); (repeat' (first | assumption | with_reducible apply KeepsW.no | with_reducible apply keeps_entryWrite | with_reducible apply keeps_onDev | with_reducible apply keeps_poundWrite | with_reducible apply KeepsW.ok | split | (intro _) | extract_lets | simp only [keeps_mk, keeps_arb]))

theorem keeps_writeTpg (s t) (a0) (a1) (a2) (a3) (h : Keeps s t) : KeepsW s (writeTpg a0 a1 a2 a3 t) := by
  unfold writeTpg
  (try extract_lets); (repeat' (first | assumption | with_reducible apply KeepsW.no | with_reducible apply keeps_entryWrite | with_reducible apply keeps_onDev | with_reducible apply keeps_poundWrite | with_reducible apply KeepsW.ok | split | (intro _) | extract_lets | simp only [keeps_mk, keeps_arb]))

theorem keeps_writeStrobe (s t) (a0) (a1) (a2) (h : Keeps s t) : KeepsW s (writeStrobe a0 a1 a2 t) := by
  unfold writeStrobe
  (try extract_lets); (repeat' (first | assumption | with_reducible apply KeepsW.no | with_reducible apply keeps_entryWrite | with_reducible apply keeps_onDev | with_reducible apply keeps_poundWrite | with_reducible apply KeepsW.ok | split | (intro _) | extract_lets | simp only [keeps_mk, keeps_arb]))

theorem keeps_scanSettle (s t) (h : Keeps s t) : Keeps s (scanSettle t) := by
  exact keeps_forcedGo _ _ (keeps_settleState _ _ h)

theorem keeps_dramRead (s t) (a0) (a1) (a2) (h : Keeps s t) : Keeps s (dramRead a0 a1 a2 t) := by
  unfold dramRead
  (try extract_lets); (repeat' (first | assumption | with_reducible apply KeepsW.no | with_reducible apply keeps_migratorRead | with_reducible apply keeps_requesterRead | with_reducible apply keeps_forcedGo | with_reducible apply keeps_requestReset | with_reducible apply keeps_onDev | with_reducible apply keeps_poundWrite | with_reducible apply KeepsW.ok | split | (intro _) | extract_lets | simp only [keeps_mk, keeps_arb]))

theorem keeps_proxySend (s t) (a0) (h : Keeps s t) : Keeps s (proxySend a0 t) := by
  unfold proxySend
  (try extract_lets); (repeat' (first | assumption | with_reducible apply KeepsW.no | with_reducible apply keeps_onDev | with_reducible apply keeps_poundWrite | with_reducible apply KeepsW.ok | with_reducible apply Keeps.foldl | split | (intro _) | extract_lets | simp only [keeps_mk, keeps_arb]))

theorem keeps_writeNet (s t) (a0) (a1) (a2) (h : Keeps s t) : KeepsW s (writeNet a0 a1 a2 t) := by
  unfold writeNet
  (try extract_lets); (repeat' (first | assumption | with_reducible apply KeepsW.no | with_reducible apply keeps_entryWrite | with_reducible apply keeps_onDev | with_reducible apply keeps_poundWrite | with_reducible apply KeepsW.ok | split | (intro _) | extract_lets | simp only [keeps_mk, keeps_arb]))

theorem keeps_twSettle (s t) (a0) (h : Keeps s t) : Keeps s (twSettle a0 t) := by
  exact keeps_settleState _ _ (keeps_onDev _ _ _ h)

theorem keeps_writeIntake (s t) (a0) (a1) (a2) (h : Keeps s t) : KeepsW s (writeIntake a0 a1 a2 t) := by
  unfold writeIntake
  (try extract_lets); (repeat' (first | assumption | with_reducible apply KeepsW.no | with_reducible apply keeps_entryWrite | with_reducible apply keeps_writeTrigNow | with_reducible apply keeps_onDev | with_reducible apply keeps_poundWrite | with_reducible apply KeepsW.ok | split | (intro _) | extract_lets | simp only [keeps_mk, keeps_arb]))

theorem keeps_writeSeq (s t) (a0) (a1) (a2) (h : Keeps s t) : KeepsW s (writeSeq a0 a1 a2 t) := by
  unfold writeSeq
  (try extract_lets); (repeat' (first | assumption | with_reducible apply KeepsW.no | with_reducible apply keeps_entryWrite | with_reducible apply keeps_writeSubmit | with_reducible apply keeps_onDev | with_reducible apply keeps_poundWrite | with_reducible apply KeepsW.ok | split | (intro _) | extract_lets | simp only [keeps_mk, keeps_arb]))

theorem keeps_writePlain (s t) (a0) (a1) (a2) (h : Keeps s t) : KeepsW s (writePlain a0 a1 a2 t) := by
  unfold writePlain
  (try extract_lets); (repeat' (first | assumption | with_reducible apply KeepsW.no | with_reducible apply keeps_entryWrite | with_reducible apply keeps_onDev | with_reducible apply keeps_poundWrite | with_reducible apply KeepsW.ok | split | (intro _) | extract_lets | simp only [keeps_mk, keeps_arb]))

theorem keeps_writeLow (s t) (a0) (a1) (a2) (h : Keeps s t) : KeepsW s (writeLow a0 a1 a2 t) := by
  unfold writeLow
  (try extract_lets); (repeat' (first | assumption | with_reducible apply KeepsW.no | with_reducible apply keeps_entryWrite | with_reducible apply keeps_writeModeRequest | with_reducible apply keeps_writeStoreSave | with_reducible apply keeps_writeResetRequest | with_reducible apply keeps_writeFwCommit | with_reducible apply keeps_writeFwUpdate | with_reducible apply keeps_writeSubsystemIds | with_reducible apply keeps_writePlain | with_reducible apply keeps_onDev | with_reducible apply keeps_poundWrite | with_reducible apply KeepsW.ok | split | (intro _) | extract_lets | simp only [keeps_mk, keeps_arb]))

theorem keeps_writeMid (s t) (a0) (a1) (a2) (h : Keeps s t) : KeepsW s (writeMid a0 a1 a2 t) := by
  unfold writeMid
  (try extract_lets); (repeat' (first | assumption | with_reducible apply KeepsW.no | with_reducible apply keeps_writePoolCmd | with_reducible apply keeps_writeFbPhase | with_reducible apply keeps_writeWeir | with_reducible apply keeps_writeFab | with_reducible apply keeps_writeAmt | with_reducible apply keeps_writeView | with_reducible apply keeps_writeHev | with_reducible apply keeps_writeOut | with_reducible apply keeps_writeSeq | with_reducible apply keeps_writePlain | with_reducible apply keeps_onDev | with_reducible apply keeps_poundWrite | with_reducible apply KeepsW.ok | split | (intro _) | extract_lets | simp only [keeps_mk, keeps_arb]))

theorem keeps_writeHigh (s t) (a0) (a1) (a2) (h : Keeps s t) : KeepsW s (writeHigh a0 a1 a2 t) := by
  unfold writeHigh
  extract_lets idx
  have hp : ∀ (w k v), KeepsW s (writePlain w k v t) := fun w k v => keeps_writePlain _ _ _ _ _ h
  refine ite_keepsW (keeps_writeDram _ _ _ _ _ h) (ite_keepsW (ite_keepsW (keeps_writeMagLane _ _ _ _ _ h)
    (keeps_writeMag _ _ _ _ _ h)) (ite_keepsW (keeps_writeRcq _ _ _ _ _ h) (ite_keepsW (keeps_writeClip _ _ _ _ _ h)
    (ite_keepsW (hp _ _ _) (ite_keepsW (ite_keepsW (keeps_writeStageArm _ _ _ _ h) (keeps_writeStaging _ _ _ _ _ h))
    (ite_keepsW (keeps_writeTpg _ _ _ _ _ _ h) (ite_keepsW (keeps_writeNet _ _ _ _ _ h)
    (ite_keepsW (keeps_writeStrobe _ _ _ _ _ h) (ite_keepsW (hp _ _ _) (ite_keepsW ?_ (keeps_writeTherm _ _ _ _ _ h)))))))))))
  cases a2 with
  | num n => exact ite_keepsW (keeps_writeTwRstAssert _ _ _ _ _ h) (keeps_writeTwEntry _ _ _ _ _ _ h)
  | bytes b => exact ite_keepsW (keeps_writeTwXfer _ _ _ _ _ h) (keeps_writeTwEntry _ _ _ _ _ _ h)

theorem keeps_dictRoute (s t) (a0) (a1) (a2) (h : Keeps s t) : KeepsW s (dictRoute a0 a1 a2 t) := by
  unfold dictRoute
  (try extract_lets); (repeat' (first | assumption | with_reducible apply KeepsW.no | with_reducible apply keeps_writeEnable | with_reducible apply keeps_writeLaneEntry | with_reducible apply keeps_writeIntake | with_reducible apply keeps_writeLow | with_reducible apply keeps_writeMid | with_reducible apply keeps_writeHigh | with_reducible apply keeps_onDev | with_reducible apply keeps_poundWrite | with_reducible apply KeepsW.ok | split | (intro _) | extract_lets | simp only [keeps_mk, keeps_arb]))

theorem keeps_dictWriteAny (s t) (a0) (a1) (a2) (h : Keeps s t) : KeepsW s (dictWriteAny a0 a1 a2 t) := by
  unfold dictWriteAny
  (try extract_lets); (repeat' (first | assumption | with_reducible apply KeepsW.no | with_reducible apply keeps_dictRoute | with_reducible apply keeps_onDev | with_reducible apply keeps_poundWrite | with_reducible apply KeepsW.ok | split | (intro _) | extract_lets | simp only [keeps_mk, keeps_arb]))

theorem keeps_writeSettle (s t) (h : Keeps s t) : Keeps s (writeSettle t) := by
  exact keeps_settleState _ _ (keeps_onDev _ _ _ h)

theorem keeps_authWrite (s t) (a0) (a1) (a2) (a3) (a4) (h : Keeps s t) : KeepsW s (authWrite a0 a1 a2 a3 a4 t) := by
  unfold authWrite
  (try extract_lets); (repeat' (first | assumption | with_reducible apply KeepsW.no | with_reducible apply keeps_roomToRecord | with_reducible apply keeps_onDev | with_reducible apply keeps_poundWrite | with_reducible apply KeepsW.ok | split | (intro _) | extract_lets | simp only [keeps_mk, keeps_arb]))

theorem keeps_readOne (s t) (a0) (a1) (a2) (a3) (h : Keeps s t) : Keeps s (readOne a0 a1 a2 a3 t).2.2 := by
  unfold readOne
  (try extract_lets); (repeat' (first | assumption | with_reducible apply KeepsW.no | with_reducible apply keeps_onDev | with_reducible apply keeps_poundWrite | with_reducible apply KeepsW.ok | split | (intro _) | extract_lets | simp only [keeps_mk, keeps_arb]))

theorem keeps_readList (s t) (a0) (a1) (a2) (a3) (h : Keeps s t) : Keeps s (readList a0 a1 a2 a3 t).2 := by
  induction a3 generalizing t a2 with
  | nil => exact h
  | cons i l ih => exact ih _ _ (keeps_readOne _ _ _ _ _ _ h)

theorem keeps_clientWrite (s t) (a0) (a1) (a2) (a3) (a4) (a5) (a6) (a7) (h : Keeps s t) : KeepsW s (clientWrite a0 a1 a2 a3
    a4 a5 a6 a7 t) := by
  unfold clientWrite
  (try extract_lets); (repeat' (first | assumption | with_reducible apply KeepsW.no | with_reducible apply keeps_dictWriteAny | with_reducible apply keeps_authWrite | with_reducible apply keeps_onDev | with_reducible apply keeps_poundWrite | with_reducible apply KeepsW.ok | split | (intro _) | extract_lets | simp only [keeps_mk, keeps_arb]))

theorem keeps_writeList (s t) (a0) (a1) (a2) (a3) (a4) (a5) (h : Keeps s t) : Keeps s (writeList a0 a1 a2 a3 a4 a5 t).2.1 := by
  induction a5 generalizing t with
  | nil => exact h
  | cons i l ih =>
    unfold writeList
    have hw := keeps_clientWrite s t a0 a1 a2 a3 a4 i.key i.ty i.val h
    cases hx : clientWrite a0 a1 a2 a3 a4 i.key i.ty i.val t with
    | ok u =>
      rw [hx] at hw
      cases hw with
      | ok h' => exact ih _ h'
    | no c e => exact ih _ h

theorem keeps_readBlock (s t) (a0) (a1) (a2) (a3) (a4) (a5) (h : Keeps s t) : Keeps s (readBlock a0 a1 a2 a3 a4 a5 t).2 := by
  unfold readBlock
  (try extract_lets); (repeat' (first | assumption | with_reducible apply KeepsW.no | with_reducible apply keeps_readOne | with_reducible apply keeps_onDev | with_reducible apply keeps_poundWrite | with_reducible apply KeepsW.ok | split | (intro _) | extract_lets | simp only [keeps_mk, keeps_arb]))

theorem keeps_writeBlock (s t) (a0) (a1) (a2) (a3) (a4) (a5) (a6) (a7) (a8) (h : Keeps s t) : Keeps s (writeBlock a0 a1 a2 a3
    a4 a5 a6 a7 a8 t).2 := by
  unfold writeBlock
  extract_lets d mine drop sofar
  have hd : ∀ u, Keeps s u → Keeps s (drop u) := fun u hu => keeps_onDev _ _ _ hu
  clear_value drop
  clear_value sofar
  refine ite_keeps2 h ?_
  cases sofar with
  | none => exact h
  | some pre =>
    dsimp -zeta only
    extract_lets all
    refine ite_keeps2 h (ite_keeps2 (keeps_onDev _ _ _ h) ?_)
    have hw := keeps_clientWrite s (drop t) a0 a1 a2 a3 a4 a5.key a5.ty all (hd _ h)
    cases hx : clientWrite a0 a1 a2 a3 a4 a5.key a5.ty all (drop t) with
    | ok u =>
      rw [hx] at hw
      cases hw with
      | ok h' => exact h'
    | no c e => exact keeps_onDev _ _ _ (hd _ h)

theorem keeps_subscribe (s t) (a0) (a1) (a2) (a3) (h : Keeps s t) : Keeps s (subscribe a0 a1 a2 a3 t).2 := by
  unfold subscribe
  (try extract_lets); (repeat' (first | assumption | with_reducible apply KeepsW.no | with_reducible apply keeps_onDev | with_reducible apply keeps_poundWrite | with_reducible apply KeepsW.ok | with_reducible apply Keeps.foldl | split | (intro _) | extract_lets | simp only [keeps_mk, keeps_arb]))

theorem keeps_handleWrite (s t) (a0) (a1) (a2) (a3) (a4) (a5) (h : Keeps s t) : Keeps s (handleWrite a0 a1 a2 a3 a4 a5 t).st := by
  unfold handleWrite
  extract_lets x proof
  have hx : Keeps s x.2.1 := keeps_writeList _ _ _ _ _ _ _ _ h
  have h1 : Keeps s (writeSettle x.2.1) := keeps_writeSettle _ _ hx
  have h2 : Keeps s (onDev x.2.2 t) := keeps_onDev _ _ _ h
  clear_value x
  cases hc : x.1.all (fun c => c == 0) with
  | true => simp only [if_true]; exact h1
  | false => simp only [Bool.false_eq_true, if_false]; exact h2

theorem keeps_handle (s t) (a0) (a1) (a2) (a3) (a4) (a5) (h : Keeps s t) : Keeps s (handle a0 a1 a2 a3 a4 a5 t).st := by
  unfold handle
  extract_lets limit
  clear_value limit
  cases a5 with
  | read l => exact keeps_readList _ _ _ _ _ _ h
  | write l => exact keeps_handleWrite _ _ _ _ _ _ _ _ h
  | readBlock i off size => exact keeps_readBlock s t _ _ _ _ _ _ h
  | writeBlock i total off data =>
    dsimp only
    exact keeps_writeSettle _ _ (keeps_writeBlock _ _ _ _ _ _ _ _ _ _ _ h)
  | subscribe f l => exact keeps_subscribe s t _ _ _ _ h
  | unsubscribe => dsimp only; exact keeps_onDev _ _ _ h

theorem keeps_remember (s t) (a0) (a1) (a2) (h : Keeps s t) : Keeps s (remember a0 a1 a2 t) := by
  unfold remember
  (try extract_lets); (repeat' (first | assumption | with_reducible apply KeepsW.no | with_reducible apply keeps_onDev | with_reducible apply keeps_poundWrite | with_reducible apply KeepsW.ok | split | (intro _) | extract_lets | simp only [keeps_mk, keeps_arb]))

theorem keeps_answer (s t) (a0) (a1) (a2) (a3) (a4) (a5) (a6) (h : Keeps s t) : Keeps s (answer a0 a1 a2 a3 a4 a5 a6 t).2 := by
  unfold answer
  (try extract_lets); (repeat' (first | assumption | with_reducible apply KeepsW.no | with_reducible apply keeps_handle | with_reducible apply keeps_remember | with_reducible apply keeps_onDev | with_reducible apply keeps_poundWrite | with_reducible apply KeepsW.ok | split | (intro _) | extract_lets | simp only [keeps_mk, keeps_arb]))

theorem keeps_inSession (s t) (a0) (a1) (a2) (a3) (a4) (a5) (h : Keeps s t) : Keeps s (inSession a0 a1 a2 a3 a4 a5 t).2 := by
  unfold inSession
  (try extract_lets); (repeat' (first | assumption | with_reducible apply KeepsW.no | with_reducible apply keeps_answer | with_reducible apply keeps_onDev | with_reducible apply keeps_poundWrite | with_reducible apply KeepsW.ok | split | (intro _) | extract_lets | simp only [keeps_mk, keeps_arb]))

theorem keeps_turad (s t) (a0) (a1) (a2) (a3) (a4) (h : Keeps s t) : Keeps s (turad a0 a1 a2 a3 a4 t).2 := by
  unfold turad
  (try extract_lets); (repeat' (first | assumption | with_reducible apply KeepsW.no | with_reducible apply keeps_handle | with_reducible apply keeps_answer | with_reducible apply keeps_inSession | with_reducible apply keeps_onDev | with_reducible apply keeps_poundWrite | with_reducible apply KeepsW.ok | split | (intro _) | extract_lets | simp only [keeps_mk, keeps_arb]))

theorem keeps_mbxWrite (s t) (a0) (h : Keeps s t) : ∀ u, mbxWrite a0 t = some u → Keeps s u := by
  intro u hu
  unfold mbxWrite at hu
  extract_lets e at hu
  split at hu
  · cases hu
  · cases hp : ringPlace e.rspSize e.rspHead e.rspTail a0.length with
    | none => rw [hp] at hu; cases hu
    | some p =>
      rw [hp] at hu
      cases hu
      refine ⟨h.1, h.2, fun x => Mem.wf_writeBytes _ _ ?_, h.4⟩
      split
      · exact Mem.wf_writeBytes _ _ (h.3 x)
      · exact h.3 x

theorem keeps_mbxDrain (s t) (a0) (h : Keeps s t) : Keeps s (mbxDrain a0 t) := by
  induction a0 generalizing t with
  | nil => exact keeps_onDev _ _ _ h
  | cons b l ih =>
    unfold mbxDrain
    cases hx : mbxWrite b t with
    | none => exact keeps_onDev _ _ _ h
    | some u => exact ih _ (keeps_mbxWrite _ _ _ h u hx)

theorem keeps_mbxServe (s t) (a0) (h : Keeps s t) : Keeps s (mbxServe a0 t) := by
  induction a0 generalizing t with
  | zero => exact h
  | succ n ih =>
    unfold mbxServe
    extract_lets e
    cases e.requests with
    | nil => exact h
    | cons b l =>
      dsimp -zeta only
      refine ite_keeps h ?_
      extract_lets s1 r
      have hr : Keeps s r.2 := keeps_turad _ _ _ _ _ _ _ (keeps_onDev _ _ _ h)
      clear_value r
      refine ih _ ?_
      cases r.1 with
      | none => exact hr
      | some a => exact ite_keeps (keeps_mbxDrain _ _ _ hr) hr

theorem keeps_mbxGo (s t) (h : Keeps s t) : Keeps s (mbxGo t) := by
  unfold mbxGo
  (try extract_lets); (repeat' (first | assumption | with_reducible apply KeepsW.no | with_reducible apply keeps_mbxDrain | with_reducible apply keeps_mbxServe | with_reducible apply keeps_onDev | with_reducible apply keeps_poundWrite | with_reducible apply KeepsW.ok | split | (intro _) | extract_lets | simp only [keeps_mk, keeps_arb]))

theorem keeps_mbxControl (s t) (a0) (h : Keeps s t) : Keeps s (mbxControl a0 t) := by
  unfold mbxControl
  (try extract_lets); (repeat' (first | assumption | with_reducible apply KeepsW.no | with_reducible apply keeps_onDev | with_reducible apply keeps_poundWrite | with_reducible apply KeepsW.ok | split | (intro _) | extract_lets | simp only [keeps_mk, keeps_arb]))

theorem keeps_mbxRequest (s t) (a0) (a1) (h : Keeps s t) : Keeps s (mbxRequest a0 a1 t) := by
  unfold mbxRequest
  (try extract_lets); (repeat' (first | assumption | with_reducible apply KeepsW.no | with_reducible apply keeps_mbxGo | with_reducible apply keeps_onDev | with_reducible apply keeps_poundWrite | with_reducible apply KeepsW.ok | split | (intro _) | extract_lets | simp only [keeps_mk, keeps_arb]))

theorem keeps_mbxRelease (s t) (a0) (h : Keeps s t) : Keeps s (mbxRelease a0 t) := by
  unfold mbxRelease
  (try extract_lets); (repeat' (first | assumption | with_reducible apply KeepsW.no | with_reducible apply keeps_mbxGo | with_reducible apply keeps_onDev | with_reducible apply keeps_poundWrite | with_reducible apply KeepsW.ok | split | (intro _) | extract_lets | simp only [keeps_mk, keeps_arb]))

theorem keeps_evtResize (s t) (a0) (h : Keeps s t) : Keeps s (evtResize a0 t) := by
  unfold evtResize
  (try extract_lets); (repeat' (first | assumption | with_reducible apply KeepsW.no | with_reducible apply keeps_onDev | with_reducible apply keeps_poundWrite | with_reducible apply KeepsW.ok | split | (intro _) | extract_lets | simp only [keeps_mk, keeps_arb] | dsimp +zetaDelta only))

theorem keeps_evtRelease (s t) (a0) (h : Keeps s t) : Keeps s (evtRelease a0 t) := by
  unfold evtRelease
  (try extract_lets); (repeat' (first | assumption | with_reducible apply KeepsW.no | with_reducible apply keeps_logOverrun | with_reducible apply keeps_onDev | with_reducible apply keeps_poundWrite | with_reducible apply KeepsW.ok | split | (intro _) | extract_lets | simp only [keeps_mk, keeps_arb]))

theorem keeps_bar2Read (s t) (a0) (a1) (h : Keeps s t) : Keeps s (bar2Read a0 a1 t) := by
  unfold bar2Read
  (try extract_lets); (repeat' (first | assumption | with_reducible apply KeepsW.no | with_reducible apply keeps_poisonReads | with_reducible apply keeps_onDev | with_reducible apply keeps_poundWrite | with_reducible apply KeepsW.ok | split | (intro _) | extract_lets | simp only [keeps_mk, keeps_arb]))

theorem keeps_bar2Write (s t) (a0) (a1) (h : Keeps s t) : Keeps s (bar2Write a0 a1 t) := by
  unfold bar2Write
  (try extract_lets); (repeat' (first | assumption | with_reducible apply KeepsW.no | with_reducible apply keeps_onDev | with_reducible apply keeps_poundWrite | with_reducible apply KeepsW.ok | split | (intro _) | extract_lets | simp only [keeps_mk, keeps_arb]))

theorem keeps_d0Return (s t) (h : Keeps s t) : Keeps s (d0Return t) := by
  unfold d0Return
  refine ite_keeps h ?_
  extract_lets s1 a s2 s3
  have h1 : Keeps s s1 := keeps_onDev _ _ _ h
  clear_value s1
  have h2 : Keeps s s2 := Keeps.foldl _ (fun u x hu => keeps_copyRecord _ _ _ hu) _ _ ((keeps_arb _ _ _ _ _).2 h1)
  exact keeps_magSettle _ _ (keeps_writeTaken _ _ (keeps_mbxGo _ _ (keeps_onDev _ _ _ h2)))

theorem keeps_hostReset (s t) (a0) (h : Keeps s t) : Keeps s (hostReset a0 t) := by
  unfold hostReset
  exact keeps_magSettle _ _ (keeps_advance _ _ ((keeps_arb _ _ _ _ _).2 h))

theorem keeps_bar0Write (s t) (a0) (a1) (h : Keeps s t) : Keeps s (bar0Write a0 a1 t) := by
  unfold bar0Write
  extract_lets e ep
  have hep : ∀ f, Keeps s (ep f) := fun f => keeps_onDev _ _ _ h
  clear_value ep
  split
  · exact ite_keeps (keeps_requestReset _ _ _ h) h
  · exact keeps_mbxControl _ _ _ h
  · exact ite_keeps (hep _) h
  · exact ite_keeps (hep _) h
  · exact keeps_mbxRequest _ _ _ _ h
  · exact ite_keeps (hep _) h
  · exact ite_keeps (hep _) h
  · exact keeps_mbxRelease _ _ _ h
  · exact ite_keeps (hep _) h
  · exact keeps_evtResize _ _ _ h
  · exact keeps_evtRelease _ _ _ h
  · exact keeps_onDev _ _ _ h
  · exact ite_keeps (keeps_mbxGo _ _ (keeps_pushGo _ _ h)) h
  · exact ite_keeps (keeps_onDev _ _ _ h) h
  · exact ite_keeps (keeps_onDev _ _ _ h) (ite_keeps (keeps_magSettle _ _ (keeps_cqHead _ _ _ _ h))
      (ite_keeps (keeps_onDev _ _ _ h) h))

theorem keeps_registerWrite (s t) (a0) (a1) (a2) (h : Keeps s t) : Keeps s (registerWrite a0 a1 a2 t) := by
  unfold registerWrite
  refine ite_keeps h (ite_keeps h (ite_keeps (ite_keeps (keeps_onDev _ _ _ h) h) ?_))
  have hb : ∀ r v, Keeps s (bar0Write r v t) := fun r v => keeps_bar0Write _ _ _ _ h
  exact ite_keeps (hb _ _) (ite_keeps (hb _ _) (ite_keeps h (hb _ _)))

theorem keeps_hostAccess (s t) (a0 : State → State) (_ : ∀ u, Keeps s u → Keeps s (a0 u)) (h : Keeps s t) : Keeps s
    (hostAccess a0 t) := by
  rename_i hf
  exact ite_keeps h (hf _ h)

theorem keeps_turadSend (s t) (a0) (a1) (a2) (a3) (h : Keeps s t) : Keeps s (turadSend a0 a1 a2 a3 t) := by
  unfold turadSend
  (try extract_lets); (repeat' (first | assumption | with_reducible apply KeepsW.no | with_reducible apply keeps_mbxDrain | with_reducible apply keeps_onDev | with_reducible apply keeps_poundWrite | with_reducible apply KeepsW.ok | split | (intro _) | extract_lets | simp only [keeps_mk, keeps_arb]))

theorem keeps_turadTake (s t) (a0) (a1) (h : Keeps s t) : Keeps s (turadTake a0 a1 t) := by
  unfold turadTake
  (try extract_lets); (repeat' (first | assumption | with_reducible apply KeepsW.no | with_reducible apply keeps_turad | with_reducible apply keeps_turadSend | with_reducible apply keeps_onDev | with_reducible apply keeps_poundWrite | with_reducible apply KeepsW.ok | split | (intro _) | extract_lets | simp only [keeps_mk, keeps_arb]))

theorem keeps_eventSend (s t) (a0) (h : Keeps s t) : Keeps s (eventSend a0 t) := by
  unfold eventSend
  (try extract_lets); (repeat' (first | assumption | with_reducible apply KeepsW.no | with_reducible apply keeps_turadSend | with_reducible apply keeps_onDev | with_reducible apply keeps_poundWrite | with_reducible apply KeepsW.ok | split | (intro _) | extract_lets | simp only [keeps_mk, keeps_arb]))

theorem keeps_twmSubmit (s t) (h : Keeps s t) : Keeps s (twmSubmit t) := by
  unfold twmSubmit
  (try extract_lets); (repeat' (first | assumption | with_reducible apply KeepsW.no | with_reducible apply keeps_turad | with_reducible apply keeps_onDev | with_reducible apply keeps_poundWrite | with_reducible apply KeepsW.ok | split | (intro _) | extract_lets | simp only [keeps_mk, keeps_arb]))

theorem keeps_twmPut (s t) (a0) (h : Keeps s t) : Keeps s (twmPut a0 t) := by
  unfold twmPut
  (try extract_lets); (repeat' (first | assumption | with_reducible apply KeepsW.no | with_reducible apply keeps_twmSubmit | with_reducible apply keeps_onDev | with_reducible apply keeps_poundWrite | with_reducible apply KeepsW.ok | split | (intro _) | extract_lets | simp only [keeps_mk, keeps_arb]))

theorem keeps_twmPart (s t) (a0) (h : Keeps s t) : Keeps s (twmPart a0 t) := by
  unfold twmPart
  (try extract_lets); (repeat' (first | assumption | with_reducible apply KeepsW.no | with_reducible apply keeps_twmPut | with_reducible apply keeps_onDev | with_reducible apply keeps_poundWrite | with_reducible apply KeepsW.ok | with_reducible apply Keeps.foldl | split | (intro _) | extract_lets | simp only [keeps_mk, keeps_arb] | dsimp +zetaDelta only))

theorem keeps_twmDeaf (s t) (h : Keeps s t) : ∀ u, twmDeaf t = some u → Keeps s u := by
  intro u hu
  unfold twmDeaf at hu
  extract_lets d at hu
  split at hu
  · cases hu; exact keeps_onDev _ _ _ h
  · split at hu
    · split at hu
      · cases hu; exact keeps_onDev _ _ _ h
      · cases hu
    · cases hu

end Sys2Proof.Machine
end

