-- ==== Sys2Proof/Laws/Settle.lean ====
section
/-! SUPPORT. In a calm state nothing is left to follow a command: settling leaves the state as it is. -/

namespace Sys2Proof.Machine

theorem onDev_id (s : State) : onDev (fun d => d) s = s := rfl

theorem nth_isEmpty {α : Type} (l : List (List α)) (h : l.all (fun x => x.isEmpty) = true) (i : Nat) : nth l i = [] := by
  simp only [nth]
  cases hx : l[i]? with
  | none => simp_all; rfl
  | some x =>
    have : x ∈ l := List.mem_of_getElem? hx
    have := List.all_eq_true.mp h x this
    simp_all

/-- What a calm state has, as facts. -/
theorem calm_iff (d : Dev) : d.calm = true ↔ d.ends = [] ∧ d.recEnds = [] ∧ d.forced = [] ∧ d.rcq.cmds = [] ∧
    d.rcq.fetched.all (fun l => l.isEmpty) = true ∧ d.rcq.iqs.all (fun l => l.isEmpty) = true ∧
    d.mags.all (fun m => m.link.waiting.isEmpty) = true ∧ d.take.opening = false ∧ d.take.leaving = false ∧
    d.take.members = [] ∧ (d.trans.map (fun t => t.held)).getD false = false := by
  simp [Dev.calm, and_assoc]

theorem front_calm (d : Dev) (h : d.calm = true) (q : Nat) : d.front q = none := by
  obtain ⟨-, -, -, -, h1, h2, -⟩ := (calm_iff d).mp h
  simp [Dev.front, nth_isEmpty _ h1, nth_isEmpty _ h2]

theorem nextQueue_calm (d : Dev) (h : d.calm = true) : d.nextQueue = none := by
  simp [Dev.nextQueue, front_calm d h]

theorem admitInvalid_calm (n : Nat) (s : State) (h : s.dev.calm = true) : admitInvalid n s = s := by
  cases n with
  | zero => rfl
  | succ n => simp [admitInvalid, nextQueue_calm _ h]

theorem pump_calm (p n : Nat) (s : State) (h : s.dev.calm = true) : pump p n s = s := by
  obtain ⟨-, -, -, hc, -, -, hw, -⟩ := (calm_iff s.dev).mp h
  have hl : (s.dev.mag p).link.waiting = [] := by
    simp only [Dev.mag, nth]
    cases hx : s.dev.mags[p]? with
    | none => rw [List.getD_eq_getElem?_getD, hx]; rfl
    | some x =>
      have := List.all_eq_true.mp hw x (List.mem_of_getElem? hx)
      simp_all [List.getD_eq_getElem?_getD]
  cases n with
  | zero => rfl
  | succ n =>
    simp only [pump, hl, List.find?_nil, Dev.sourceCmd, Dev.portCmds, hc, List.filter_nil]
    split <;> rfl

theorem portRun_calm (p : Nat) (s : State) (h : s.dev.calm = true) : portRun p s = s := by
  have hc := ((calm_iff s.dev).mp h).2.2.2.1
  simp only [portRun, Dev.portCmds, hc, List.filter_nil, List.foldl_nil]
  exact pump_calm p pumpMax s h

theorem advance_calm (s : State) (h : s.dev.calm = true) : advance s = s := by
  have hc := ((calm_iff s.dev).mp h).2.2.2.1
  simp only [advance, hc, List.filter_nil, List.foldl_nil]
  simp [List.range, List.range.loop, portRun_calm _ _ h]

/-- No shut-down of a calm state's transition is held back. -/
theorem releaseStops_calm (d : Dev) (h : d.calm = true) : releaseStops d = d := by
  have ht := ((calm_iff d).mp h).2.2.2.2.2.2.2.2.2.2
  unfold releaseStops
  split
  · rfl
  · rename_i t e
    simp_all

/-- Settling after a command of the recorder leaves a calm state as it is. -/
theorem magSettle_calm (s : State) (h : s.dev.calm = true) : magSettle s = s := by
  obtain ⟨-, -, -, -, -, -, -, h1, h2, h3, -⟩ := (calm_iff s.dev).mp h
  simp only [magSettle, admitInvalid_calm _ _ h, advance_calm _ h, takeSettle, h1, h2, h3, List.isEmpty_nil,
    Bool.not_true, Bool.and_false, Bool.or_false, Bool.false_and, Bool.false_eq_true, if_false]
  simp only [onDev, releaseStops_calm _ h]

theorem forcedGo_calm (s : State) (h : s.dev.calm = true) : forcedGo s = s := by
  have hf := ((calm_iff s.dev).mp h).2.2.1
  simp only [forcedGo, hf]
  split <;> rfl

theorem tellEnds_nil (n : Nat) (d : Dev) (h : d.ends = []) : tellEnds n d = d := by
  cases n with
  | zero => rfl
  | succ n => simp [tellEnds, h]

theorem settleAll_calm (d : Dev) (h : d.calm = true) : settleAll d = d := by
  obtain ⟨h1, h2, -⟩ := (calm_iff d).mp h
  have hs : settle d = d := tellEnds_nil 4096 d h1
  simp only [settleAll, recordEnds, hs, h2, List.foldl_nil]
  cases d; simp_all

/-- Settling leaves a calm state as it is. -/
theorem settleState_calm (s : State) (h : s.dev.calm = true) : settleState s = s := by
  have : onDev settleAll s = s := by simp only [onDev, settleAll_calm _ h]
  rw [settleState, this, forcedGo_calm s h, magSettle_calm s h]

end Sys2Proof.Machine
end

