-- ==== Sys2Proof/Laws/State.lean ====
section
/-! SUPPORT. Each operation on the units changes the fields it names and no other, one lemma a field; and what the dictionary
store answers after a write. -/

namespace Sys2Proof.Machine

@[simp] theorem setN_changes (k v : Nat) (d : Dev) : (setN k v d).changes = d.changes := rfl
@[simp] theorem setN_fab (k v : Nat) (d : Dev) : (setN k v d).fab = d.fab := rfl
@[simp] theorem setN_chArb (k v : Nat) (d : Dev) : (setN k v d).chArb = d.chArb := rfl
@[simp] theorem setN_answer (k v : Nat) (d : Dev) : (setN k v d).answer = d.answer := rfl
@[simp] theorem setN_calibDirty (k v : Nat) (d : Dev) : (setN k v d).calibDirty = d.calibDirty := rfl
@[simp] theorem setN_sources (k v : Nat) (d : Dev) : (setN k v d).sources = d.sources := rfl
@[simp] theorem setN_posts (k v : Nat) (d : Dev) : (setN k v d).posts = d.posts := rfl
@[simp] theorem setN_free (k v : Nat) (d : Dev) : (setN k v d).free = d.free := rfl
@[simp] theorem setN_time (k v : Nat) (d : Dev) : (setN k v d).time = d.time := rfl
@[simp] theorem setN_units (k v : Nat) (d : Dev) : (setN k v d).units = d.units := rfl
@[simp] theorem setN_forced (k v : Nat) (d : Dev) : (setN k v d).forced = d.forced := rfl
@[simp] theorem setN_trans (k v : Nat) (d : Dev) : (setN k v d).trans = d.trans := rfl
@[simp] theorem setN_workLo (k v : Nat) (d : Dev) : (setN k v d).workLo = d.workLo := rfl
@[simp] theorem setN_workHi (k v : Nat) (d : Dev) : (setN k v d).workHi = d.workHi := rfl
@[simp] theorem setN_offRead (k v : Nat) (d : Dev) : (setN k v d).offRead = d.offRead := rfl
@[simp] theorem setN_sen (k v : Nat) (d : Dev) : (setN k v d).sen = d.sen := rfl
@[simp] theorem setN_itk (k v : Nat) (d : Dev) : (setN k v d).itk = d.itk := rfl
@[simp] theorem setN_seqr (k v : Nat) (d : Dev) : (setN k v d).seqr = d.seqr := rfl
@[simp] theorem setN_enc (k v : Nat) (d : Dev) : (setN k v d).enc = d.enc := rfl
@[simp] theorem setN_scan (k v : Nat) (d : Dev) : (setN k v d).scan = d.scan := rfl
@[simp] theorem setN_brg (k v : Nat) (d : Dev) : (setN k v d).brg = d.brg := rfl
@[simp] theorem setN_fb (k v : Nat) (d : Dev) : (setN k v d).fb = d.fb := rfl
@[simp] theorem setN_views (k v : Nat) (d : Dev) : (setN k v d).views = d.views := rfl
@[simp] theorem setN_amt (k v : Nat) (d : Dev) : (setN k v d).amt = d.amt := rfl
@[simp] theorem setN_pools (k v : Nat) (d : Dev) : (setN k v d).pools = d.pools := rfl
@[simp] theorem setN_hevc (k v : Nat) (d : Dev) : (setN k v d).hevc = d.hevc := rfl
@[simp] theorem setN_hevcQ (k v : Nat) (d : Dev) : (setN k v d).hevcQ = d.hevcQ := rfl
@[simp] theorem setN_engine (k v : Nat) (d : Dev) : (setN k v d).engine = d.engine := rfl
@[simp] theorem setN_outs (k v : Nat) (d : Dev) : (setN k v d).outs = d.outs := rfl
@[simp] theorem setN_align (k v : Nat) (d : Dev) : (setN k v d).align = d.align := rfl
@[simp] theorem setN_dram (k v : Nat) (d : Dev) : (setN k v d).dram = d.dram := rfl
@[simp] theorem setN_mags (k v : Nat) (d : Dev) : (setN k v d).mags = d.mags := rfl
@[simp] theorem setN_rcq (k v : Nat) (d : Dev) : (setN k v d).rcq = d.rcq := rfl
@[simp] theorem setN_take (k v : Nat) (d : Dev) : (setN k v d).take = d.take := rfl
@[simp] theorem setN_holdup (k v : Nat) (d : Dev) : (setN k v d).holdup = d.holdup := rfl
@[simp] theorem setN_therm (k v : Nat) (d : Dev) : (setN k v d).therm = d.therm := rfl
@[simp] theorem setN_pwr (k v : Nat) (d : Dev) : (setN k v d).pwr = d.pwr := rfl
@[simp] theorem setN_fuses (k v : Nat) (d : Dev) : (setN k v d).fuses = d.fuses := rfl
@[simp] theorem setN_boot (k v : Nat) (d : Dev) : (setN k v d).boot = d.boot := rfl
@[simp] theorem setN_tw (k v : Nat) (d : Dev) : (setN k v d).tw = d.tw := rfl
@[simp] theorem setN_ends (k v : Nat) (d : Dev) : (setN k v d).ends = d.ends := rfl
@[simp] theorem setN_recEnds (k v : Nat) (d : Dev) : (setN k v d).recEnds = d.recEnds := rfl
@[simp] theorem setN_ended (k v : Nat) (d : Dev) : (setN k v d).ended = d.ended := rfl
@[simp] theorem setN_recEnter (k v : Nat) (d : Dev) : (setN k v d).recEnter = d.recEnter := rfl
@[simp] theorem setN_recLeave (k v : Nat) (d : Dev) : (setN k v d).recLeave = d.recLeave := rfl
@[simp] theorem setN_recQ (k v : Nat) (d : Dev) : (setN k v d).recQ = d.recQ := rfl
@[simp] theorem setN_twm (k v : Nat) (d : Dev) : (setN k v d).twm = d.twm := rfl
@[simp] theorem setN_tpg (k v : Nat) (d : Dev) : (setN k v d).tpg = d.tpg := rfl
@[simp] theorem setN_net (k v : Nat) (d : Dev) : (setN k v d).net = d.net := rfl
@[simp] theorem setN_ep (k v : Nat) (d : Dev) : (setN k v d).ep = d.ep := rfl
@[simp] theorem setN_srv (k v : Nat) (d : Dev) : (setN k v d).srv = d.srv := rfl
@[simp] theorem setN_flash (k v : Nat) (d : Dev) : (setN k v d).flash = d.flash := rfl
@[simp] theorem setN_out (k v : Nat) (d : Dev) : (setN k v d).out = d.out := rfl

@[simp] theorem setB_changes (k : Nat) (b : List Byte) (d : Dev) : (setB k b d).changes = d.changes := rfl
@[simp] theorem setB_fab (k : Nat) (b : List Byte) (d : Dev) : (setB k b d).fab = d.fab := rfl
@[simp] theorem setB_chArb (k : Nat) (b : List Byte) (d : Dev) : (setB k b d).chArb = d.chArb := rfl
@[simp] theorem setB_answer (k : Nat) (b : List Byte) (d : Dev) : (setB k b d).answer = d.answer := rfl
@[simp] theorem setB_calibDirty (k : Nat) (b : List Byte) (d : Dev) : (setB k b d).calibDirty = d.calibDirty := rfl
@[simp] theorem setB_sources (k : Nat) (b : List Byte) (d : Dev) : (setB k b d).sources = d.sources := rfl
@[simp] theorem setB_posts (k : Nat) (b : List Byte) (d : Dev) : (setB k b d).posts = d.posts := rfl
@[simp] theorem setB_free (k : Nat) (b : List Byte) (d : Dev) : (setB k b d).free = d.free := rfl
@[simp] theorem setB_time (k : Nat) (b : List Byte) (d : Dev) : (setB k b d).time = d.time := rfl
@[simp] theorem setB_units (k : Nat) (b : List Byte) (d : Dev) : (setB k b d).units = d.units := rfl
@[simp] theorem setB_forced (k : Nat) (b : List Byte) (d : Dev) : (setB k b d).forced = d.forced := rfl
@[simp] theorem setB_trans (k : Nat) (b : List Byte) (d : Dev) : (setB k b d).trans = d.trans := rfl
@[simp] theorem setB_workLo (k : Nat) (b : List Byte) (d : Dev) : (setB k b d).workLo = d.workLo := rfl
@[simp] theorem setB_workHi (k : Nat) (b : List Byte) (d : Dev) : (setB k b d).workHi = d.workHi := rfl
@[simp] theorem setB_offRead (k : Nat) (b : List Byte) (d : Dev) : (setB k b d).offRead = d.offRead := rfl
@[simp] theorem setB_sen (k : Nat) (b : List Byte) (d : Dev) : (setB k b d).sen = d.sen := rfl
@[simp] theorem setB_itk (k : Nat) (b : List Byte) (d : Dev) : (setB k b d).itk = d.itk := rfl
@[simp] theorem setB_seqr (k : Nat) (b : List Byte) (d : Dev) : (setB k b d).seqr = d.seqr := rfl
@[simp] theorem setB_enc (k : Nat) (b : List Byte) (d : Dev) : (setB k b d).enc = d.enc := rfl
@[simp] theorem setB_scan (k : Nat) (b : List Byte) (d : Dev) : (setB k b d).scan = d.scan := rfl
@[simp] theorem setB_brg (k : Nat) (b : List Byte) (d : Dev) : (setB k b d).brg = d.brg := rfl
@[simp] theorem setB_fb (k : Nat) (b : List Byte) (d : Dev) : (setB k b d).fb = d.fb := rfl
@[simp] theorem setB_views (k : Nat) (b : List Byte) (d : Dev) : (setB k b d).views = d.views := rfl
@[simp] theorem setB_amt (k : Nat) (b : List Byte) (d : Dev) : (setB k b d).amt = d.amt := rfl
@[simp] theorem setB_pools (k : Nat) (b : List Byte) (d : Dev) : (setB k b d).pools = d.pools := rfl
@[simp] theorem setB_hevc (k : Nat) (b : List Byte) (d : Dev) : (setB k b d).hevc = d.hevc := rfl
@[simp] theorem setB_hevcQ (k : Nat) (b : List Byte) (d : Dev) : (setB k b d).hevcQ = d.hevcQ := rfl
@[simp] theorem setB_engine (k : Nat) (b : List Byte) (d : Dev) : (setB k b d).engine = d.engine := rfl
@[simp] theorem setB_outs (k : Nat) (b : List Byte) (d : Dev) : (setB k b d).outs = d.outs := rfl
@[simp] theorem setB_align (k : Nat) (b : List Byte) (d : Dev) : (setB k b d).align = d.align := rfl
@[simp] theorem setB_dram (k : Nat) (b : List Byte) (d : Dev) : (setB k b d).dram = d.dram := rfl
@[simp] theorem setB_mags (k : Nat) (b : List Byte) (d : Dev) : (setB k b d).mags = d.mags := rfl
@[simp] theorem setB_rcq (k : Nat) (b : List Byte) (d : Dev) : (setB k b d).rcq = d.rcq := rfl
@[simp] theorem setB_take (k : Nat) (b : List Byte) (d : Dev) : (setB k b d).take = d.take := rfl
@[simp] theorem setB_holdup (k : Nat) (b : List Byte) (d : Dev) : (setB k b d).holdup = d.holdup := rfl
@[simp] theorem setB_therm (k : Nat) (b : List Byte) (d : Dev) : (setB k b d).therm = d.therm := rfl
@[simp] theorem setB_pwr (k : Nat) (b : List Byte) (d : Dev) : (setB k b d).pwr = d.pwr := rfl
@[simp] theorem setB_fuses (k : Nat) (b : List Byte) (d : Dev) : (setB k b d).fuses = d.fuses := rfl
@[simp] theorem setB_boot (k : Nat) (b : List Byte) (d : Dev) : (setB k b d).boot = d.boot := rfl
@[simp] theorem setB_tw (k : Nat) (b : List Byte) (d : Dev) : (setB k b d).tw = d.tw := rfl
@[simp] theorem setB_ends (k : Nat) (b : List Byte) (d : Dev) : (setB k b d).ends = d.ends := rfl
@[simp] theorem setB_recEnds (k : Nat) (b : List Byte) (d : Dev) : (setB k b d).recEnds = d.recEnds := rfl
@[simp] theorem setB_ended (k : Nat) (b : List Byte) (d : Dev) : (setB k b d).ended = d.ended := rfl
@[simp] theorem setB_recEnter (k : Nat) (b : List Byte) (d : Dev) : (setB k b d).recEnter = d.recEnter := rfl
@[simp] theorem setB_recLeave (k : Nat) (b : List Byte) (d : Dev) : (setB k b d).recLeave = d.recLeave := rfl
@[simp] theorem setB_recQ (k : Nat) (b : List Byte) (d : Dev) : (setB k b d).recQ = d.recQ := rfl
@[simp] theorem setB_twm (k : Nat) (b : List Byte) (d : Dev) : (setB k b d).twm = d.twm := rfl
@[simp] theorem setB_tpg (k : Nat) (b : List Byte) (d : Dev) : (setB k b d).tpg = d.tpg := rfl
@[simp] theorem setB_net (k : Nat) (b : List Byte) (d : Dev) : (setB k b d).net = d.net := rfl
@[simp] theorem setB_ep (k : Nat) (b : List Byte) (d : Dev) : (setB k b d).ep = d.ep := rfl
@[simp] theorem setB_srv (k : Nat) (b : List Byte) (d : Dev) : (setB k b d).srv = d.srv := rfl
@[simp] theorem setB_flash (k : Nat) (b : List Byte) (d : Dev) : (setB k b d).flash = d.flash := rfl
@[simp] theorem setB_out (k : Nat) (b : List Byte) (d : Dev) : (setB k b d).out = d.out := rfl

@[simp] theorem setV_changes (k : Nat) (v : Val) (d : Dev) : (setV k v d).changes = d.changes := rfl
@[simp] theorem setV_fab (k : Nat) (v : Val) (d : Dev) : (setV k v d).fab = d.fab := rfl
@[simp] theorem setV_chArb (k : Nat) (v : Val) (d : Dev) : (setV k v d).chArb = d.chArb := rfl
@[simp] theorem setV_answer (k : Nat) (v : Val) (d : Dev) : (setV k v d).answer = d.answer := rfl
@[simp] theorem setV_calibDirty (k : Nat) (v : Val) (d : Dev) : (setV k v d).calibDirty = d.calibDirty := rfl
@[simp] theorem setV_sources (k : Nat) (v : Val) (d : Dev) : (setV k v d).sources = d.sources := rfl
@[simp] theorem setV_posts (k : Nat) (v : Val) (d : Dev) : (setV k v d).posts = d.posts := rfl
@[simp] theorem setV_free (k : Nat) (v : Val) (d : Dev) : (setV k v d).free = d.free := rfl
@[simp] theorem setV_time (k : Nat) (v : Val) (d : Dev) : (setV k v d).time = d.time := rfl
@[simp] theorem setV_units (k : Nat) (v : Val) (d : Dev) : (setV k v d).units = d.units := rfl
@[simp] theorem setV_forced (k : Nat) (v : Val) (d : Dev) : (setV k v d).forced = d.forced := rfl
@[simp] theorem setV_trans (k : Nat) (v : Val) (d : Dev) : (setV k v d).trans = d.trans := rfl
@[simp] theorem setV_workLo (k : Nat) (v : Val) (d : Dev) : (setV k v d).workLo = d.workLo := rfl
@[simp] theorem setV_workHi (k : Nat) (v : Val) (d : Dev) : (setV k v d).workHi = d.workHi := rfl
@[simp] theorem setV_offRead (k : Nat) (v : Val) (d : Dev) : (setV k v d).offRead = d.offRead := rfl
@[simp] theorem setV_sen (k : Nat) (v : Val) (d : Dev) : (setV k v d).sen = d.sen := rfl
@[simp] theorem setV_itk (k : Nat) (v : Val) (d : Dev) : (setV k v d).itk = d.itk := rfl
@[simp] theorem setV_seqr (k : Nat) (v : Val) (d : Dev) : (setV k v d).seqr = d.seqr := rfl
@[simp] theorem setV_enc (k : Nat) (v : Val) (d : Dev) : (setV k v d).enc = d.enc := rfl
@[simp] theorem setV_scan (k : Nat) (v : Val) (d : Dev) : (setV k v d).scan = d.scan := rfl
@[simp] theorem setV_brg (k : Nat) (v : Val) (d : Dev) : (setV k v d).brg = d.brg := rfl
@[simp] theorem setV_fb (k : Nat) (v : Val) (d : Dev) : (setV k v d).fb = d.fb := rfl
@[simp] theorem setV_views (k : Nat) (v : Val) (d : Dev) : (setV k v d).views = d.views := rfl
@[simp] theorem setV_amt (k : Nat) (v : Val) (d : Dev) : (setV k v d).amt = d.amt := rfl
@[simp] theorem setV_pools (k : Nat) (v : Val) (d : Dev) : (setV k v d).pools = d.pools := rfl
@[simp] theorem setV_hevc (k : Nat) (v : Val) (d : Dev) : (setV k v d).hevc = d.hevc := rfl
@[simp] theorem setV_hevcQ (k : Nat) (v : Val) (d : Dev) : (setV k v d).hevcQ = d.hevcQ := rfl
@[simp] theorem setV_engine (k : Nat) (v : Val) (d : Dev) : (setV k v d).engine = d.engine := rfl
@[simp] theorem setV_outs (k : Nat) (v : Val) (d : Dev) : (setV k v d).outs = d.outs := rfl
@[simp] theorem setV_align (k : Nat) (v : Val) (d : Dev) : (setV k v d).align = d.align := rfl
@[simp] theorem setV_dram (k : Nat) (v : Val) (d : Dev) : (setV k v d).dram = d.dram := rfl
@[simp] theorem setV_mags (k : Nat) (v : Val) (d : Dev) : (setV k v d).mags = d.mags := rfl
@[simp] theorem setV_rcq (k : Nat) (v : Val) (d : Dev) : (setV k v d).rcq = d.rcq := rfl
@[simp] theorem setV_take (k : Nat) (v : Val) (d : Dev) : (setV k v d).take = d.take := rfl
@[simp] theorem setV_holdup (k : Nat) (v : Val) (d : Dev) : (setV k v d).holdup = d.holdup := rfl
@[simp] theorem setV_therm (k : Nat) (v : Val) (d : Dev) : (setV k v d).therm = d.therm := rfl
@[simp] theorem setV_pwr (k : Nat) (v : Val) (d : Dev) : (setV k v d).pwr = d.pwr := rfl
@[simp] theorem setV_fuses (k : Nat) (v : Val) (d : Dev) : (setV k v d).fuses = d.fuses := rfl
@[simp] theorem setV_boot (k : Nat) (v : Val) (d : Dev) : (setV k v d).boot = d.boot := rfl
@[simp] theorem setV_tw (k : Nat) (v : Val) (d : Dev) : (setV k v d).tw = d.tw := rfl
@[simp] theorem setV_ends (k : Nat) (v : Val) (d : Dev) : (setV k v d).ends = d.ends := rfl
@[simp] theorem setV_recEnds (k : Nat) (v : Val) (d : Dev) : (setV k v d).recEnds = d.recEnds := rfl
@[simp] theorem setV_ended (k : Nat) (v : Val) (d : Dev) : (setV k v d).ended = d.ended := rfl
@[simp] theorem setV_recEnter (k : Nat) (v : Val) (d : Dev) : (setV k v d).recEnter = d.recEnter := rfl
@[simp] theorem setV_recLeave (k : Nat) (v : Val) (d : Dev) : (setV k v d).recLeave = d.recLeave := rfl
@[simp] theorem setV_recQ (k : Nat) (v : Val) (d : Dev) : (setV k v d).recQ = d.recQ := rfl
@[simp] theorem setV_twm (k : Nat) (v : Val) (d : Dev) : (setV k v d).twm = d.twm := rfl
@[simp] theorem setV_tpg (k : Nat) (v : Val) (d : Dev) : (setV k v d).tpg = d.tpg := rfl
@[simp] theorem setV_net (k : Nat) (v : Val) (d : Dev) : (setV k v d).net = d.net := rfl
@[simp] theorem setV_ep (k : Nat) (v : Val) (d : Dev) : (setV k v d).ep = d.ep := rfl
@[simp] theorem setV_srv (k : Nat) (v : Val) (d : Dev) : (setV k v d).srv = d.srv := rfl
@[simp] theorem setV_flash (k : Nat) (v : Val) (d : Dev) : (setV k v d).flash = d.flash := rfl
@[simp] theorem setV_out (k : Nat) (v : Val) (d : Dev) : (setV k v d).out = d.out := rfl

@[simp] theorem addW_changes (w k n : Nat) (d : Dev) : (addW w k n d).changes = d.changes := rfl
@[simp] theorem addW_fab (w k n : Nat) (d : Dev) : (addW w k n d).fab = d.fab := rfl
@[simp] theorem addW_chArb (w k n : Nat) (d : Dev) : (addW w k n d).chArb = d.chArb := rfl
@[simp] theorem addW_answer (w k n : Nat) (d : Dev) : (addW w k n d).answer = d.answer := rfl
@[simp] theorem addW_calibDirty (w k n : Nat) (d : Dev) : (addW w k n d).calibDirty = d.calibDirty := rfl
@[simp] theorem addW_sources (w k n : Nat) (d : Dev) : (addW w k n d).sources = d.sources := rfl
@[simp] theorem addW_posts (w k n : Nat) (d : Dev) : (addW w k n d).posts = d.posts := rfl
@[simp] theorem addW_free (w k n : Nat) (d : Dev) : (addW w k n d).free = d.free := rfl
@[simp] theorem addW_time (w k n : Nat) (d : Dev) : (addW w k n d).time = d.time := rfl
@[simp] theorem addW_units (w k n : Nat) (d : Dev) : (addW w k n d).units = d.units := rfl
@[simp] theorem addW_forced (w k n : Nat) (d : Dev) : (addW w k n d).forced = d.forced := rfl
@[simp] theorem addW_trans (w k n : Nat) (d : Dev) : (addW w k n d).trans = d.trans := rfl
@[simp] theorem addW_workLo (w k n : Nat) (d : Dev) : (addW w k n d).workLo = d.workLo := rfl
@[simp] theorem addW_workHi (w k n : Nat) (d : Dev) : (addW w k n d).workHi = d.workHi := rfl
@[simp] theorem addW_offRead (w k n : Nat) (d : Dev) : (addW w k n d).offRead = d.offRead := rfl
@[simp] theorem addW_sen (w k n : Nat) (d : Dev) : (addW w k n d).sen = d.sen := rfl
@[simp] theorem addW_itk (w k n : Nat) (d : Dev) : (addW w k n d).itk = d.itk := rfl
@[simp] theorem addW_seqr (w k n : Nat) (d : Dev) : (addW w k n d).seqr = d.seqr := rfl
@[simp] theorem addW_enc (w k n : Nat) (d : Dev) : (addW w k n d).enc = d.enc := rfl
@[simp] theorem addW_scan (w k n : Nat) (d : Dev) : (addW w k n d).scan = d.scan := rfl
@[simp] theorem addW_brg (w k n : Nat) (d : Dev) : (addW w k n d).brg = d.brg := rfl
@[simp] theorem addW_fb (w k n : Nat) (d : Dev) : (addW w k n d).fb = d.fb := rfl
@[simp] theorem addW_views (w k n : Nat) (d : Dev) : (addW w k n d).views = d.views := rfl
@[simp] theorem addW_amt (w k n : Nat) (d : Dev) : (addW w k n d).amt = d.amt := rfl
@[simp] theorem addW_pools (w k n : Nat) (d : Dev) : (addW w k n d).pools = d.pools := rfl
@[simp] theorem addW_hevc (w k n : Nat) (d : Dev) : (addW w k n d).hevc = d.hevc := rfl
@[simp] theorem addW_hevcQ (w k n : Nat) (d : Dev) : (addW w k n d).hevcQ = d.hevcQ := rfl
@[simp] theorem addW_engine (w k n : Nat) (d : Dev) : (addW w k n d).engine = d.engine := rfl
@[simp] theorem addW_outs (w k n : Nat) (d : Dev) : (addW w k n d).outs = d.outs := rfl
@[simp] theorem addW_align (w k n : Nat) (d : Dev) : (addW w k n d).align = d.align := rfl
@[simp] theorem addW_dram (w k n : Nat) (d : Dev) : (addW w k n d).dram = d.dram := rfl
@[simp] theorem addW_mags (w k n : Nat) (d : Dev) : (addW w k n d).mags = d.mags := rfl
@[simp] theorem addW_rcq (w k n : Nat) (d : Dev) : (addW w k n d).rcq = d.rcq := rfl
@[simp] theorem addW_take (w k n : Nat) (d : Dev) : (addW w k n d).take = d.take := rfl
@[simp] theorem addW_holdup (w k n : Nat) (d : Dev) : (addW w k n d).holdup = d.holdup := rfl
@[simp] theorem addW_therm (w k n : Nat) (d : Dev) : (addW w k n d).therm = d.therm := rfl
@[simp] theorem addW_pwr (w k n : Nat) (d : Dev) : (addW w k n d).pwr = d.pwr := rfl
@[simp] theorem addW_fuses (w k n : Nat) (d : Dev) : (addW w k n d).fuses = d.fuses := rfl
@[simp] theorem addW_boot (w k n : Nat) (d : Dev) : (addW w k n d).boot = d.boot := rfl
@[simp] theorem addW_tw (w k n : Nat) (d : Dev) : (addW w k n d).tw = d.tw := rfl
@[simp] theorem addW_ends (w k n : Nat) (d : Dev) : (addW w k n d).ends = d.ends := rfl
@[simp] theorem addW_recEnds (w k n : Nat) (d : Dev) : (addW w k n d).recEnds = d.recEnds := rfl
@[simp] theorem addW_ended (w k n : Nat) (d : Dev) : (addW w k n d).ended = d.ended := rfl
@[simp] theorem addW_recEnter (w k n : Nat) (d : Dev) : (addW w k n d).recEnter = d.recEnter := rfl
@[simp] theorem addW_recLeave (w k n : Nat) (d : Dev) : (addW w k n d).recLeave = d.recLeave := rfl
@[simp] theorem addW_recQ (w k n : Nat) (d : Dev) : (addW w k n d).recQ = d.recQ := rfl
@[simp] theorem addW_twm (w k n : Nat) (d : Dev) : (addW w k n d).twm = d.twm := rfl
@[simp] theorem addW_tpg (w k n : Nat) (d : Dev) : (addW w k n d).tpg = d.tpg := rfl
@[simp] theorem addW_net (w k n : Nat) (d : Dev) : (addW w k n d).net = d.net := rfl
@[simp] theorem addW_ep (w k n : Nat) (d : Dev) : (addW w k n d).ep = d.ep := rfl
@[simp] theorem addW_srv (w k n : Nat) (d : Dev) : (addW w k n d).srv = d.srv := rfl
@[simp] theorem addW_flash (w k n : Nat) (d : Dev) : (addW w k n d).flash = d.flash := rfl
@[simp] theorem addW_out (w k n : Nat) (d : Dev) : (addW w k n d).out = d.out := rfl

@[simp] theorem inc64_changes (k : Nat) (d : Dev) : (inc64 k d).changes = d.changes := rfl
@[simp] theorem inc64_fab (k : Nat) (d : Dev) : (inc64 k d).fab = d.fab := rfl
@[simp] theorem inc64_chArb (k : Nat) (d : Dev) : (inc64 k d).chArb = d.chArb := rfl
@[simp] theorem inc64_answer (k : Nat) (d : Dev) : (inc64 k d).answer = d.answer := rfl
@[simp] theorem inc64_calibDirty (k : Nat) (d : Dev) : (inc64 k d).calibDirty = d.calibDirty := rfl
@[simp] theorem inc64_sources (k : Nat) (d : Dev) : (inc64 k d).sources = d.sources := rfl
@[simp] theorem inc64_posts (k : Nat) (d : Dev) : (inc64 k d).posts = d.posts := rfl
@[simp] theorem inc64_free (k : Nat) (d : Dev) : (inc64 k d).free = d.free := rfl
@[simp] theorem inc64_time (k : Nat) (d : Dev) : (inc64 k d).time = d.time := rfl
@[simp] theorem inc64_units (k : Nat) (d : Dev) : (inc64 k d).units = d.units := rfl
@[simp] theorem inc64_forced (k : Nat) (d : Dev) : (inc64 k d).forced = d.forced := rfl
@[simp] theorem inc64_trans (k : Nat) (d : Dev) : (inc64 k d).trans = d.trans := rfl
@[simp] theorem inc64_workLo (k : Nat) (d : Dev) : (inc64 k d).workLo = d.workLo := rfl
@[simp] theorem inc64_workHi (k : Nat) (d : Dev) : (inc64 k d).workHi = d.workHi := rfl
@[simp] theorem inc64_offRead (k : Nat) (d : Dev) : (inc64 k d).offRead = d.offRead := rfl
@[simp] theorem inc64_sen (k : Nat) (d : Dev) : (inc64 k d).sen = d.sen := rfl
@[simp] theorem inc64_itk (k : Nat) (d : Dev) : (inc64 k d).itk = d.itk := rfl
@[simp] theorem inc64_seqr (k : Nat) (d : Dev) : (inc64 k d).seqr = d.seqr := rfl
@[simp] theorem inc64_enc (k : Nat) (d : Dev) : (inc64 k d).enc = d.enc := rfl
@[simp] theorem inc64_scan (k : Nat) (d : Dev) : (inc64 k d).scan = d.scan := rfl
@[simp] theorem inc64_brg (k : Nat) (d : Dev) : (inc64 k d).brg = d.brg := rfl
@[simp] theorem inc64_fb (k : Nat) (d : Dev) : (inc64 k d).fb = d.fb := rfl
@[simp] theorem inc64_views (k : Nat) (d : Dev) : (inc64 k d).views = d.views := rfl
@[simp] theorem inc64_amt (k : Nat) (d : Dev) : (inc64 k d).amt = d.amt := rfl
@[simp] theorem inc64_pools (k : Nat) (d : Dev) : (inc64 k d).pools = d.pools := rfl
@[simp] theorem inc64_hevc (k : Nat) (d : Dev) : (inc64 k d).hevc = d.hevc := rfl
@[simp] theorem inc64_hevcQ (k : Nat) (d : Dev) : (inc64 k d).hevcQ = d.hevcQ := rfl
@[simp] theorem inc64_engine (k : Nat) (d : Dev) : (inc64 k d).engine = d.engine := rfl
@[simp] theorem inc64_outs (k : Nat) (d : Dev) : (inc64 k d).outs = d.outs := rfl
@[simp] theorem inc64_align (k : Nat) (d : Dev) : (inc64 k d).align = d.align := rfl
@[simp] theorem inc64_dram (k : Nat) (d : Dev) : (inc64 k d).dram = d.dram := rfl
@[simp] theorem inc64_mags (k : Nat) (d : Dev) : (inc64 k d).mags = d.mags := rfl
@[simp] theorem inc64_rcq (k : Nat) (d : Dev) : (inc64 k d).rcq = d.rcq := rfl
@[simp] theorem inc64_take (k : Nat) (d : Dev) : (inc64 k d).take = d.take := rfl
@[simp] theorem inc64_holdup (k : Nat) (d : Dev) : (inc64 k d).holdup = d.holdup := rfl
@[simp] theorem inc64_therm (k : Nat) (d : Dev) : (inc64 k d).therm = d.therm := rfl
@[simp] theorem inc64_pwr (k : Nat) (d : Dev) : (inc64 k d).pwr = d.pwr := rfl
@[simp] theorem inc64_fuses (k : Nat) (d : Dev) : (inc64 k d).fuses = d.fuses := rfl
@[simp] theorem inc64_boot (k : Nat) (d : Dev) : (inc64 k d).boot = d.boot := rfl
@[simp] theorem inc64_tw (k : Nat) (d : Dev) : (inc64 k d).tw = d.tw := rfl
@[simp] theorem inc64_ends (k : Nat) (d : Dev) : (inc64 k d).ends = d.ends := rfl
@[simp] theorem inc64_recEnds (k : Nat) (d : Dev) : (inc64 k d).recEnds = d.recEnds := rfl
@[simp] theorem inc64_ended (k : Nat) (d : Dev) : (inc64 k d).ended = d.ended := rfl
@[simp] theorem inc64_recEnter (k : Nat) (d : Dev) : (inc64 k d).recEnter = d.recEnter := rfl
@[simp] theorem inc64_recLeave (k : Nat) (d : Dev) : (inc64 k d).recLeave = d.recLeave := rfl
@[simp] theorem inc64_recQ (k : Nat) (d : Dev) : (inc64 k d).recQ = d.recQ := rfl
@[simp] theorem inc64_twm (k : Nat) (d : Dev) : (inc64 k d).twm = d.twm := rfl
@[simp] theorem inc64_tpg (k : Nat) (d : Dev) : (inc64 k d).tpg = d.tpg := rfl
@[simp] theorem inc64_net (k : Nat) (d : Dev) : (inc64 k d).net = d.net := rfl
@[simp] theorem inc64_ep (k : Nat) (d : Dev) : (inc64 k d).ep = d.ep := rfl
@[simp] theorem inc64_srv (k : Nat) (d : Dev) : (inc64 k d).srv = d.srv := rfl
@[simp] theorem inc64_flash (k : Nat) (d : Dev) : (inc64 k d).flash = d.flash := rfl
@[simp] theorem inc64_out (k : Nat) (d : Dev) : (inc64 k d).out = d.out := rfl

@[simp] theorem inc32_changes (k : Nat) (d : Dev) : (inc32 k d).changes = d.changes := rfl
@[simp] theorem inc32_fab (k : Nat) (d : Dev) : (inc32 k d).fab = d.fab := rfl
@[simp] theorem inc32_chArb (k : Nat) (d : Dev) : (inc32 k d).chArb = d.chArb := rfl
@[simp] theorem inc32_answer (k : Nat) (d : Dev) : (inc32 k d).answer = d.answer := rfl
@[simp] theorem inc32_calibDirty (k : Nat) (d : Dev) : (inc32 k d).calibDirty = d.calibDirty := rfl
@[simp] theorem inc32_sources (k : Nat) (d : Dev) : (inc32 k d).sources = d.sources := rfl
@[simp] theorem inc32_posts (k : Nat) (d : Dev) : (inc32 k d).posts = d.posts := rfl
@[simp] theorem inc32_free (k : Nat) (d : Dev) : (inc32 k d).free = d.free := rfl
@[simp] theorem inc32_time (k : Nat) (d : Dev) : (inc32 k d).time = d.time := rfl
@[simp] theorem inc32_units (k : Nat) (d : Dev) : (inc32 k d).units = d.units := rfl
@[simp] theorem inc32_forced (k : Nat) (d : Dev) : (inc32 k d).forced = d.forced := rfl
@[simp] theorem inc32_trans (k : Nat) (d : Dev) : (inc32 k d).trans = d.trans := rfl
@[simp] theorem inc32_workLo (k : Nat) (d : Dev) : (inc32 k d).workLo = d.workLo := rfl
@[simp] theorem inc32_workHi (k : Nat) (d : Dev) : (inc32 k d).workHi = d.workHi := rfl
@[simp] theorem inc32_offRead (k : Nat) (d : Dev) : (inc32 k d).offRead = d.offRead := rfl
@[simp] theorem inc32_sen (k : Nat) (d : Dev) : (inc32 k d).sen = d.sen := rfl
@[simp] theorem inc32_itk (k : Nat) (d : Dev) : (inc32 k d).itk = d.itk := rfl
@[simp] theorem inc32_seqr (k : Nat) (d : Dev) : (inc32 k d).seqr = d.seqr := rfl
@[simp] theorem inc32_enc (k : Nat) (d : Dev) : (inc32 k d).enc = d.enc := rfl
@[simp] theorem inc32_scan (k : Nat) (d : Dev) : (inc32 k d).scan = d.scan := rfl
@[simp] theorem inc32_brg (k : Nat) (d : Dev) : (inc32 k d).brg = d.brg := rfl
@[simp] theorem inc32_fb (k : Nat) (d : Dev) : (inc32 k d).fb = d.fb := rfl
@[simp] theorem inc32_views (k : Nat) (d : Dev) : (inc32 k d).views = d.views := rfl
@[simp] theorem inc32_amt (k : Nat) (d : Dev) : (inc32 k d).amt = d.amt := rfl
@[simp] theorem inc32_pools (k : Nat) (d : Dev) : (inc32 k d).pools = d.pools := rfl
@[simp] theorem inc32_hevc (k : Nat) (d : Dev) : (inc32 k d).hevc = d.hevc := rfl
@[simp] theorem inc32_hevcQ (k : Nat) (d : Dev) : (inc32 k d).hevcQ = d.hevcQ := rfl
@[simp] theorem inc32_engine (k : Nat) (d : Dev) : (inc32 k d).engine = d.engine := rfl
@[simp] theorem inc32_outs (k : Nat) (d : Dev) : (inc32 k d).outs = d.outs := rfl
@[simp] theorem inc32_align (k : Nat) (d : Dev) : (inc32 k d).align = d.align := rfl
@[simp] theorem inc32_dram (k : Nat) (d : Dev) : (inc32 k d).dram = d.dram := rfl
@[simp] theorem inc32_mags (k : Nat) (d : Dev) : (inc32 k d).mags = d.mags := rfl
@[simp] theorem inc32_rcq (k : Nat) (d : Dev) : (inc32 k d).rcq = d.rcq := rfl
@[simp] theorem inc32_take (k : Nat) (d : Dev) : (inc32 k d).take = d.take := rfl
@[simp] theorem inc32_holdup (k : Nat) (d : Dev) : (inc32 k d).holdup = d.holdup := rfl
@[simp] theorem inc32_therm (k : Nat) (d : Dev) : (inc32 k d).therm = d.therm := rfl
@[simp] theorem inc32_pwr (k : Nat) (d : Dev) : (inc32 k d).pwr = d.pwr := rfl
@[simp] theorem inc32_fuses (k : Nat) (d : Dev) : (inc32 k d).fuses = d.fuses := rfl
@[simp] theorem inc32_boot (k : Nat) (d : Dev) : (inc32 k d).boot = d.boot := rfl
@[simp] theorem inc32_tw (k : Nat) (d : Dev) : (inc32 k d).tw = d.tw := rfl
@[simp] theorem inc32_ends (k : Nat) (d : Dev) : (inc32 k d).ends = d.ends := rfl
@[simp] theorem inc32_recEnds (k : Nat) (d : Dev) : (inc32 k d).recEnds = d.recEnds := rfl
@[simp] theorem inc32_ended (k : Nat) (d : Dev) : (inc32 k d).ended = d.ended := rfl
@[simp] theorem inc32_recEnter (k : Nat) (d : Dev) : (inc32 k d).recEnter = d.recEnter := rfl
@[simp] theorem inc32_recLeave (k : Nat) (d : Dev) : (inc32 k d).recLeave = d.recLeave := rfl
@[simp] theorem inc32_recQ (k : Nat) (d : Dev) : (inc32 k d).recQ = d.recQ := rfl
@[simp] theorem inc32_twm (k : Nat) (d : Dev) : (inc32 k d).twm = d.twm := rfl
@[simp] theorem inc32_tpg (k : Nat) (d : Dev) : (inc32 k d).tpg = d.tpg := rfl
@[simp] theorem inc32_net (k : Nat) (d : Dev) : (inc32 k d).net = d.net := rfl
@[simp] theorem inc32_ep (k : Nat) (d : Dev) : (inc32 k d).ep = d.ep := rfl
@[simp] theorem inc32_srv (k : Nat) (d : Dev) : (inc32 k d).srv = d.srv := rfl
@[simp] theorem inc32_flash (k : Nat) (d : Dev) : (inc32 k d).flash = d.flash := rfl
@[simp] theorem inc32_out (k : Nat) (d : Dev) : (inc32 k d).out = d.out := rfl

@[simp] theorem postRef_regs (c i a b : Nat) (r : Option Nat) (d : Dev) : (postRef c i a b r d).regs = d.regs := rfl
@[simp] theorem postRef_changes (c i a b : Nat) (r : Option Nat) (d : Dev) : (postRef c i a b r d).changes = d.changes := rfl
@[simp] theorem postRef_fab (c i a b : Nat) (r : Option Nat) (d : Dev) : (postRef c i a b r d).fab = d.fab := rfl
@[simp] theorem postRef_chArb (c i a b : Nat) (r : Option Nat) (d : Dev) : (postRef c i a b r d).chArb = d.chArb := rfl
@[simp] theorem postRef_answer (c i a b : Nat) (r : Option Nat) (d : Dev) : (postRef c i a b r d).answer = d.answer := rfl
@[simp] theorem postRef_calibDirty (c i a b : Nat) (r : Option Nat) (d : Dev) : (postRef c i a b r d).calibDirty = d.calibDirty := rfl
@[simp] theorem postRef_free (c i a b : Nat) (r : Option Nat) (d : Dev) : (postRef c i a b r d).free = d.free := rfl
@[simp] theorem postRef_time (c i a b : Nat) (r : Option Nat) (d : Dev) : (postRef c i a b r d).time = d.time := rfl
@[simp] theorem postRef_units (c i a b : Nat) (r : Option Nat) (d : Dev) : (postRef c i a b r d).units = d.units := rfl
@[simp] theorem postRef_forced (c i a b : Nat) (r : Option Nat) (d : Dev) : (postRef c i a b r d).forced = d.forced := rfl
@[simp] theorem postRef_trans (c i a b : Nat) (r : Option Nat) (d : Dev) : (postRef c i a b r d).trans = d.trans := rfl
@[simp] theorem postRef_workLo (c i a b : Nat) (r : Option Nat) (d : Dev) : (postRef c i a b r d).workLo = d.workLo := rfl
@[simp] theorem postRef_workHi (c i a b : Nat) (r : Option Nat) (d : Dev) : (postRef c i a b r d).workHi = d.workHi := rfl
@[simp] theorem postRef_offRead (c i a b : Nat) (r : Option Nat) (d : Dev) : (postRef c i a b r d).offRead = d.offRead := rfl
@[simp] theorem postRef_sen (c i a b : Nat) (r : Option Nat) (d : Dev) : (postRef c i a b r d).sen = d.sen := rfl
@[simp] theorem postRef_itk (c i a b : Nat) (r : Option Nat) (d : Dev) : (postRef c i a b r d).itk = d.itk := rfl
@[simp] theorem postRef_seqr (c i a b : Nat) (r : Option Nat) (d : Dev) : (postRef c i a b r d).seqr = d.seqr := rfl
@[simp] theorem postRef_enc (c i a b : Nat) (r : Option Nat) (d : Dev) : (postRef c i a b r d).enc = d.enc := rfl
@[simp] theorem postRef_scan (c i a b : Nat) (r : Option Nat) (d : Dev) : (postRef c i a b r d).scan = d.scan := rfl
@[simp] theorem postRef_brg (c i a b : Nat) (r : Option Nat) (d : Dev) : (postRef c i a b r d).brg = d.brg := rfl
@[simp] theorem postRef_fb (c i a b : Nat) (r : Option Nat) (d : Dev) : (postRef c i a b r d).fb = d.fb := rfl
@[simp] theorem postRef_views (c i a b : Nat) (r : Option Nat) (d : Dev) : (postRef c i a b r d).views = d.views := rfl
@[simp] theorem postRef_amt (c i a b : Nat) (r : Option Nat) (d : Dev) : (postRef c i a b r d).amt = d.amt := rfl
@[simp] theorem postRef_pools (c i a b : Nat) (r : Option Nat) (d : Dev) : (postRef c i a b r d).pools = d.pools := rfl
@[simp] theorem postRef_hevc (c i a b : Nat) (r : Option Nat) (d : Dev) : (postRef c i a b r d).hevc = d.hevc := rfl
@[simp] theorem postRef_hevcQ (c i a b : Nat) (r : Option Nat) (d : Dev) : (postRef c i a b r d).hevcQ = d.hevcQ := rfl
@[simp] theorem postRef_engine (c i a b : Nat) (r : Option Nat) (d : Dev) : (postRef c i a b r d).engine = d.engine := rfl
@[simp] theorem postRef_outs (c i a b : Nat) (r : Option Nat) (d : Dev) : (postRef c i a b r d).outs = d.outs := rfl
@[simp] theorem postRef_align (c i a b : Nat) (r : Option Nat) (d : Dev) : (postRef c i a b r d).align = d.align := rfl
@[simp] theorem postRef_dram (c i a b : Nat) (r : Option Nat) (d : Dev) : (postRef c i a b r d).dram = d.dram := rfl
@[simp] theorem postRef_mags (c i a b : Nat) (r : Option Nat) (d : Dev) : (postRef c i a b r d).mags = d.mags := rfl
@[simp] theorem postRef_rcq (c i a b : Nat) (r : Option Nat) (d : Dev) : (postRef c i a b r d).rcq = d.rcq := rfl
@[simp] theorem postRef_take (c i a b : Nat) (r : Option Nat) (d : Dev) : (postRef c i a b r d).take = d.take := rfl
@[simp] theorem postRef_holdup (c i a b : Nat) (r : Option Nat) (d : Dev) : (postRef c i a b r d).holdup = d.holdup := rfl
@[simp] theorem postRef_therm (c i a b : Nat) (r : Option Nat) (d : Dev) : (postRef c i a b r d).therm = d.therm := rfl
@[simp] theorem postRef_pwr (c i a b : Nat) (r : Option Nat) (d : Dev) : (postRef c i a b r d).pwr = d.pwr := rfl
@[simp] theorem postRef_fuses (c i a b : Nat) (r : Option Nat) (d : Dev) : (postRef c i a b r d).fuses = d.fuses := rfl
@[simp] theorem postRef_boot (c i a b : Nat) (r : Option Nat) (d : Dev) : (postRef c i a b r d).boot = d.boot := rfl
@[simp] theorem postRef_tw (c i a b : Nat) (r : Option Nat) (d : Dev) : (postRef c i a b r d).tw = d.tw := rfl
@[simp] theorem postRef_ends (c i a b : Nat) (r : Option Nat) (d : Dev) : (postRef c i a b r d).ends = d.ends := rfl
@[simp] theorem postRef_recEnds (c i a b : Nat) (r : Option Nat) (d : Dev) : (postRef c i a b r d).recEnds = d.recEnds := rfl
@[simp] theorem postRef_ended (c i a b : Nat) (r : Option Nat) (d : Dev) : (postRef c i a b r d).ended = d.ended := rfl
@[simp] theorem postRef_recEnter (c i a b : Nat) (r : Option Nat) (d : Dev) : (postRef c i a b r d).recEnter = d.recEnter := rfl
@[simp] theorem postRef_recLeave (c i a b : Nat) (r : Option Nat) (d : Dev) : (postRef c i a b r d).recLeave = d.recLeave := rfl
@[simp] theorem postRef_recQ (c i a b : Nat) (r : Option Nat) (d : Dev) : (postRef c i a b r d).recQ = d.recQ := rfl
@[simp] theorem postRef_twm (c i a b : Nat) (r : Option Nat) (d : Dev) : (postRef c i a b r d).twm = d.twm := rfl
@[simp] theorem postRef_tpg (c i a b : Nat) (r : Option Nat) (d : Dev) : (postRef c i a b r d).tpg = d.tpg := rfl
@[simp] theorem postRef_net (c i a b : Nat) (r : Option Nat) (d : Dev) : (postRef c i a b r d).net = d.net := rfl
@[simp] theorem postRef_ep (c i a b : Nat) (r : Option Nat) (d : Dev) : (postRef c i a b r d).ep = d.ep := rfl
@[simp] theorem postRef_srv (c i a b : Nat) (r : Option Nat) (d : Dev) : (postRef c i a b r d).srv = d.srv := rfl
@[simp] theorem postRef_flash (c i a b : Nat) (r : Option Nat) (d : Dev) : (postRef c i a b r d).flash = d.flash := rfl
@[simp] theorem postRef_out (c i a b : Nat) (r : Option Nat) (d : Dev) : (postRef c i a b r d).out = d.out := rfl

@[simp] theorem post_regs (c i a b : Nat) (d : Dev) : (post c i a b d).regs = d.regs := rfl
@[simp] theorem post_changes (c i a b : Nat) (d : Dev) : (post c i a b d).changes = d.changes := rfl
@[simp] theorem post_fab (c i a b : Nat) (d : Dev) : (post c i a b d).fab = d.fab := rfl
@[simp] theorem post_chArb (c i a b : Nat) (d : Dev) : (post c i a b d).chArb = d.chArb := rfl
@[simp] theorem post_answer (c i a b : Nat) (d : Dev) : (post c i a b d).answer = d.answer := rfl
@[simp] theorem post_calibDirty (c i a b : Nat) (d : Dev) : (post c i a b d).calibDirty = d.calibDirty := rfl
@[simp] theorem post_free (c i a b : Nat) (d : Dev) : (post c i a b d).free = d.free := rfl
@[simp] theorem post_time (c i a b : Nat) (d : Dev) : (post c i a b d).time = d.time := rfl
@[simp] theorem post_units (c i a b : Nat) (d : Dev) : (post c i a b d).units = d.units := rfl
@[simp] theorem post_forced (c i a b : Nat) (d : Dev) : (post c i a b d).forced = d.forced := rfl
@[simp] theorem post_trans (c i a b : Nat) (d : Dev) : (post c i a b d).trans = d.trans := rfl
@[simp] theorem post_workLo (c i a b : Nat) (d : Dev) : (post c i a b d).workLo = d.workLo := rfl
@[simp] theorem post_workHi (c i a b : Nat) (d : Dev) : (post c i a b d).workHi = d.workHi := rfl
@[simp] theorem post_offRead (c i a b : Nat) (d : Dev) : (post c i a b d).offRead = d.offRead := rfl
@[simp] theorem post_sen (c i a b : Nat) (d : Dev) : (post c i a b d).sen = d.sen := rfl
@[simp] theorem post_itk (c i a b : Nat) (d : Dev) : (post c i a b d).itk = d.itk := rfl
@[simp] theorem post_seqr (c i a b : Nat) (d : Dev) : (post c i a b d).seqr = d.seqr := rfl
@[simp] theorem post_enc (c i a b : Nat) (d : Dev) : (post c i a b d).enc = d.enc := rfl
@[simp] theorem post_scan (c i a b : Nat) (d : Dev) : (post c i a b d).scan = d.scan := rfl
@[simp] theorem post_brg (c i a b : Nat) (d : Dev) : (post c i a b d).brg = d.brg := rfl
@[simp] theorem post_fb (c i a b : Nat) (d : Dev) : (post c i a b d).fb = d.fb := rfl
@[simp] theorem post_views (c i a b : Nat) (d : Dev) : (post c i a b d).views = d.views := rfl
@[simp] theorem post_amt (c i a b : Nat) (d : Dev) : (post c i a b d).amt = d.amt := rfl
@[simp] theorem post_pools (c i a b : Nat) (d : Dev) : (post c i a b d).pools = d.pools := rfl
@[simp] theorem post_hevc (c i a b : Nat) (d : Dev) : (post c i a b d).hevc = d.hevc := rfl
@[simp] theorem post_hevcQ (c i a b : Nat) (d : Dev) : (post c i a b d).hevcQ = d.hevcQ := rfl
@[simp] theorem post_engine (c i a b : Nat) (d : Dev) : (post c i a b d).engine = d.engine := rfl
@[simp] theorem post_outs (c i a b : Nat) (d : Dev) : (post c i a b d).outs = d.outs := rfl
@[simp] theorem post_align (c i a b : Nat) (d : Dev) : (post c i a b d).align = d.align := rfl
@[simp] theorem post_dram (c i a b : Nat) (d : Dev) : (post c i a b d).dram = d.dram := rfl
@[simp] theorem post_mags (c i a b : Nat) (d : Dev) : (post c i a b d).mags = d.mags := rfl
@[simp] theorem post_rcq (c i a b : Nat) (d : Dev) : (post c i a b d).rcq = d.rcq := rfl
@[simp] theorem post_take (c i a b : Nat) (d : Dev) : (post c i a b d).take = d.take := rfl
@[simp] theorem post_holdup (c i a b : Nat) (d : Dev) : (post c i a b d).holdup = d.holdup := rfl
@[simp] theorem post_therm (c i a b : Nat) (d : Dev) : (post c i a b d).therm = d.therm := rfl
@[simp] theorem post_pwr (c i a b : Nat) (d : Dev) : (post c i a b d).pwr = d.pwr := rfl
@[simp] theorem post_fuses (c i a b : Nat) (d : Dev) : (post c i a b d).fuses = d.fuses := rfl
@[simp] theorem post_boot (c i a b : Nat) (d : Dev) : (post c i a b d).boot = d.boot := rfl
@[simp] theorem post_tw (c i a b : Nat) (d : Dev) : (post c i a b d).tw = d.tw := rfl
@[simp] theorem post_ends (c i a b : Nat) (d : Dev) : (post c i a b d).ends = d.ends := rfl
@[simp] theorem post_recEnds (c i a b : Nat) (d : Dev) : (post c i a b d).recEnds = d.recEnds := rfl
@[simp] theorem post_ended (c i a b : Nat) (d : Dev) : (post c i a b d).ended = d.ended := rfl
@[simp] theorem post_recEnter (c i a b : Nat) (d : Dev) : (post c i a b d).recEnter = d.recEnter := rfl
@[simp] theorem post_recLeave (c i a b : Nat) (d : Dev) : (post c i a b d).recLeave = d.recLeave := rfl
@[simp] theorem post_recQ (c i a b : Nat) (d : Dev) : (post c i a b d).recQ = d.recQ := rfl
@[simp] theorem post_twm (c i a b : Nat) (d : Dev) : (post c i a b d).twm = d.twm := rfl
@[simp] theorem post_tpg (c i a b : Nat) (d : Dev) : (post c i a b d).tpg = d.tpg := rfl
@[simp] theorem post_net (c i a b : Nat) (d : Dev) : (post c i a b d).net = d.net := rfl
@[simp] theorem post_ep (c i a b : Nat) (d : Dev) : (post c i a b d).ep = d.ep := rfl
@[simp] theorem post_srv (c i a b : Nat) (d : Dev) : (post c i a b d).srv = d.srv := rfl
@[simp] theorem post_flash (c i a b : Nat) (d : Dev) : (post c i a b d).flash = d.flash := rfl
@[simp] theorem post_out (c i a b : Nat) (d : Dev) : (post c i a b d).out = d.out := rfl

@[simp] theorem emit_regs (x : OutKind) (i : Nat) (l : List Nat) (b : List Byte) (d : Dev) : (emit x i l b d).regs = d.regs := rfl
@[simp] theorem emit_changes (x : OutKind) (i : Nat) (l : List Nat) (b : List Byte) (d : Dev) : (emit x i l b d).changes = d.changes := rfl
@[simp] theorem emit_fab (x : OutKind) (i : Nat) (l : List Nat) (b : List Byte) (d : Dev) : (emit x i l b d).fab = d.fab := rfl
@[simp] theorem emit_chArb (x : OutKind) (i : Nat) (l : List Nat) (b : List Byte) (d : Dev) : (emit x i l b d).chArb = d.chArb := rfl
@[simp] theorem emit_answer (x : OutKind) (i : Nat) (l : List Nat) (b : List Byte) (d : Dev) : (emit x i l b d).answer = d.answer := rfl
@[simp] theorem emit_calibDirty (x : OutKind) (i : Nat) (l : List Nat) (b : List Byte) (d : Dev) : (emit x i l b d).calibDirty = d.calibDirty := rfl
@[simp] theorem emit_sources (x : OutKind) (i : Nat) (l : List Nat) (b : List Byte) (d : Dev) : (emit x i l b d).sources = d.sources := rfl
@[simp] theorem emit_posts (x : OutKind) (i : Nat) (l : List Nat) (b : List Byte) (d : Dev) : (emit x i l b d).posts = d.posts := rfl
@[simp] theorem emit_free (x : OutKind) (i : Nat) (l : List Nat) (b : List Byte) (d : Dev) : (emit x i l b d).free = d.free := rfl
@[simp] theorem emit_time (x : OutKind) (i : Nat) (l : List Nat) (b : List Byte) (d : Dev) : (emit x i l b d).time = d.time := rfl
@[simp] theorem emit_units (x : OutKind) (i : Nat) (l : List Nat) (b : List Byte) (d : Dev) : (emit x i l b d).units = d.units := rfl
@[simp] theorem emit_forced (x : OutKind) (i : Nat) (l : List Nat) (b : List Byte) (d : Dev) : (emit x i l b d).forced = d.forced := rfl
@[simp] theorem emit_trans (x : OutKind) (i : Nat) (l : List Nat) (b : List Byte) (d : Dev) : (emit x i l b d).trans = d.trans := rfl
@[simp] theorem emit_workLo (x : OutKind) (i : Nat) (l : List Nat) (b : List Byte) (d : Dev) : (emit x i l b d).workLo = d.workLo := rfl
@[simp] theorem emit_workHi (x : OutKind) (i : Nat) (l : List Nat) (b : List Byte) (d : Dev) : (emit x i l b d).workHi = d.workHi := rfl
@[simp] theorem emit_offRead (x : OutKind) (i : Nat) (l : List Nat) (b : List Byte) (d : Dev) : (emit x i l b d).offRead = d.offRead := rfl
@[simp] theorem emit_sen (x : OutKind) (i : Nat) (l : List Nat) (b : List Byte) (d : Dev) : (emit x i l b d).sen = d.sen := rfl
@[simp] theorem emit_itk (x : OutKind) (i : Nat) (l : List Nat) (b : List Byte) (d : Dev) : (emit x i l b d).itk = d.itk := rfl
@[simp] theorem emit_seqr (x : OutKind) (i : Nat) (l : List Nat) (b : List Byte) (d : Dev) : (emit x i l b d).seqr = d.seqr := rfl
@[simp] theorem emit_enc (x : OutKind) (i : Nat) (l : List Nat) (b : List Byte) (d : Dev) : (emit x i l b d).enc = d.enc := rfl
@[simp] theorem emit_scan (x : OutKind) (i : Nat) (l : List Nat) (b : List Byte) (d : Dev) : (emit x i l b d).scan = d.scan := rfl
@[simp] theorem emit_brg (x : OutKind) (i : Nat) (l : List Nat) (b : List Byte) (d : Dev) : (emit x i l b d).brg = d.brg := rfl
@[simp] theorem emit_fb (x : OutKind) (i : Nat) (l : List Nat) (b : List Byte) (d : Dev) : (emit x i l b d).fb = d.fb := rfl
@[simp] theorem emit_views (x : OutKind) (i : Nat) (l : List Nat) (b : List Byte) (d : Dev) : (emit x i l b d).views = d.views := rfl
@[simp] theorem emit_amt (x : OutKind) (i : Nat) (l : List Nat) (b : List Byte) (d : Dev) : (emit x i l b d).amt = d.amt := rfl
@[simp] theorem emit_pools (x : OutKind) (i : Nat) (l : List Nat) (b : List Byte) (d : Dev) : (emit x i l b d).pools = d.pools := rfl
@[simp] theorem emit_hevc (x : OutKind) (i : Nat) (l : List Nat) (b : List Byte) (d : Dev) : (emit x i l b d).hevc = d.hevc := rfl
@[simp] theorem emit_hevcQ (x : OutKind) (i : Nat) (l : List Nat) (b : List Byte) (d : Dev) : (emit x i l b d).hevcQ = d.hevcQ := rfl
@[simp] theorem emit_engine (x : OutKind) (i : Nat) (l : List Nat) (b : List Byte) (d : Dev) : (emit x i l b d).engine = d.engine := rfl
@[simp] theorem emit_outs (x : OutKind) (i : Nat) (l : List Nat) (b : List Byte) (d : Dev) : (emit x i l b d).outs = d.outs := rfl
@[simp] theorem emit_align (x : OutKind) (i : Nat) (l : List Nat) (b : List Byte) (d : Dev) : (emit x i l b d).align = d.align := rfl
@[simp] theorem emit_dram (x : OutKind) (i : Nat) (l : List Nat) (b : List Byte) (d : Dev) : (emit x i l b d).dram = d.dram := rfl
@[simp] theorem emit_mags (x : OutKind) (i : Nat) (l : List Nat) (b : List Byte) (d : Dev) : (emit x i l b d).mags = d.mags := rfl
@[simp] theorem emit_rcq (x : OutKind) (i : Nat) (l : List Nat) (b : List Byte) (d : Dev) : (emit x i l b d).rcq = d.rcq := rfl
@[simp] theorem emit_take (x : OutKind) (i : Nat) (l : List Nat) (b : List Byte) (d : Dev) : (emit x i l b d).take = d.take := rfl
@[simp] theorem emit_holdup (x : OutKind) (i : Nat) (l : List Nat) (b : List Byte) (d : Dev) : (emit x i l b d).holdup = d.holdup := rfl
@[simp] theorem emit_therm (x : OutKind) (i : Nat) (l : List Nat) (b : List Byte) (d : Dev) : (emit x i l b d).therm = d.therm := rfl
@[simp] theorem emit_pwr (x : OutKind) (i : Nat) (l : List Nat) (b : List Byte) (d : Dev) : (emit x i l b d).pwr = d.pwr := rfl
@[simp] theorem emit_fuses (x : OutKind) (i : Nat) (l : List Nat) (b : List Byte) (d : Dev) : (emit x i l b d).fuses = d.fuses := rfl
@[simp] theorem emit_boot (x : OutKind) (i : Nat) (l : List Nat) (b : List Byte) (d : Dev) : (emit x i l b d).boot = d.boot := rfl
@[simp] theorem emit_tw (x : OutKind) (i : Nat) (l : List Nat) (b : List Byte) (d : Dev) : (emit x i l b d).tw = d.tw := rfl
@[simp] theorem emit_ends (x : OutKind) (i : Nat) (l : List Nat) (b : List Byte) (d : Dev) : (emit x i l b d).ends = d.ends := rfl
@[simp] theorem emit_recEnds (x : OutKind) (i : Nat) (l : List Nat) (b : List Byte) (d : Dev) : (emit x i l b d).recEnds = d.recEnds := rfl
@[simp] theorem emit_ended (x : OutKind) (i : Nat) (l : List Nat) (b : List Byte) (d : Dev) : (emit x i l b d).ended = d.ended := rfl
@[simp] theorem emit_recEnter (x : OutKind) (i : Nat) (l : List Nat) (b : List Byte) (d : Dev) : (emit x i l b d).recEnter = d.recEnter := rfl
@[simp] theorem emit_recLeave (x : OutKind) (i : Nat) (l : List Nat) (b : List Byte) (d : Dev) : (emit x i l b d).recLeave = d.recLeave := rfl
@[simp] theorem emit_recQ (x : OutKind) (i : Nat) (l : List Nat) (b : List Byte) (d : Dev) : (emit x i l b d).recQ = d.recQ := rfl
@[simp] theorem emit_twm (x : OutKind) (i : Nat) (l : List Nat) (b : List Byte) (d : Dev) : (emit x i l b d).twm = d.twm := rfl
@[simp] theorem emit_tpg (x : OutKind) (i : Nat) (l : List Nat) (b : List Byte) (d : Dev) : (emit x i l b d).tpg = d.tpg := rfl
@[simp] theorem emit_net (x : OutKind) (i : Nat) (l : List Nat) (b : List Byte) (d : Dev) : (emit x i l b d).net = d.net := rfl
@[simp] theorem emit_ep (x : OutKind) (i : Nat) (l : List Nat) (b : List Byte) (d : Dev) : (emit x i l b d).ep = d.ep := rfl
@[simp] theorem emit_srv (x : OutKind) (i : Nat) (l : List Nat) (b : List Byte) (d : Dev) : (emit x i l b d).srv = d.srv := rfl
@[simp] theorem emit_flash (x : OutKind) (i : Nat) (l : List Nat) (b : List Byte) (d : Dev) : (emit x i l b d).flash = d.flash := rfl

@[simp] theorem setUnit_regs (u : UnitId) (x : UnitState) (d : Dev) : (setUnit u x d).regs = d.regs := rfl
@[simp] theorem setUnit_changes (u : UnitId) (x : UnitState) (d : Dev) : (setUnit u x d).changes = d.changes := rfl
@[simp] theorem setUnit_fab (u : UnitId) (x : UnitState) (d : Dev) : (setUnit u x d).fab = d.fab := rfl
@[simp] theorem setUnit_chArb (u : UnitId) (x : UnitState) (d : Dev) : (setUnit u x d).chArb = d.chArb := rfl
@[simp] theorem setUnit_answer (u : UnitId) (x : UnitState) (d : Dev) : (setUnit u x d).answer = d.answer := rfl
@[simp] theorem setUnit_calibDirty (u : UnitId) (x : UnitState) (d : Dev) : (setUnit u x d).calibDirty = d.calibDirty := rfl
@[simp] theorem setUnit_sources (u : UnitId) (x : UnitState) (d : Dev) : (setUnit u x d).sources = d.sources := rfl
@[simp] theorem setUnit_posts (u : UnitId) (x : UnitState) (d : Dev) : (setUnit u x d).posts = d.posts := rfl
@[simp] theorem setUnit_free (u : UnitId) (x : UnitState) (d : Dev) : (setUnit u x d).free = d.free := rfl
@[simp] theorem setUnit_time (u : UnitId) (x : UnitState) (d : Dev) : (setUnit u x d).time = d.time := rfl
@[simp] theorem setUnit_forced (u : UnitId) (x : UnitState) (d : Dev) : (setUnit u x d).forced = d.forced := rfl
@[simp] theorem setUnit_trans (u : UnitId) (x : UnitState) (d : Dev) : (setUnit u x d).trans = d.trans := rfl
@[simp] theorem setUnit_workLo (u : UnitId) (x : UnitState) (d : Dev) : (setUnit u x d).workLo = d.workLo := rfl
@[simp] theorem setUnit_workHi (u : UnitId) (x : UnitState) (d : Dev) : (setUnit u x d).workHi = d.workHi := rfl
@[simp] theorem setUnit_offRead (u : UnitId) (x : UnitState) (d : Dev) : (setUnit u x d).offRead = d.offRead := rfl
@[simp] theorem setUnit_sen (u : UnitId) (x : UnitState) (d : Dev) : (setUnit u x d).sen = d.sen := rfl
@[simp] theorem setUnit_itk (u : UnitId) (x : UnitState) (d : Dev) : (setUnit u x d).itk = d.itk := rfl
@[simp] theorem setUnit_seqr (u : UnitId) (x : UnitState) (d : Dev) : (setUnit u x d).seqr = d.seqr := rfl
@[simp] theorem setUnit_enc (u : UnitId) (x : UnitState) (d : Dev) : (setUnit u x d).enc = d.enc := rfl
@[simp] theorem setUnit_scan (u : UnitId) (x : UnitState) (d : Dev) : (setUnit u x d).scan = d.scan := rfl
@[simp] theorem setUnit_brg (u : UnitId) (x : UnitState) (d : Dev) : (setUnit u x d).brg = d.brg := rfl
@[simp] theorem setUnit_fb (u : UnitId) (x : UnitState) (d : Dev) : (setUnit u x d).fb = d.fb := rfl
@[simp] theorem setUnit_views (u : UnitId) (x : UnitState) (d : Dev) : (setUnit u x d).views = d.views := rfl
@[simp] theorem setUnit_amt (u : UnitId) (x : UnitState) (d : Dev) : (setUnit u x d).amt = d.amt := rfl
@[simp] theorem setUnit_pools (u : UnitId) (x : UnitState) (d : Dev) : (setUnit u x d).pools = d.pools := rfl
@[simp] theorem setUnit_hevc (u : UnitId) (x : UnitState) (d : Dev) : (setUnit u x d).hevc = d.hevc := rfl
@[simp] theorem setUnit_hevcQ (u : UnitId) (x : UnitState) (d : Dev) : (setUnit u x d).hevcQ = d.hevcQ := rfl
@[simp] theorem setUnit_engine (u : UnitId) (x : UnitState) (d : Dev) : (setUnit u x d).engine = d.engine := rfl
@[simp] theorem setUnit_outs (u : UnitId) (x : UnitState) (d : Dev) : (setUnit u x d).outs = d.outs := rfl
@[simp] theorem setUnit_align (u : UnitId) (x : UnitState) (d : Dev) : (setUnit u x d).align = d.align := rfl
@[simp] theorem setUnit_dram (u : UnitId) (x : UnitState) (d : Dev) : (setUnit u x d).dram = d.dram := rfl
@[simp] theorem setUnit_mags (u : UnitId) (x : UnitState) (d : Dev) : (setUnit u x d).mags = d.mags := rfl
@[simp] theorem setUnit_rcq (u : UnitId) (x : UnitState) (d : Dev) : (setUnit u x d).rcq = d.rcq := rfl
@[simp] theorem setUnit_take (u : UnitId) (x : UnitState) (d : Dev) : (setUnit u x d).take = d.take := rfl
@[simp] theorem setUnit_holdup (u : UnitId) (x : UnitState) (d : Dev) : (setUnit u x d).holdup = d.holdup := rfl
@[simp] theorem setUnit_therm (u : UnitId) (x : UnitState) (d : Dev) : (setUnit u x d).therm = d.therm := rfl
@[simp] theorem setUnit_pwr (u : UnitId) (x : UnitState) (d : Dev) : (setUnit u x d).pwr = d.pwr := rfl
@[simp] theorem setUnit_fuses (u : UnitId) (x : UnitState) (d : Dev) : (setUnit u x d).fuses = d.fuses := rfl
@[simp] theorem setUnit_boot (u : UnitId) (x : UnitState) (d : Dev) : (setUnit u x d).boot = d.boot := rfl
@[simp] theorem setUnit_tw (u : UnitId) (x : UnitState) (d : Dev) : (setUnit u x d).tw = d.tw := rfl
@[simp] theorem setUnit_ends (u : UnitId) (x : UnitState) (d : Dev) : (setUnit u x d).ends = d.ends := rfl
@[simp] theorem setUnit_recEnds (u : UnitId) (x : UnitState) (d : Dev) : (setUnit u x d).recEnds = d.recEnds := rfl
@[simp] theorem setUnit_ended (u : UnitId) (x : UnitState) (d : Dev) : (setUnit u x d).ended = d.ended := rfl
@[simp] theorem setUnit_recEnter (u : UnitId) (x : UnitState) (d : Dev) : (setUnit u x d).recEnter = d.recEnter := rfl
@[simp] theorem setUnit_recLeave (u : UnitId) (x : UnitState) (d : Dev) : (setUnit u x d).recLeave = d.recLeave := rfl
@[simp] theorem setUnit_recQ (u : UnitId) (x : UnitState) (d : Dev) : (setUnit u x d).recQ = d.recQ := rfl
@[simp] theorem setUnit_twm (u : UnitId) (x : UnitState) (d : Dev) : (setUnit u x d).twm = d.twm := rfl
@[simp] theorem setUnit_tpg (u : UnitId) (x : UnitState) (d : Dev) : (setUnit u x d).tpg = d.tpg := rfl
@[simp] theorem setUnit_net (u : UnitId) (x : UnitState) (d : Dev) : (setUnit u x d).net = d.net := rfl
@[simp] theorem setUnit_ep (u : UnitId) (x : UnitState) (d : Dev) : (setUnit u x d).ep = d.ep := rfl
@[simp] theorem setUnit_srv (u : UnitId) (x : UnitState) (d : Dev) : (setUnit u x d).srv = d.srv := rfl
@[simp] theorem setUnit_flash (u : UnitId) (x : UnitState) (d : Dev) : (setUnit u x d).flash = d.flash := rfl
@[simp] theorem setUnit_out (u : UnitId) (x : UnitState) (d : Dev) : (setUnit u x d).out = d.out := rfl

@[simp] theorem setPort_regs (p : Nat) (f : SenPort → SenPort) (d : Dev) : (setPort p f d).regs = d.regs := rfl
@[simp] theorem setPort_changes (p : Nat) (f : SenPort → SenPort) (d : Dev) : (setPort p f d).changes = d.changes := rfl
@[simp] theorem setPort_calibDirty (p : Nat) (f : SenPort → SenPort) (d : Dev) : (setPort p f d).calibDirty = d.calibDirty := rfl
@[simp] theorem setPort_workLo (p : Nat) (f : SenPort → SenPort) (d : Dev) : (setPort p f d).workLo = d.workLo := rfl
@[simp] theorem setPort_workHi (p : Nat) (f : SenPort → SenPort) (d : Dev) : (setPort p f d).workHi = d.workHi := rfl
@[simp] theorem setPort_offRead (p : Nat) (f : SenPort → SenPort) (d : Dev) : (setPort p f d).offRead = d.offRead := rfl
@[simp] theorem setPort_seqr (p : Nat) (f : SenPort → SenPort) (d : Dev) : (setPort p f d).seqr = d.seqr := rfl
@[simp] theorem setPort_enc (p : Nat) (f : SenPort → SenPort) (d : Dev) : (setPort p f d).enc = d.enc := rfl
@[simp] theorem setPort_scan (p : Nat) (f : SenPort → SenPort) (d : Dev) : (setPort p f d).scan = d.scan := rfl
@[simp] theorem setPort_fab (p : Nat) (f : SenPort → SenPort) (d : Dev) : (setPort p f d).fab = d.fab := rfl
@[simp] theorem setPort_chArb (p : Nat) (f : SenPort → SenPort) (d : Dev) : (setPort p f d).chArb = d.chArb := rfl
@[simp] theorem setPort_fb (p : Nat) (f : SenPort → SenPort) (d : Dev) : (setPort p f d).fb = d.fb := rfl
@[simp] theorem setPort_views (p : Nat) (f : SenPort → SenPort) (d : Dev) : (setPort p f d).views = d.views := rfl
@[simp] theorem setPort_amt (p : Nat) (f : SenPort → SenPort) (d : Dev) : (setPort p f d).amt = d.amt := rfl
@[simp] theorem setPort_pools (p : Nat) (f : SenPort → SenPort) (d : Dev) : (setPort p f d).pools = d.pools := rfl
@[simp] theorem setPort_hevc (p : Nat) (f : SenPort → SenPort) (d : Dev) : (setPort p f d).hevc = d.hevc := rfl
@[simp] theorem setPort_hevcQ (p : Nat) (f : SenPort → SenPort) (d : Dev) : (setPort p f d).hevcQ = d.hevcQ := rfl
@[simp] theorem setPort_engine (p : Nat) (f : SenPort → SenPort) (d : Dev) : (setPort p f d).engine = d.engine := rfl
@[simp] theorem setPort_outs (p : Nat) (f : SenPort → SenPort) (d : Dev) : (setPort p f d).outs = d.outs := rfl
@[simp] theorem setPort_align (p : Nat) (f : SenPort → SenPort) (d : Dev) : (setPort p f d).align = d.align := rfl
@[simp] theorem setPort_ended (p : Nat) (f : SenPort → SenPort) (d : Dev) : (setPort p f d).ended = d.ended := rfl
@[simp] theorem setPort_recEnter (p : Nat) (f : SenPort → SenPort) (d : Dev) : (setPort p f d).recEnter = d.recEnter := rfl
@[simp] theorem setPort_recLeave (p : Nat) (f : SenPort → SenPort) (d : Dev) : (setPort p f d).recLeave = d.recLeave := rfl
@[simp] theorem setPort_recQ (p : Nat) (f : SenPort → SenPort) (d : Dev) : (setPort p f d).recQ = d.recQ := rfl
@[simp] theorem setPort_twm (p : Nat) (f : SenPort → SenPort) (d : Dev) : (setPort p f d).twm = d.twm := rfl
@[simp] theorem setPort_answer (p : Nat) (f : SenPort → SenPort) (d : Dev) : (setPort p f d).answer = d.answer := rfl
@[simp] theorem setPort_sources (p : Nat) (f : SenPort → SenPort) (d : Dev) : (setPort p f d).sources = d.sources := rfl
@[simp] theorem setPort_posts (p : Nat) (f : SenPort → SenPort) (d : Dev) : (setPort p f d).posts = d.posts := rfl
@[simp] theorem setPort_free (p : Nat) (f : SenPort → SenPort) (d : Dev) : (setPort p f d).free = d.free := rfl
@[simp] theorem setPort_time (p : Nat) (f : SenPort → SenPort) (d : Dev) : (setPort p f d).time = d.time := rfl
@[simp] theorem setPort_units (p : Nat) (f : SenPort → SenPort) (d : Dev) : (setPort p f d).units = d.units := rfl
@[simp] theorem setPort_forced (p : Nat) (f : SenPort → SenPort) (d : Dev) : (setPort p f d).forced = d.forced := rfl
@[simp] theorem setPort_trans (p : Nat) (f : SenPort → SenPort) (d : Dev) : (setPort p f d).trans = d.trans := rfl
@[simp] theorem setPort_ends (p : Nat) (f : SenPort → SenPort) (d : Dev) : (setPort p f d).ends = d.ends := rfl
@[simp] theorem setPort_recEnds (p : Nat) (f : SenPort → SenPort) (d : Dev) : (setPort p f d).recEnds = d.recEnds := rfl
@[simp] theorem setPort_out (p : Nat) (f : SenPort → SenPort) (d : Dev) : (setPort p f d).out = d.out := rfl
@[simp] theorem setPort_flash (p : Nat) (f : SenPort → SenPort) (d : Dev) : (setPort p f d).flash = d.flash := rfl
@[simp] theorem setPort_fuses (p : Nat) (f : SenPort → SenPort) (d : Dev) : (setPort p f d).fuses = d.fuses := rfl
@[simp] theorem setPort_boot (p : Nat) (f : SenPort → SenPort) (d : Dev) : (setPort p f d).boot = d.boot := rfl
@[simp] theorem setPort_mags (p : Nat) (f : SenPort → SenPort) (d : Dev) : (setPort p f d).mags = d.mags := rfl
@[simp] theorem setPort_rcq (p : Nat) (f : SenPort → SenPort) (d : Dev) : (setPort p f d).rcq = d.rcq := rfl
@[simp] theorem setPort_take (p : Nat) (f : SenPort → SenPort) (d : Dev) : (setPort p f d).take = d.take := rfl
@[simp] theorem setPort_ep (p : Nat) (f : SenPort → SenPort) (d : Dev) : (setPort p f d).ep = d.ep := rfl
@[simp] theorem setPort_srv (p : Nat) (f : SenPort → SenPort) (d : Dev) : (setPort p f d).srv = d.srv := rfl
@[simp] theorem setPort_itk (p : Nat) (f : SenPort → SenPort) (d : Dev) : (setPort p f d).itk = d.itk := rfl
@[simp] theorem setPort_tpg (p : Nat) (f : SenPort → SenPort) (d : Dev) : (setPort p f d).tpg = d.tpg := rfl
@[simp] theorem setPort_tw (p : Nat) (f : SenPort → SenPort) (d : Dev) : (setPort p f d).tw = d.tw := rfl
@[simp] theorem setPort_therm (p : Nat) (f : SenPort → SenPort) (d : Dev) : (setPort p f d).therm = d.therm := rfl
@[simp] theorem setPort_holdup (p : Nat) (f : SenPort → SenPort) (d : Dev) : (setPort p f d).holdup = d.holdup := rfl
@[simp] theorem setPort_pwr (p : Nat) (f : SenPort → SenPort) (d : Dev) : (setPort p f d).pwr = d.pwr := rfl
@[simp] theorem setPort_net (p : Nat) (f : SenPort → SenPort) (d : Dev) : (setPort p f d).net = d.net := rfl
@[simp] theorem setPort_dram (p : Nat) (f : SenPort → SenPort) (d : Dev) : (setPort p f d).dram = d.dram := rfl
@[simp] theorem setPort_brg (p : Nat) (f : SenPort → SenPort) (d : Dev) : (setPort p f d).brg = d.brg := rfl
@[simp] theorem setPort_val (p : Nat) (f : SenPort → SenPort) (d : Dev) (j : Nat) : (setPort p f d).val j = d.val j := rfl
@[simp] theorem setPort_get (p : Nat) (f : SenPort → SenPort) (d : Dev) (j : Nat) : (setPort p f d).get j = d.get j := rfl

@[simp] theorem setItk_regs (p : Nat) (f : Intake → Intake) (d : Dev) : (setItk p f d).regs = d.regs := rfl
@[simp] theorem setItk_changes (p : Nat) (f : Intake → Intake) (d : Dev) : (setItk p f d).changes = d.changes := rfl
@[simp] theorem setItk_calibDirty (p : Nat) (f : Intake → Intake) (d : Dev) : (setItk p f d).calibDirty = d.calibDirty := rfl
@[simp] theorem setItk_workLo (p : Nat) (f : Intake → Intake) (d : Dev) : (setItk p f d).workLo = d.workLo := rfl
@[simp] theorem setItk_workHi (p : Nat) (f : Intake → Intake) (d : Dev) : (setItk p f d).workHi = d.workHi := rfl
@[simp] theorem setItk_offRead (p : Nat) (f : Intake → Intake) (d : Dev) : (setItk p f d).offRead = d.offRead := rfl
@[simp] theorem setItk_seqr (p : Nat) (f : Intake → Intake) (d : Dev) : (setItk p f d).seqr = d.seqr := rfl
@[simp] theorem setItk_enc (p : Nat) (f : Intake → Intake) (d : Dev) : (setItk p f d).enc = d.enc := rfl
@[simp] theorem setItk_scan (p : Nat) (f : Intake → Intake) (d : Dev) : (setItk p f d).scan = d.scan := rfl
@[simp] theorem setItk_fab (p : Nat) (f : Intake → Intake) (d : Dev) : (setItk p f d).fab = d.fab := rfl
@[simp] theorem setItk_chArb (p : Nat) (f : Intake → Intake) (d : Dev) : (setItk p f d).chArb = d.chArb := rfl
@[simp] theorem setItk_fb (p : Nat) (f : Intake → Intake) (d : Dev) : (setItk p f d).fb = d.fb := rfl
@[simp] theorem setItk_views (p : Nat) (f : Intake → Intake) (d : Dev) : (setItk p f d).views = d.views := rfl
@[simp] theorem setItk_amt (p : Nat) (f : Intake → Intake) (d : Dev) : (setItk p f d).amt = d.amt := rfl
@[simp] theorem setItk_pools (p : Nat) (f : Intake → Intake) (d : Dev) : (setItk p f d).pools = d.pools := rfl
@[simp] theorem setItk_hevc (p : Nat) (f : Intake → Intake) (d : Dev) : (setItk p f d).hevc = d.hevc := rfl
@[simp] theorem setItk_hevcQ (p : Nat) (f : Intake → Intake) (d : Dev) : (setItk p f d).hevcQ = d.hevcQ := rfl
@[simp] theorem setItk_engine (p : Nat) (f : Intake → Intake) (d : Dev) : (setItk p f d).engine = d.engine := rfl
@[simp] theorem setItk_outs (p : Nat) (f : Intake → Intake) (d : Dev) : (setItk p f d).outs = d.outs := rfl
@[simp] theorem setItk_align (p : Nat) (f : Intake → Intake) (d : Dev) : (setItk p f d).align = d.align := rfl
@[simp] theorem setItk_ended (p : Nat) (f : Intake → Intake) (d : Dev) : (setItk p f d).ended = d.ended := rfl
@[simp] theorem setItk_recEnter (p : Nat) (f : Intake → Intake) (d : Dev) : (setItk p f d).recEnter = d.recEnter := rfl
@[simp] theorem setItk_recLeave (p : Nat) (f : Intake → Intake) (d : Dev) : (setItk p f d).recLeave = d.recLeave := rfl
@[simp] theorem setItk_recQ (p : Nat) (f : Intake → Intake) (d : Dev) : (setItk p f d).recQ = d.recQ := rfl
@[simp] theorem setItk_twm (p : Nat) (f : Intake → Intake) (d : Dev) : (setItk p f d).twm = d.twm := rfl
@[simp] theorem setItk_answer (p : Nat) (f : Intake → Intake) (d : Dev) : (setItk p f d).answer = d.answer := rfl
@[simp] theorem setItk_sources (p : Nat) (f : Intake → Intake) (d : Dev) : (setItk p f d).sources = d.sources := rfl
@[simp] theorem setItk_posts (p : Nat) (f : Intake → Intake) (d : Dev) : (setItk p f d).posts = d.posts := rfl
@[simp] theorem setItk_free (p : Nat) (f : Intake → Intake) (d : Dev) : (setItk p f d).free = d.free := rfl
@[simp] theorem setItk_time (p : Nat) (f : Intake → Intake) (d : Dev) : (setItk p f d).time = d.time := rfl
@[simp] theorem setItk_units (p : Nat) (f : Intake → Intake) (d : Dev) : (setItk p f d).units = d.units := rfl
@[simp] theorem setItk_forced (p : Nat) (f : Intake → Intake) (d : Dev) : (setItk p f d).forced = d.forced := rfl
@[simp] theorem setItk_trans (p : Nat) (f : Intake → Intake) (d : Dev) : (setItk p f d).trans = d.trans := rfl
@[simp] theorem setItk_ends (p : Nat) (f : Intake → Intake) (d : Dev) : (setItk p f d).ends = d.ends := rfl
@[simp] theorem setItk_recEnds (p : Nat) (f : Intake → Intake) (d : Dev) : (setItk p f d).recEnds = d.recEnds := rfl
@[simp] theorem setItk_out (p : Nat) (f : Intake → Intake) (d : Dev) : (setItk p f d).out = d.out := rfl
@[simp] theorem setItk_flash (p : Nat) (f : Intake → Intake) (d : Dev) : (setItk p f d).flash = d.flash := rfl
@[simp] theorem setItk_fuses (p : Nat) (f : Intake → Intake) (d : Dev) : (setItk p f d).fuses = d.fuses := rfl
@[simp] theorem setItk_boot (p : Nat) (f : Intake → Intake) (d : Dev) : (setItk p f d).boot = d.boot := rfl
@[simp] theorem setItk_mags (p : Nat) (f : Intake → Intake) (d : Dev) : (setItk p f d).mags = d.mags := rfl
@[simp] theorem setItk_rcq (p : Nat) (f : Intake → Intake) (d : Dev) : (setItk p f d).rcq = d.rcq := rfl
@[simp] theorem setItk_take (p : Nat) (f : Intake → Intake) (d : Dev) : (setItk p f d).take = d.take := rfl
@[simp] theorem setItk_ep (p : Nat) (f : Intake → Intake) (d : Dev) : (setItk p f d).ep = d.ep := rfl
@[simp] theorem setItk_srv (p : Nat) (f : Intake → Intake) (d : Dev) : (setItk p f d).srv = d.srv := rfl
@[simp] theorem setItk_sen (p : Nat) (f : Intake → Intake) (d : Dev) : (setItk p f d).sen = d.sen := rfl
@[simp] theorem setItk_tpg (p : Nat) (f : Intake → Intake) (d : Dev) : (setItk p f d).tpg = d.tpg := rfl
@[simp] theorem setItk_tw (p : Nat) (f : Intake → Intake) (d : Dev) : (setItk p f d).tw = d.tw := rfl
@[simp] theorem setItk_therm (p : Nat) (f : Intake → Intake) (d : Dev) : (setItk p f d).therm = d.therm := rfl
@[simp] theorem setItk_holdup (p : Nat) (f : Intake → Intake) (d : Dev) : (setItk p f d).holdup = d.holdup := rfl
@[simp] theorem setItk_pwr (p : Nat) (f : Intake → Intake) (d : Dev) : (setItk p f d).pwr = d.pwr := rfl
@[simp] theorem setItk_net (p : Nat) (f : Intake → Intake) (d : Dev) : (setItk p f d).net = d.net := rfl
@[simp] theorem setItk_dram (p : Nat) (f : Intake → Intake) (d : Dev) : (setItk p f d).dram = d.dram := rfl
@[simp] theorem setItk_brg (p : Nat) (f : Intake → Intake) (d : Dev) : (setItk p f d).brg = d.brg := rfl
@[simp] theorem setItk_val (p : Nat) (f : Intake → Intake) (d : Dev) (j : Nat) : (setItk p f d).val j = d.val j := rfl
@[simp] theorem setItk_get (p : Nat) (f : Intake → Intake) (d : Dev) (j : Nat) : (setItk p f d).get j = d.get j := rfl

@[simp] theorem setSeq_regs (p : Nat) (f : Sequencer → Sequencer) (d : Dev) : (setSeq p f d).regs = d.regs := rfl
@[simp] theorem setSeq_changes (p : Nat) (f : Sequencer → Sequencer) (d : Dev) : (setSeq p f d).changes = d.changes := rfl
@[simp] theorem setSeq_calibDirty (p : Nat) (f : Sequencer → Sequencer) (d : Dev) : (setSeq p f d).calibDirty = d.calibDirty := rfl
@[simp] theorem setSeq_workLo (p : Nat) (f : Sequencer → Sequencer) (d : Dev) : (setSeq p f d).workLo = d.workLo := rfl
@[simp] theorem setSeq_workHi (p : Nat) (f : Sequencer → Sequencer) (d : Dev) : (setSeq p f d).workHi = d.workHi := rfl
@[simp] theorem setSeq_offRead (p : Nat) (f : Sequencer → Sequencer) (d : Dev) : (setSeq p f d).offRead = d.offRead := rfl
@[simp] theorem setSeq_enc (p : Nat) (f : Sequencer → Sequencer) (d : Dev) : (setSeq p f d).enc = d.enc := rfl
@[simp] theorem setSeq_scan (p : Nat) (f : Sequencer → Sequencer) (d : Dev) : (setSeq p f d).scan = d.scan := rfl
@[simp] theorem setSeq_fab (p : Nat) (f : Sequencer → Sequencer) (d : Dev) : (setSeq p f d).fab = d.fab := rfl
@[simp] theorem setSeq_chArb (p : Nat) (f : Sequencer → Sequencer) (d : Dev) : (setSeq p f d).chArb = d.chArb := rfl
@[simp] theorem setSeq_fb (p : Nat) (f : Sequencer → Sequencer) (d : Dev) : (setSeq p f d).fb = d.fb := rfl
@[simp] theorem setSeq_views (p : Nat) (f : Sequencer → Sequencer) (d : Dev) : (setSeq p f d).views = d.views := rfl
@[simp] theorem setSeq_amt (p : Nat) (f : Sequencer → Sequencer) (d : Dev) : (setSeq p f d).amt = d.amt := rfl
@[simp] theorem setSeq_pools (p : Nat) (f : Sequencer → Sequencer) (d : Dev) : (setSeq p f d).pools = d.pools := rfl
@[simp] theorem setSeq_hevc (p : Nat) (f : Sequencer → Sequencer) (d : Dev) : (setSeq p f d).hevc = d.hevc := rfl
@[simp] theorem setSeq_hevcQ (p : Nat) (f : Sequencer → Sequencer) (d : Dev) : (setSeq p f d).hevcQ = d.hevcQ := rfl
@[simp] theorem setSeq_engine (p : Nat) (f : Sequencer → Sequencer) (d : Dev) : (setSeq p f d).engine = d.engine := rfl
@[simp] theorem setSeq_outs (p : Nat) (f : Sequencer → Sequencer) (d : Dev) : (setSeq p f d).outs = d.outs := rfl
@[simp] theorem setSeq_align (p : Nat) (f : Sequencer → Sequencer) (d : Dev) : (setSeq p f d).align = d.align := rfl
@[simp] theorem setSeq_ended (p : Nat) (f : Sequencer → Sequencer) (d : Dev) : (setSeq p f d).ended = d.ended := rfl
@[simp] theorem setSeq_recEnter (p : Nat) (f : Sequencer → Sequencer) (d : Dev) : (setSeq p f d).recEnter = d.recEnter := rfl
@[simp] theorem setSeq_recLeave (p : Nat) (f : Sequencer → Sequencer) (d : Dev) : (setSeq p f d).recLeave = d.recLeave := rfl
@[simp] theorem setSeq_recQ (p : Nat) (f : Sequencer → Sequencer) (d : Dev) : (setSeq p f d).recQ = d.recQ := rfl
@[simp] theorem setSeq_twm (p : Nat) (f : Sequencer → Sequencer) (d : Dev) : (setSeq p f d).twm = d.twm := rfl
@[simp] theorem setSeq_answer (p : Nat) (f : Sequencer → Sequencer) (d : Dev) : (setSeq p f d).answer = d.answer := rfl
@[simp] theorem setSeq_sources (p : Nat) (f : Sequencer → Sequencer) (d : Dev) : (setSeq p f d).sources = d.sources := rfl
@[simp] theorem setSeq_posts (p : Nat) (f : Sequencer → Sequencer) (d : Dev) : (setSeq p f d).posts = d.posts := rfl
@[simp] theorem setSeq_free (p : Nat) (f : Sequencer → Sequencer) (d : Dev) : (setSeq p f d).free = d.free := rfl
@[simp] theorem setSeq_time (p : Nat) (f : Sequencer → Sequencer) (d : Dev) : (setSeq p f d).time = d.time := rfl
@[simp] theorem setSeq_units (p : Nat) (f : Sequencer → Sequencer) (d : Dev) : (setSeq p f d).units = d.units := rfl
@[simp] theorem setSeq_forced (p : Nat) (f : Sequencer → Sequencer) (d : Dev) : (setSeq p f d).forced = d.forced := rfl
@[simp] theorem setSeq_trans (p : Nat) (f : Sequencer → Sequencer) (d : Dev) : (setSeq p f d).trans = d.trans := rfl
@[simp] theorem setSeq_ends (p : Nat) (f : Sequencer → Sequencer) (d : Dev) : (setSeq p f d).ends = d.ends := rfl
@[simp] theorem setSeq_recEnds (p : Nat) (f : Sequencer → Sequencer) (d : Dev) : (setSeq p f d).recEnds = d.recEnds := rfl
@[simp] theorem setSeq_out (p : Nat) (f : Sequencer → Sequencer) (d : Dev) : (setSeq p f d).out = d.out := rfl
@[simp] theorem setSeq_flash (p : Nat) (f : Sequencer → Sequencer) (d : Dev) : (setSeq p f d).flash = d.flash := rfl
@[simp] theorem setSeq_fuses (p : Nat) (f : Sequencer → Sequencer) (d : Dev) : (setSeq p f d).fuses = d.fuses := rfl
@[simp] theorem setSeq_boot (p : Nat) (f : Sequencer → Sequencer) (d : Dev) : (setSeq p f d).boot = d.boot := rfl
@[simp] theorem setSeq_mags (p : Nat) (f : Sequencer → Sequencer) (d : Dev) : (setSeq p f d).mags = d.mags := rfl
@[simp] theorem setSeq_rcq (p : Nat) (f : Sequencer → Sequencer) (d : Dev) : (setSeq p f d).rcq = d.rcq := rfl
@[simp] theorem setSeq_take (p : Nat) (f : Sequencer → Sequencer) (d : Dev) : (setSeq p f d).take = d.take := rfl
@[simp] theorem setSeq_ep (p : Nat) (f : Sequencer → Sequencer) (d : Dev) : (setSeq p f d).ep = d.ep := rfl
@[simp] theorem setSeq_srv (p : Nat) (f : Sequencer → Sequencer) (d : Dev) : (setSeq p f d).srv = d.srv := rfl
@[simp] theorem setSeq_sen (p : Nat) (f : Sequencer → Sequencer) (d : Dev) : (setSeq p f d).sen = d.sen := rfl
@[simp] theorem setSeq_itk (p : Nat) (f : Sequencer → Sequencer) (d : Dev) : (setSeq p f d).itk = d.itk := rfl
@[simp] theorem setSeq_tpg (p : Nat) (f : Sequencer → Sequencer) (d : Dev) : (setSeq p f d).tpg = d.tpg := rfl
@[simp] theorem setSeq_tw (p : Nat) (f : Sequencer → Sequencer) (d : Dev) : (setSeq p f d).tw = d.tw := rfl
@[simp] theorem setSeq_therm (p : Nat) (f : Sequencer → Sequencer) (d : Dev) : (setSeq p f d).therm = d.therm := rfl
@[simp] theorem setSeq_holdup (p : Nat) (f : Sequencer → Sequencer) (d : Dev) : (setSeq p f d).holdup = d.holdup := rfl
@[simp] theorem setSeq_pwr (p : Nat) (f : Sequencer → Sequencer) (d : Dev) : (setSeq p f d).pwr = d.pwr := rfl
@[simp] theorem setSeq_net (p : Nat) (f : Sequencer → Sequencer) (d : Dev) : (setSeq p f d).net = d.net := rfl
@[simp] theorem setSeq_dram (p : Nat) (f : Sequencer → Sequencer) (d : Dev) : (setSeq p f d).dram = d.dram := rfl
@[simp] theorem setSeq_brg (p : Nat) (f : Sequencer → Sequencer) (d : Dev) : (setSeq p f d).brg = d.brg := rfl
@[simp] theorem setSeq_val (p : Nat) (f : Sequencer → Sequencer) (d : Dev) (j : Nat) : (setSeq p f d).val j = d.val j := rfl
@[simp] theorem setSeq_get (p : Nat) (f : Sequencer → Sequencer) (d : Dev) (j : Nat) : (setSeq p f d).get j = d.get j := rfl

@[simp] theorem setEnc_regs (p : Nat) (f : Encoder → Encoder) (d : Dev) : (setEnc p f d).regs = d.regs := rfl
@[simp] theorem setEnc_changes (p : Nat) (f : Encoder → Encoder) (d : Dev) : (setEnc p f d).changes = d.changes := rfl
@[simp] theorem setEnc_calibDirty (p : Nat) (f : Encoder → Encoder) (d : Dev) : (setEnc p f d).calibDirty = d.calibDirty := rfl
@[simp] theorem setEnc_workLo (p : Nat) (f : Encoder → Encoder) (d : Dev) : (setEnc p f d).workLo = d.workLo := rfl
@[simp] theorem setEnc_workHi (p : Nat) (f : Encoder → Encoder) (d : Dev) : (setEnc p f d).workHi = d.workHi := rfl
@[simp] theorem setEnc_offRead (p : Nat) (f : Encoder → Encoder) (d : Dev) : (setEnc p f d).offRead = d.offRead := rfl
@[simp] theorem setEnc_seqr (p : Nat) (f : Encoder → Encoder) (d : Dev) : (setEnc p f d).seqr = d.seqr := rfl
@[simp] theorem setEnc_scan (p : Nat) (f : Encoder → Encoder) (d : Dev) : (setEnc p f d).scan = d.scan := rfl
@[simp] theorem setEnc_fab (p : Nat) (f : Encoder → Encoder) (d : Dev) : (setEnc p f d).fab = d.fab := rfl
@[simp] theorem setEnc_chArb (p : Nat) (f : Encoder → Encoder) (d : Dev) : (setEnc p f d).chArb = d.chArb := rfl
@[simp] theorem setEnc_fb (p : Nat) (f : Encoder → Encoder) (d : Dev) : (setEnc p f d).fb = d.fb := rfl
@[simp] theorem setEnc_views (p : Nat) (f : Encoder → Encoder) (d : Dev) : (setEnc p f d).views = d.views := rfl
@[simp] theorem setEnc_amt (p : Nat) (f : Encoder → Encoder) (d : Dev) : (setEnc p f d).amt = d.amt := rfl
@[simp] theorem setEnc_pools (p : Nat) (f : Encoder → Encoder) (d : Dev) : (setEnc p f d).pools = d.pools := rfl
@[simp] theorem setEnc_hevc (p : Nat) (f : Encoder → Encoder) (d : Dev) : (setEnc p f d).hevc = d.hevc := rfl
@[simp] theorem setEnc_hevcQ (p : Nat) (f : Encoder → Encoder) (d : Dev) : (setEnc p f d).hevcQ = d.hevcQ := rfl
@[simp] theorem setEnc_engine (p : Nat) (f : Encoder → Encoder) (d : Dev) : (setEnc p f d).engine = d.engine := rfl
@[simp] theorem setEnc_outs (p : Nat) (f : Encoder → Encoder) (d : Dev) : (setEnc p f d).outs = d.outs := rfl
@[simp] theorem setEnc_align (p : Nat) (f : Encoder → Encoder) (d : Dev) : (setEnc p f d).align = d.align := rfl
@[simp] theorem setEnc_ended (p : Nat) (f : Encoder → Encoder) (d : Dev) : (setEnc p f d).ended = d.ended := rfl
@[simp] theorem setEnc_recEnter (p : Nat) (f : Encoder → Encoder) (d : Dev) : (setEnc p f d).recEnter = d.recEnter := rfl
@[simp] theorem setEnc_recLeave (p : Nat) (f : Encoder → Encoder) (d : Dev) : (setEnc p f d).recLeave = d.recLeave := rfl
@[simp] theorem setEnc_recQ (p : Nat) (f : Encoder → Encoder) (d : Dev) : (setEnc p f d).recQ = d.recQ := rfl
@[simp] theorem setEnc_twm (p : Nat) (f : Encoder → Encoder) (d : Dev) : (setEnc p f d).twm = d.twm := rfl
@[simp] theorem setEnc_answer (p : Nat) (f : Encoder → Encoder) (d : Dev) : (setEnc p f d).answer = d.answer := rfl
@[simp] theorem setEnc_sources (p : Nat) (f : Encoder → Encoder) (d : Dev) : (setEnc p f d).sources = d.sources := rfl
@[simp] theorem setEnc_posts (p : Nat) (f : Encoder → Encoder) (d : Dev) : (setEnc p f d).posts = d.posts := rfl
@[simp] theorem setEnc_free (p : Nat) (f : Encoder → Encoder) (d : Dev) : (setEnc p f d).free = d.free := rfl
@[simp] theorem setEnc_time (p : Nat) (f : Encoder → Encoder) (d : Dev) : (setEnc p f d).time = d.time := rfl
@[simp] theorem setEnc_units (p : Nat) (f : Encoder → Encoder) (d : Dev) : (setEnc p f d).units = d.units := rfl
@[simp] theorem setEnc_forced (p : Nat) (f : Encoder → Encoder) (d : Dev) : (setEnc p f d).forced = d.forced := rfl
@[simp] theorem setEnc_trans (p : Nat) (f : Encoder → Encoder) (d : Dev) : (setEnc p f d).trans = d.trans := rfl
@[simp] theorem setEnc_ends (p : Nat) (f : Encoder → Encoder) (d : Dev) : (setEnc p f d).ends = d.ends := rfl
@[simp] theorem setEnc_recEnds (p : Nat) (f : Encoder → Encoder) (d : Dev) : (setEnc p f d).recEnds = d.recEnds := rfl
@[simp] theorem setEnc_out (p : Nat) (f : Encoder → Encoder) (d : Dev) : (setEnc p f d).out = d.out := rfl
@[simp] theorem setEnc_flash (p : Nat) (f : Encoder → Encoder) (d : Dev) : (setEnc p f d).flash = d.flash := rfl
@[simp] theorem setEnc_fuses (p : Nat) (f : Encoder → Encoder) (d : Dev) : (setEnc p f d).fuses = d.fuses := rfl
@[simp] theorem setEnc_boot (p : Nat) (f : Encoder → Encoder) (d : Dev) : (setEnc p f d).boot = d.boot := rfl
@[simp] theorem setEnc_mags (p : Nat) (f : Encoder → Encoder) (d : Dev) : (setEnc p f d).mags = d.mags := rfl
@[simp] theorem setEnc_rcq (p : Nat) (f : Encoder → Encoder) (d : Dev) : (setEnc p f d).rcq = d.rcq := rfl
@[simp] theorem setEnc_take (p : Nat) (f : Encoder → Encoder) (d : Dev) : (setEnc p f d).take = d.take := rfl
@[simp] theorem setEnc_ep (p : Nat) (f : Encoder → Encoder) (d : Dev) : (setEnc p f d).ep = d.ep := rfl
@[simp] theorem setEnc_srv (p : Nat) (f : Encoder → Encoder) (d : Dev) : (setEnc p f d).srv = d.srv := rfl
@[simp] theorem setEnc_sen (p : Nat) (f : Encoder → Encoder) (d : Dev) : (setEnc p f d).sen = d.sen := rfl
@[simp] theorem setEnc_itk (p : Nat) (f : Encoder → Encoder) (d : Dev) : (setEnc p f d).itk = d.itk := rfl
@[simp] theorem setEnc_tpg (p : Nat) (f : Encoder → Encoder) (d : Dev) : (setEnc p f d).tpg = d.tpg := rfl
@[simp] theorem setEnc_tw (p : Nat) (f : Encoder → Encoder) (d : Dev) : (setEnc p f d).tw = d.tw := rfl
@[simp] theorem setEnc_therm (p : Nat) (f : Encoder → Encoder) (d : Dev) : (setEnc p f d).therm = d.therm := rfl
@[simp] theorem setEnc_holdup (p : Nat) (f : Encoder → Encoder) (d : Dev) : (setEnc p f d).holdup = d.holdup := rfl
@[simp] theorem setEnc_pwr (p : Nat) (f : Encoder → Encoder) (d : Dev) : (setEnc p f d).pwr = d.pwr := rfl
@[simp] theorem setEnc_net (p : Nat) (f : Encoder → Encoder) (d : Dev) : (setEnc p f d).net = d.net := rfl
@[simp] theorem setEnc_dram (p : Nat) (f : Encoder → Encoder) (d : Dev) : (setEnc p f d).dram = d.dram := rfl
@[simp] theorem setEnc_brg (p : Nat) (f : Encoder → Encoder) (d : Dev) : (setEnc p f d).brg = d.brg := rfl
@[simp] theorem setEnc_val (p : Nat) (f : Encoder → Encoder) (d : Dev) (j : Nat) : (setEnc p f d).val j = d.val j := rfl
@[simp] theorem setEnc_get (p : Nat) (f : Encoder → Encoder) (d : Dev) (j : Nat) : (setEnc p f d).get j = d.get j := rfl

@[simp] theorem setScan_regs (f : Scan → Scan) (d : Dev) : (setScan f d).regs = d.regs := rfl
@[simp] theorem setScan_changes (f : Scan → Scan) (d : Dev) : (setScan f d).changes = d.changes := rfl
@[simp] theorem setScan_calibDirty (f : Scan → Scan) (d : Dev) : (setScan f d).calibDirty = d.calibDirty := rfl
@[simp] theorem setScan_workLo (f : Scan → Scan) (d : Dev) : (setScan f d).workLo = d.workLo := rfl
@[simp] theorem setScan_workHi (f : Scan → Scan) (d : Dev) : (setScan f d).workHi = d.workHi := rfl
@[simp] theorem setScan_offRead (f : Scan → Scan) (d : Dev) : (setScan f d).offRead = d.offRead := rfl
@[simp] theorem setScan_seqr (f : Scan → Scan) (d : Dev) : (setScan f d).seqr = d.seqr := rfl
@[simp] theorem setScan_enc (f : Scan → Scan) (d : Dev) : (setScan f d).enc = d.enc := rfl
@[simp] theorem setScan_fab (f : Scan → Scan) (d : Dev) : (setScan f d).fab = d.fab := rfl
@[simp] theorem setScan_chArb (f : Scan → Scan) (d : Dev) : (setScan f d).chArb = d.chArb := rfl
@[simp] theorem setScan_fb (f : Scan → Scan) (d : Dev) : (setScan f d).fb = d.fb := rfl
@[simp] theorem setScan_views (f : Scan → Scan) (d : Dev) : (setScan f d).views = d.views := rfl
@[simp] theorem setScan_amt (f : Scan → Scan) (d : Dev) : (setScan f d).amt = d.amt := rfl
@[simp] theorem setScan_pools (f : Scan → Scan) (d : Dev) : (setScan f d).pools = d.pools := rfl
@[simp] theorem setScan_hevc (f : Scan → Scan) (d : Dev) : (setScan f d).hevc = d.hevc := rfl
@[simp] theorem setScan_hevcQ (f : Scan → Scan) (d : Dev) : (setScan f d).hevcQ = d.hevcQ := rfl
@[simp] theorem setScan_engine (f : Scan → Scan) (d : Dev) : (setScan f d).engine = d.engine := rfl
@[simp] theorem setScan_outs (f : Scan → Scan) (d : Dev) : (setScan f d).outs = d.outs := rfl
@[simp] theorem setScan_align (f : Scan → Scan) (d : Dev) : (setScan f d).align = d.align := rfl
@[simp] theorem setScan_ended (f : Scan → Scan) (d : Dev) : (setScan f d).ended = d.ended := rfl
@[simp] theorem setScan_recEnter (f : Scan → Scan) (d : Dev) : (setScan f d).recEnter = d.recEnter := rfl
@[simp] theorem setScan_recLeave (f : Scan → Scan) (d : Dev) : (setScan f d).recLeave = d.recLeave := rfl
@[simp] theorem setScan_recQ (f : Scan → Scan) (d : Dev) : (setScan f d).recQ = d.recQ := rfl
@[simp] theorem setScan_twm (f : Scan → Scan) (d : Dev) : (setScan f d).twm = d.twm := rfl
@[simp] theorem setScan_answer (f : Scan → Scan) (d : Dev) : (setScan f d).answer = d.answer := rfl
@[simp] theorem setScan_sources (f : Scan → Scan) (d : Dev) : (setScan f d).sources = d.sources := rfl
@[simp] theorem setScan_posts (f : Scan → Scan) (d : Dev) : (setScan f d).posts = d.posts := rfl
@[simp] theorem setScan_free (f : Scan → Scan) (d : Dev) : (setScan f d).free = d.free := rfl
@[simp] theorem setScan_time (f : Scan → Scan) (d : Dev) : (setScan f d).time = d.time := rfl
@[simp] theorem setScan_units (f : Scan → Scan) (d : Dev) : (setScan f d).units = d.units := rfl
@[simp] theorem setScan_forced (f : Scan → Scan) (d : Dev) : (setScan f d).forced = d.forced := rfl
@[simp] theorem setScan_trans (f : Scan → Scan) (d : Dev) : (setScan f d).trans = d.trans := rfl
@[simp] theorem setScan_ends (f : Scan → Scan) (d : Dev) : (setScan f d).ends = d.ends := rfl
@[simp] theorem setScan_recEnds (f : Scan → Scan) (d : Dev) : (setScan f d).recEnds = d.recEnds := rfl
@[simp] theorem setScan_out (f : Scan → Scan) (d : Dev) : (setScan f d).out = d.out := rfl
@[simp] theorem setScan_flash (f : Scan → Scan) (d : Dev) : (setScan f d).flash = d.flash := rfl
@[simp] theorem setScan_fuses (f : Scan → Scan) (d : Dev) : (setScan f d).fuses = d.fuses := rfl
@[simp] theorem setScan_boot (f : Scan → Scan) (d : Dev) : (setScan f d).boot = d.boot := rfl
@[simp] theorem setScan_mags (f : Scan → Scan) (d : Dev) : (setScan f d).mags = d.mags := rfl
@[simp] theorem setScan_rcq (f : Scan → Scan) (d : Dev) : (setScan f d).rcq = d.rcq := rfl
@[simp] theorem setScan_take (f : Scan → Scan) (d : Dev) : (setScan f d).take = d.take := rfl
@[simp] theorem setScan_ep (f : Scan → Scan) (d : Dev) : (setScan f d).ep = d.ep := rfl
@[simp] theorem setScan_srv (f : Scan → Scan) (d : Dev) : (setScan f d).srv = d.srv := rfl
@[simp] theorem setScan_sen (f : Scan → Scan) (d : Dev) : (setScan f d).sen = d.sen := rfl
@[simp] theorem setScan_itk (f : Scan → Scan) (d : Dev) : (setScan f d).itk = d.itk := rfl
@[simp] theorem setScan_tpg (f : Scan → Scan) (d : Dev) : (setScan f d).tpg = d.tpg := rfl
@[simp] theorem setScan_tw (f : Scan → Scan) (d : Dev) : (setScan f d).tw = d.tw := rfl
@[simp] theorem setScan_therm (f : Scan → Scan) (d : Dev) : (setScan f d).therm = d.therm := rfl
@[simp] theorem setScan_holdup (f : Scan → Scan) (d : Dev) : (setScan f d).holdup = d.holdup := rfl
@[simp] theorem setScan_pwr (f : Scan → Scan) (d : Dev) : (setScan f d).pwr = d.pwr := rfl
@[simp] theorem setScan_net (f : Scan → Scan) (d : Dev) : (setScan f d).net = d.net := rfl
@[simp] theorem setScan_dram (f : Scan → Scan) (d : Dev) : (setScan f d).dram = d.dram := rfl
@[simp] theorem setScan_brg (f : Scan → Scan) (d : Dev) : (setScan f d).brg = d.brg := rfl
@[simp] theorem setScan_val (f : Scan → Scan) (d : Dev) (j : Nat) : (setScan f d).val j = d.val j := rfl
@[simp] theorem setScan_get (f : Scan → Scan) (d : Dev) (j : Nat) : (setScan f d).get j = d.get j := rfl

@[simp] theorem setBrg_regs (f : Barges → Barges) (d : Dev) : (setBrg f d).regs = d.regs := rfl
@[simp] theorem setBrg_changes (f : Barges → Barges) (d : Dev) : (setBrg f d).changes = d.changes := rfl
@[simp] theorem setBrg_calibDirty (f : Barges → Barges) (d : Dev) : (setBrg f d).calibDirty = d.calibDirty := rfl
@[simp] theorem setBrg_workLo (f : Barges → Barges) (d : Dev) : (setBrg f d).workLo = d.workLo := rfl
@[simp] theorem setBrg_workHi (f : Barges → Barges) (d : Dev) : (setBrg f d).workHi = d.workHi := rfl
@[simp] theorem setBrg_offRead (f : Barges → Barges) (d : Dev) : (setBrg f d).offRead = d.offRead := rfl
@[simp] theorem setBrg_seqr (f : Barges → Barges) (d : Dev) : (setBrg f d).seqr = d.seqr := rfl
@[simp] theorem setBrg_enc (f : Barges → Barges) (d : Dev) : (setBrg f d).enc = d.enc := rfl
@[simp] theorem setBrg_scan (f : Barges → Barges) (d : Dev) : (setBrg f d).scan = d.scan := rfl
@[simp] theorem setBrg_fab (f : Barges → Barges) (d : Dev) : (setBrg f d).fab = d.fab := rfl
@[simp] theorem setBrg_chArb (f : Barges → Barges) (d : Dev) : (setBrg f d).chArb = d.chArb := rfl
@[simp] theorem setBrg_fb (f : Barges → Barges) (d : Dev) : (setBrg f d).fb = d.fb := rfl
@[simp] theorem setBrg_views (f : Barges → Barges) (d : Dev) : (setBrg f d).views = d.views := rfl
@[simp] theorem setBrg_amt (f : Barges → Barges) (d : Dev) : (setBrg f d).amt = d.amt := rfl
@[simp] theorem setBrg_pools (f : Barges → Barges) (d : Dev) : (setBrg f d).pools = d.pools := rfl
@[simp] theorem setBrg_hevc (f : Barges → Barges) (d : Dev) : (setBrg f d).hevc = d.hevc := rfl
@[simp] theorem setBrg_hevcQ (f : Barges → Barges) (d : Dev) : (setBrg f d).hevcQ = d.hevcQ := rfl
@[simp] theorem setBrg_engine (f : Barges → Barges) (d : Dev) : (setBrg f d).engine = d.engine := rfl
@[simp] theorem setBrg_outs (f : Barges → Barges) (d : Dev) : (setBrg f d).outs = d.outs := rfl
@[simp] theorem setBrg_align (f : Barges → Barges) (d : Dev) : (setBrg f d).align = d.align := rfl
@[simp] theorem setBrg_ended (f : Barges → Barges) (d : Dev) : (setBrg f d).ended = d.ended := rfl
@[simp] theorem setBrg_recEnter (f : Barges → Barges) (d : Dev) : (setBrg f d).recEnter = d.recEnter := rfl
@[simp] theorem setBrg_recLeave (f : Barges → Barges) (d : Dev) : (setBrg f d).recLeave = d.recLeave := rfl
@[simp] theorem setBrg_recQ (f : Barges → Barges) (d : Dev) : (setBrg f d).recQ = d.recQ := rfl
@[simp] theorem setBrg_twm (f : Barges → Barges) (d : Dev) : (setBrg f d).twm = d.twm := rfl
@[simp] theorem setBrg_answer (f : Barges → Barges) (d : Dev) : (setBrg f d).answer = d.answer := rfl
@[simp] theorem setBrg_sources (f : Barges → Barges) (d : Dev) : (setBrg f d).sources = d.sources := rfl
@[simp] theorem setBrg_posts (f : Barges → Barges) (d : Dev) : (setBrg f d).posts = d.posts := rfl
@[simp] theorem setBrg_free (f : Barges → Barges) (d : Dev) : (setBrg f d).free = d.free := rfl
@[simp] theorem setBrg_time (f : Barges → Barges) (d : Dev) : (setBrg f d).time = d.time := rfl
@[simp] theorem setBrg_units (f : Barges → Barges) (d : Dev) : (setBrg f d).units = d.units := rfl
@[simp] theorem setBrg_forced (f : Barges → Barges) (d : Dev) : (setBrg f d).forced = d.forced := rfl
@[simp] theorem setBrg_trans (f : Barges → Barges) (d : Dev) : (setBrg f d).trans = d.trans := rfl
@[simp] theorem setBrg_ends (f : Barges → Barges) (d : Dev) : (setBrg f d).ends = d.ends := rfl
@[simp] theorem setBrg_recEnds (f : Barges → Barges) (d : Dev) : (setBrg f d).recEnds = d.recEnds := rfl
@[simp] theorem setBrg_out (f : Barges → Barges) (d : Dev) : (setBrg f d).out = d.out := rfl
@[simp] theorem setBrg_flash (f : Barges → Barges) (d : Dev) : (setBrg f d).flash = d.flash := rfl
@[simp] theorem setBrg_fuses (f : Barges → Barges) (d : Dev) : (setBrg f d).fuses = d.fuses := rfl
@[simp] theorem setBrg_boot (f : Barges → Barges) (d : Dev) : (setBrg f d).boot = d.boot := rfl
@[simp] theorem setBrg_mags (f : Barges → Barges) (d : Dev) : (setBrg f d).mags = d.mags := rfl
@[simp] theorem setBrg_rcq (f : Barges → Barges) (d : Dev) : (setBrg f d).rcq = d.rcq := rfl
@[simp] theorem setBrg_take (f : Barges → Barges) (d : Dev) : (setBrg f d).take = d.take := rfl
@[simp] theorem setBrg_ep (f : Barges → Barges) (d : Dev) : (setBrg f d).ep = d.ep := rfl
@[simp] theorem setBrg_srv (f : Barges → Barges) (d : Dev) : (setBrg f d).srv = d.srv := rfl
@[simp] theorem setBrg_sen (f : Barges → Barges) (d : Dev) : (setBrg f d).sen = d.sen := rfl
@[simp] theorem setBrg_itk (f : Barges → Barges) (d : Dev) : (setBrg f d).itk = d.itk := rfl
@[simp] theorem setBrg_tpg (f : Barges → Barges) (d : Dev) : (setBrg f d).tpg = d.tpg := rfl
@[simp] theorem setBrg_tw (f : Barges → Barges) (d : Dev) : (setBrg f d).tw = d.tw := rfl
@[simp] theorem setBrg_therm (f : Barges → Barges) (d : Dev) : (setBrg f d).therm = d.therm := rfl
@[simp] theorem setBrg_holdup (f : Barges → Barges) (d : Dev) : (setBrg f d).holdup = d.holdup := rfl
@[simp] theorem setBrg_pwr (f : Barges → Barges) (d : Dev) : (setBrg f d).pwr = d.pwr := rfl
@[simp] theorem setBrg_net (f : Barges → Barges) (d : Dev) : (setBrg f d).net = d.net := rfl
@[simp] theorem setBrg_dram (f : Barges → Barges) (d : Dev) : (setBrg f d).dram = d.dram := rfl
@[simp] theorem setBrg_val (f : Barges → Barges) (d : Dev) (j : Nat) : (setBrg f d).val j = d.val j := rfl
@[simp] theorem setBrg_get (f : Barges → Barges) (d : Dev) (j : Nat) : (setBrg f d).get j = d.get j := rfl

@[simp] theorem setView_regs (p : Nat) (f : View → View) (d : Dev) : (setView p f d).regs = d.regs := rfl
@[simp] theorem setView_changes (p : Nat) (f : View → View) (d : Dev) : (setView p f d).changes = d.changes := rfl
@[simp] theorem setView_calibDirty (p : Nat) (f : View → View) (d : Dev) : (setView p f d).calibDirty = d.calibDirty := rfl
@[simp] theorem setView_workLo (p : Nat) (f : View → View) (d : Dev) : (setView p f d).workLo = d.workLo := rfl
@[simp] theorem setView_workHi (p : Nat) (f : View → View) (d : Dev) : (setView p f d).workHi = d.workHi := rfl
@[simp] theorem setView_offRead (p : Nat) (f : View → View) (d : Dev) : (setView p f d).offRead = d.offRead := rfl
@[simp] theorem setView_seqr (p : Nat) (f : View → View) (d : Dev) : (setView p f d).seqr = d.seqr := rfl
@[simp] theorem setView_enc (p : Nat) (f : View → View) (d : Dev) : (setView p f d).enc = d.enc := rfl
@[simp] theorem setView_scan (p : Nat) (f : View → View) (d : Dev) : (setView p f d).scan = d.scan := rfl
@[simp] theorem setView_fab (p : Nat) (f : View → View) (d : Dev) : (setView p f d).fab = d.fab := rfl
@[simp] theorem setView_chArb (p : Nat) (f : View → View) (d : Dev) : (setView p f d).chArb = d.chArb := rfl
@[simp] theorem setView_fb (p : Nat) (f : View → View) (d : Dev) : (setView p f d).fb = d.fb := rfl
@[simp] theorem setView_amt (p : Nat) (f : View → View) (d : Dev) : (setView p f d).amt = d.amt := rfl
@[simp] theorem setView_pools (p : Nat) (f : View → View) (d : Dev) : (setView p f d).pools = d.pools := rfl
@[simp] theorem setView_hevc (p : Nat) (f : View → View) (d : Dev) : (setView p f d).hevc = d.hevc := rfl
@[simp] theorem setView_hevcQ (p : Nat) (f : View → View) (d : Dev) : (setView p f d).hevcQ = d.hevcQ := rfl
@[simp] theorem setView_engine (p : Nat) (f : View → View) (d : Dev) : (setView p f d).engine = d.engine := rfl
@[simp] theorem setView_outs (p : Nat) (f : View → View) (d : Dev) : (setView p f d).outs = d.outs := rfl
@[simp] theorem setView_align (p : Nat) (f : View → View) (d : Dev) : (setView p f d).align = d.align := rfl
@[simp] theorem setView_ended (p : Nat) (f : View → View) (d : Dev) : (setView p f d).ended = d.ended := rfl
@[simp] theorem setView_recEnter (p : Nat) (f : View → View) (d : Dev) : (setView p f d).recEnter = d.recEnter := rfl
@[simp] theorem setView_recLeave (p : Nat) (f : View → View) (d : Dev) : (setView p f d).recLeave = d.recLeave := rfl
@[simp] theorem setView_recQ (p : Nat) (f : View → View) (d : Dev) : (setView p f d).recQ = d.recQ := rfl
@[simp] theorem setView_twm (p : Nat) (f : View → View) (d : Dev) : (setView p f d).twm = d.twm := rfl
@[simp] theorem setView_answer (p : Nat) (f : View → View) (d : Dev) : (setView p f d).answer = d.answer := rfl
@[simp] theorem setView_sources (p : Nat) (f : View → View) (d : Dev) : (setView p f d).sources = d.sources := rfl
@[simp] theorem setView_posts (p : Nat) (f : View → View) (d : Dev) : (setView p f d).posts = d.posts := rfl
@[simp] theorem setView_free (p : Nat) (f : View → View) (d : Dev) : (setView p f d).free = d.free := rfl
@[simp] theorem setView_time (p : Nat) (f : View → View) (d : Dev) : (setView p f d).time = d.time := rfl
@[simp] theorem setView_units (p : Nat) (f : View → View) (d : Dev) : (setView p f d).units = d.units := rfl
@[simp] theorem setView_forced (p : Nat) (f : View → View) (d : Dev) : (setView p f d).forced = d.forced := rfl
@[simp] theorem setView_trans (p : Nat) (f : View → View) (d : Dev) : (setView p f d).trans = d.trans := rfl
@[simp] theorem setView_ends (p : Nat) (f : View → View) (d : Dev) : (setView p f d).ends = d.ends := rfl
@[simp] theorem setView_recEnds (p : Nat) (f : View → View) (d : Dev) : (setView p f d).recEnds = d.recEnds := rfl
@[simp] theorem setView_out (p : Nat) (f : View → View) (d : Dev) : (setView p f d).out = d.out := rfl
@[simp] theorem setView_flash (p : Nat) (f : View → View) (d : Dev) : (setView p f d).flash = d.flash := rfl
@[simp] theorem setView_fuses (p : Nat) (f : View → View) (d : Dev) : (setView p f d).fuses = d.fuses := rfl
@[simp] theorem setView_boot (p : Nat) (f : View → View) (d : Dev) : (setView p f d).boot = d.boot := rfl
@[simp] theorem setView_mags (p : Nat) (f : View → View) (d : Dev) : (setView p f d).mags = d.mags := rfl
@[simp] theorem setView_rcq (p : Nat) (f : View → View) (d : Dev) : (setView p f d).rcq = d.rcq := rfl
@[simp] theorem setView_take (p : Nat) (f : View → View) (d : Dev) : (setView p f d).take = d.take := rfl
@[simp] theorem setView_ep (p : Nat) (f : View → View) (d : Dev) : (setView p f d).ep = d.ep := rfl
@[simp] theorem setView_srv (p : Nat) (f : View → View) (d : Dev) : (setView p f d).srv = d.srv := rfl
@[simp] theorem setView_sen (p : Nat) (f : View → View) (d : Dev) : (setView p f d).sen = d.sen := rfl
@[simp] theorem setView_itk (p : Nat) (f : View → View) (d : Dev) : (setView p f d).itk = d.itk := rfl
@[simp] theorem setView_tpg (p : Nat) (f : View → View) (d : Dev) : (setView p f d).tpg = d.tpg := rfl
@[simp] theorem setView_tw (p : Nat) (f : View → View) (d : Dev) : (setView p f d).tw = d.tw := rfl
@[simp] theorem setView_therm (p : Nat) (f : View → View) (d : Dev) : (setView p f d).therm = d.therm := rfl
@[simp] theorem setView_holdup (p : Nat) (f : View → View) (d : Dev) : (setView p f d).holdup = d.holdup := rfl
@[simp] theorem setView_pwr (p : Nat) (f : View → View) (d : Dev) : (setView p f d).pwr = d.pwr := rfl
@[simp] theorem setView_net (p : Nat) (f : View → View) (d : Dev) : (setView p f d).net = d.net := rfl
@[simp] theorem setView_dram (p : Nat) (f : View → View) (d : Dev) : (setView p f d).dram = d.dram := rfl
@[simp] theorem setView_brg (p : Nat) (f : View → View) (d : Dev) : (setView p f d).brg = d.brg := rfl
@[simp] theorem setView_val (p : Nat) (f : View → View) (d : Dev) (j : Nat) : (setView p f d).val j = d.val j := rfl
@[simp] theorem setView_get (p : Nat) (f : View → View) (d : Dev) (j : Nat) : (setView p f d).get j = d.get j := rfl

@[simp] theorem setAmt_regs (p : Nat) (f : AmtStream → AmtStream) (d : Dev) : (setAmt p f d).regs = d.regs := rfl
@[simp] theorem setAmt_changes (p : Nat) (f : AmtStream → AmtStream) (d : Dev) : (setAmt p f d).changes = d.changes := rfl
@[simp] theorem setAmt_calibDirty (p : Nat) (f : AmtStream → AmtStream) (d : Dev) : (setAmt p f d).calibDirty = d.calibDirty := rfl
@[simp] theorem setAmt_workLo (p : Nat) (f : AmtStream → AmtStream) (d : Dev) : (setAmt p f d).workLo = d.workLo := rfl
@[simp] theorem setAmt_workHi (p : Nat) (f : AmtStream → AmtStream) (d : Dev) : (setAmt p f d).workHi = d.workHi := rfl
@[simp] theorem setAmt_offRead (p : Nat) (f : AmtStream → AmtStream) (d : Dev) : (setAmt p f d).offRead = d.offRead := rfl
@[simp] theorem setAmt_seqr (p : Nat) (f : AmtStream → AmtStream) (d : Dev) : (setAmt p f d).seqr = d.seqr := rfl
@[simp] theorem setAmt_enc (p : Nat) (f : AmtStream → AmtStream) (d : Dev) : (setAmt p f d).enc = d.enc := rfl
@[simp] theorem setAmt_scan (p : Nat) (f : AmtStream → AmtStream) (d : Dev) : (setAmt p f d).scan = d.scan := rfl
@[simp] theorem setAmt_fab (p : Nat) (f : AmtStream → AmtStream) (d : Dev) : (setAmt p f d).fab = d.fab := rfl
@[simp] theorem setAmt_chArb (p : Nat) (f : AmtStream → AmtStream) (d : Dev) : (setAmt p f d).chArb = d.chArb := rfl
@[simp] theorem setAmt_fb (p : Nat) (f : AmtStream → AmtStream) (d : Dev) : (setAmt p f d).fb = d.fb := rfl
@[simp] theorem setAmt_views (p : Nat) (f : AmtStream → AmtStream) (d : Dev) : (setAmt p f d).views = d.views := rfl
@[simp] theorem setAmt_pools (p : Nat) (f : AmtStream → AmtStream) (d : Dev) : (setAmt p f d).pools = d.pools := rfl
@[simp] theorem setAmt_hevc (p : Nat) (f : AmtStream → AmtStream) (d : Dev) : (setAmt p f d).hevc = d.hevc := rfl
@[simp] theorem setAmt_hevcQ (p : Nat) (f : AmtStream → AmtStream) (d : Dev) : (setAmt p f d).hevcQ = d.hevcQ := rfl
@[simp] theorem setAmt_engine (p : Nat) (f : AmtStream → AmtStream) (d : Dev) : (setAmt p f d).engine = d.engine := rfl
@[simp] theorem setAmt_outs (p : Nat) (f : AmtStream → AmtStream) (d : Dev) : (setAmt p f d).outs = d.outs := rfl
@[simp] theorem setAmt_align (p : Nat) (f : AmtStream → AmtStream) (d : Dev) : (setAmt p f d).align = d.align := rfl
@[simp] theorem setAmt_ended (p : Nat) (f : AmtStream → AmtStream) (d : Dev) : (setAmt p f d).ended = d.ended := rfl
@[simp] theorem setAmt_recEnter (p : Nat) (f : AmtStream → AmtStream) (d : Dev) : (setAmt p f d).recEnter = d.recEnter := rfl
@[simp] theorem setAmt_recLeave (p : Nat) (f : AmtStream → AmtStream) (d : Dev) : (setAmt p f d).recLeave = d.recLeave := rfl
@[simp] theorem setAmt_recQ (p : Nat) (f : AmtStream → AmtStream) (d : Dev) : (setAmt p f d).recQ = d.recQ := rfl
@[simp] theorem setAmt_twm (p : Nat) (f : AmtStream → AmtStream) (d : Dev) : (setAmt p f d).twm = d.twm := rfl
@[simp] theorem setAmt_answer (p : Nat) (f : AmtStream → AmtStream) (d : Dev) : (setAmt p f d).answer = d.answer := rfl
@[simp] theorem setAmt_sources (p : Nat) (f : AmtStream → AmtStream) (d : Dev) : (setAmt p f d).sources = d.sources := rfl
@[simp] theorem setAmt_posts (p : Nat) (f : AmtStream → AmtStream) (d : Dev) : (setAmt p f d).posts = d.posts := rfl
@[simp] theorem setAmt_free (p : Nat) (f : AmtStream → AmtStream) (d : Dev) : (setAmt p f d).free = d.free := rfl
@[simp] theorem setAmt_time (p : Nat) (f : AmtStream → AmtStream) (d : Dev) : (setAmt p f d).time = d.time := rfl
@[simp] theorem setAmt_units (p : Nat) (f : AmtStream → AmtStream) (d : Dev) : (setAmt p f d).units = d.units := rfl
@[simp] theorem setAmt_forced (p : Nat) (f : AmtStream → AmtStream) (d : Dev) : (setAmt p f d).forced = d.forced := rfl
@[simp] theorem setAmt_trans (p : Nat) (f : AmtStream → AmtStream) (d : Dev) : (setAmt p f d).trans = d.trans := rfl
@[simp] theorem setAmt_ends (p : Nat) (f : AmtStream → AmtStream) (d : Dev) : (setAmt p f d).ends = d.ends := rfl
@[simp] theorem setAmt_recEnds (p : Nat) (f : AmtStream → AmtStream) (d : Dev) : (setAmt p f d).recEnds = d.recEnds := rfl
@[simp] theorem setAmt_out (p : Nat) (f : AmtStream → AmtStream) (d : Dev) : (setAmt p f d).out = d.out := rfl
@[simp] theorem setAmt_flash (p : Nat) (f : AmtStream → AmtStream) (d : Dev) : (setAmt p f d).flash = d.flash := rfl
@[simp] theorem setAmt_fuses (p : Nat) (f : AmtStream → AmtStream) (d : Dev) : (setAmt p f d).fuses = d.fuses := rfl
@[simp] theorem setAmt_boot (p : Nat) (f : AmtStream → AmtStream) (d : Dev) : (setAmt p f d).boot = d.boot := rfl
@[simp] theorem setAmt_mags (p : Nat) (f : AmtStream → AmtStream) (d : Dev) : (setAmt p f d).mags = d.mags := rfl
@[simp] theorem setAmt_rcq (p : Nat) (f : AmtStream → AmtStream) (d : Dev) : (setAmt p f d).rcq = d.rcq := rfl
@[simp] theorem setAmt_take (p : Nat) (f : AmtStream → AmtStream) (d : Dev) : (setAmt p f d).take = d.take := rfl
@[simp] theorem setAmt_ep (p : Nat) (f : AmtStream → AmtStream) (d : Dev) : (setAmt p f d).ep = d.ep := rfl
@[simp] theorem setAmt_srv (p : Nat) (f : AmtStream → AmtStream) (d : Dev) : (setAmt p f d).srv = d.srv := rfl
@[simp] theorem setAmt_sen (p : Nat) (f : AmtStream → AmtStream) (d : Dev) : (setAmt p f d).sen = d.sen := rfl
@[simp] theorem setAmt_itk (p : Nat) (f : AmtStream → AmtStream) (d : Dev) : (setAmt p f d).itk = d.itk := rfl
@[simp] theorem setAmt_tpg (p : Nat) (f : AmtStream → AmtStream) (d : Dev) : (setAmt p f d).tpg = d.tpg := rfl
@[simp] theorem setAmt_tw (p : Nat) (f : AmtStream → AmtStream) (d : Dev) : (setAmt p f d).tw = d.tw := rfl
@[simp] theorem setAmt_therm (p : Nat) (f : AmtStream → AmtStream) (d : Dev) : (setAmt p f d).therm = d.therm := rfl
@[simp] theorem setAmt_holdup (p : Nat) (f : AmtStream → AmtStream) (d : Dev) : (setAmt p f d).holdup = d.holdup := rfl
@[simp] theorem setAmt_pwr (p : Nat) (f : AmtStream → AmtStream) (d : Dev) : (setAmt p f d).pwr = d.pwr := rfl
@[simp] theorem setAmt_net (p : Nat) (f : AmtStream → AmtStream) (d : Dev) : (setAmt p f d).net = d.net := rfl
@[simp] theorem setAmt_dram (p : Nat) (f : AmtStream → AmtStream) (d : Dev) : (setAmt p f d).dram = d.dram := rfl
@[simp] theorem setAmt_brg (p : Nat) (f : AmtStream → AmtStream) (d : Dev) : (setAmt p f d).brg = d.brg := rfl
@[simp] theorem setAmt_val (p : Nat) (f : AmtStream → AmtStream) (d : Dev) (j : Nat) : (setAmt p f d).val j = d.val j := rfl
@[simp] theorem setAmt_get (p : Nat) (f : AmtStream → AmtStream) (d : Dev) (j : Nat) : (setAmt p f d).get j = d.get j := rfl

@[simp] theorem setPool_regs (p : Nat) (f : Pool → Pool) (d : Dev) : (setPool p f d).regs = d.regs := rfl
@[simp] theorem setPool_changes (p : Nat) (f : Pool → Pool) (d : Dev) : (setPool p f d).changes = d.changes := rfl
@[simp] theorem setPool_calibDirty (p : Nat) (f : Pool → Pool) (d : Dev) : (setPool p f d).calibDirty = d.calibDirty := rfl
@[simp] theorem setPool_workLo (p : Nat) (f : Pool → Pool) (d : Dev) : (setPool p f d).workLo = d.workLo := rfl
@[simp] theorem setPool_workHi (p : Nat) (f : Pool → Pool) (d : Dev) : (setPool p f d).workHi = d.workHi := rfl
@[simp] theorem setPool_offRead (p : Nat) (f : Pool → Pool) (d : Dev) : (setPool p f d).offRead = d.offRead := rfl
@[simp] theorem setPool_seqr (p : Nat) (f : Pool → Pool) (d : Dev) : (setPool p f d).seqr = d.seqr := rfl
@[simp] theorem setPool_enc (p : Nat) (f : Pool → Pool) (d : Dev) : (setPool p f d).enc = d.enc := rfl
@[simp] theorem setPool_scan (p : Nat) (f : Pool → Pool) (d : Dev) : (setPool p f d).scan = d.scan := rfl
@[simp] theorem setPool_fab (p : Nat) (f : Pool → Pool) (d : Dev) : (setPool p f d).fab = d.fab := rfl
@[simp] theorem setPool_chArb (p : Nat) (f : Pool → Pool) (d : Dev) : (setPool p f d).chArb = d.chArb := rfl
@[simp] theorem setPool_fb (p : Nat) (f : Pool → Pool) (d : Dev) : (setPool p f d).fb = d.fb := rfl
@[simp] theorem setPool_views (p : Nat) (f : Pool → Pool) (d : Dev) : (setPool p f d).views = d.views := rfl
@[simp] theorem setPool_amt (p : Nat) (f : Pool → Pool) (d : Dev) : (setPool p f d).amt = d.amt := rfl
@[simp] theorem setPool_hevc (p : Nat) (f : Pool → Pool) (d : Dev) : (setPool p f d).hevc = d.hevc := rfl
@[simp] theorem setPool_hevcQ (p : Nat) (f : Pool → Pool) (d : Dev) : (setPool p f d).hevcQ = d.hevcQ := rfl
@[simp] theorem setPool_engine (p : Nat) (f : Pool → Pool) (d : Dev) : (setPool p f d).engine = d.engine := rfl
@[simp] theorem setPool_outs (p : Nat) (f : Pool → Pool) (d : Dev) : (setPool p f d).outs = d.outs := rfl
@[simp] theorem setPool_align (p : Nat) (f : Pool → Pool) (d : Dev) : (setPool p f d).align = d.align := rfl
@[simp] theorem setPool_ended (p : Nat) (f : Pool → Pool) (d : Dev) : (setPool p f d).ended = d.ended := rfl
@[simp] theorem setPool_recEnter (p : Nat) (f : Pool → Pool) (d : Dev) : (setPool p f d).recEnter = d.recEnter := rfl
@[simp] theorem setPool_recLeave (p : Nat) (f : Pool → Pool) (d : Dev) : (setPool p f d).recLeave = d.recLeave := rfl
@[simp] theorem setPool_recQ (p : Nat) (f : Pool → Pool) (d : Dev) : (setPool p f d).recQ = d.recQ := rfl
@[simp] theorem setPool_twm (p : Nat) (f : Pool → Pool) (d : Dev) : (setPool p f d).twm = d.twm := rfl
@[simp] theorem setPool_answer (p : Nat) (f : Pool → Pool) (d : Dev) : (setPool p f d).answer = d.answer := rfl
@[simp] theorem setPool_sources (p : Nat) (f : Pool → Pool) (d : Dev) : (setPool p f d).sources = d.sources := rfl
@[simp] theorem setPool_posts (p : Nat) (f : Pool → Pool) (d : Dev) : (setPool p f d).posts = d.posts := rfl
@[simp] theorem setPool_free (p : Nat) (f : Pool → Pool) (d : Dev) : (setPool p f d).free = d.free := rfl
@[simp] theorem setPool_time (p : Nat) (f : Pool → Pool) (d : Dev) : (setPool p f d).time = d.time := rfl
@[simp] theorem setPool_units (p : Nat) (f : Pool → Pool) (d : Dev) : (setPool p f d).units = d.units := rfl
@[simp] theorem setPool_forced (p : Nat) (f : Pool → Pool) (d : Dev) : (setPool p f d).forced = d.forced := rfl
@[simp] theorem setPool_trans (p : Nat) (f : Pool → Pool) (d : Dev) : (setPool p f d).trans = d.trans := rfl
@[simp] theorem setPool_ends (p : Nat) (f : Pool → Pool) (d : Dev) : (setPool p f d).ends = d.ends := rfl
@[simp] theorem setPool_recEnds (p : Nat) (f : Pool → Pool) (d : Dev) : (setPool p f d).recEnds = d.recEnds := rfl
@[simp] theorem setPool_out (p : Nat) (f : Pool → Pool) (d : Dev) : (setPool p f d).out = d.out := rfl
@[simp] theorem setPool_flash (p : Nat) (f : Pool → Pool) (d : Dev) : (setPool p f d).flash = d.flash := rfl
@[simp] theorem setPool_fuses (p : Nat) (f : Pool → Pool) (d : Dev) : (setPool p f d).fuses = d.fuses := rfl
@[simp] theorem setPool_boot (p : Nat) (f : Pool → Pool) (d : Dev) : (setPool p f d).boot = d.boot := rfl
@[simp] theorem setPool_mags (p : Nat) (f : Pool → Pool) (d : Dev) : (setPool p f d).mags = d.mags := rfl
@[simp] theorem setPool_rcq (p : Nat) (f : Pool → Pool) (d : Dev) : (setPool p f d).rcq = d.rcq := rfl
@[simp] theorem setPool_take (p : Nat) (f : Pool → Pool) (d : Dev) : (setPool p f d).take = d.take := rfl
@[simp] theorem setPool_ep (p : Nat) (f : Pool → Pool) (d : Dev) : (setPool p f d).ep = d.ep := rfl
@[simp] theorem setPool_srv (p : Nat) (f : Pool → Pool) (d : Dev) : (setPool p f d).srv = d.srv := rfl
@[simp] theorem setPool_sen (p : Nat) (f : Pool → Pool) (d : Dev) : (setPool p f d).sen = d.sen := rfl
@[simp] theorem setPool_itk (p : Nat) (f : Pool → Pool) (d : Dev) : (setPool p f d).itk = d.itk := rfl
@[simp] theorem setPool_tpg (p : Nat) (f : Pool → Pool) (d : Dev) : (setPool p f d).tpg = d.tpg := rfl
@[simp] theorem setPool_tw (p : Nat) (f : Pool → Pool) (d : Dev) : (setPool p f d).tw = d.tw := rfl
@[simp] theorem setPool_therm (p : Nat) (f : Pool → Pool) (d : Dev) : (setPool p f d).therm = d.therm := rfl
@[simp] theorem setPool_holdup (p : Nat) (f : Pool → Pool) (d : Dev) : (setPool p f d).holdup = d.holdup := rfl
@[simp] theorem setPool_pwr (p : Nat) (f : Pool → Pool) (d : Dev) : (setPool p f d).pwr = d.pwr := rfl
@[simp] theorem setPool_net (p : Nat) (f : Pool → Pool) (d : Dev) : (setPool p f d).net = d.net := rfl
@[simp] theorem setPool_dram (p : Nat) (f : Pool → Pool) (d : Dev) : (setPool p f d).dram = d.dram := rfl
@[simp] theorem setPool_brg (p : Nat) (f : Pool → Pool) (d : Dev) : (setPool p f d).brg = d.brg := rfl
@[simp] theorem setPool_val (p : Nat) (f : Pool → Pool) (d : Dev) (j : Nat) : (setPool p f d).val j = d.val j := rfl
@[simp] theorem setPool_get (p : Nat) (f : Pool → Pool) (d : Dev) (j : Nat) : (setPool p f d).get j = d.get j := rfl

@[simp] theorem setHev_regs (p : Nat) (f : Hevc → Hevc) (d : Dev) : (setHev p f d).regs = d.regs := rfl
@[simp] theorem setHev_changes (p : Nat) (f : Hevc → Hevc) (d : Dev) : (setHev p f d).changes = d.changes := rfl
@[simp] theorem setHev_calibDirty (p : Nat) (f : Hevc → Hevc) (d : Dev) : (setHev p f d).calibDirty = d.calibDirty := rfl
@[simp] theorem setHev_workLo (p : Nat) (f : Hevc → Hevc) (d : Dev) : (setHev p f d).workLo = d.workLo := rfl
@[simp] theorem setHev_workHi (p : Nat) (f : Hevc → Hevc) (d : Dev) : (setHev p f d).workHi = d.workHi := rfl
@[simp] theorem setHev_offRead (p : Nat) (f : Hevc → Hevc) (d : Dev) : (setHev p f d).offRead = d.offRead := rfl
@[simp] theorem setHev_seqr (p : Nat) (f : Hevc → Hevc) (d : Dev) : (setHev p f d).seqr = d.seqr := rfl
@[simp] theorem setHev_enc (p : Nat) (f : Hevc → Hevc) (d : Dev) : (setHev p f d).enc = d.enc := rfl
@[simp] theorem setHev_scan (p : Nat) (f : Hevc → Hevc) (d : Dev) : (setHev p f d).scan = d.scan := rfl
@[simp] theorem setHev_fab (p : Nat) (f : Hevc → Hevc) (d : Dev) : (setHev p f d).fab = d.fab := rfl
@[simp] theorem setHev_chArb (p : Nat) (f : Hevc → Hevc) (d : Dev) : (setHev p f d).chArb = d.chArb := rfl
@[simp] theorem setHev_fb (p : Nat) (f : Hevc → Hevc) (d : Dev) : (setHev p f d).fb = d.fb := rfl
@[simp] theorem setHev_views (p : Nat) (f : Hevc → Hevc) (d : Dev) : (setHev p f d).views = d.views := rfl
@[simp] theorem setHev_amt (p : Nat) (f : Hevc → Hevc) (d : Dev) : (setHev p f d).amt = d.amt := rfl
@[simp] theorem setHev_pools (p : Nat) (f : Hevc → Hevc) (d : Dev) : (setHev p f d).pools = d.pools := rfl
@[simp] theorem setHev_hevcQ (p : Nat) (f : Hevc → Hevc) (d : Dev) : (setHev p f d).hevcQ = d.hevcQ := rfl
@[simp] theorem setHev_engine (p : Nat) (f : Hevc → Hevc) (d : Dev) : (setHev p f d).engine = d.engine := rfl
@[simp] theorem setHev_outs (p : Nat) (f : Hevc → Hevc) (d : Dev) : (setHev p f d).outs = d.outs := rfl
@[simp] theorem setHev_align (p : Nat) (f : Hevc → Hevc) (d : Dev) : (setHev p f d).align = d.align := rfl
@[simp] theorem setHev_ended (p : Nat) (f : Hevc → Hevc) (d : Dev) : (setHev p f d).ended = d.ended := rfl
@[simp] theorem setHev_recEnter (p : Nat) (f : Hevc → Hevc) (d : Dev) : (setHev p f d).recEnter = d.recEnter := rfl
@[simp] theorem setHev_recLeave (p : Nat) (f : Hevc → Hevc) (d : Dev) : (setHev p f d).recLeave = d.recLeave := rfl
@[simp] theorem setHev_recQ (p : Nat) (f : Hevc → Hevc) (d : Dev) : (setHev p f d).recQ = d.recQ := rfl
@[simp] theorem setHev_twm (p : Nat) (f : Hevc → Hevc) (d : Dev) : (setHev p f d).twm = d.twm := rfl
@[simp] theorem setHev_answer (p : Nat) (f : Hevc → Hevc) (d : Dev) : (setHev p f d).answer = d.answer := rfl
@[simp] theorem setHev_sources (p : Nat) (f : Hevc → Hevc) (d : Dev) : (setHev p f d).sources = d.sources := rfl
@[simp] theorem setHev_posts (p : Nat) (f : Hevc → Hevc) (d : Dev) : (setHev p f d).posts = d.posts := rfl
@[simp] theorem setHev_free (p : Nat) (f : Hevc → Hevc) (d : Dev) : (setHev p f d).free = d.free := rfl
@[simp] theorem setHev_time (p : Nat) (f : Hevc → Hevc) (d : Dev) : (setHev p f d).time = d.time := rfl
@[simp] theorem setHev_units (p : Nat) (f : Hevc → Hevc) (d : Dev) : (setHev p f d).units = d.units := rfl
@[simp] theorem setHev_forced (p : Nat) (f : Hevc → Hevc) (d : Dev) : (setHev p f d).forced = d.forced := rfl
@[simp] theorem setHev_trans (p : Nat) (f : Hevc → Hevc) (d : Dev) : (setHev p f d).trans = d.trans := rfl
@[simp] theorem setHev_ends (p : Nat) (f : Hevc → Hevc) (d : Dev) : (setHev p f d).ends = d.ends := rfl
@[simp] theorem setHev_recEnds (p : Nat) (f : Hevc → Hevc) (d : Dev) : (setHev p f d).recEnds = d.recEnds := rfl
@[simp] theorem setHev_out (p : Nat) (f : Hevc → Hevc) (d : Dev) : (setHev p f d).out = d.out := rfl
@[simp] theorem setHev_flash (p : Nat) (f : Hevc → Hevc) (d : Dev) : (setHev p f d).flash = d.flash := rfl
@[simp] theorem setHev_fuses (p : Nat) (f : Hevc → Hevc) (d : Dev) : (setHev p f d).fuses = d.fuses := rfl
@[simp] theorem setHev_boot (p : Nat) (f : Hevc → Hevc) (d : Dev) : (setHev p f d).boot = d.boot := rfl
@[simp] theorem setHev_mags (p : Nat) (f : Hevc → Hevc) (d : Dev) : (setHev p f d).mags = d.mags := rfl
@[simp] theorem setHev_rcq (p : Nat) (f : Hevc → Hevc) (d : Dev) : (setHev p f d).rcq = d.rcq := rfl
@[simp] theorem setHev_take (p : Nat) (f : Hevc → Hevc) (d : Dev) : (setHev p f d).take = d.take := rfl
@[simp] theorem setHev_ep (p : Nat) (f : Hevc → Hevc) (d : Dev) : (setHev p f d).ep = d.ep := rfl
@[simp] theorem setHev_srv (p : Nat) (f : Hevc → Hevc) (d : Dev) : (setHev p f d).srv = d.srv := rfl
@[simp] theorem setHev_sen (p : Nat) (f : Hevc → Hevc) (d : Dev) : (setHev p f d).sen = d.sen := rfl
@[simp] theorem setHev_itk (p : Nat) (f : Hevc → Hevc) (d : Dev) : (setHev p f d).itk = d.itk := rfl
@[simp] theorem setHev_tpg (p : Nat) (f : Hevc → Hevc) (d : Dev) : (setHev p f d).tpg = d.tpg := rfl
@[simp] theorem setHev_tw (p : Nat) (f : Hevc → Hevc) (d : Dev) : (setHev p f d).tw = d.tw := rfl
@[simp] theorem setHev_therm (p : Nat) (f : Hevc → Hevc) (d : Dev) : (setHev p f d).therm = d.therm := rfl
@[simp] theorem setHev_holdup (p : Nat) (f : Hevc → Hevc) (d : Dev) : (setHev p f d).holdup = d.holdup := rfl
@[simp] theorem setHev_pwr (p : Nat) (f : Hevc → Hevc) (d : Dev) : (setHev p f d).pwr = d.pwr := rfl
@[simp] theorem setHev_net (p : Nat) (f : Hevc → Hevc) (d : Dev) : (setHev p f d).net = d.net := rfl
@[simp] theorem setHev_dram (p : Nat) (f : Hevc → Hevc) (d : Dev) : (setHev p f d).dram = d.dram := rfl
@[simp] theorem setHev_brg (p : Nat) (f : Hevc → Hevc) (d : Dev) : (setHev p f d).brg = d.brg := rfl
@[simp] theorem setHev_val (p : Nat) (f : Hevc → Hevc) (d : Dev) (j : Nat) : (setHev p f d).val j = d.val j := rfl
@[simp] theorem setHev_get (p : Nat) (f : Hevc → Hevc) (d : Dev) (j : Nat) : (setHev p f d).get j = d.get j := rfl

@[simp] theorem setOutp_regs (p : Nat) (f : Output → Output) (d : Dev) : (setOutp p f d).regs = d.regs := rfl
@[simp] theorem setOutp_changes (p : Nat) (f : Output → Output) (d : Dev) : (setOutp p f d).changes = d.changes := rfl
@[simp] theorem setOutp_calibDirty (p : Nat) (f : Output → Output) (d : Dev) : (setOutp p f d).calibDirty = d.calibDirty := rfl
@[simp] theorem setOutp_workLo (p : Nat) (f : Output → Output) (d : Dev) : (setOutp p f d).workLo = d.workLo := rfl
@[simp] theorem setOutp_workHi (p : Nat) (f : Output → Output) (d : Dev) : (setOutp p f d).workHi = d.workHi := rfl
@[simp] theorem setOutp_offRead (p : Nat) (f : Output → Output) (d : Dev) : (setOutp p f d).offRead = d.offRead := rfl
@[simp] theorem setOutp_seqr (p : Nat) (f : Output → Output) (d : Dev) : (setOutp p f d).seqr = d.seqr := rfl
@[simp] theorem setOutp_enc (p : Nat) (f : Output → Output) (d : Dev) : (setOutp p f d).enc = d.enc := rfl
@[simp] theorem setOutp_scan (p : Nat) (f : Output → Output) (d : Dev) : (setOutp p f d).scan = d.scan := rfl
@[simp] theorem setOutp_fab (p : Nat) (f : Output → Output) (d : Dev) : (setOutp p f d).fab = d.fab := rfl
@[simp] theorem setOutp_chArb (p : Nat) (f : Output → Output) (d : Dev) : (setOutp p f d).chArb = d.chArb := rfl
@[simp] theorem setOutp_fb (p : Nat) (f : Output → Output) (d : Dev) : (setOutp p f d).fb = d.fb := rfl
@[simp] theorem setOutp_views (p : Nat) (f : Output → Output) (d : Dev) : (setOutp p f d).views = d.views := rfl
@[simp] theorem setOutp_amt (p : Nat) (f : Output → Output) (d : Dev) : (setOutp p f d).amt = d.amt := rfl
@[simp] theorem setOutp_pools (p : Nat) (f : Output → Output) (d : Dev) : (setOutp p f d).pools = d.pools := rfl
@[simp] theorem setOutp_hevc (p : Nat) (f : Output → Output) (d : Dev) : (setOutp p f d).hevc = d.hevc := rfl
@[simp] theorem setOutp_hevcQ (p : Nat) (f : Output → Output) (d : Dev) : (setOutp p f d).hevcQ = d.hevcQ := rfl
@[simp] theorem setOutp_engine (p : Nat) (f : Output → Output) (d : Dev) : (setOutp p f d).engine = d.engine := rfl
@[simp] theorem setOutp_align (p : Nat) (f : Output → Output) (d : Dev) : (setOutp p f d).align = d.align := rfl
@[simp] theorem setOutp_ended (p : Nat) (f : Output → Output) (d : Dev) : (setOutp p f d).ended = d.ended := rfl
@[simp] theorem setOutp_recEnter (p : Nat) (f : Output → Output) (d : Dev) : (setOutp p f d).recEnter = d.recEnter := rfl
@[simp] theorem setOutp_recLeave (p : Nat) (f : Output → Output) (d : Dev) : (setOutp p f d).recLeave = d.recLeave := rfl
@[simp] theorem setOutp_recQ (p : Nat) (f : Output → Output) (d : Dev) : (setOutp p f d).recQ = d.recQ := rfl
@[simp] theorem setOutp_twm (p : Nat) (f : Output → Output) (d : Dev) : (setOutp p f d).twm = d.twm := rfl
@[simp] theorem setOutp_answer (p : Nat) (f : Output → Output) (d : Dev) : (setOutp p f d).answer = d.answer := rfl
@[simp] theorem setOutp_sources (p : Nat) (f : Output → Output) (d : Dev) : (setOutp p f d).sources = d.sources := rfl
@[simp] theorem setOutp_posts (p : Nat) (f : Output → Output) (d : Dev) : (setOutp p f d).posts = d.posts := rfl
@[simp] theorem setOutp_free (p : Nat) (f : Output → Output) (d : Dev) : (setOutp p f d).free = d.free := rfl
@[simp] theorem setOutp_time (p : Nat) (f : Output → Output) (d : Dev) : (setOutp p f d).time = d.time := rfl
@[simp] theorem setOutp_units (p : Nat) (f : Output → Output) (d : Dev) : (setOutp p f d).units = d.units := rfl
@[simp] theorem setOutp_forced (p : Nat) (f : Output → Output) (d : Dev) : (setOutp p f d).forced = d.forced := rfl
@[simp] theorem setOutp_trans (p : Nat) (f : Output → Output) (d : Dev) : (setOutp p f d).trans = d.trans := rfl
@[simp] theorem setOutp_ends (p : Nat) (f : Output → Output) (d : Dev) : (setOutp p f d).ends = d.ends := rfl
@[simp] theorem setOutp_recEnds (p : Nat) (f : Output → Output) (d : Dev) : (setOutp p f d).recEnds = d.recEnds := rfl
@[simp] theorem setOutp_out (p : Nat) (f : Output → Output) (d : Dev) : (setOutp p f d).out = d.out := rfl
@[simp] theorem setOutp_flash (p : Nat) (f : Output → Output) (d : Dev) : (setOutp p f d).flash = d.flash := rfl
@[simp] theorem setOutp_fuses (p : Nat) (f : Output → Output) (d : Dev) : (setOutp p f d).fuses = d.fuses := rfl
@[simp] theorem setOutp_boot (p : Nat) (f : Output → Output) (d : Dev) : (setOutp p f d).boot = d.boot := rfl
@[simp] theorem setOutp_mags (p : Nat) (f : Output → Output) (d : Dev) : (setOutp p f d).mags = d.mags := rfl
@[simp] theorem setOutp_rcq (p : Nat) (f : Output → Output) (d : Dev) : (setOutp p f d).rcq = d.rcq := rfl
@[simp] theorem setOutp_take (p : Nat) (f : Output → Output) (d : Dev) : (setOutp p f d).take = d.take := rfl
@[simp] theorem setOutp_ep (p : Nat) (f : Output → Output) (d : Dev) : (setOutp p f d).ep = d.ep := rfl
@[simp] theorem setOutp_srv (p : Nat) (f : Output → Output) (d : Dev) : (setOutp p f d).srv = d.srv := rfl
@[simp] theorem setOutp_sen (p : Nat) (f : Output → Output) (d : Dev) : (setOutp p f d).sen = d.sen := rfl
@[simp] theorem setOutp_itk (p : Nat) (f : Output → Output) (d : Dev) : (setOutp p f d).itk = d.itk := rfl
@[simp] theorem setOutp_tpg (p : Nat) (f : Output → Output) (d : Dev) : (setOutp p f d).tpg = d.tpg := rfl
@[simp] theorem setOutp_tw (p : Nat) (f : Output → Output) (d : Dev) : (setOutp p f d).tw = d.tw := rfl
@[simp] theorem setOutp_therm (p : Nat) (f : Output → Output) (d : Dev) : (setOutp p f d).therm = d.therm := rfl
@[simp] theorem setOutp_holdup (p : Nat) (f : Output → Output) (d : Dev) : (setOutp p f d).holdup = d.holdup := rfl
@[simp] theorem setOutp_pwr (p : Nat) (f : Output → Output) (d : Dev) : (setOutp p f d).pwr = d.pwr := rfl
@[simp] theorem setOutp_net (p : Nat) (f : Output → Output) (d : Dev) : (setOutp p f d).net = d.net := rfl
@[simp] theorem setOutp_dram (p : Nat) (f : Output → Output) (d : Dev) : (setOutp p f d).dram = d.dram := rfl
@[simp] theorem setOutp_brg (p : Nat) (f : Output → Output) (d : Dev) : (setOutp p f d).brg = d.brg := rfl
@[simp] theorem setOutp_val (p : Nat) (f : Output → Output) (d : Dev) (j : Nat) : (setOutp p f d).val j = d.val j := rfl
@[simp] theorem setOutp_get (p : Nat) (f : Output → Output) (d : Dev) (j : Nat) : (setOutp p f d).get j = d.get j := rfl

@[simp] theorem setMag_regs (p : Nat) (f : MagPort → MagPort) (d : Dev) : (setMag p f d).regs = d.regs := rfl
@[simp] theorem setMag_changes (p : Nat) (f : MagPort → MagPort) (d : Dev) : (setMag p f d).changes = d.changes := rfl
@[simp] theorem setMag_calibDirty (p : Nat) (f : MagPort → MagPort) (d : Dev) : (setMag p f d).calibDirty = d.calibDirty := rfl
@[simp] theorem setMag_workLo (p : Nat) (f : MagPort → MagPort) (d : Dev) : (setMag p f d).workLo = d.workLo := rfl
@[simp] theorem setMag_workHi (p : Nat) (f : MagPort → MagPort) (d : Dev) : (setMag p f d).workHi = d.workHi := rfl
@[simp] theorem setMag_offRead (p : Nat) (f : MagPort → MagPort) (d : Dev) : (setMag p f d).offRead = d.offRead := rfl
@[simp] theorem setMag_seqr (p : Nat) (f : MagPort → MagPort) (d : Dev) : (setMag p f d).seqr = d.seqr := rfl
@[simp] theorem setMag_enc (p : Nat) (f : MagPort → MagPort) (d : Dev) : (setMag p f d).enc = d.enc := rfl
@[simp] theorem setMag_scan (p : Nat) (f : MagPort → MagPort) (d : Dev) : (setMag p f d).scan = d.scan := rfl
@[simp] theorem setMag_fab (p : Nat) (f : MagPort → MagPort) (d : Dev) : (setMag p f d).fab = d.fab := rfl
@[simp] theorem setMag_chArb (p : Nat) (f : MagPort → MagPort) (d : Dev) : (setMag p f d).chArb = d.chArb := rfl
@[simp] theorem setMag_fb (p : Nat) (f : MagPort → MagPort) (d : Dev) : (setMag p f d).fb = d.fb := rfl
@[simp] theorem setMag_views (p : Nat) (f : MagPort → MagPort) (d : Dev) : (setMag p f d).views = d.views := rfl
@[simp] theorem setMag_amt (p : Nat) (f : MagPort → MagPort) (d : Dev) : (setMag p f d).amt = d.amt := rfl
@[simp] theorem setMag_pools (p : Nat) (f : MagPort → MagPort) (d : Dev) : (setMag p f d).pools = d.pools := rfl
@[simp] theorem setMag_hevc (p : Nat) (f : MagPort → MagPort) (d : Dev) : (setMag p f d).hevc = d.hevc := rfl
@[simp] theorem setMag_hevcQ (p : Nat) (f : MagPort → MagPort) (d : Dev) : (setMag p f d).hevcQ = d.hevcQ := rfl
@[simp] theorem setMag_engine (p : Nat) (f : MagPort → MagPort) (d : Dev) : (setMag p f d).engine = d.engine := rfl
@[simp] theorem setMag_outs (p : Nat) (f : MagPort → MagPort) (d : Dev) : (setMag p f d).outs = d.outs := rfl
@[simp] theorem setMag_align (p : Nat) (f : MagPort → MagPort) (d : Dev) : (setMag p f d).align = d.align := rfl
@[simp] theorem setMag_ended (p : Nat) (f : MagPort → MagPort) (d : Dev) : (setMag p f d).ended = d.ended := rfl
@[simp] theorem setMag_recEnter (p : Nat) (f : MagPort → MagPort) (d : Dev) : (setMag p f d).recEnter = d.recEnter := rfl
@[simp] theorem setMag_recLeave (p : Nat) (f : MagPort → MagPort) (d : Dev) : (setMag p f d).recLeave = d.recLeave := rfl
@[simp] theorem setMag_recQ (p : Nat) (f : MagPort → MagPort) (d : Dev) : (setMag p f d).recQ = d.recQ := rfl
@[simp] theorem setMag_twm (p : Nat) (f : MagPort → MagPort) (d : Dev) : (setMag p f d).twm = d.twm := rfl
@[simp] theorem setMag_answer (p : Nat) (f : MagPort → MagPort) (d : Dev) : (setMag p f d).answer = d.answer := rfl
@[simp] theorem setMag_sources (p : Nat) (f : MagPort → MagPort) (d : Dev) : (setMag p f d).sources = d.sources := rfl
@[simp] theorem setMag_posts (p : Nat) (f : MagPort → MagPort) (d : Dev) : (setMag p f d).posts = d.posts := rfl
@[simp] theorem setMag_free (p : Nat) (f : MagPort → MagPort) (d : Dev) : (setMag p f d).free = d.free := rfl
@[simp] theorem setMag_time (p : Nat) (f : MagPort → MagPort) (d : Dev) : (setMag p f d).time = d.time := rfl
@[simp] theorem setMag_units (p : Nat) (f : MagPort → MagPort) (d : Dev) : (setMag p f d).units = d.units := rfl
@[simp] theorem setMag_forced (p : Nat) (f : MagPort → MagPort) (d : Dev) : (setMag p f d).forced = d.forced := rfl
@[simp] theorem setMag_trans (p : Nat) (f : MagPort → MagPort) (d : Dev) : (setMag p f d).trans = d.trans := rfl
@[simp] theorem setMag_ends (p : Nat) (f : MagPort → MagPort) (d : Dev) : (setMag p f d).ends = d.ends := rfl
@[simp] theorem setMag_recEnds (p : Nat) (f : MagPort → MagPort) (d : Dev) : (setMag p f d).recEnds = d.recEnds := rfl
@[simp] theorem setMag_out (p : Nat) (f : MagPort → MagPort) (d : Dev) : (setMag p f d).out = d.out := rfl
@[simp] theorem setMag_flash (p : Nat) (f : MagPort → MagPort) (d : Dev) : (setMag p f d).flash = d.flash := rfl
@[simp] theorem setMag_fuses (p : Nat) (f : MagPort → MagPort) (d : Dev) : (setMag p f d).fuses = d.fuses := rfl
@[simp] theorem setMag_boot (p : Nat) (f : MagPort → MagPort) (d : Dev) : (setMag p f d).boot = d.boot := rfl
@[simp] theorem setMag_rcq (p : Nat) (f : MagPort → MagPort) (d : Dev) : (setMag p f d).rcq = d.rcq := rfl
@[simp] theorem setMag_take (p : Nat) (f : MagPort → MagPort) (d : Dev) : (setMag p f d).take = d.take := rfl
@[simp] theorem setMag_ep (p : Nat) (f : MagPort → MagPort) (d : Dev) : (setMag p f d).ep = d.ep := rfl
@[simp] theorem setMag_srv (p : Nat) (f : MagPort → MagPort) (d : Dev) : (setMag p f d).srv = d.srv := rfl
@[simp] theorem setMag_sen (p : Nat) (f : MagPort → MagPort) (d : Dev) : (setMag p f d).sen = d.sen := rfl
@[simp] theorem setMag_itk (p : Nat) (f : MagPort → MagPort) (d : Dev) : (setMag p f d).itk = d.itk := rfl
@[simp] theorem setMag_tpg (p : Nat) (f : MagPort → MagPort) (d : Dev) : (setMag p f d).tpg = d.tpg := rfl
@[simp] theorem setMag_tw (p : Nat) (f : MagPort → MagPort) (d : Dev) : (setMag p f d).tw = d.tw := rfl
@[simp] theorem setMag_therm (p : Nat) (f : MagPort → MagPort) (d : Dev) : (setMag p f d).therm = d.therm := rfl
@[simp] theorem setMag_holdup (p : Nat) (f : MagPort → MagPort) (d : Dev) : (setMag p f d).holdup = d.holdup := rfl
@[simp] theorem setMag_pwr (p : Nat) (f : MagPort → MagPort) (d : Dev) : (setMag p f d).pwr = d.pwr := rfl
@[simp] theorem setMag_net (p : Nat) (f : MagPort → MagPort) (d : Dev) : (setMag p f d).net = d.net := rfl
@[simp] theorem setMag_dram (p : Nat) (f : MagPort → MagPort) (d : Dev) : (setMag p f d).dram = d.dram := rfl
@[simp] theorem setMag_brg (p : Nat) (f : MagPort → MagPort) (d : Dev) : (setMag p f d).brg = d.brg := rfl
@[simp] theorem setMag_val (p : Nat) (f : MagPort → MagPort) (d : Dev) (j : Nat) : (setMag p f d).val j = d.val j := rfl
@[simp] theorem setMag_get (p : Nat) (f : MagPort → MagPort) (d : Dev) (j : Nat) : (setMag p f d).get j = d.get j := rfl

@[simp] theorem setRcq_regs (f : Recorder → Recorder) (d : Dev) : (setRcq f d).regs = d.regs := rfl
@[simp] theorem setRcq_changes (f : Recorder → Recorder) (d : Dev) : (setRcq f d).changes = d.changes := rfl
@[simp] theorem setRcq_calibDirty (f : Recorder → Recorder) (d : Dev) : (setRcq f d).calibDirty = d.calibDirty := rfl
@[simp] theorem setRcq_workLo (f : Recorder → Recorder) (d : Dev) : (setRcq f d).workLo = d.workLo := rfl
@[simp] theorem setRcq_workHi (f : Recorder → Recorder) (d : Dev) : (setRcq f d).workHi = d.workHi := rfl
@[simp] theorem setRcq_offRead (f : Recorder → Recorder) (d : Dev) : (setRcq f d).offRead = d.offRead := rfl
@[simp] theorem setRcq_seqr (f : Recorder → Recorder) (d : Dev) : (setRcq f d).seqr = d.seqr := rfl
@[simp] theorem setRcq_enc (f : Recorder → Recorder) (d : Dev) : (setRcq f d).enc = d.enc := rfl
@[simp] theorem setRcq_scan (f : Recorder → Recorder) (d : Dev) : (setRcq f d).scan = d.scan := rfl
@[simp] theorem setRcq_fab (f : Recorder → Recorder) (d : Dev) : (setRcq f d).fab = d.fab := rfl
@[simp] theorem setRcq_chArb (f : Recorder → Recorder) (d : Dev) : (setRcq f d).chArb = d.chArb := rfl
@[simp] theorem setRcq_fb (f : Recorder → Recorder) (d : Dev) : (setRcq f d).fb = d.fb := rfl
@[simp] theorem setRcq_views (f : Recorder → Recorder) (d : Dev) : (setRcq f d).views = d.views := rfl
@[simp] theorem setRcq_amt (f : Recorder → Recorder) (d : Dev) : (setRcq f d).amt = d.amt := rfl
@[simp] theorem setRcq_pools (f : Recorder → Recorder) (d : Dev) : (setRcq f d).pools = d.pools := rfl
@[simp] theorem setRcq_hevc (f : Recorder → Recorder) (d : Dev) : (setRcq f d).hevc = d.hevc := rfl
@[simp] theorem setRcq_hevcQ (f : Recorder → Recorder) (d : Dev) : (setRcq f d).hevcQ = d.hevcQ := rfl
@[simp] theorem setRcq_engine (f : Recorder → Recorder) (d : Dev) : (setRcq f d).engine = d.engine := rfl
@[simp] theorem setRcq_outs (f : Recorder → Recorder) (d : Dev) : (setRcq f d).outs = d.outs := rfl
@[simp] theorem setRcq_align (f : Recorder → Recorder) (d : Dev) : (setRcq f d).align = d.align := rfl
@[simp] theorem setRcq_ended (f : Recorder → Recorder) (d : Dev) : (setRcq f d).ended = d.ended := rfl
@[simp] theorem setRcq_recEnter (f : Recorder → Recorder) (d : Dev) : (setRcq f d).recEnter = d.recEnter := rfl
@[simp] theorem setRcq_recLeave (f : Recorder → Recorder) (d : Dev) : (setRcq f d).recLeave = d.recLeave := rfl
@[simp] theorem setRcq_recQ (f : Recorder → Recorder) (d : Dev) : (setRcq f d).recQ = d.recQ := rfl
@[simp] theorem setRcq_twm (f : Recorder → Recorder) (d : Dev) : (setRcq f d).twm = d.twm := rfl
@[simp] theorem setRcq_answer (f : Recorder → Recorder) (d : Dev) : (setRcq f d).answer = d.answer := rfl
@[simp] theorem setRcq_sources (f : Recorder → Recorder) (d : Dev) : (setRcq f d).sources = d.sources := rfl
@[simp] theorem setRcq_posts (f : Recorder → Recorder) (d : Dev) : (setRcq f d).posts = d.posts := rfl
@[simp] theorem setRcq_free (f : Recorder → Recorder) (d : Dev) : (setRcq f d).free = d.free := rfl
@[simp] theorem setRcq_time (f : Recorder → Recorder) (d : Dev) : (setRcq f d).time = d.time := rfl
@[simp] theorem setRcq_units (f : Recorder → Recorder) (d : Dev) : (setRcq f d).units = d.units := rfl
@[simp] theorem setRcq_forced (f : Recorder → Recorder) (d : Dev) : (setRcq f d).forced = d.forced := rfl
@[simp] theorem setRcq_trans (f : Recorder → Recorder) (d : Dev) : (setRcq f d).trans = d.trans := rfl
@[simp] theorem setRcq_ends (f : Recorder → Recorder) (d : Dev) : (setRcq f d).ends = d.ends := rfl
@[simp] theorem setRcq_recEnds (f : Recorder → Recorder) (d : Dev) : (setRcq f d).recEnds = d.recEnds := rfl
@[simp] theorem setRcq_out (f : Recorder → Recorder) (d : Dev) : (setRcq f d).out = d.out := rfl
@[simp] theorem setRcq_flash (f : Recorder → Recorder) (d : Dev) : (setRcq f d).flash = d.flash := rfl
@[simp] theorem setRcq_fuses (f : Recorder → Recorder) (d : Dev) : (setRcq f d).fuses = d.fuses := rfl
@[simp] theorem setRcq_boot (f : Recorder → Recorder) (d : Dev) : (setRcq f d).boot = d.boot := rfl
@[simp] theorem setRcq_mags (f : Recorder → Recorder) (d : Dev) : (setRcq f d).mags = d.mags := rfl
@[simp] theorem setRcq_take (f : Recorder → Recorder) (d : Dev) : (setRcq f d).take = d.take := rfl
@[simp] theorem setRcq_ep (f : Recorder → Recorder) (d : Dev) : (setRcq f d).ep = d.ep := rfl
@[simp] theorem setRcq_srv (f : Recorder → Recorder) (d : Dev) : (setRcq f d).srv = d.srv := rfl
@[simp] theorem setRcq_sen (f : Recorder → Recorder) (d : Dev) : (setRcq f d).sen = d.sen := rfl
@[simp] theorem setRcq_itk (f : Recorder → Recorder) (d : Dev) : (setRcq f d).itk = d.itk := rfl
@[simp] theorem setRcq_tpg (f : Recorder → Recorder) (d : Dev) : (setRcq f d).tpg = d.tpg := rfl
@[simp] theorem setRcq_tw (f : Recorder → Recorder) (d : Dev) : (setRcq f d).tw = d.tw := rfl
@[simp] theorem setRcq_therm (f : Recorder → Recorder) (d : Dev) : (setRcq f d).therm = d.therm := rfl
@[simp] theorem setRcq_holdup (f : Recorder → Recorder) (d : Dev) : (setRcq f d).holdup = d.holdup := rfl
@[simp] theorem setRcq_pwr (f : Recorder → Recorder) (d : Dev) : (setRcq f d).pwr = d.pwr := rfl
@[simp] theorem setRcq_net (f : Recorder → Recorder) (d : Dev) : (setRcq f d).net = d.net := rfl
@[simp] theorem setRcq_dram (f : Recorder → Recorder) (d : Dev) : (setRcq f d).dram = d.dram := rfl
@[simp] theorem setRcq_brg (f : Recorder → Recorder) (d : Dev) : (setRcq f d).brg = d.brg := rfl
@[simp] theorem setRcq_val (f : Recorder → Recorder) (d : Dev) (j : Nat) : (setRcq f d).val j = d.val j := rfl
@[simp] theorem setRcq_get (f : Recorder → Recorder) (d : Dev) (j : Nat) : (setRcq f d).get j = d.get j := rfl

@[simp] theorem setTherm_regs (f : Thermal → Thermal) (d : Dev) : (setTherm f d).regs = d.regs := rfl
@[simp] theorem setTherm_changes (f : Thermal → Thermal) (d : Dev) : (setTherm f d).changes = d.changes := rfl
@[simp] theorem setTherm_calibDirty (f : Thermal → Thermal) (d : Dev) : (setTherm f d).calibDirty = d.calibDirty := rfl
@[simp] theorem setTherm_workLo (f : Thermal → Thermal) (d : Dev) : (setTherm f d).workLo = d.workLo := rfl
@[simp] theorem setTherm_workHi (f : Thermal → Thermal) (d : Dev) : (setTherm f d).workHi = d.workHi := rfl
@[simp] theorem setTherm_offRead (f : Thermal → Thermal) (d : Dev) : (setTherm f d).offRead = d.offRead := rfl
@[simp] theorem setTherm_seqr (f : Thermal → Thermal) (d : Dev) : (setTherm f d).seqr = d.seqr := rfl
@[simp] theorem setTherm_enc (f : Thermal → Thermal) (d : Dev) : (setTherm f d).enc = d.enc := rfl
@[simp] theorem setTherm_scan (f : Thermal → Thermal) (d : Dev) : (setTherm f d).scan = d.scan := rfl
@[simp] theorem setTherm_fab (f : Thermal → Thermal) (d : Dev) : (setTherm f d).fab = d.fab := rfl
@[simp] theorem setTherm_chArb (f : Thermal → Thermal) (d : Dev) : (setTherm f d).chArb = d.chArb := rfl
@[simp] theorem setTherm_fb (f : Thermal → Thermal) (d : Dev) : (setTherm f d).fb = d.fb := rfl
@[simp] theorem setTherm_views (f : Thermal → Thermal) (d : Dev) : (setTherm f d).views = d.views := rfl
@[simp] theorem setTherm_amt (f : Thermal → Thermal) (d : Dev) : (setTherm f d).amt = d.amt := rfl
@[simp] theorem setTherm_pools (f : Thermal → Thermal) (d : Dev) : (setTherm f d).pools = d.pools := rfl
@[simp] theorem setTherm_hevc (f : Thermal → Thermal) (d : Dev) : (setTherm f d).hevc = d.hevc := rfl
@[simp] theorem setTherm_hevcQ (f : Thermal → Thermal) (d : Dev) : (setTherm f d).hevcQ = d.hevcQ := rfl
@[simp] theorem setTherm_engine (f : Thermal → Thermal) (d : Dev) : (setTherm f d).engine = d.engine := rfl
@[simp] theorem setTherm_outs (f : Thermal → Thermal) (d : Dev) : (setTherm f d).outs = d.outs := rfl
@[simp] theorem setTherm_align (f : Thermal → Thermal) (d : Dev) : (setTherm f d).align = d.align := rfl
@[simp] theorem setTherm_ended (f : Thermal → Thermal) (d : Dev) : (setTherm f d).ended = d.ended := rfl
@[simp] theorem setTherm_recEnter (f : Thermal → Thermal) (d : Dev) : (setTherm f d).recEnter = d.recEnter := rfl
@[simp] theorem setTherm_recLeave (f : Thermal → Thermal) (d : Dev) : (setTherm f d).recLeave = d.recLeave := rfl
@[simp] theorem setTherm_recQ (f : Thermal → Thermal) (d : Dev) : (setTherm f d).recQ = d.recQ := rfl
@[simp] theorem setTherm_twm (f : Thermal → Thermal) (d : Dev) : (setTherm f d).twm = d.twm := rfl
@[simp] theorem setTherm_answer (f : Thermal → Thermal) (d : Dev) : (setTherm f d).answer = d.answer := rfl
@[simp] theorem setTherm_sources (f : Thermal → Thermal) (d : Dev) : (setTherm f d).sources = d.sources := rfl
@[simp] theorem setTherm_posts (f : Thermal → Thermal) (d : Dev) : (setTherm f d).posts = d.posts := rfl
@[simp] theorem setTherm_free (f : Thermal → Thermal) (d : Dev) : (setTherm f d).free = d.free := rfl
@[simp] theorem setTherm_time (f : Thermal → Thermal) (d : Dev) : (setTherm f d).time = d.time := rfl
@[simp] theorem setTherm_units (f : Thermal → Thermal) (d : Dev) : (setTherm f d).units = d.units := rfl
@[simp] theorem setTherm_forced (f : Thermal → Thermal) (d : Dev) : (setTherm f d).forced = d.forced := rfl
@[simp] theorem setTherm_trans (f : Thermal → Thermal) (d : Dev) : (setTherm f d).trans = d.trans := rfl
@[simp] theorem setTherm_ends (f : Thermal → Thermal) (d : Dev) : (setTherm f d).ends = d.ends := rfl
@[simp] theorem setTherm_recEnds (f : Thermal → Thermal) (d : Dev) : (setTherm f d).recEnds = d.recEnds := rfl
@[simp] theorem setTherm_out (f : Thermal → Thermal) (d : Dev) : (setTherm f d).out = d.out := rfl
@[simp] theorem setTherm_flash (f : Thermal → Thermal) (d : Dev) : (setTherm f d).flash = d.flash := rfl
@[simp] theorem setTherm_fuses (f : Thermal → Thermal) (d : Dev) : (setTherm f d).fuses = d.fuses := rfl
@[simp] theorem setTherm_boot (f : Thermal → Thermal) (d : Dev) : (setTherm f d).boot = d.boot := rfl
@[simp] theorem setTherm_mags (f : Thermal → Thermal) (d : Dev) : (setTherm f d).mags = d.mags := rfl
@[simp] theorem setTherm_rcq (f : Thermal → Thermal) (d : Dev) : (setTherm f d).rcq = d.rcq := rfl
@[simp] theorem setTherm_take (f : Thermal → Thermal) (d : Dev) : (setTherm f d).take = d.take := rfl
@[simp] theorem setTherm_ep (f : Thermal → Thermal) (d : Dev) : (setTherm f d).ep = d.ep := rfl
@[simp] theorem setTherm_srv (f : Thermal → Thermal) (d : Dev) : (setTherm f d).srv = d.srv := rfl
@[simp] theorem setTherm_sen (f : Thermal → Thermal) (d : Dev) : (setTherm f d).sen = d.sen := rfl
@[simp] theorem setTherm_itk (f : Thermal → Thermal) (d : Dev) : (setTherm f d).itk = d.itk := rfl
@[simp] theorem setTherm_tpg (f : Thermal → Thermal) (d : Dev) : (setTherm f d).tpg = d.tpg := rfl
@[simp] theorem setTherm_tw (f : Thermal → Thermal) (d : Dev) : (setTherm f d).tw = d.tw := rfl
@[simp] theorem setTherm_holdup (f : Thermal → Thermal) (d : Dev) : (setTherm f d).holdup = d.holdup := rfl
@[simp] theorem setTherm_pwr (f : Thermal → Thermal) (d : Dev) : (setTherm f d).pwr = d.pwr := rfl
@[simp] theorem setTherm_net (f : Thermal → Thermal) (d : Dev) : (setTherm f d).net = d.net := rfl
@[simp] theorem setTherm_dram (f : Thermal → Thermal) (d : Dev) : (setTherm f d).dram = d.dram := rfl
@[simp] theorem setTherm_brg (f : Thermal → Thermal) (d : Dev) : (setTherm f d).brg = d.brg := rfl
@[simp] theorem setTherm_val (f : Thermal → Thermal) (d : Dev) (j : Nat) : (setTherm f d).val j = d.val j := rfl
@[simp] theorem setTherm_get (f : Thermal → Thermal) (d : Dev) (j : Nat) : (setTherm f d).get j = d.get j := rfl

@[simp] theorem setBus_regs (p : Nat) (f : TwBus → TwBus) (d : Dev) : (setBus p f d).regs = d.regs := rfl
@[simp] theorem setBus_changes (p : Nat) (f : TwBus → TwBus) (d : Dev) : (setBus p f d).changes = d.changes := rfl
@[simp] theorem setBus_calibDirty (p : Nat) (f : TwBus → TwBus) (d : Dev) : (setBus p f d).calibDirty = d.calibDirty := rfl
@[simp] theorem setBus_workLo (p : Nat) (f : TwBus → TwBus) (d : Dev) : (setBus p f d).workLo = d.workLo := rfl
@[simp] theorem setBus_workHi (p : Nat) (f : TwBus → TwBus) (d : Dev) : (setBus p f d).workHi = d.workHi := rfl
@[simp] theorem setBus_offRead (p : Nat) (f : TwBus → TwBus) (d : Dev) : (setBus p f d).offRead = d.offRead := rfl
@[simp] theorem setBus_seqr (p : Nat) (f : TwBus → TwBus) (d : Dev) : (setBus p f d).seqr = d.seqr := rfl
@[simp] theorem setBus_enc (p : Nat) (f : TwBus → TwBus) (d : Dev) : (setBus p f d).enc = d.enc := rfl
@[simp] theorem setBus_scan (p : Nat) (f : TwBus → TwBus) (d : Dev) : (setBus p f d).scan = d.scan := rfl
@[simp] theorem setBus_fab (p : Nat) (f : TwBus → TwBus) (d : Dev) : (setBus p f d).fab = d.fab := rfl
@[simp] theorem setBus_chArb (p : Nat) (f : TwBus → TwBus) (d : Dev) : (setBus p f d).chArb = d.chArb := rfl
@[simp] theorem setBus_fb (p : Nat) (f : TwBus → TwBus) (d : Dev) : (setBus p f d).fb = d.fb := rfl
@[simp] theorem setBus_views (p : Nat) (f : TwBus → TwBus) (d : Dev) : (setBus p f d).views = d.views := rfl
@[simp] theorem setBus_amt (p : Nat) (f : TwBus → TwBus) (d : Dev) : (setBus p f d).amt = d.amt := rfl
@[simp] theorem setBus_pools (p : Nat) (f : TwBus → TwBus) (d : Dev) : (setBus p f d).pools = d.pools := rfl
@[simp] theorem setBus_hevc (p : Nat) (f : TwBus → TwBus) (d : Dev) : (setBus p f d).hevc = d.hevc := rfl
@[simp] theorem setBus_hevcQ (p : Nat) (f : TwBus → TwBus) (d : Dev) : (setBus p f d).hevcQ = d.hevcQ := rfl
@[simp] theorem setBus_engine (p : Nat) (f : TwBus → TwBus) (d : Dev) : (setBus p f d).engine = d.engine := rfl
@[simp] theorem setBus_outs (p : Nat) (f : TwBus → TwBus) (d : Dev) : (setBus p f d).outs = d.outs := rfl
@[simp] theorem setBus_align (p : Nat) (f : TwBus → TwBus) (d : Dev) : (setBus p f d).align = d.align := rfl
@[simp] theorem setBus_ended (p : Nat) (f : TwBus → TwBus) (d : Dev) : (setBus p f d).ended = d.ended := rfl
@[simp] theorem setBus_recEnter (p : Nat) (f : TwBus → TwBus) (d : Dev) : (setBus p f d).recEnter = d.recEnter := rfl
@[simp] theorem setBus_recLeave (p : Nat) (f : TwBus → TwBus) (d : Dev) : (setBus p f d).recLeave = d.recLeave := rfl
@[simp] theorem setBus_recQ (p : Nat) (f : TwBus → TwBus) (d : Dev) : (setBus p f d).recQ = d.recQ := rfl
@[simp] theorem setBus_twm (p : Nat) (f : TwBus → TwBus) (d : Dev) : (setBus p f d).twm = d.twm := rfl
@[simp] theorem setBus_answer (p : Nat) (f : TwBus → TwBus) (d : Dev) : (setBus p f d).answer = d.answer := rfl
@[simp] theorem setBus_sources (p : Nat) (f : TwBus → TwBus) (d : Dev) : (setBus p f d).sources = d.sources := rfl
@[simp] theorem setBus_posts (p : Nat) (f : TwBus → TwBus) (d : Dev) : (setBus p f d).posts = d.posts := rfl
@[simp] theorem setBus_free (p : Nat) (f : TwBus → TwBus) (d : Dev) : (setBus p f d).free = d.free := rfl
@[simp] theorem setBus_time (p : Nat) (f : TwBus → TwBus) (d : Dev) : (setBus p f d).time = d.time := rfl
@[simp] theorem setBus_units (p : Nat) (f : TwBus → TwBus) (d : Dev) : (setBus p f d).units = d.units := rfl
@[simp] theorem setBus_forced (p : Nat) (f : TwBus → TwBus) (d : Dev) : (setBus p f d).forced = d.forced := rfl
@[simp] theorem setBus_trans (p : Nat) (f : TwBus → TwBus) (d : Dev) : (setBus p f d).trans = d.trans := rfl
@[simp] theorem setBus_ends (p : Nat) (f : TwBus → TwBus) (d : Dev) : (setBus p f d).ends = d.ends := rfl
@[simp] theorem setBus_recEnds (p : Nat) (f : TwBus → TwBus) (d : Dev) : (setBus p f d).recEnds = d.recEnds := rfl
@[simp] theorem setBus_out (p : Nat) (f : TwBus → TwBus) (d : Dev) : (setBus p f d).out = d.out := rfl
@[simp] theorem setBus_flash (p : Nat) (f : TwBus → TwBus) (d : Dev) : (setBus p f d).flash = d.flash := rfl
@[simp] theorem setBus_fuses (p : Nat) (f : TwBus → TwBus) (d : Dev) : (setBus p f d).fuses = d.fuses := rfl
@[simp] theorem setBus_boot (p : Nat) (f : TwBus → TwBus) (d : Dev) : (setBus p f d).boot = d.boot := rfl
@[simp] theorem setBus_mags (p : Nat) (f : TwBus → TwBus) (d : Dev) : (setBus p f d).mags = d.mags := rfl
@[simp] theorem setBus_rcq (p : Nat) (f : TwBus → TwBus) (d : Dev) : (setBus p f d).rcq = d.rcq := rfl
@[simp] theorem setBus_take (p : Nat) (f : TwBus → TwBus) (d : Dev) : (setBus p f d).take = d.take := rfl
@[simp] theorem setBus_ep (p : Nat) (f : TwBus → TwBus) (d : Dev) : (setBus p f d).ep = d.ep := rfl
@[simp] theorem setBus_srv (p : Nat) (f : TwBus → TwBus) (d : Dev) : (setBus p f d).srv = d.srv := rfl
@[simp] theorem setBus_sen (p : Nat) (f : TwBus → TwBus) (d : Dev) : (setBus p f d).sen = d.sen := rfl
@[simp] theorem setBus_itk (p : Nat) (f : TwBus → TwBus) (d : Dev) : (setBus p f d).itk = d.itk := rfl
@[simp] theorem setBus_tpg (p : Nat) (f : TwBus → TwBus) (d : Dev) : (setBus p f d).tpg = d.tpg := rfl
@[simp] theorem setBus_therm (p : Nat) (f : TwBus → TwBus) (d : Dev) : (setBus p f d).therm = d.therm := rfl
@[simp] theorem setBus_holdup (p : Nat) (f : TwBus → TwBus) (d : Dev) : (setBus p f d).holdup = d.holdup := rfl
@[simp] theorem setBus_pwr (p : Nat) (f : TwBus → TwBus) (d : Dev) : (setBus p f d).pwr = d.pwr := rfl
@[simp] theorem setBus_net (p : Nat) (f : TwBus → TwBus) (d : Dev) : (setBus p f d).net = d.net := rfl
@[simp] theorem setBus_dram (p : Nat) (f : TwBus → TwBus) (d : Dev) : (setBus p f d).dram = d.dram := rfl
@[simp] theorem setBus_brg (p : Nat) (f : TwBus → TwBus) (d : Dev) : (setBus p f d).brg = d.brg := rfl
@[simp] theorem setBus_val (p : Nat) (f : TwBus → TwBus) (d : Dev) (j : Nat) : (setBus p f d).val j = d.val j := rfl
@[simp] theorem setBus_get (p : Nat) (f : TwBus → TwBus) (d : Dev) (j : Nat) : (setBus p f d).get j = d.get j := rfl

@[simp] theorem setTwm_regs (f : TwmTarget → TwmTarget) (d : Dev) : (setTwm f d).regs = d.regs := rfl
@[simp] theorem setTwm_changes (f : TwmTarget → TwmTarget) (d : Dev) : (setTwm f d).changes = d.changes := rfl
@[simp] theorem setTwm_calibDirty (f : TwmTarget → TwmTarget) (d : Dev) : (setTwm f d).calibDirty = d.calibDirty := rfl
@[simp] theorem setTwm_workLo (f : TwmTarget → TwmTarget) (d : Dev) : (setTwm f d).workLo = d.workLo := rfl
@[simp] theorem setTwm_workHi (f : TwmTarget → TwmTarget) (d : Dev) : (setTwm f d).workHi = d.workHi := rfl
@[simp] theorem setTwm_offRead (f : TwmTarget → TwmTarget) (d : Dev) : (setTwm f d).offRead = d.offRead := rfl
@[simp] theorem setTwm_seqr (f : TwmTarget → TwmTarget) (d : Dev) : (setTwm f d).seqr = d.seqr := rfl
@[simp] theorem setTwm_enc (f : TwmTarget → TwmTarget) (d : Dev) : (setTwm f d).enc = d.enc := rfl
@[simp] theorem setTwm_scan (f : TwmTarget → TwmTarget) (d : Dev) : (setTwm f d).scan = d.scan := rfl
@[simp] theorem setTwm_fab (f : TwmTarget → TwmTarget) (d : Dev) : (setTwm f d).fab = d.fab := rfl
@[simp] theorem setTwm_chArb (f : TwmTarget → TwmTarget) (d : Dev) : (setTwm f d).chArb = d.chArb := rfl
@[simp] theorem setTwm_fb (f : TwmTarget → TwmTarget) (d : Dev) : (setTwm f d).fb = d.fb := rfl
@[simp] theorem setTwm_views (f : TwmTarget → TwmTarget) (d : Dev) : (setTwm f d).views = d.views := rfl
@[simp] theorem setTwm_amt (f : TwmTarget → TwmTarget) (d : Dev) : (setTwm f d).amt = d.amt := rfl
@[simp] theorem setTwm_pools (f : TwmTarget → TwmTarget) (d : Dev) : (setTwm f d).pools = d.pools := rfl
@[simp] theorem setTwm_hevc (f : TwmTarget → TwmTarget) (d : Dev) : (setTwm f d).hevc = d.hevc := rfl
@[simp] theorem setTwm_hevcQ (f : TwmTarget → TwmTarget) (d : Dev) : (setTwm f d).hevcQ = d.hevcQ := rfl
@[simp] theorem setTwm_engine (f : TwmTarget → TwmTarget) (d : Dev) : (setTwm f d).engine = d.engine := rfl
@[simp] theorem setTwm_outs (f : TwmTarget → TwmTarget) (d : Dev) : (setTwm f d).outs = d.outs := rfl
@[simp] theorem setTwm_align (f : TwmTarget → TwmTarget) (d : Dev) : (setTwm f d).align = d.align := rfl
@[simp] theorem setTwm_ended (f : TwmTarget → TwmTarget) (d : Dev) : (setTwm f d).ended = d.ended := rfl
@[simp] theorem setTwm_recEnter (f : TwmTarget → TwmTarget) (d : Dev) : (setTwm f d).recEnter = d.recEnter := rfl
@[simp] theorem setTwm_recLeave (f : TwmTarget → TwmTarget) (d : Dev) : (setTwm f d).recLeave = d.recLeave := rfl
@[simp] theorem setTwm_recQ (f : TwmTarget → TwmTarget) (d : Dev) : (setTwm f d).recQ = d.recQ := rfl
@[simp] theorem setTwm_answer (f : TwmTarget → TwmTarget) (d : Dev) : (setTwm f d).answer = d.answer := rfl
@[simp] theorem setTwm_sources (f : TwmTarget → TwmTarget) (d : Dev) : (setTwm f d).sources = d.sources := rfl
@[simp] theorem setTwm_posts (f : TwmTarget → TwmTarget) (d : Dev) : (setTwm f d).posts = d.posts := rfl
@[simp] theorem setTwm_free (f : TwmTarget → TwmTarget) (d : Dev) : (setTwm f d).free = d.free := rfl
@[simp] theorem setTwm_time (f : TwmTarget → TwmTarget) (d : Dev) : (setTwm f d).time = d.time := rfl
@[simp] theorem setTwm_units (f : TwmTarget → TwmTarget) (d : Dev) : (setTwm f d).units = d.units := rfl
@[simp] theorem setTwm_forced (f : TwmTarget → TwmTarget) (d : Dev) : (setTwm f d).forced = d.forced := rfl
@[simp] theorem setTwm_trans (f : TwmTarget → TwmTarget) (d : Dev) : (setTwm f d).trans = d.trans := rfl
@[simp] theorem setTwm_ends (f : TwmTarget → TwmTarget) (d : Dev) : (setTwm f d).ends = d.ends := rfl
@[simp] theorem setTwm_recEnds (f : TwmTarget → TwmTarget) (d : Dev) : (setTwm f d).recEnds = d.recEnds := rfl
@[simp] theorem setTwm_out (f : TwmTarget → TwmTarget) (d : Dev) : (setTwm f d).out = d.out := rfl
@[simp] theorem setTwm_flash (f : TwmTarget → TwmTarget) (d : Dev) : (setTwm f d).flash = d.flash := rfl
@[simp] theorem setTwm_fuses (f : TwmTarget → TwmTarget) (d : Dev) : (setTwm f d).fuses = d.fuses := rfl
@[simp] theorem setTwm_boot (f : TwmTarget → TwmTarget) (d : Dev) : (setTwm f d).boot = d.boot := rfl
@[simp] theorem setTwm_mags (f : TwmTarget → TwmTarget) (d : Dev) : (setTwm f d).mags = d.mags := rfl
@[simp] theorem setTwm_rcq (f : TwmTarget → TwmTarget) (d : Dev) : (setTwm f d).rcq = d.rcq := rfl
@[simp] theorem setTwm_take (f : TwmTarget → TwmTarget) (d : Dev) : (setTwm f d).take = d.take := rfl
@[simp] theorem setTwm_ep (f : TwmTarget → TwmTarget) (d : Dev) : (setTwm f d).ep = d.ep := rfl
@[simp] theorem setTwm_srv (f : TwmTarget → TwmTarget) (d : Dev) : (setTwm f d).srv = d.srv := rfl
@[simp] theorem setTwm_sen (f : TwmTarget → TwmTarget) (d : Dev) : (setTwm f d).sen = d.sen := rfl
@[simp] theorem setTwm_itk (f : TwmTarget → TwmTarget) (d : Dev) : (setTwm f d).itk = d.itk := rfl
@[simp] theorem setTwm_tpg (f : TwmTarget → TwmTarget) (d : Dev) : (setTwm f d).tpg = d.tpg := rfl
@[simp] theorem setTwm_tw (f : TwmTarget → TwmTarget) (d : Dev) : (setTwm f d).tw = d.tw := rfl
@[simp] theorem setTwm_therm (f : TwmTarget → TwmTarget) (d : Dev) : (setTwm f d).therm = d.therm := rfl
@[simp] theorem setTwm_holdup (f : TwmTarget → TwmTarget) (d : Dev) : (setTwm f d).holdup = d.holdup := rfl
@[simp] theorem setTwm_pwr (f : TwmTarget → TwmTarget) (d : Dev) : (setTwm f d).pwr = d.pwr := rfl
@[simp] theorem setTwm_net (f : TwmTarget → TwmTarget) (d : Dev) : (setTwm f d).net = d.net := rfl
@[simp] theorem setTwm_dram (f : TwmTarget → TwmTarget) (d : Dev) : (setTwm f d).dram = d.dram := rfl
@[simp] theorem setTwm_brg (f : TwmTarget → TwmTarget) (d : Dev) : (setTwm f d).brg = d.brg := rfl
@[simp] theorem setTwm_val (f : TwmTarget → TwmTarget) (d : Dev) (j : Nat) : (setTwm f d).val j = d.val j := rfl
@[simp] theorem setTwm_get (f : TwmTarget → TwmTarget) (d : Dev) (j : Nat) : (setTwm f d).get j = d.get j := rfl

@[simp] theorem setTpg_regs (p : Nat) (f : Tpg → Tpg) (d : Dev) : (setTpg p f d).regs = d.regs := rfl
@[simp] theorem setTpg_changes (p : Nat) (f : Tpg → Tpg) (d : Dev) : (setTpg p f d).changes = d.changes := rfl
@[simp] theorem setTpg_calibDirty (p : Nat) (f : Tpg → Tpg) (d : Dev) : (setTpg p f d).calibDirty = d.calibDirty := rfl
@[simp] theorem setTpg_workLo (p : Nat) (f : Tpg → Tpg) (d : Dev) : (setTpg p f d).workLo = d.workLo := rfl
@[simp] theorem setTpg_workHi (p : Nat) (f : Tpg → Tpg) (d : Dev) : (setTpg p f d).workHi = d.workHi := rfl
@[simp] theorem setTpg_offRead (p : Nat) (f : Tpg → Tpg) (d : Dev) : (setTpg p f d).offRead = d.offRead := rfl
@[simp] theorem setTpg_seqr (p : Nat) (f : Tpg → Tpg) (d : Dev) : (setTpg p f d).seqr = d.seqr := rfl
@[simp] theorem setTpg_enc (p : Nat) (f : Tpg → Tpg) (d : Dev) : (setTpg p f d).enc = d.enc := rfl
@[simp] theorem setTpg_scan (p : Nat) (f : Tpg → Tpg) (d : Dev) : (setTpg p f d).scan = d.scan := rfl
@[simp] theorem setTpg_fab (p : Nat) (f : Tpg → Tpg) (d : Dev) : (setTpg p f d).fab = d.fab := rfl
@[simp] theorem setTpg_chArb (p : Nat) (f : Tpg → Tpg) (d : Dev) : (setTpg p f d).chArb = d.chArb := rfl
@[simp] theorem setTpg_fb (p : Nat) (f : Tpg → Tpg) (d : Dev) : (setTpg p f d).fb = d.fb := rfl
@[simp] theorem setTpg_views (p : Nat) (f : Tpg → Tpg) (d : Dev) : (setTpg p f d).views = d.views := rfl
@[simp] theorem setTpg_amt (p : Nat) (f : Tpg → Tpg) (d : Dev) : (setTpg p f d).amt = d.amt := rfl
@[simp] theorem setTpg_pools (p : Nat) (f : Tpg → Tpg) (d : Dev) : (setTpg p f d).pools = d.pools := rfl
@[simp] theorem setTpg_hevc (p : Nat) (f : Tpg → Tpg) (d : Dev) : (setTpg p f d).hevc = d.hevc := rfl
@[simp] theorem setTpg_hevcQ (p : Nat) (f : Tpg → Tpg) (d : Dev) : (setTpg p f d).hevcQ = d.hevcQ := rfl
@[simp] theorem setTpg_engine (p : Nat) (f : Tpg → Tpg) (d : Dev) : (setTpg p f d).engine = d.engine := rfl
@[simp] theorem setTpg_outs (p : Nat) (f : Tpg → Tpg) (d : Dev) : (setTpg p f d).outs = d.outs := rfl
@[simp] theorem setTpg_align (p : Nat) (f : Tpg → Tpg) (d : Dev) : (setTpg p f d).align = d.align := rfl
@[simp] theorem setTpg_ended (p : Nat) (f : Tpg → Tpg) (d : Dev) : (setTpg p f d).ended = d.ended := rfl
@[simp] theorem setTpg_recEnter (p : Nat) (f : Tpg → Tpg) (d : Dev) : (setTpg p f d).recEnter = d.recEnter := rfl
@[simp] theorem setTpg_recLeave (p : Nat) (f : Tpg → Tpg) (d : Dev) : (setTpg p f d).recLeave = d.recLeave := rfl
@[simp] theorem setTpg_recQ (p : Nat) (f : Tpg → Tpg) (d : Dev) : (setTpg p f d).recQ = d.recQ := rfl
@[simp] theorem setTpg_twm (p : Nat) (f : Tpg → Tpg) (d : Dev) : (setTpg p f d).twm = d.twm := rfl
@[simp] theorem setTpg_answer (p : Nat) (f : Tpg → Tpg) (d : Dev) : (setTpg p f d).answer = d.answer := rfl
@[simp] theorem setTpg_sources (p : Nat) (f : Tpg → Tpg) (d : Dev) : (setTpg p f d).sources = d.sources := rfl
@[simp] theorem setTpg_posts (p : Nat) (f : Tpg → Tpg) (d : Dev) : (setTpg p f d).posts = d.posts := rfl
@[simp] theorem setTpg_free (p : Nat) (f : Tpg → Tpg) (d : Dev) : (setTpg p f d).free = d.free := rfl
@[simp] theorem setTpg_time (p : Nat) (f : Tpg → Tpg) (d : Dev) : (setTpg p f d).time = d.time := rfl
@[simp] theorem setTpg_units (p : Nat) (f : Tpg → Tpg) (d : Dev) : (setTpg p f d).units = d.units := rfl
@[simp] theorem setTpg_forced (p : Nat) (f : Tpg → Tpg) (d : Dev) : (setTpg p f d).forced = d.forced := rfl
@[simp] theorem setTpg_trans (p : Nat) (f : Tpg → Tpg) (d : Dev) : (setTpg p f d).trans = d.trans := rfl
@[simp] theorem setTpg_ends (p : Nat) (f : Tpg → Tpg) (d : Dev) : (setTpg p f d).ends = d.ends := rfl
@[simp] theorem setTpg_recEnds (p : Nat) (f : Tpg → Tpg) (d : Dev) : (setTpg p f d).recEnds = d.recEnds := rfl
@[simp] theorem setTpg_out (p : Nat) (f : Tpg → Tpg) (d : Dev) : (setTpg p f d).out = d.out := rfl
@[simp] theorem setTpg_flash (p : Nat) (f : Tpg → Tpg) (d : Dev) : (setTpg p f d).flash = d.flash := rfl
@[simp] theorem setTpg_fuses (p : Nat) (f : Tpg → Tpg) (d : Dev) : (setTpg p f d).fuses = d.fuses := rfl
@[simp] theorem setTpg_boot (p : Nat) (f : Tpg → Tpg) (d : Dev) : (setTpg p f d).boot = d.boot := rfl
@[simp] theorem setTpg_mags (p : Nat) (f : Tpg → Tpg) (d : Dev) : (setTpg p f d).mags = d.mags := rfl
@[simp] theorem setTpg_rcq (p : Nat) (f : Tpg → Tpg) (d : Dev) : (setTpg p f d).rcq = d.rcq := rfl
@[simp] theorem setTpg_take (p : Nat) (f : Tpg → Tpg) (d : Dev) : (setTpg p f d).take = d.take := rfl
@[simp] theorem setTpg_ep (p : Nat) (f : Tpg → Tpg) (d : Dev) : (setTpg p f d).ep = d.ep := rfl
@[simp] theorem setTpg_srv (p : Nat) (f : Tpg → Tpg) (d : Dev) : (setTpg p f d).srv = d.srv := rfl
@[simp] theorem setTpg_sen (p : Nat) (f : Tpg → Tpg) (d : Dev) : (setTpg p f d).sen = d.sen := rfl
@[simp] theorem setTpg_itk (p : Nat) (f : Tpg → Tpg) (d : Dev) : (setTpg p f d).itk = d.itk := rfl
@[simp] theorem setTpg_tw (p : Nat) (f : Tpg → Tpg) (d : Dev) : (setTpg p f d).tw = d.tw := rfl
@[simp] theorem setTpg_therm (p : Nat) (f : Tpg → Tpg) (d : Dev) : (setTpg p f d).therm = d.therm := rfl
@[simp] theorem setTpg_holdup (p : Nat) (f : Tpg → Tpg) (d : Dev) : (setTpg p f d).holdup = d.holdup := rfl
@[simp] theorem setTpg_pwr (p : Nat) (f : Tpg → Tpg) (d : Dev) : (setTpg p f d).pwr = d.pwr := rfl
@[simp] theorem setTpg_net (p : Nat) (f : Tpg → Tpg) (d : Dev) : (setTpg p f d).net = d.net := rfl
@[simp] theorem setTpg_dram (p : Nat) (f : Tpg → Tpg) (d : Dev) : (setTpg p f d).dram = d.dram := rfl
@[simp] theorem setTpg_brg (p : Nat) (f : Tpg → Tpg) (d : Dev) : (setTpg p f d).brg = d.brg := rfl
@[simp] theorem setTpg_val (p : Nat) (f : Tpg → Tpg) (d : Dev) (j : Nat) : (setTpg p f d).val j = d.val j := rfl
@[simp] theorem setTpg_get (p : Nat) (f : Tpg → Tpg) (d : Dev) (j : Nat) : (setTpg p f d).get j = d.get j := rfl

@[simp] theorem setNet_regs (f : Network → Network) (d : Dev) : (setNet f d).regs = d.regs := rfl
@[simp] theorem setNet_changes (f : Network → Network) (d : Dev) : (setNet f d).changes = d.changes := rfl
@[simp] theorem setNet_calibDirty (f : Network → Network) (d : Dev) : (setNet f d).calibDirty = d.calibDirty := rfl
@[simp] theorem setNet_workLo (f : Network → Network) (d : Dev) : (setNet f d).workLo = d.workLo := rfl
@[simp] theorem setNet_workHi (f : Network → Network) (d : Dev) : (setNet f d).workHi = d.workHi := rfl
@[simp] theorem setNet_offRead (f : Network → Network) (d : Dev) : (setNet f d).offRead = d.offRead := rfl
@[simp] theorem setNet_seqr (f : Network → Network) (d : Dev) : (setNet f d).seqr = d.seqr := rfl
@[simp] theorem setNet_enc (f : Network → Network) (d : Dev) : (setNet f d).enc = d.enc := rfl
@[simp] theorem setNet_scan (f : Network → Network) (d : Dev) : (setNet f d).scan = d.scan := rfl
@[simp] theorem setNet_fab (f : Network → Network) (d : Dev) : (setNet f d).fab = d.fab := rfl
@[simp] theorem setNet_chArb (f : Network → Network) (d : Dev) : (setNet f d).chArb = d.chArb := rfl
@[simp] theorem setNet_fb (f : Network → Network) (d : Dev) : (setNet f d).fb = d.fb := rfl
@[simp] theorem setNet_views (f : Network → Network) (d : Dev) : (setNet f d).views = d.views := rfl
@[simp] theorem setNet_amt (f : Network → Network) (d : Dev) : (setNet f d).amt = d.amt := rfl
@[simp] theorem setNet_pools (f : Network → Network) (d : Dev) : (setNet f d).pools = d.pools := rfl
@[simp] theorem setNet_hevc (f : Network → Network) (d : Dev) : (setNet f d).hevc = d.hevc := rfl
@[simp] theorem setNet_hevcQ (f : Network → Network) (d : Dev) : (setNet f d).hevcQ = d.hevcQ := rfl
@[simp] theorem setNet_engine (f : Network → Network) (d : Dev) : (setNet f d).engine = d.engine := rfl
@[simp] theorem setNet_outs (f : Network → Network) (d : Dev) : (setNet f d).outs = d.outs := rfl
@[simp] theorem setNet_align (f : Network → Network) (d : Dev) : (setNet f d).align = d.align := rfl
@[simp] theorem setNet_ended (f : Network → Network) (d : Dev) : (setNet f d).ended = d.ended := rfl
@[simp] theorem setNet_recEnter (f : Network → Network) (d : Dev) : (setNet f d).recEnter = d.recEnter := rfl
@[simp] theorem setNet_recLeave (f : Network → Network) (d : Dev) : (setNet f d).recLeave = d.recLeave := rfl
@[simp] theorem setNet_recQ (f : Network → Network) (d : Dev) : (setNet f d).recQ = d.recQ := rfl
@[simp] theorem setNet_twm (f : Network → Network) (d : Dev) : (setNet f d).twm = d.twm := rfl
@[simp] theorem setNet_answer (f : Network → Network) (d : Dev) : (setNet f d).answer = d.answer := rfl
@[simp] theorem setNet_sources (f : Network → Network) (d : Dev) : (setNet f d).sources = d.sources := rfl
@[simp] theorem setNet_posts (f : Network → Network) (d : Dev) : (setNet f d).posts = d.posts := rfl
@[simp] theorem setNet_free (f : Network → Network) (d : Dev) : (setNet f d).free = d.free := rfl
@[simp] theorem setNet_time (f : Network → Network) (d : Dev) : (setNet f d).time = d.time := rfl
@[simp] theorem setNet_units (f : Network → Network) (d : Dev) : (setNet f d).units = d.units := rfl
@[simp] theorem setNet_forced (f : Network → Network) (d : Dev) : (setNet f d).forced = d.forced := rfl
@[simp] theorem setNet_trans (f : Network → Network) (d : Dev) : (setNet f d).trans = d.trans := rfl
@[simp] theorem setNet_ends (f : Network → Network) (d : Dev) : (setNet f d).ends = d.ends := rfl
@[simp] theorem setNet_recEnds (f : Network → Network) (d : Dev) : (setNet f d).recEnds = d.recEnds := rfl
@[simp] theorem setNet_out (f : Network → Network) (d : Dev) : (setNet f d).out = d.out := rfl
@[simp] theorem setNet_flash (f : Network → Network) (d : Dev) : (setNet f d).flash = d.flash := rfl
@[simp] theorem setNet_fuses (f : Network → Network) (d : Dev) : (setNet f d).fuses = d.fuses := rfl
@[simp] theorem setNet_boot (f : Network → Network) (d : Dev) : (setNet f d).boot = d.boot := rfl
@[simp] theorem setNet_mags (f : Network → Network) (d : Dev) : (setNet f d).mags = d.mags := rfl
@[simp] theorem setNet_rcq (f : Network → Network) (d : Dev) : (setNet f d).rcq = d.rcq := rfl
@[simp] theorem setNet_take (f : Network → Network) (d : Dev) : (setNet f d).take = d.take := rfl
@[simp] theorem setNet_ep (f : Network → Network) (d : Dev) : (setNet f d).ep = d.ep := rfl
@[simp] theorem setNet_srv (f : Network → Network) (d : Dev) : (setNet f d).srv = d.srv := rfl
@[simp] theorem setNet_sen (f : Network → Network) (d : Dev) : (setNet f d).sen = d.sen := rfl
@[simp] theorem setNet_itk (f : Network → Network) (d : Dev) : (setNet f d).itk = d.itk := rfl
@[simp] theorem setNet_tpg (f : Network → Network) (d : Dev) : (setNet f d).tpg = d.tpg := rfl
@[simp] theorem setNet_tw (f : Network → Network) (d : Dev) : (setNet f d).tw = d.tw := rfl
@[simp] theorem setNet_therm (f : Network → Network) (d : Dev) : (setNet f d).therm = d.therm := rfl
@[simp] theorem setNet_holdup (f : Network → Network) (d : Dev) : (setNet f d).holdup = d.holdup := rfl
@[simp] theorem setNet_pwr (f : Network → Network) (d : Dev) : (setNet f d).pwr = d.pwr := rfl
@[simp] theorem setNet_dram (f : Network → Network) (d : Dev) : (setNet f d).dram = d.dram := rfl
@[simp] theorem setNet_brg (f : Network → Network) (d : Dev) : (setNet f d).brg = d.brg := rfl
@[simp] theorem setNet_val (f : Network → Network) (d : Dev) (j : Nat) : (setNet f d).val j = d.val j := rfl
@[simp] theorem setNet_get (f : Network → Network) (d : Dev) (j : Nat) : (setNet f d).get j = d.get j := rfl

@[simp] theorem setEp_regs (f : Endpoint → Endpoint) (d : Dev) : (setEp f d).regs = d.regs := rfl
@[simp] theorem setEp_changes (f : Endpoint → Endpoint) (d : Dev) : (setEp f d).changes = d.changes := rfl
@[simp] theorem setEp_calibDirty (f : Endpoint → Endpoint) (d : Dev) : (setEp f d).calibDirty = d.calibDirty := rfl
@[simp] theorem setEp_workLo (f : Endpoint → Endpoint) (d : Dev) : (setEp f d).workLo = d.workLo := rfl
@[simp] theorem setEp_workHi (f : Endpoint → Endpoint) (d : Dev) : (setEp f d).workHi = d.workHi := rfl
@[simp] theorem setEp_offRead (f : Endpoint → Endpoint) (d : Dev) : (setEp f d).offRead = d.offRead := rfl
@[simp] theorem setEp_seqr (f : Endpoint → Endpoint) (d : Dev) : (setEp f d).seqr = d.seqr := rfl
@[simp] theorem setEp_enc (f : Endpoint → Endpoint) (d : Dev) : (setEp f d).enc = d.enc := rfl
@[simp] theorem setEp_scan (f : Endpoint → Endpoint) (d : Dev) : (setEp f d).scan = d.scan := rfl
@[simp] theorem setEp_fab (f : Endpoint → Endpoint) (d : Dev) : (setEp f d).fab = d.fab := rfl
@[simp] theorem setEp_chArb (f : Endpoint → Endpoint) (d : Dev) : (setEp f d).chArb = d.chArb := rfl
@[simp] theorem setEp_fb (f : Endpoint → Endpoint) (d : Dev) : (setEp f d).fb = d.fb := rfl
@[simp] theorem setEp_views (f : Endpoint → Endpoint) (d : Dev) : (setEp f d).views = d.views := rfl
@[simp] theorem setEp_amt (f : Endpoint → Endpoint) (d : Dev) : (setEp f d).amt = d.amt := rfl
@[simp] theorem setEp_pools (f : Endpoint → Endpoint) (d : Dev) : (setEp f d).pools = d.pools := rfl
@[simp] theorem setEp_hevc (f : Endpoint → Endpoint) (d : Dev) : (setEp f d).hevc = d.hevc := rfl
@[simp] theorem setEp_hevcQ (f : Endpoint → Endpoint) (d : Dev) : (setEp f d).hevcQ = d.hevcQ := rfl
@[simp] theorem setEp_engine (f : Endpoint → Endpoint) (d : Dev) : (setEp f d).engine = d.engine := rfl
@[simp] theorem setEp_outs (f : Endpoint → Endpoint) (d : Dev) : (setEp f d).outs = d.outs := rfl
@[simp] theorem setEp_align (f : Endpoint → Endpoint) (d : Dev) : (setEp f d).align = d.align := rfl
@[simp] theorem setEp_ended (f : Endpoint → Endpoint) (d : Dev) : (setEp f d).ended = d.ended := rfl
@[simp] theorem setEp_recEnter (f : Endpoint → Endpoint) (d : Dev) : (setEp f d).recEnter = d.recEnter := rfl
@[simp] theorem setEp_recLeave (f : Endpoint → Endpoint) (d : Dev) : (setEp f d).recLeave = d.recLeave := rfl
@[simp] theorem setEp_recQ (f : Endpoint → Endpoint) (d : Dev) : (setEp f d).recQ = d.recQ := rfl
@[simp] theorem setEp_twm (f : Endpoint → Endpoint) (d : Dev) : (setEp f d).twm = d.twm := rfl
@[simp] theorem setEp_answer (f : Endpoint → Endpoint) (d : Dev) : (setEp f d).answer = d.answer := rfl
@[simp] theorem setEp_sources (f : Endpoint → Endpoint) (d : Dev) : (setEp f d).sources = d.sources := rfl
@[simp] theorem setEp_posts (f : Endpoint → Endpoint) (d : Dev) : (setEp f d).posts = d.posts := rfl
@[simp] theorem setEp_free (f : Endpoint → Endpoint) (d : Dev) : (setEp f d).free = d.free := rfl
@[simp] theorem setEp_time (f : Endpoint → Endpoint) (d : Dev) : (setEp f d).time = d.time := rfl
@[simp] theorem setEp_units (f : Endpoint → Endpoint) (d : Dev) : (setEp f d).units = d.units := rfl
@[simp] theorem setEp_forced (f : Endpoint → Endpoint) (d : Dev) : (setEp f d).forced = d.forced := rfl
@[simp] theorem setEp_trans (f : Endpoint → Endpoint) (d : Dev) : (setEp f d).trans = d.trans := rfl
@[simp] theorem setEp_ends (f : Endpoint → Endpoint) (d : Dev) : (setEp f d).ends = d.ends := rfl
@[simp] theorem setEp_recEnds (f : Endpoint → Endpoint) (d : Dev) : (setEp f d).recEnds = d.recEnds := rfl
@[simp] theorem setEp_out (f : Endpoint → Endpoint) (d : Dev) : (setEp f d).out = d.out := rfl
@[simp] theorem setEp_flash (f : Endpoint → Endpoint) (d : Dev) : (setEp f d).flash = d.flash := rfl
@[simp] theorem setEp_fuses (f : Endpoint → Endpoint) (d : Dev) : (setEp f d).fuses = d.fuses := rfl
@[simp] theorem setEp_boot (f : Endpoint → Endpoint) (d : Dev) : (setEp f d).boot = d.boot := rfl
@[simp] theorem setEp_mags (f : Endpoint → Endpoint) (d : Dev) : (setEp f d).mags = d.mags := rfl
@[simp] theorem setEp_rcq (f : Endpoint → Endpoint) (d : Dev) : (setEp f d).rcq = d.rcq := rfl
@[simp] theorem setEp_take (f : Endpoint → Endpoint) (d : Dev) : (setEp f d).take = d.take := rfl
@[simp] theorem setEp_srv (f : Endpoint → Endpoint) (d : Dev) : (setEp f d).srv = d.srv := rfl
@[simp] theorem setEp_sen (f : Endpoint → Endpoint) (d : Dev) : (setEp f d).sen = d.sen := rfl
@[simp] theorem setEp_itk (f : Endpoint → Endpoint) (d : Dev) : (setEp f d).itk = d.itk := rfl
@[simp] theorem setEp_tpg (f : Endpoint → Endpoint) (d : Dev) : (setEp f d).tpg = d.tpg := rfl
@[simp] theorem setEp_tw (f : Endpoint → Endpoint) (d : Dev) : (setEp f d).tw = d.tw := rfl
@[simp] theorem setEp_therm (f : Endpoint → Endpoint) (d : Dev) : (setEp f d).therm = d.therm := rfl
@[simp] theorem setEp_holdup (f : Endpoint → Endpoint) (d : Dev) : (setEp f d).holdup = d.holdup := rfl
@[simp] theorem setEp_pwr (f : Endpoint → Endpoint) (d : Dev) : (setEp f d).pwr = d.pwr := rfl
@[simp] theorem setEp_net (f : Endpoint → Endpoint) (d : Dev) : (setEp f d).net = d.net := rfl
@[simp] theorem setEp_dram (f : Endpoint → Endpoint) (d : Dev) : (setEp f d).dram = d.dram := rfl
@[simp] theorem setEp_brg (f : Endpoint → Endpoint) (d : Dev) : (setEp f d).brg = d.brg := rfl
@[simp] theorem setEp_val (f : Endpoint → Endpoint) (d : Dev) (j : Nat) : (setEp f d).val j = d.val j := rfl
@[simp] theorem setEp_get (f : Endpoint → Endpoint) (d : Dev) (j : Nat) : (setEp f d).get j = d.get j := rfl

@[simp] theorem setSrv_regs (f : Service → Service) (d : Dev) : (setSrv f d).regs = d.regs := rfl
@[simp] theorem setSrv_changes (f : Service → Service) (d : Dev) : (setSrv f d).changes = d.changes := rfl
@[simp] theorem setSrv_calibDirty (f : Service → Service) (d : Dev) : (setSrv f d).calibDirty = d.calibDirty := rfl
@[simp] theorem setSrv_workLo (f : Service → Service) (d : Dev) : (setSrv f d).workLo = d.workLo := rfl
@[simp] theorem setSrv_workHi (f : Service → Service) (d : Dev) : (setSrv f d).workHi = d.workHi := rfl
@[simp] theorem setSrv_offRead (f : Service → Service) (d : Dev) : (setSrv f d).offRead = d.offRead := rfl
@[simp] theorem setSrv_seqr (f : Service → Service) (d : Dev) : (setSrv f d).seqr = d.seqr := rfl
@[simp] theorem setSrv_enc (f : Service → Service) (d : Dev) : (setSrv f d).enc = d.enc := rfl
@[simp] theorem setSrv_scan (f : Service → Service) (d : Dev) : (setSrv f d).scan = d.scan := rfl
@[simp] theorem setSrv_fab (f : Service → Service) (d : Dev) : (setSrv f d).fab = d.fab := rfl
@[simp] theorem setSrv_chArb (f : Service → Service) (d : Dev) : (setSrv f d).chArb = d.chArb := rfl
@[simp] theorem setSrv_fb (f : Service → Service) (d : Dev) : (setSrv f d).fb = d.fb := rfl
@[simp] theorem setSrv_views (f : Service → Service) (d : Dev) : (setSrv f d).views = d.views := rfl
@[simp] theorem setSrv_amt (f : Service → Service) (d : Dev) : (setSrv f d).amt = d.amt := rfl
@[simp] theorem setSrv_pools (f : Service → Service) (d : Dev) : (setSrv f d).pools = d.pools := rfl
@[simp] theorem setSrv_hevc (f : Service → Service) (d : Dev) : (setSrv f d).hevc = d.hevc := rfl
@[simp] theorem setSrv_hevcQ (f : Service → Service) (d : Dev) : (setSrv f d).hevcQ = d.hevcQ := rfl
@[simp] theorem setSrv_engine (f : Service → Service) (d : Dev) : (setSrv f d).engine = d.engine := rfl
@[simp] theorem setSrv_outs (f : Service → Service) (d : Dev) : (setSrv f d).outs = d.outs := rfl
@[simp] theorem setSrv_align (f : Service → Service) (d : Dev) : (setSrv f d).align = d.align := rfl
@[simp] theorem setSrv_ended (f : Service → Service) (d : Dev) : (setSrv f d).ended = d.ended := rfl
@[simp] theorem setSrv_recEnter (f : Service → Service) (d : Dev) : (setSrv f d).recEnter = d.recEnter := rfl
@[simp] theorem setSrv_recLeave (f : Service → Service) (d : Dev) : (setSrv f d).recLeave = d.recLeave := rfl
@[simp] theorem setSrv_recQ (f : Service → Service) (d : Dev) : (setSrv f d).recQ = d.recQ := rfl
@[simp] theorem setSrv_twm (f : Service → Service) (d : Dev) : (setSrv f d).twm = d.twm := rfl
@[simp] theorem setSrv_answer (f : Service → Service) (d : Dev) : (setSrv f d).answer = d.answer := rfl
@[simp] theorem setSrv_sources (f : Service → Service) (d : Dev) : (setSrv f d).sources = d.sources := rfl
@[simp] theorem setSrv_posts (f : Service → Service) (d : Dev) : (setSrv f d).posts = d.posts := rfl
@[simp] theorem setSrv_free (f : Service → Service) (d : Dev) : (setSrv f d).free = d.free := rfl
@[simp] theorem setSrv_time (f : Service → Service) (d : Dev) : (setSrv f d).time = d.time := rfl
@[simp] theorem setSrv_units (f : Service → Service) (d : Dev) : (setSrv f d).units = d.units := rfl
@[simp] theorem setSrv_forced (f : Service → Service) (d : Dev) : (setSrv f d).forced = d.forced := rfl
@[simp] theorem setSrv_trans (f : Service → Service) (d : Dev) : (setSrv f d).trans = d.trans := rfl
@[simp] theorem setSrv_ends (f : Service → Service) (d : Dev) : (setSrv f d).ends = d.ends := rfl
@[simp] theorem setSrv_recEnds (f : Service → Service) (d : Dev) : (setSrv f d).recEnds = d.recEnds := rfl
@[simp] theorem setSrv_out (f : Service → Service) (d : Dev) : (setSrv f d).out = d.out := rfl
@[simp] theorem setSrv_flash (f : Service → Service) (d : Dev) : (setSrv f d).flash = d.flash := rfl
@[simp] theorem setSrv_fuses (f : Service → Service) (d : Dev) : (setSrv f d).fuses = d.fuses := rfl
@[simp] theorem setSrv_boot (f : Service → Service) (d : Dev) : (setSrv f d).boot = d.boot := rfl
@[simp] theorem setSrv_mags (f : Service → Service) (d : Dev) : (setSrv f d).mags = d.mags := rfl
@[simp] theorem setSrv_rcq (f : Service → Service) (d : Dev) : (setSrv f d).rcq = d.rcq := rfl
@[simp] theorem setSrv_take (f : Service → Service) (d : Dev) : (setSrv f d).take = d.take := rfl
@[simp] theorem setSrv_ep (f : Service → Service) (d : Dev) : (setSrv f d).ep = d.ep := rfl
@[simp] theorem setSrv_sen (f : Service → Service) (d : Dev) : (setSrv f d).sen = d.sen := rfl
@[simp] theorem setSrv_itk (f : Service → Service) (d : Dev) : (setSrv f d).itk = d.itk := rfl
@[simp] theorem setSrv_tpg (f : Service → Service) (d : Dev) : (setSrv f d).tpg = d.tpg := rfl
@[simp] theorem setSrv_tw (f : Service → Service) (d : Dev) : (setSrv f d).tw = d.tw := rfl
@[simp] theorem setSrv_therm (f : Service → Service) (d : Dev) : (setSrv f d).therm = d.therm := rfl
@[simp] theorem setSrv_holdup (f : Service → Service) (d : Dev) : (setSrv f d).holdup = d.holdup := rfl
@[simp] theorem setSrv_pwr (f : Service → Service) (d : Dev) : (setSrv f d).pwr = d.pwr := rfl
@[simp] theorem setSrv_net (f : Service → Service) (d : Dev) : (setSrv f d).net = d.net := rfl
@[simp] theorem setSrv_dram (f : Service → Service) (d : Dev) : (setSrv f d).dram = d.dram := rfl
@[simp] theorem setSrv_brg (f : Service → Service) (d : Dev) : (setSrv f d).brg = d.brg := rfl
@[simp] theorem setSrv_val (f : Service → Service) (d : Dev) (j : Nat) : (setSrv f d).val j = d.val j := rfl
@[simp] theorem setSrv_get (f : Service → Service) (d : Dev) (j : Nat) : (setSrv f d).get j = d.get j := rfl

@[simp] theorem setChan_regs (p : Nat) (f : Chan → Chan) (d : Dev) : (setChan p f d).regs = d.regs := rfl
@[simp] theorem setChan_changes (p : Nat) (f : Chan → Chan) (d : Dev) : (setChan p f d).changes = d.changes := rfl
@[simp] theorem setChan_calibDirty (p : Nat) (f : Chan → Chan) (d : Dev) : (setChan p f d).calibDirty = d.calibDirty := rfl
@[simp] theorem setChan_workLo (p : Nat) (f : Chan → Chan) (d : Dev) : (setChan p f d).workLo = d.workLo := rfl
@[simp] theorem setChan_workHi (p : Nat) (f : Chan → Chan) (d : Dev) : (setChan p f d).workHi = d.workHi := rfl
@[simp] theorem setChan_offRead (p : Nat) (f : Chan → Chan) (d : Dev) : (setChan p f d).offRead = d.offRead := rfl
@[simp] theorem setChan_seqr (p : Nat) (f : Chan → Chan) (d : Dev) : (setChan p f d).seqr = d.seqr := rfl
@[simp] theorem setChan_enc (p : Nat) (f : Chan → Chan) (d : Dev) : (setChan p f d).enc = d.enc := rfl
@[simp] theorem setChan_scan (p : Nat) (f : Chan → Chan) (d : Dev) : (setChan p f d).scan = d.scan := rfl
@[simp] theorem setChan_fab (p : Nat) (f : Chan → Chan) (d : Dev) : (setChan p f d).fab = d.fab := rfl
@[simp] theorem setChan_chArb (p : Nat) (f : Chan → Chan) (d : Dev) : (setChan p f d).chArb = d.chArb := rfl
@[simp] theorem setChan_fb (p : Nat) (f : Chan → Chan) (d : Dev) : (setChan p f d).fb = d.fb := rfl
@[simp] theorem setChan_views (p : Nat) (f : Chan → Chan) (d : Dev) : (setChan p f d).views = d.views := rfl
@[simp] theorem setChan_amt (p : Nat) (f : Chan → Chan) (d : Dev) : (setChan p f d).amt = d.amt := rfl
@[simp] theorem setChan_pools (p : Nat) (f : Chan → Chan) (d : Dev) : (setChan p f d).pools = d.pools := rfl
@[simp] theorem setChan_hevc (p : Nat) (f : Chan → Chan) (d : Dev) : (setChan p f d).hevc = d.hevc := rfl
@[simp] theorem setChan_hevcQ (p : Nat) (f : Chan → Chan) (d : Dev) : (setChan p f d).hevcQ = d.hevcQ := rfl
@[simp] theorem setChan_engine (p : Nat) (f : Chan → Chan) (d : Dev) : (setChan p f d).engine = d.engine := rfl
@[simp] theorem setChan_outs (p : Nat) (f : Chan → Chan) (d : Dev) : (setChan p f d).outs = d.outs := rfl
@[simp] theorem setChan_align (p : Nat) (f : Chan → Chan) (d : Dev) : (setChan p f d).align = d.align := rfl
@[simp] theorem setChan_ended (p : Nat) (f : Chan → Chan) (d : Dev) : (setChan p f d).ended = d.ended := rfl
@[simp] theorem setChan_recEnter (p : Nat) (f : Chan → Chan) (d : Dev) : (setChan p f d).recEnter = d.recEnter := rfl
@[simp] theorem setChan_recLeave (p : Nat) (f : Chan → Chan) (d : Dev) : (setChan p f d).recLeave = d.recLeave := rfl
@[simp] theorem setChan_recQ (p : Nat) (f : Chan → Chan) (d : Dev) : (setChan p f d).recQ = d.recQ := rfl
@[simp] theorem setChan_twm (p : Nat) (f : Chan → Chan) (d : Dev) : (setChan p f d).twm = d.twm := rfl
@[simp] theorem setChan_answer (p : Nat) (f : Chan → Chan) (d : Dev) : (setChan p f d).answer = d.answer := rfl
@[simp] theorem setChan_sources (p : Nat) (f : Chan → Chan) (d : Dev) : (setChan p f d).sources = d.sources := rfl
@[simp] theorem setChan_posts (p : Nat) (f : Chan → Chan) (d : Dev) : (setChan p f d).posts = d.posts := rfl
@[simp] theorem setChan_free (p : Nat) (f : Chan → Chan) (d : Dev) : (setChan p f d).free = d.free := rfl
@[simp] theorem setChan_time (p : Nat) (f : Chan → Chan) (d : Dev) : (setChan p f d).time = d.time := rfl
@[simp] theorem setChan_units (p : Nat) (f : Chan → Chan) (d : Dev) : (setChan p f d).units = d.units := rfl
@[simp] theorem setChan_forced (p : Nat) (f : Chan → Chan) (d : Dev) : (setChan p f d).forced = d.forced := rfl
@[simp] theorem setChan_trans (p : Nat) (f : Chan → Chan) (d : Dev) : (setChan p f d).trans = d.trans := rfl
@[simp] theorem setChan_ends (p : Nat) (f : Chan → Chan) (d : Dev) : (setChan p f d).ends = d.ends := rfl
@[simp] theorem setChan_recEnds (p : Nat) (f : Chan → Chan) (d : Dev) : (setChan p f d).recEnds = d.recEnds := rfl
@[simp] theorem setChan_out (p : Nat) (f : Chan → Chan) (d : Dev) : (setChan p f d).out = d.out := rfl
@[simp] theorem setChan_flash (p : Nat) (f : Chan → Chan) (d : Dev) : (setChan p f d).flash = d.flash := rfl
@[simp] theorem setChan_fuses (p : Nat) (f : Chan → Chan) (d : Dev) : (setChan p f d).fuses = d.fuses := rfl
@[simp] theorem setChan_boot (p : Nat) (f : Chan → Chan) (d : Dev) : (setChan p f d).boot = d.boot := rfl
@[simp] theorem setChan_mags (p : Nat) (f : Chan → Chan) (d : Dev) : (setChan p f d).mags = d.mags := rfl
@[simp] theorem setChan_rcq (p : Nat) (f : Chan → Chan) (d : Dev) : (setChan p f d).rcq = d.rcq := rfl
@[simp] theorem setChan_take (p : Nat) (f : Chan → Chan) (d : Dev) : (setChan p f d).take = d.take := rfl
@[simp] theorem setChan_ep (p : Nat) (f : Chan → Chan) (d : Dev) : (setChan p f d).ep = d.ep := rfl
@[simp] theorem setChan_srv (p : Nat) (f : Chan → Chan) (d : Dev) : (setChan p f d).srv = d.srv := rfl
@[simp] theorem setChan_sen (p : Nat) (f : Chan → Chan) (d : Dev) : (setChan p f d).sen = d.sen := rfl
@[simp] theorem setChan_itk (p : Nat) (f : Chan → Chan) (d : Dev) : (setChan p f d).itk = d.itk := rfl
@[simp] theorem setChan_tpg (p : Nat) (f : Chan → Chan) (d : Dev) : (setChan p f d).tpg = d.tpg := rfl
@[simp] theorem setChan_tw (p : Nat) (f : Chan → Chan) (d : Dev) : (setChan p f d).tw = d.tw := rfl
@[simp] theorem setChan_therm (p : Nat) (f : Chan → Chan) (d : Dev) : (setChan p f d).therm = d.therm := rfl
@[simp] theorem setChan_holdup (p : Nat) (f : Chan → Chan) (d : Dev) : (setChan p f d).holdup = d.holdup := rfl
@[simp] theorem setChan_pwr (p : Nat) (f : Chan → Chan) (d : Dev) : (setChan p f d).pwr = d.pwr := rfl
@[simp] theorem setChan_net (p : Nat) (f : Chan → Chan) (d : Dev) : (setChan p f d).net = d.net := rfl
@[simp] theorem setChan_brg (p : Nat) (f : Chan → Chan) (d : Dev) : (setChan p f d).brg = d.brg := rfl
@[simp] theorem setChan_val (p : Nat) (f : Chan → Chan) (d : Dev) (j : Nat) : (setChan p f d).val j = d.val j := rfl
@[simp] theorem setChan_get (p : Nat) (f : Chan → Chan) (d : Dev) (j : Nat) : (setChan p f d).get j = d.get j := rfl

@[simp] theorem postRef_val (c i a b : Nat) (r : Option Nat) (d : Dev) (j : Nat) : (postRef c i a b r d).val j = d.val j := rfl
@[simp] theorem postRef_get (c i a b : Nat) (r : Option Nat) (d : Dev) (j : Nat) : (postRef c i a b r d).get j = d.get j := rfl
@[simp] theorem post_val (c i a b : Nat) (d : Dev) (j : Nat) : (post c i a b d).val j = d.val j := rfl
@[simp] theorem post_get (c i a b : Nat) (d : Dev) (j : Nat) : (post c i a b d).get j = d.get j := rfl
@[simp] theorem emit_val (x : OutKind) (i : Nat) (l : List Nat) (b : List Byte) (d : Dev) (j : Nat) : (emit x i l b d).val j = d.val j := rfl
@[simp] theorem emit_get (x : OutKind) (i : Nat) (l : List Nat) (b : List Byte) (d : Dev) (j : Nat) : (emit x i l b d).get j = d.get j := rfl
@[simp] theorem setUnit_val (u : UnitId) (x : UnitState) (d : Dev) (j : Nat) : (setUnit u x d).val j = d.val j := rfl
@[simp] theorem setUnit_get (u : UnitId) (x : UnitState) (d : Dev) (j : Nat) : (setUnit u x d).get j = d.get j := rfl

theorem Regs.find_put (r : Regs) (k j : Nat) (v : Val) : (r.put k v).find j = if j = k then some v else r.find j := by
  induction r with
  | nil => grind [Regs.put, Regs.find]
  | cons x r ih => obtain ⟨a, b⟩ := x; grind [Regs.put, Regs.find]

/-- An entry set to a value reads as it; every other entry reads as before. -/
@[simp] theorem setV_val (k j : Nat) (v : Val) (d : Dev) : (setV k v d).val j = if j = k then v else d.val j := by
  simp only [Dev.val, setV, Regs.find_put]; split <;> simp

@[simp] theorem setN_val (k j n : Nat) (d : Dev) : (setN k n d).val j = if j = k then .num n else d.val j :=
  setV_val k j (.num n) d

@[simp] theorem setB_val (k j : Nat) (b : List Byte) (d : Dev) : (setB k b d).val j = if j = k then .bytes b else d.val j :=
  setV_val k j (.bytes b) d

@[simp] theorem setN_get (k j n : Nat) (d : Dev) : (setN k n d).get j = if j = k then n else d.get j := by
  simp only [Dev.get, setN_val]; by_cases h : j = k <;> simp [h]

@[simp] theorem addW_val (w k j n : Nat) (d : Dev) :
    (addW w k n d).val j = if j = k then .num ((d.get k + n) % 2 ^ w) else d.val j := setN_val _ _ _ _

@[simp] theorem addW_get (w k j n : Nat) (d : Dev) :
    (addW w k n d).get j = if j = k then (d.get k + n) % 2 ^ w else d.get j := setN_get _ _ _ _

@[simp] theorem inc64_val (k j : Nat) (d : Dev) :
    (inc64 k d).val j = if j = k then .num ((d.get k + 1) % 2 ^ 64) else d.val j := setN_val _ _ _ _

@[simp] theorem inc64_get (k j : Nat) (d : Dev) : (inc64 k d).get j = if j = k then (d.get k + 1) % 2 ^ 64 else d.get j :=
  setN_get _ _ _ _

@[simp] theorem inc32_val (k j : Nat) (d : Dev) :
    (inc32 k d).val j = if j = k then .num ((d.get k + 1) % 2 ^ 32) else d.val j := setN_val _ _ _ _

@[simp] theorem inc32_get (k j : Nat) (d : Dev) : (inc32 k d).get j = if j = k then (d.get k + 1) % 2 ^ 32 else d.get j :=
  setN_get _ _ _ _

@[simp] theorem onDev_dev (f : Dev → Dev) (s : State) : (onDev f s).dev = f s.dev := rfl
@[simp] theorem onDev_arb (f : Dev → Dev) (s : State) : (onDev f s).arb = s.arb := rfl
@[simp] theorem onDev_mem (f : Dev → Dev) (s : State) : (onDev f s).mem = s.mem := rfl
@[simp] theorem onDev_poison (f : Dev → Dev) (s : State) : (onDev f s).poison = s.poison := rfl
@[simp] theorem onDev_hostMem (f : Dev → Dev) (s : State) : (onDev f s).hostMem = s.hostMem := rfl
@[simp] theorem onDev_pending (f : Dev → Dev) (s : State) : (onDev f s).pending = s.pending := rfl

/-- Element `i` of a list changed at `i`. -/
theorem nth_updAt_same {α : Type} [Inhabited α] (i : Nat) (f : α → α) (l : List α) (h : i < l.length) :
    nth (updAt i f l) i = f (nth l i) := by
  simp [nth, updAt, h]

/-- Another element is as before. -/
theorem nth_updAt_other {α : Type} [Inhabited α] (i j : Nat) (f : α → α) (l : List α) (h : i ≠ j) :
    nth (updAt i f l) j = nth l j := by
  simp [nth, updAt, List.getD_eq_getElem?_getD, h]

theorem unit_putUnit (u v : UnitId) (x : UnitState) (l : List (UnitId × UnitState)) :
    (putUnit u x l).find? (fun y => y.1 == v) = if v = u then some (u, x) else l.find? (fun y => y.1 == v) := by
  induction l with
  | nil => grind [putUnit]
  | cons y l ih => grind [putUnit]

/-- A unit's state as set. -/
@[simp] theorem setUnit_unit (u v : UnitId) (x : UnitState) (d : Dev) :
    (setUnit u x d).unit v = if v = u then x else d.unit v := by
  simp only [Dev.unit, setUnit, unit_putUnit]; split <;> simp

/-- The outcome of a write whose checks pass. -/
theorem finishWrite_ok (w : Writer) (k : Nat) (v : Val) (accept : State → Option (Nat × (Dev → Dev)))
    (effect : Nat → State → State) (s : State) (hc : writeCheck s.dev w k v = none) (ha : accept s = none) :
    finishWrite s (entryWrite w k v accept effect s) = accepted w k v effect s := by
  simp only [entryWrite, hc, ha, finishWrite, accepted, onDev]

/-- The outcome of a write that a check of R419 refuses: its code is answered, and nothing else changes. -/
theorem finishWrite_refused (w : Writer) (k c : Nat) (v : Val) (accept : State → Option (Nat × (Dev → Dev)))
    (effect : Nat → State → State) (s : State) (hc : writeCheck s.dev w k v = some c) :
    finishWrite s (entryWrite w k v accept effect s) = onDev (fun d => { d with answer := c }) s := by
  simp only [entryWrite, hc, finishWrite, onDev, id]

/-- The outcome of a write that its own rule refuses. -/
theorem finishWrite_rule (w : Writer) (k c : Nat) (v : Val) (accept : State → Option (Nat × (Dev → Dev))) (eff : Dev → Dev)
    (effect : Nat → State → State) (s : State) (hc : writeCheck s.dev w k v = none) (ha : accept s = some (c, eff)) :
    finishWrite s (entryWrite w k v accept effect s) = onDev (fun d => { eff d with answer := c }) s := by
  simp only [entryWrite, hc, ha, finishWrite, onDev]

end Sys2Proof.Machine
end

