-- ==== Sys2Proof/Laws/Writes.lean ====
section
/-! SUPPORT. What an accepted write does besides its effect: the record of it (`recordWrite`) changes no entry but
STORE_DIRTY, and the wait for room in its queue (R565) changes only what the arbiter's cycles change. -/

namespace Sys2Proof.Machine

/-- `t` is `s` after cycles of the arbiter alone: nothing of the units, of their entries or of the pound differs. -/
structure Arbitrated (s t : State) : Prop where
  mem : t.mem = s.mem
  poison : t.poison = s.poison
  pending : t.pending = s.pending
  dev : ∃ q l n e, t.dev = { s.dev with
    sources := q
    srv := { s.dev.srv with sessions := l }
    ep := { s.dev.ep with evtHead := n, evtDue := e } }

theorem Arbitrated.refl (s : State) : Arbitrated s s := ⟨rfl, rfl, rfl, _, _, _, _, rfl⟩

theorem Arbitrated.trans {s t u : State} (h : Arbitrated s t) (g : Arbitrated t u) : Arbitrated s u := by
  obtain ⟨h1, h2, h3, q, l, n, e, h4⟩ := h
  obtain ⟨g1, g2, g3, q', l', n', e', g4⟩ := g
  exact ⟨g1.trans h1, g2.trans h2, g3.trans h3, q', l', n', e', by rw [g4, h4]⟩

theorem arbitrated_logRecord (tb code inst arg0 arg1 : Nat) (s : State) :
    Arbitrated s (logRecord tb code inst arg0 arg1 s) := by
  simp only [logRecord, copyRecord]
  split
  · exact ⟨rfl, rfl, rfl, _, _, _, _, rfl⟩
  · split
    · exact ⟨rfl, rfl, rfl, _, _, _, _, rfl⟩
    · split
      · exact ⟨rfl, rfl, rfl, _, _, _, _, rfl⟩
      · exact ⟨rfl, rfl, rfl, _, _, _, _, rfl⟩

theorem arbitrated_sources (s : State) (q : List Source) : Arbitrated s { s with dev := { s.dev with sources := q } } :=
  ⟨rfl, rfl, rfl, _, _, _, _, rfl⟩

theorem arbitrated_arb (s : State) (a : Arbiter) : Arbitrated s { s with arb := a } := ⟨rfl, rfl, rfl, _, _, _, _, rfl⟩

theorem arbitrated_logLost (x : Source) (s : State) : Arbitrated s (logLost x s) := by
  unfold logLost
  split
  · exact .refl s
  · exact (arbitrated_sources _ _).trans (arbitrated_logRecord _ _ _ _ _ _)

theorem arbitrated_logEvent (e : Event) (s : State) : Arbitrated s (logEvent e s) := by
  unfold logEvent
  dsimp only
  split
  · exact (arbitrated_logRecord _ _ _ _ _ _).trans (arbitrated_arb _ _)
  · exact arbitrated_logRecord _ _ _ _ _ _

theorem arbitrated_takeHead (k : Nat × Nat) (s : State) : Arbitrated s (takeHead k s) := by
  unfold takeHead
  extract_lets x
  cases x.queue with
  | nil => exact .refl s
  | cons e q => exact (arbitrated_logLost x s).trans ((arbitrated_sources _ _).trans (arbitrated_logEvent _ _))

theorem arbitrated_takeRest (n : Nat) (l : List (Nat × Nat)) (s : State) : Arbitrated s (takeRest n l s) := by
  induction n generalizing s with
  | zero => exact .refl s
  | succ n ih =>
    unfold takeRest
    dsimp only
    split
    · exact (arbitrated_takeHead _ _).trans (ih _)
    · split
      · exact (arbitrated_takeHead _ _).trans (ih _)
      · exact .refl s

theorem arbitrated_arbitrate (s : State) : Arbitrated s (arbitrate s) := by
  unfold arbitrate
  extract_lets sof
  refine Arbitrated.trans ?_ (arbitrated_takeRest _ _ _)
  generalize sof = l
  induction l generalizing s with
  | nil => exact .refl s
  | cons k l ih => exact (arbitrated_takeHead k s).trans (ih _)

/-- The wait for room changes only what the arbiter changes (R565). -/
theorem arbitrated_makeRoom (hi inst : Nat) (s : State) : Arbitrated s (makeRoom hi inst s) := by
  unfold makeRoom
  generalize (s.dev.sources.map (fun x => x.queue.length)).foldl (· + ·) 0 = n
  induction n generalizing s with
  | zero => exact .refl s
  | succ n ih =>
    unfold roomLoop
    split
    · exact .refl s
    · exact (arbitrated_arbitrate s).trans (ih _)

theorem arbitrated_roomToRecord (w : Writer) (s : State) : Arbitrated s (roomToRecord w s) := by
  cases w with
  | firmware => exact .refl s
  | client id tr => exact arbitrated_makeRoom _ _ _

/-- A queue with room needs no wait. -/
theorem makeRoom_self (hi inst : Nat) (s : State) (h : (s.dev.source hi inst).queue.length < 16) : makeRoom hi inst s = s := by
  unfold makeRoom
  generalize (s.dev.sources.map (fun x => x.queue.length)).foldl (· + ·) 0 = n
  cases n with
  | zero => rfl
  | succ n => simp [roomLoop, h]

theorem Arbitrated.val {s t : State} (h : Arbitrated s t) (k : Nat) : t.dev.val k = s.dev.val k := by
  obtain ⟨_, _, _, q, l, n, e, h⟩ := h; rw [h]; rfl

theorem Arbitrated.get {s t : State} (h : Arbitrated s t) (k : Nat) : t.dev.get k = s.dev.get k := by
  obtain ⟨_, _, _, q, l, n, e, h⟩ := h; rw [h]; rfl

theorem Arbitrated.out {s t : State} (h : Arbitrated s t) : t.dev.out = s.dev.out := by
  obtain ⟨_, _, _, q, l, n, e, h⟩ := h; rw [h]

theorem Arbitrated.sen {s t : State} (h : Arbitrated s t) : t.dev.sen = s.dev.sen := by
  obtain ⟨_, _, _, q, l, n, e, h⟩ := h; rw [h]

theorem Arbitrated.mags {s t : State} (h : Arbitrated s t) : t.dev.mags = s.dev.mags := by
  obtain ⟨_, _, _, q, l, n, e, h⟩ := h; rw [h]

/-! ## The record of a write -/

theorem touchStore_val (k j : Nat) (d : Dev) (h : j ≠ Reg.store_STORE_DIRTY) : (touchStore k d).val j = d.val j := by
  simp only [touchStore]; split
  · rfl
  · split
    · show (setN _ _ _).val j = _; rw [setN_val, if_neg h]
    · rfl

theorem recordWrite_val (w : Writer) (k j : Nat) (v : Val) (d : Dev) (h : j ≠ Reg.store_STORE_DIRTY) :
    (recordWrite w k v d).val j = d.val j := by
  cases w with
  | firmware => exact touchStore_val k j d h
  | client id tr => exact touchStore_val k j _ h

theorem recordWrite_get (w : Writer) (k j : Nat) (v : Val) (d : Dev) (h : j ≠ Reg.store_STORE_DIRTY) :
    (recordWrite w k v d).get j = d.get j := by simp [Dev.get, recordWrite_val, h]

theorem touchStore_sen (k : Nat) (d : Dev) : (touchStore k d).sen = d.sen := by
  simp only [touchStore]; split; rfl; split <;> rfl

theorem touchStore_out (k : Nat) (d : Dev) : (touchStore k d).out = d.out := by
  simp only [touchStore]; split; rfl; split <;> rfl

theorem touchStore_mags (k : Nat) (d : Dev) : (touchStore k d).mags = d.mags := by
  simp only [touchStore]; split; rfl; split <;> rfl

theorem recordWrite_sen (w : Writer) (k : Nat) (v : Val) (d : Dev) : (recordWrite w k v d).sen = d.sen := by
  cases w with
  | firmware => exact touchStore_sen k d
  | client id tr => exact touchStore_sen k _

theorem recordWrite_out (w : Writer) (k : Nat) (v : Val) (d : Dev) : (recordWrite w k v d).out = d.out := by
  cases w with
  | firmware => exact touchStore_out k d
  | client id tr => exact touchStore_out k _

theorem recordWrite_mags (w : Writer) (k : Nat) (v : Val) (d : Dev) : (recordWrite w k v d).mags = d.mags := by
  cases w with
  | firmware => exact touchStore_mags k d
  | client id tr => exact touchStore_mags k _

end Sys2Proof.Machine
end

