-- ==== Sys2Proof/Tests/Slice0.lean ====
section
/-! SUPPORT. Small tests of the commands on fixed states, ill-formed terms that the well-formedness check refuses, and for each
statement with hypotheses a state and operands that meet them, clause by clause. -/

namespace Sys2Proof.Tests

open Sys2Proof.Machine

/-- The state after reset with firmware running and a change of its units. -/
def st (f : Dev → Dev) : State := onDev (fun d => f { d with boot := { d.boot with phase := .done } }) State.reset

/-- The state after reset with entries set. -/
def ent (l : List (Nat × Nat)) (f : Dev → Dev) : State := st (fun d => l.foldl (fun e x => setN x.1 x.2 e) (f d))

/-! ## Hypotheses that are met -/

def oneEvent : Event := { code := 0x0301, inst := 0xFFFF, arg0 := 1, arg1 := 2, tb := 3, cycle := 0, id := 5, ref := none }
def oneSource : Source := { hi := 3, inst := 0xFFFF, queue := [oneEvent], losing := false, due := none, lost := 0, first := 0 }
def lossSource : Source := { hi := 3, inst := 0xFFFF, queue := [], losing := false, due := some (2, 0x0301), lost := 0, first := 0 }

theorem wit_StepRunsFrontCommand : ({ State.reset with pending := [.clockReview] }).pending = [.clockReview] := rfl

theorem wit_IdleStepCountsOneCycle : State.reset.pending = [] := rfl

theorem wit_StepKeepsSoundness : State.reset.sound = true ∧ ∃ t, step State.reset = .next t := ⟨by decide, _, rfl⟩

theorem wit_EventIsNumbered : (st (fun d => { d with sources := [oneSource] })).dev.sources = [oneSource] ∧
    oneSource.queue = [oneEvent] ∧ oneSource.losing = false ∧ oneSource.due = none ∧
    isSof oneEvent.code = false ∧ oneEvent.ref = none ∧ State.reset.dev.ep.evtSize = 0 := by decide

theorem wit_LossIsRecorded :
    ((st (fun d => { d with sources := [lossSource] })).dev.source 3 0xFFFF).due = some (2, 0x0301) ∧ State.reset.dev.ep.evtSize = 0 := by
  decide

theorem wit_PostEntersItsQueue : isSof 0x0301 = false ∧ isKept 0x0301 = false ∧
    (State.reset.dev.source 3 0xFFFF).losing = false ∧ (State.reset.dev.source 3 0xFFFF).queue.length < 16 := by decide

/-- A client's write before firmware runs is answered by nobody. -/
theorem wit_RefusedWriteChangesNothing :
    writeCheck State.reset.dev (.client 1 .udp) Reg.mode_MODE_REQUEST (.num 3) = some 0xFF ∧
    writeCheck State.reset.dev (.client 1 .udp) Reg.stg_STAGE_ARM (.num 1) = some 0xFF ∧
    writeCheck State.reset.dev (.client 1 .udp) (Reg.tpg_TPG_ARM 15) (.num 1) = some 0xFF ∧
    writeCheck State.reset.dev (.client 1 .udp) (Reg.sen_SB_SEND 3) (.bytes [1]) = some 0xFF ∧
    writeCheck State.reset.dev (.client 1 .udp) (Reg.mag_MAG_KEY 3) (.bytes []) = some 0xFF ∧
    writeCheck State.reset.dev (.client 1 .udp) Reg.clk_RESET_REQUEST (.num 0) = some 0xFF := by decide

theorem wit_UnitEnablesAreWritten : writeCheck (st id).dev .firmware (UnitId.eth 1).entry
    (.num ((st id).dev.enableValue (.eth 1) true)) = none ∧
    enableRule (UnitId.eth 1).entry (.num ((st id).dev.enableValue (.eth 1) true)) (st id).dev = none := by decide

def phased (u : UnitId) (x : UnitState) : State := st (setUnit u x)

theorem wit_UnitSequencesComplete :
    ((phased (.eth 0) ⟨.starting, false, none⟩).dev.calm = true ∧
      ((phased (.eth 0) ⟨.starting, false, none⟩).dev.unit (.eth 0)).phase = .starting ∧
      (phased (.eth 0) ⟨.starting, false, none⟩).dev.started (.eth 0) = true ∧
      ((phased (.eth 0) ⟨.starting, false, none⟩).dev.unit (.eth 0)).pendingDisable = false) ∧
    (((phased (.eth 1) ⟨.stopping, false, none⟩).dev.unit (.eth 1)).phase = .stopping ∧
      (phased (.eth 1) ⟨.stopping, false, none⟩).dev.unitQuiet (.eth 1) = true ∧
      ((phased (.eth 1) ⟨.stopping, false, none⟩).dev.unit (.eth 1)).deferred = none) ∧
    (((phased (.eth 1) ⟨.stopping, false, some (some 4)⟩).dev.unit (.eth 1)).phase = .stopping ∧
      (phased (.eth 1) ⟨.stopping, false, some (some 4)⟩).dev.unitQuiet (.eth 1) = true ∧
      ((phased (.eth 1) ⟨.stopping, false, some (some 4)⟩).dev.unit (.eth 1)).deferred = some (some 4) ∧
      (unitOff (.eth 1) (phased (.eth 1) ⟨.stopping, false, some (some 4)⟩)).dev.mayStart (.eth 1) = true) := by decide

theorem wit_EnableIsDeferred :
    ((phased (.view 2) ⟨.stopping, false, none⟩).dev.unit (.view 2)).phase = .stopping ∧
    ((phased (.view 2) ⟨.running, false, none⟩).dev.unit (.view 2)).phase = .running ∧
    ((phased (.view 2) ⟨.off, false, none⟩).dev.unit (.view 2)).phase = .off ∧
    ((phased (.view 2) ⟨.starting, false, none⟩).dev.unit (.view 2)).pendingDisable = false ∧
    ((phased (.view 2) ⟨.starting, true, some (some 1)⟩).dev.unit (.view 2)).pendingDisable = true ∧
    (phased (.view 2) ⟨.starting, true, some (some 1)⟩).dev.started (.view 2) = true := by decide

def standby : State := ent [(Reg.mode_MODE_CURRENT, mSTANDBY)] id

theorem wit_ModeRequestIsAccepted : writeCheck standby.dev .firmware Reg.mode_MODE_REQUEST (.num 3) = none ∧ 3 < 512 ∧
    modeRefusal standby (3 % 256) (bit 3 8 == 1) = none := by decide

theorem wit_ModeRequestIsRefused : writeCheck standby.dev .firmware Reg.mode_MODE_REQUEST (.num 0x99) = none ∧ 0x99 < 512 ∧
    (modeRefusal standby (0x99 % 256) (bit 0x99 8 == 1)).isSome = true := by decide

def transit (dst raw : Nat) (m : Nat) : State :=
  ent [(Reg.mode_MODE_CURRENT, m), (Reg.mode_MODE_TARGET, dst)]
    (fun d => { d with trans := some { raw := 0, cause := 1, ref := 7, before := [], held := false }, time := { d.time with raw := raw } })

theorem wit_TransitionsProceed :
    ((transit mSTANDBY 0 mCONFIGURE).dev.trans = some ⟨0, 1, 7, [], false⟩ ∧ (transit mSTANDBY 0 mCONFIGURE).pendingBits = 0) ∧
    ((transit mSTANDBY 72000000000 mCONFIGURE).dev.trans = some ⟨0, 1, 7, [], false⟩ ∧
      (transit mSTANDBY 72000000000 mCONFIGURE).dev.get Reg.mode_MODE_TIMEOUT_S * 1200000000 ≤
        (transit mSTANDBY 72000000000 mCONFIGURE).dev.since 0) ∧
    ((ent [(Reg.mode_MODE_CURRENT, mSCAN)] (fun d => { d with forced := [5] })).dev.target = 0 ∧
      (ent [(Reg.mode_MODE_CURRENT, mSCAN)] (fun d => { d with forced := [5] })).dev.forced = 5 :: [] ∧
      (forcedTo (ent [(Reg.mode_MODE_CURRENT, mSCAN)] (fun d => { d with forced := [5] })).dev.mode 5).isSome = true) ∧
    ((st (setMag 0 (fun x => { x with fw := { x.fw with results := [(0, [])] } }))).dev.mag 0).fw.results = (0, []) :: [] ∧
    (let s := st (setMag 3 (fun x => { x with fw := { x.fw with results := [(0x81, [])], script := [.report] } }));
      (s.dev.mag 3).fw.busy = false ∧ (s.dev.mag 3).fw.script = .report :: [] ∧ (s.dev.mag 3).fw.results = (0x81, []) :: []) := by
  decide

/-- Port SA ACTIVE and aligned in PREVIEW, its front-end running, with the frames and lanes given. -/
def sa (l : List (Nat × Nat)) (asms : List Asm) (f : Dev → Dev) : State :=
  ent ([(Reg.mode_MODE_CURRENT, mPREVIEW), (Reg.sen_PORT_STATUS 0, 1), (Reg.sen_LANE_COUNT 0, 2), (Reg.sen_SEGMENT_LANES 0, 1),
    (Reg.itk_HEIGHT 0, 4), (Reg.itk_WIDTH 0, 2), (Reg.lan_LOGICAL 0 1, 1), (Reg.sen_WORD_WIDTH 0, 12)] ++ l)
    (fun d => f (setPort 0 (fun x => { x with rx := 3 }) (setItk 0 (fun x => { x with run := 1, hasRing := true, asms := asms }) d)))

def asmA : Asm := { (default : Asm) with frame := 5, headField := 7, sofLanes := [0] }
def seg0 (rows : Bool) (absent : Nat) (d : Dev) : Dev :=
  setPort 0 (fun x => { x with lanes := x.lanes.modify 0 (fun l => { l with seg := some (0, rows), absent := absent }) }) d

theorem wit_RawSequencesBuildFrames :
    (let s := sa [] [] id; s.dev.stripe 0 = false ∧ s.dev.hears 0 0 = true ∧ s.dev.scanning 0 = false ∧
      syncOf (s.dev.wordWidth 0) (s.dev.words 0 0 [0xFFF, 0, 0, 0x8FF]) = some (0x8, 255) ∧ s.dev.segOf 0 0 = none ∧
      s.dev.current 0 = none ∧ (s.dev.intake 0).tail = none ∧ s.dev.accepts 0 = true) ∧
    (let s := sa [] [asmA] id; s.dev.stripe 0 = false ∧ s.dev.hears 0 1 = true ∧ s.dev.scanning 0 = false ∧
      syncOf (s.dev.wordWidth 0) (s.dev.words 0 1 [0xFFF, 0, 0, 0x807]) = some (0x8, 7) ∧ s.dev.calm = true ∧
      s.dev.segOf 0 1 = none ∧ s.dev.current 0 = some asmA ∧ asmA.sofLanes.contains (s.dev.gangLane 0 1) = false ∧
      asmA.headField = 7 % 2 ^ s.dev.countBits 0) ∧
    (let s := sa [] [asmA] id; syncOf (s.dev.wordWidth 0) (s.dev.words 0 0 [0xFFF, 0, 0, 0x900]) = some (0x9, 0) ∧
      s.dev.hears 0 0 = true ∧ s.dev.segOf 0 0 = none ∧ asmA.sofLanes.contains (s.dev.gangLane 0 0) = true ∧
      asmA.eofLanes.contains (s.dev.gangLane 0 0) = false ∧
      0 % 2 ^ s.dev.countBits 0 = (s.dev.nextSegment 0 0).1 % 2 ^ s.dev.countBits 0 ∧
      (s.dev.nextSegment 0 0).1 < s.dev.get (Reg.itk_HEIGHT 0)) ∧
    (let s := sa [(Reg.itk_READOUT_COUNT 0, 2)] [asmA] (seg0 true 0); s.dev.hears 0 0 = true ∧ s.dev.calm = true ∧
      s.dev.segOf 0 0 = some (0, true) ∧
      syncOf (s.dev.wordWidth 0) ((s.dev.words 0 0 [1, 2, 0xFFF, 0, 0, 0xA00]).drop
        (s.dev.get (Reg.itk_WIDTH 0) / s.dev.segLanes 0)) = some (0xA, 0) ∧
      ([{ row := (s.dev.nextSegment 0 (s.dev.gangLane 0 0)).1, readout := 0, first := 0, samples := [1, 2] : RowPart }].filter
        (fun x => x.row == (s.dev.nextSegment 0 (s.dev.gangLane 0 0)).1)).length <
        max 1 (s.dev.get (Reg.itk_READOUT_COUNT 0)) * s.dev.segLanes 0) ∧
    (let s := sa [] [asmA] (seg0 false 0); s.dev.hears 0 0 = true ∧ s.dev.calm = true ∧ s.dev.segOf 0 0 = some (0, false) ∧
      syncOf (s.dev.wordWidth 0) ((s.dev.words 0 0 [1, 2, 0xFFF, 0, 0, 0xA00]).drop
        (s.dev.get (Reg.itk_WIDTH 0) / s.dev.segLanes 0)) = some (0xA, 0)) ∧
    (let s := sa [] [asmA] id; syncOf (s.dev.wordWidth 0) (s.dev.words 0 0 [0xFFF, 0, 0, 0xB00]) = some (0xB, 0) ∧
      asmA.eofLanes.length + 1 < s.dev.groupLanes 0) ∧
    (let s := sa [(Reg.sen_LANE_COUNT 0, 1)] [asmA] id; s.dev.hears 0 0 = true ∧
      syncOf (s.dev.wordWidth 0) (s.dev.words 0 0 [0xFFF, 0, 0, 0xB00]) = some (0xB, 0) ∧
      asmA.eofLanes.length + 1 = s.dev.groupLanes 0) ∧
    (∀ n : Fin 2, let s := sa [] [asmA] (seg0 true n); s.dev.hears 0 0 = true ∧ s.dev.segOf 0 0 = some (0, true) ∧
      syncOf (s.dev.wordWidth 0) ((s.dev.words 0 0 [1, 2, 0xFFF, 0, 0, 0x700]).drop
        (s.dev.get (Reg.itk_WIDTH 0) / s.dev.segLanes 0)) = none ∧
      (nth (s.dev.port 0).lanes 0).absent = n) := by and_intros <;> decide

def hdr (b : List Byte) : List Byte := b ++ leBytes 2 (crc16 b)
def fsHeader : List Byte := hdr [0x80, 0, 9, 0, 0, 0, 0, 0, 0, 0, 0, 0, 0, 0]
def badHeader : List Byte := [0x80, 0, 9, 0, 0, 0, 0, 0, 0, 0, 0, 0, 0, 0, 1, 2]
def stripeSA (asms : List Asm) (f : Dev → Dev) : State := sa [(Reg.sen_CODING 0, 1)] asms (fun d => f (setItk 0 (fun x => { x with slotCount := 4 }) d))

set_option maxRecDepth 10000 in
theorem wit_StripeLinkAndRowsEnd :
    (let s := sa [] [] id; s.dev.stripe 0 = false ∧ s.dev.calm = true) ∧
    (∀ raw : Bool, let s := stripeSA [] (setPort 0 (fun x => { x with packet := some ([1], false) }));
      let d := setPort 0 (fun x => { x with nextLane := ((s.dev.port 0).nextLane + 1) % max 1 (s.dev.laneCount 0) }) s.dev;
      let r := receiveBlock 0 (s.dev.laneAt 0 (s.dev.port 0).nextLane) (if raw then (2, 0x87) else (1, 5)) d;
      s.dev.stripe 0 = true ∧ (s.dev.port 0).rx = 3 ∧ s.dev.hears 0 (s.dev.laneAt 0 (s.dev.port 0).nextLane) = true ∧
      (r.2.port 0).packet = some ([1], false) ∧ r.1 = (if raw then .term else .data [5, 0, 0, 0, 0x80, 2, 0, 0x14])) ∧
    (let s := stripeSA [] id; s.dev.stripe 0 = true ∧ s.dev.hears 0 0 = true ∧ s.dev.scanning 0 = false ∧
      (StripeHeader fsHeader).any (fun h => h.fs && ((beginFrame 0 16 h.frame 0 (onDev (closeSegs 0) s)).dev.current 0).isSome)
        = true ∧ s.dev.lead 0 = 0 ∧
      s.dev.current 0 = none ∧ (s.dev.intake 0).tail = none ∧ s.dev.accepts 0 = true) ∧
    (let s := stripeSA [asmA] id; s.dev.hears 0 0 = true ∧ StripeHeader badHeader = none ∧ s.dev.current 0 = some asmA) ∧
    (let s := stripeSA [] id; (s.dev.port 0).rx = 3) ∧
    (let s := stripeSA [] (setPort 0 (fun x => { x with step := .deskew })); (s.dev.port 0).step = .deskew ∧
      (List.range (s.dev.laneCount 0)).find? (fun j => match [some (1, 0), none].getD j none with
        | some b => b.1 != s.dev.get (Reg.lan_LOGICAL 0 j)
        | none => false) = some 0) ∧
    (let s := sa [(Reg.itk_ROW_TIMEOUT 0, 1), (Reg.itk_ROW_PERIOD_NS 0, 10)] [asmA]
        (fun d => { d with time := { d.time with raw := 1000 } });
      s.dev.mode ≠ mSCAN ∧ s.dev.current 0 = some asmA ∧ s.dev.lateNow 0 asmA = true) ∧
    ((st (setItk 3 (fun x => { x with stats := [default] }))).dev.intake 3).stats = default :: [] := by and_intros <;> decide

def burst (l : List (Nat × Nat)) (fired : Option Nat) : State :=
  ent ([(Reg.mode_MODE_CURRENT, mBURST)] ++ l)
    (setItk 2 (fun x => { x with hasRing := true, burst := { x.burst with armed := true, fired := fired } }))

theorem wit_BurstTriggersFire :
    ((burst [] none).dev.capturing 2 = true ∧ ((burst [] none).dev.intake 2).burst.fired = none) ∧
    ((burst [] (some 8)).dev.capturing 2 = true ∧ ((burst [] (some 8)).dev.intake 2).burst.fired = some 8) ∧
    (let d := setItk 2 (fun x => { x with frames := 9, burst := { x.burst with trigFrame := some 8 } }) (burst [(Reg.itk_BURST_POST 2, 1)] (some 8)).dev;
      d.capturing 2 = true ∧ (d.intake 2).burst.trigFrame = some 8 ∧ 8 + d.get (Reg.itk_BURST_POST 2) ≤ (d.intake 2).frames ∧
      (d.intake 2).asms = [] ∧ (d.intake 2).burst.complete = false) ∧
    (let s := burst [(Reg.itk_TRIG_SOURCE 2, 2)] none; s.dev.get (Reg.itk_TRIG_SOURCE 2) = 2 ∧
      tbDue (s.dev.get (Reg.itk_TRIG_TIME 2)) (tbNow s.dev) = true) ∧
    (let s := burst [(Reg.itk_TRIG_SOURCE 2, 1), (Reg.itk_TRIG_PIN 2, 63 + 128)] none; s.dev.get (Reg.itk_TRIG_SOURCE 2) = 1 ∧
      s.dev.namesPin 2 false 63 true = true ∧ ∀ q : Fin 4, q ≠ 2 → s.dev.get (Reg.itk_TRIG_SOURCE q) ≠ 1) ∧
    (let s := burst [] none; s.dev.calm = true ∧ ∀ q : Fin 4, s.dev.get (Reg.itk_TRIG_SOURCE q) ≠ 1) ∧
    (let s := burst [(Reg.itk_TRIG_SOURCE 2, 3)] none; writeCheck s.dev .firmware (Reg.itk_TRIG_NOW 2) (.num 1) = none ∧
      s.dev.get (Reg.itk_TRIG_SOURCE 2) = 3) := by and_intros <;> decide

def sbFrame : SbFrame := { ty := 1, payload := [], owner := .none, tb := 0 }
def sbState (f : SbLane → SbLane) : State := ent [(Reg.sen_SB0_ENABLE 3, 1)] (setSb 3 0 (fun x => f { x with power := 3 }))

theorem wit_SidebandsAndClockRun :
    (let s := sbState id; 3 < s.dev.nPorts ∧ s.dev.sbOpen 3 0 = true ∧ (s.dev.sb 3 0).sending = none) ∧
    (3 < (st id).dev.nPorts ∧ (st id).dev.sbOpen 3 0 = false) ∧
    (let s := sbState (fun x => { x with sending := some sbFrame, queue := [sbFrame] }); (s.dev.sb 3 0).sending = some sbFrame ∧
      sbFrame.owner = .none ∧ (s.dev.sb 3 0).goal = none ∧ (s.dev.sb 3 0).queue = sbFrame :: [] ∧ s.dev.calm = true) ∧
    (sendable ([0x10, 7] : List Byte) = true ∧ writeCheck (st id).dev .firmware (Reg.sen_SB_SEND 3) (.bytes [0x10, 7]) = none) ∧
    (sendable ([0x01] : List Byte) = false ∧ writeCheck (st id).dev .firmware (Reg.sen_SB_SEND 3) (.bytes [0x01]) = none) ∧
    (let s := ent [(Reg.sen_CK_ENABLE 3, 1)] id; writeCheck s.dev .firmware (Reg.sen_CK_FREQ 3) (.num 2) = none ∧
      s.dev.flag (Reg.sen_CK_ENABLE 3) = true ∧ s.dev.get (Reg.sen_CK_FREQ 3) ≠ 2) ∧
    ((st (setPort 3 (fun x => { x with ckTo := some 1 }))).dev.port 3).ckTo = some 1 := by and_intros <;> decide

def lane63 (f : Lane → Lane) (step : AlignStep) : State :=
  st (setPort 3 (fun x => { x with step := step, lanes := x.lanes.modify 63 f }))

theorem wit_LanesSlipAndDwell :
    writeCheck (st id).dev .firmware (Reg.lan_SLIP 3 63) (.num 1) = none ∧
    writeCheck (st id).dev .firmware (Reg.mln_SLIP 3 7) (.num 1) = none ∧
    writeCheck (st id).dev .firmware (Reg.lan_DWELL 3 63) (.num 1) = none ∧
    writeCheck (st id).dev .firmware (Reg.mln_DWELL 3 7) (.num 1) = none ∧
    (let s := lane63 (fun x => { x with dwelling := true }) .idle; s.dev.calm = true ∧
      (nth (s.dev.port 3).lanes 63).dwelling = true ∧ (s.dev.port 3).step = .idle ∧ s.dev.flag (Reg.sen_CONT_ADAPT 3) = false) ∧
    (let s := lane63 (fun x => { x with dwelling := true }) .search; (nth (s.dev.port 3).lanes 63).dwelling = true ∧
      (s.dev.port 3).step = .search ∧ min 0 (s.dev.get (Reg.sen_ALIGN_DWELL 3)) < s.dev.get (Reg.sen_ALIGN_MIN 3) ∧
      (nth (s.dev.port 3).lanes 63).slips + 1 < s.dev.positions 3 ∧ 3 < s.dev.sen.length ∧ 63 < (s.dev.port 3).lanes.length) ∧
    (let s := st (setMagLane 3 7 (fun l => { l with dwelling := true })); s.dev.calm = true ∧
      (nth (s.dev.mag 3).lanes 7).dwelling = true ∧ (s.dev.mag 3).step = .idle) := by and_intros <;> decide

def deskewing (l : List (Nat × Nat)) (step : AlignStep) (landed : List (Nat × Nat)) (p : Nat) : State :=
  ent l (setPort p (fun x => { x with armed := true, windowOpen := true, step := step, landed := landed }))

theorem wit_DeskewIsMeasured :
    writeCheck (st id).dev .firmware (Reg.sen_DESKEW_ARM 3) (.num 1) = none ∧
    (3 < (st id).dev.sen.length ∧ 0 < (st id).dev.laneCount 3) ∧
    (let s := deskewing [] .idle [] 3; s.dev.calm = true ∧ (s.dev.port 3).armed = true ∧
      (s.dev.port 3).landed.any (fun y => y.1 == 0) = false ∧ 0 < s.dev.laneCount 3 ∧
      (s.dev.port 3).landed.length + 1 < s.dev.laneCount 3) ∧
    (let s := st (setMag 3 (fun x => { x with armed := true })); s.dev.calm = true ∧ (s.dev.mag 3).armed = true ∧
      (s.dev.mag 3).landed.any (fun y => y.1 == 7) = false ∧ (s.dev.mag 3).landed.length + 1 < 8) ∧
    (let s := deskewing [(Reg.sen_LANE_COUNT 3, 2)] .deskew [(0, 0)] 3; (s.dev.port 3).windowOpen = true ∧
      (s.dev.port 3).step = .deskew ∧
      (List.range (s.dev.laneCount 3)).filter (fun j => !((s.dev.port 3).landed.any (fun y => y.1 == j))) = [1]) ∧
    (let s := st (setMag 3 (fun x => { x with windowOpen := true })); (s.dev.mag 3).windowOpen = true ∧ s.dev.calm = true ∧
      (s.dev.mag 3).step ≠ .deskew) := by and_intros <;> decide

def running (u : UnitId) (l : List (Nat × Nat)) (asms : List Asm) (f : Dev → Dev) : State :=
  sa l asms (fun d => setUnit u { phase := .running, pendingDisable := false, deferred := none } (f d))

theorem wit_LanesLoseLockAndSleep :
    (let s := running (.port 0) [(Reg.sen_REALIGN_AUTO 0, 0)] [] id; s.dev.watched 0 1 = true ∧
      s.dev.get (Reg.lan_LANE_ALIGN 0 1) ≠ 2 ∧ s.dev.flag (Reg.sen_REALIGN_AUTO 0) = false ∧
      (s.dev.port 0).realignRaw = none ∧ s.dev.calm = true) ∧
    (let s := sa [] [] (setPort 0 (fun x => { x with realignRaw := some 0, realigning := true }));
      (s.dev.port 0).realignRaw = some 0 ∧ (s.dev.port 0).realigning = true ∧ s.dev.aligned 0 = true ∧ (s.dev.port 0).step = .idle ∧
      ((realigned 0 s.dev).port 0).realignRaw = none) ∧
    writeCheck (st id).dev .firmware (Reg.sen_RX_POWER_REQ 3) (.num 2) = none ∧
    (let s := sa [] [] id; (s.dev.port 0).goal = none ∧ 1 < (s.dev.port 0).rx ∧ s.dev.inFrame 0 = false) ∧
    writeCheck (st id).dev .firmware (Reg.sen_SB_POWER_REQ 3) (.num 0) = none ∧
    (let s := st (setSb 3 1 (fun x => { x with waking := true })); s.dev.calm = true ∧ (s.dev.sb 3 1).waking = true ∧
      (s.dev.sb 3 1).power < 3 ∧ 3 < s.dev.sen.length ∧ 1 < (s.dev.port 3).sb.length) ∧
    (let s := st (setPort 3 (fun x => { x with waking := true })); (s.dev.port 3).waking = true ∧ (s.dev.port 3).rx < 2) := by
  and_intros <;> decide

theorem wit_PatternCheckersCount :
    writeCheck (st id).dev .firmware (Reg.lan_PRBS_SEL 3 63) (.num 4) = none ∧
    writeCheck (st id).dev .firmware (Reg.sen_SB_PRBS_SEL 3) (.num 0x11) = none ∧
    writeCheck (st id).dev .firmware (Reg.mln_PRBS_SEL 3 7) (.num 1) = none ∧
    (let s := ent [(Reg.lan_PRBS_SEL 3 63, 1), (Reg.lan_LANE_POWER 3 63, 3)] id; s.dev.get (Reg.lan_PRBS_SEL 3 63) ≠ 0 ∧
      s.dev.get (Reg.lan_LANE_POWER 3 63) = 3 ∧ s.dev.get (Reg.lan_LOOP 3 63) ≠ 2 ∧ s.dev.flag (Reg.lan_INVERT 3 63) = false) ∧
    (let s := ent [(Reg.mln_PRBS_SEL 3 7, 1), (Reg.mln_LANE_POWER 3 7, 3)] id; s.dev.get (Reg.mln_PRBS_SEL 3 7) % 16 ≠ 0 ∧
      s.dev.get (Reg.mln_LANE_POWER 3 7) % 16 = 3 ∧ s.dev.get (Reg.mln_LOOP 3 7) = 0 ∧ bit (s.dev.get (Reg.mln_INVERT 3 7)) 0 ≠ 1) ∧
    writeCheck (st id).dev .firmware (Reg.lan_LOOP 3 63) (.num 1) = none ∧
    writeCheck (st id).dev .firmware (Reg.mln_LOOP 3 7) (.num 1) = none := by and_intros <;> decide

/-- A state with firmware started, its device as the entries and the function leave it. -/
def oneJob (cls : Nat) : Job := { (default : Job) with route := 4, cls := cls, energy := 5, work := 9 }
def oneWork : Work := { (default : Work) with id := 9, left := 2, dead := true }

/-- A settings record of group 0 with ID 1, landing next. -/
def nextRecord : List Byte := [1, 0, 0, 0, 1, 1, 0, 0] ++ zeros 72

theorem wit_SubmissionsAreDecided :
    writeCheck (st id).dev .firmware (Reg.seq_SUBMIT 3) (.bytes nextRecord) = none ∧
    rdLe [1, 0, 0, 0, 1, 2] 5 1 / 2 ≠ 0 ∧ writeCheck (st id).dev .firmware (Reg.seq_SUBMIT 3) (.bytes ([1, 0, 0, 0, 1, 2] ++ zeros 74)) = none ∧
    rdLe nextRecord 5 1 / 2 = 0 ∧ rdLe nextRecord 6 2 = 0 ∧
    submitReason 3 nextRecord (st id).dev = some 6 ∧
    submitReason 3 nextRecord (ent [(Reg.mode_MODE_CURRENT, mPREVIEW), (Reg.grp_CHANNEL 3 0, 1)] id).dev = none ∧
    3 < State.reset.dev.seqr.length := by and_intros <;> decide

def barge (j : Job) (w : List Work) (level : Int) (l : List (Nat × Nat)) : State :=
  ent l (fun d => setUnit (.cluster 0) ⟨.running, false, none⟩ (setUnit (.cluster 7) ⟨.running, false, none⟩
    (setBrg (fun x => { x with basins := x.basins.modify 7 (fun _ => [j, j]), works := w, level := level }) d)))

theorem wit_JobsAreDispatched :
    ((barge (oneJob 1) [] 5 []).dev.bargeIdle 63 = true ∧ headOf ((barge (oneJob 1) [] 5 []).dev.basin 7) = some (oneJob 1) ∧
      (barge (oneJob 1) [] 5 []).dev.admits (oneJob 1) = true ∧ 63 < (barge (oneJob 1) [] 5 []).dev.brg.running.length ∧
      7 < (barge (oneJob 1) [] 5 []).dev.brg.basins.length) ∧
    ((barge (oneJob 1) [] 4 []).dev.bargeIdle 63 = true ∧ headOf ((barge (oneJob 1) [] 4 []).dev.basin 7) = some (oneJob 1) ∧
      (barge (oneJob 1) [] 4 []).dev.admits (oneJob 1) = false ∧ (oneJob 1).cls ≠ 0) ∧
    ((barge (oneJob 1) [] 5 []).dev.stealer = some 0 ∧ (barge (oneJob 1) [] 5 []).dev.victim = some (7, oneJob 1)) := by
  and_intros <;> decide

def oneFrame : FrameInfo := { (default : FrameInfo) with port := 2, frame := 11 }
def runningJob (w : List Work) : State := st (setBrg (fun x => { x with works := w, running := x.running.set 63 (some (oneJob 1)) }))

theorem wit_JobsComeAndGo :
    (st (fun d => { d with ended := [oneFrame] })).nextFrame = some oneFrame ∧
    ((runningJob []).dev.brg.running.getD 63 none = some (oneJob 1) ∧ (runningJob []).dev.gated 7 = false ∧
      (runningJob []).dev.work? (oneJob 1).work = none) ∧
    ((runningJob [oneWork]).dev.brg.running.getD 63 none = some (oneJob 1) ∧ (runningJob [oneWork]).dev.gated 7 = false ∧
      (onDev (fun d => fabricEnd 63 (creditJob 63 3 (oneJob 1) (slotRun (oneJob 1) (· - 1) d))) (runningJob [oneWork])).dev.work? 9 = some oneWork) := by
  and_intros <;> decide

theorem wit_JobsComeAndGo_run (s : State) : runTile oneWork 0 s = (oneWork, false, s) ∧ 1 < oneWork.left := ⟨rfl, by decide⟩

def lateWork (cls : Nat) : Work := { oneWork with route := 1, cls := cls, dead := false, left := 3 }

theorem wit_WeirMetersPower :
    ((barge (oneJob 1) [lateWork 1] 0 []).dev.missed = some (lateWork 1) ∧
      (discardWork true (lateWork 1) (barge (oneJob 1) [lateWork 1] 0 [])).dev.missed = none) ∧
    ((barge (oneJob 0) [lateWork 0] 0 []).dev.brg.works = [lateWork 0] ∧ (lateWork 0).cls = 0 ∧ (lateWork 0).late = false ∧
      ((barge (oneJob 0) [lateWork 0] 0 []).dev.waitingJobs 9).any
        (fun j => tbDue j.deadline (tbNow (barge (oneJob 0) [lateWork 0] 0 []).dev)) = true) ∧
    (ent [(Reg.weir_CLOCK_AUTO, 0)] id).dev.flag Reg.weir_CLOCK_AUTO = false ∧
    ((ent [(Reg.weir_CLOCK_STEP, 32768)] id).dev.boot.vengRaw = none ∧
      (ent [(Reg.weir_CLOCK_STEP, 32768)] (setBrg (fun x => { x with goal := x.goal.set 7 1 }))).dev.brg.goal.getD 7 0 <
        (ent [(Reg.weir_CLOCK_STEP, 32768)] (setBrg (fun x => { x with goal := x.goal.set 7 1 }))).dev.clockStep 7 ∧
      stepMv ((ent [(Reg.weir_CLOCK_STEP, 32768)] (setBrg (fun x => { x with goal := x.goal.set 7 1 }))).dev.brg.goal.getD 7 0) ≤
        (ent [(Reg.clk_VENG_MV, 750)] id).dev.get Reg.clk_VENG_MV) ∧
    (((barge (oneJob 1) [] 5 []).dev.liveClusters.filter (fun i => !((barge (oneJob 1) [] 5 []).dev.gated i))).getLast? = some 7) := by
  and_intros <;> decide

theorem wit_WeirMetersPower_ceiling :
    f32Rat (State.reset.dev.get Reg.weir_WEIR_CEILING_W) * 1000 < ((((120000 : Nat) : Int)) : Rat) := by
  have h : f32Rat (State.reset.dev.get Reg.weir_WEIR_CEILING_W) = 110 := by decide +kernel
  rw [h]; norm_num

def flat (phase : Nat) : State :=
  ent [(Reg.mode_MODE_CURRENT, mCALIBRATE), (Reg.itk_OUT_FORMAT 0, 1), (Reg.fb_FB_FRAMES, 16), (Reg.fb_FB_DARK_FRAMES, phase),
    (Reg.fb_FB_FLAT_FRAMES, phase)] id

theorem wit_FlatBuildPhasesStart :
    ((flat 0).dev.fb.phase = 0 ∧ (flat 0).dev.mode = mCALIBRATE ∧
      (flat 0).dev.get (Reg.itk_FLAT_MODE ((flat 0).dev.get Reg.fb_FB_PORT)) = 0 ∧
      (flat 0).dev.get (Reg.itk_OUT_FORMAT ((flat 0).dev.get Reg.fb_FB_PORT)) = 1) ∧
    (writeCheck (flat 255).dev .firmware Reg.fb_FB_PHASE (.num 1) = none ∧ 0 < (flat 255).dev.get Reg.fb_FB_FRAMES ∧
      (flat 255).dev.get Reg.fb_FB_DARK_FRAMES < 256) ∧
    (writeCheck (flat 255).dev .firmware Reg.fb_FB_PHASE (.num 2) = none ∧ (flat 255).dev.get Reg.fb_FB_FLAT_FRAMES < 256) ∧
    (writeCheck (flat 255).dev .firmware Reg.fb_FB_PHASE (.num 3) = none ∧ 0 < (flat 255).dev.get Reg.fb_FB_DARK_FRAMES ∧
      0 < (flat 255).dev.get Reg.fb_FB_FLAT_FRAMES) ∧
    writeCheck (flat 255).dev .firmware Reg.fb_FB_PHASE (.num 4) = none := by and_intros <;> decide

def oneCommit : Commit := { byRecord := false, value := 3, bank := 1, loaded := false, missed := false }
def recorded : State := ent [(Reg.view_VIEW_SOURCE 3, 3)]
  (setSeq 3 (fun x => { x with recs := [{ (default : SetRec) with id := 5 }] }))

theorem wit_ViewCommitsWait :
    (writeCheck (st id).dev .firmware (Reg.view_UNPACK_SHIFT 3) (.num 7) = none ∧ (State.reset.dev.view 3).closed = false) ∧
    (writeCheck (st id).dev .firmware (Reg.view_COMMIT_FRAME 3) (.num 3) = none ∧ (State.reset.dev.view 3).commit = none ∧
      State.reset.dev.bankUsed 3 (State.reset.dev.view 3).spare = false) ∧
    (writeCheck recorded.dev .firmware (Reg.view_COMMIT_RECORD 3) (.num 5) = none ∧
      recorded.dev.get (Reg.view_VIEW_SOURCE 3) < 4 ∧
      (recorded.dev.seq (recorded.dev.get (Reg.view_VIEW_SOURCE 3))).recs.any (fun r => r.id == 5) = true ∧
      (recorded.dev.view 3).commit = none ∧ recorded.dev.bankUsed 3 (recorded.dev.view 3).spare = false) ∧
    3 < State.reset.dev.views.length ∧
    (writeCheck (st id).dev .firmware (Reg.view_COMMIT_CANCEL 3) (.num 1) = none ∧
      ((st (setView 3 (fun x => { x with commit := some oneCommit }))).dev.view 3).commit.isSome = true) ∧
    (((st (setView 3 (fun x => { x with commit := some oneCommit }))).dev.view 3).commit = some oneCommit ∧
      oneCommit.loaded = false) := by and_intros <;> decide

def pooled (b : List PoolBuf) : State := st (setPool 7 (fun x => { x with owner := 0x30, bufs := b }))

theorem wit_PoolCommandsApply :
    (poolRule (pooled [PoolBuf.fresh]).dev (PoolCmd.read (poolBytes 1 7 0 0 0 5 0)) = none ∧
      ((pooled [PoolBuf.fresh]).dev.pool 7).bufs[(0 : Fin 256).val]? = some PoolBuf.fresh ∧ 7 < State.reset.dev.pools.length) ∧
    (writeCheck (pooled [PoolBuf.fresh]).dev .firmware Reg.plg_POOL_CMD (.bytes (poolBytes 1 7 0 0 0 5 0)) = none ∧
      poolCmdRule .firmware (pooled [PoolBuf.fresh]) = none) ∧
    (writeCheck (pooled [PoolBuf.fresh]).dev .firmware Reg.plg_POOL_CMD (.bytes (poolBytes 2 7 255 0 0 5 0)) = none ∧
      writeCheck (pooled [PoolBuf.fresh]).dev .firmware Reg.plg_POOL_CMD (.bytes (poolBytes 3 7 0 0 0 0 0)) = none) ∧
    (pooled [PoolBuf.fresh]).dev.served = true ∧
    (((pooled [PoolBuf.fresh]).dev.pool 7).bufs ≠ [] ∧
      ((pooled [PoolBuf.fresh]).dev.pool 7).bufs.any (fun b => decide (0 < b.pins)) = false) ∧
    (1 ≤ (64 : Fin 65).val ∧ (ent [(Reg.mode_MODE_CURRENT, mSERVICE)] id).dev.served = true ∧ (ent [(Reg.mode_MODE_CURRENT, mSERVICE)] id).dev.mayAllocate = true) := by
  and_intros <;> decide

def oneWait : EncWait := { frame := 3, sofTb := 0, eofTb := 0 }
def encoding : State := ent [(Reg.hev_HEVC_MODE 7, 1), (Reg.hev_VIEW 7, 3)]
  (fun d => setUnit (.hevc 7) ⟨.running, false, none⟩ (setHev 7 (fun x => { x with awaits := [oneWait], busy := true })
    { d with time := { d.time with raw := 2400000000000 } }))

theorem wit_StreamsTakeInputs :
    (writeCheck (st id).dev .firmware (Reg.amt_FORCE_I 7) (.num 1) = none ∧ 7 < State.reset.dev.amt.length) ∧
    ((ent [(Reg.amt_STREAM_MODE 7, 2), (Reg.mode_MODE_CURRENT, mPLAYBACK)] id).dev.get (Reg.amt_STREAM_MODE 7) = 2 ∧
      (ent [(Reg.amt_STREAM_MODE 7, 2), (Reg.mode_MODE_CURRENT, mPLAYBACK)] id).dev.mode = mPLAYBACK) ∧
    (encoding.dev.encRuns 7 = true ∧ (encoding.dev.view (encoding.dev.get (Reg.hev_VIEW 7))).latest = none ∧
      (encoding.dev.hev 7).awaits.find? (fun x =>
        tbDue ((x.eofTb + encoding.dev.get (Reg.hev_INPUT_DELAY_NS 7) * 65536) % 2 ^ 64) (tbNow encoding.dev)) = some oneWait) := by
  and_intros <;> decide

def onePic : AuPicture := { poc := 0, idr := true, shown := true, w := 64, h := 64, ctu := 64, coding := default, rps := [] }
def task (au : Option AuPicture) : PicTask :=
  { s := 7, inp := default, kind := 0, layer := 0, keep := true, poc := 0, au := au, target := 0 }
def run (au : Option AuPicture) : PicRun :=
  { task := task au, target := 0, refs := [], out := 0, count := 0, qp := 30, head := [], slices := [], fault := false, source := [],
    acts := [], pred := 0, began := 0 }
def engine (e : Option PicRun) (q : List PicTask) : State := st (fun d => { d with engine := e, hevcQ := q, time := { d.time with raw := 10 ^ 18 } })
def decoding : State := ent [(Reg.hev_HEVC_MODE 7, 2)]
  (fun d => setUnit (.hevc 7) ⟨.running, false, none⟩ (setHev 7 (fun x => { x with busy := true, outQ := [] }) d))

theorem wit_HevcEngineWorks :
    ((engine none [task (some onePic)]).dev.engine = none ∧ (engine none [task (some onePic)]).dev.hevcQ = [task (some onePic)] ∧
      (task (some onePic)).au = some onePic) ∧
    ((engine none [task none]).dev.engine = none ∧ (engine none [task none]).dev.hevcQ = [task none] ∧ (task none).au = none) ∧
    ((engine (some (run none)) []).dev.engine = some (run none) ∧ (run none).task.s = (7 : Fin 8).val ∧ (run none).task.au = none) ∧
    (decoding.dev.get (Reg.hev_HEVC_MODE 7) = 2 ∧ decoding.dev.runs (.hevc 7) = true ∧ (decoding.dev.hev 7).busy = true ∧
      7 < decoding.dev.hevc.length) ∧
    ((engine (some (run (some onePic))) []).dev.engine = some (run (some onePic)) ∧ (run (some onePic)).task.s = (7 : Fin 8).val ∧
      (run (some onePic)).task.au = some onePic ∧ (engine (some (run (some onePic))) []).dev.watchdog 7 onePic ≤
        (engine (some (run (some onePic))) []).dev.time.raw - (run (some onePic)).began) ∧
    (decoding.dev.hev 7).outQ = [] ∧
    writeCheck (st id).dev .firmware (Reg.hev_OUT_RELEASE 7) (.num 0) = none := by and_intros <;> decide

def sending (m : Nat) : State := ent [(Reg.out_OUT_MODE 7, m), (Reg.out_FL_BC_PINS 7, 0x0302)]
  (fun d => setUnit (.out 7) ⟨.running, false, none⟩ (setOutp 7 (fun x => { x with reading := some 1 }) d))

theorem wit_OutputsSendFrames :
    ((sending 4).dev.runs (.out 7) = true ∧ (sending 4).dev.get (Reg.out_OUT_MODE 7) ≠ 0 ∧
      (sending 4).dev.get (Reg.out_OUT_MODE 7) ≠ 5) ∧
    ((sending 4).dev.output 7).reading = some 1 ∧
    ((sending 6).dev.get (Reg.out_OUT_MODE 7) = 6 ∧ (sending 6).dev.get (Reg.out_FL_BC_PINS 7) % 256 ≠ 0xFF) ∧
    (((sending 6).dev.output 7).present ≠ true ∧ (sending 6).dev.get (Reg.out_FL_BC_PINS 7) / 256 ≠ 0xFF) := by
  and_intros <;> decide

/-- One rank of channel 11 in the state given, of 16-Gbit x4 devices, its channel mapped. -/
def ranked (x : Rank) (l : List (Nat × Nat)) (f : Dev → Dev) : State :=
  let c : Chan := Chan.mk [x, Rank.reset, Rank.reset, Rank.reset] [0] none 0
  ent l (fun d => f { d with dram := { d.dram with width := 4, density := 16, mapped := [11], chans := d.dram.chans.set 11 c } })

def rank (st : Nat) : Rank := { Rank.reset with st := st }
def moving : Migration := { (default : Migration) with src := 0, dst := 1 }

theorem wit_DramErrorsAreHandled :
    ((ranked (rank 1) [] id).dev.hasChannel 11 = true ∧ ((ranked (rank 1) [] id).dev.dram.rank 11 0).live = true ∧
      (ranked (rank 1) [] id).dev.calm = true) ∧
    ((ranked (rank 1) [] id).dev.get Reg.dram_SCRUB_PERIOD_H ≠ 0 ∧ (ranked (rank 1) [] id).dev.dram.lineOf 11 0 77 = some 77) ∧
    (((ranked (rank 1) [] id).dev.dram.rank 11 0).st = rkMAPPED ∧
      4 ≤ (ranked (rank 1) [(Reg.dch_SPARE_RANK 11, 255)] id).dev.get (Reg.dch_SPARE_RANK 11)) ∧
    (((ranked (rank 3) [] (setChan 11 (fun x => { x with mig := some moving }))).dev.dram.chan 11).mig = some moving ∧
      (geometryOf (ranked (rank 3) [] id).dev.dram.width (ranked (rank 3) [] id).dev.dram.density).isSome = true ∧
      11 < (ranked (rank 3) [] (setChan 11 (fun x => { x with mig := some moving }))).dev.dram.chans.length) := by
  and_intros <;> decide

theorem wit_DramIsTrainedAndRefreshed :
    (writeCheck (ent [(Reg.mode_MODE_CURRENT, mSERVICE)] id).dev .firmware Reg.dram_RETRAIN (.num 1) = none ∧
      (ent [(Reg.mode_MODE_CURRENT, mSERVICE)] id).dev.mode = mSERVICE) ∧
    ((ent [(Reg.mode_MODE_CURRENT, mSERVICE)] (fun d => { d with dram := { d.dram with training := true } })).dev.dram.training = true ∧
      (ent [(Reg.mode_MODE_CURRENT, mSERVICE)] (fun d => { d with dram := { d.dram with training := true } })).dev.mode ≠ mBOOT) ∧
    ((ent [(Reg.mode_MODE_CURRENT, mBOOT)] (fun d => { d with dram := { d.dram with training := true } })).dev.dram.training = true ∧
      (ent [(Reg.mode_MODE_CURRENT, mBOOT)] (fun d => { d with dram := { d.dram with training := true } })).dev.mode = mBOOT) ∧
    (((ranked { rank 1 with owed := 3 } [] id).dev.dram.rank 11 0).live = true ∧
      ((ranked { rank 1 with owed := 3 } [] id).dev.dram.rank 11 0).due = none ∧
      (ranked { rank 1 with owed := 3 } [] id).dev.mode ≠ mTHERMAL ∧
      ((ranked { rank 1 with owed := 3 } [] id).dev.dram.rank 11 0).owed - 2 + 1 ≤ 2 ∧
      0 < ((ranked { rank 1 with owed := 3 } [] id).dev.dram.chan 11).ranks.length) ∧
    [4, 5].getLast? = some 5 := by and_intros <;> decide

/-- Magazine port 3 in the link state given. -/
def magSt (m : Nat) (l : List (Nat × Nat)) (f : MagPort → MagPort) (g : Dev → Dev) : State :=
  ent ((Reg.mag_MAG_STATE 3, m) :: l) (fun d => g (setMag 3 f d))

def allAligned : List (Nat × Nat) := (List.range 8).map (fun k => (Reg.mln_LANE_ALIGN 3 k, 1))

/-- A command of the host for port 3. -/
def oneCmd (ph : RecPhase) (heldRaw : Option Nat) : RecCmd :=
  { (default : RecCmd) with tag := 6, ns := 4, op := 2, count := 2, ph := ph, heldRaw := heldRaw }
def withCmd (c : RecCmd) (l : List (Nat × Nat)) (raw : Nat) : State :=
  magSt msUP l id (fun d => setRcq (fun r => { r with cmds := [c] }) { d with time := { d.time with raw := raw } })

theorem wit_MagLinksTrain :
    (let s := magSt msTRAINING [(Reg.mln_LANE_POWER 3 0, 0x33)] id id; s.dev.get (Reg.mln_LANE_POWER 3 0) % 16 = 3 ∧
      (s.dev.mag 3).fecOn = false ∧ ∀ k, k < 8 → bit (s.dev.get (Reg.mln_INVERT 3 k)) 0 = 0) ∧
    (let s := magSt msTRAINING [(Reg.mln_LANE_POWER 3 0, 0x33)] (fun x => { x with fecOn := true }) id;
      s.dev.get (Reg.mln_LANE_POWER 3 0) % 16 = 3 ∧ (s.dev.mag 3).fecOn = true) ∧
    (let s := magSt msTRAINING allAligned (fun x => { x with told := 3, trains := List.replicate 8 16 }) id;
      s.dev.magState 3 ≠ msUP ∧ s.dev.magAlignedAll 3 = true ∧ (s.dev.mag 3).told = 3 ∧ 3 < s.dev.mags.length ∧
      (updAt 7 (fun n => n + 1) (s.dev.mag 3).trains).all (fun n => decide (16 ≤ n)) = true) ∧
    ((magSt msTRAINING allAligned id id).dev.calm = true ∧ (magSt msTRAINING allAligned id id).dev.magState 3 = msTRAINING ∧
      (magSt msTRAINING allAligned id id).dev.magAlignedAll 3 = true ∧ ((magSt msTRAINING allAligned id id).dev.mag 3).wantIdent = false ∧
      ((magSt msTRAINING allAligned id id).dev.mag 3).exiting = false ∧ 3 < (magSt msTRAINING allAligned id id).dev.mags.length) ∧
    ((magSt msUP [] id id).dev.magState 3 = msUP ∧ (magSt msUP [] id id).dev.magPresent 3 = true) ∧
    (((magSt msDOWN [] (fun x => { x with link := { x.link with downRaw := some 1, fails := 1 } })
          (fun d => { d with time := { d.time with raw := 60000001 } })).dev.mag 3).link.downRaw = some 1 ∧
      (magSt msDOWN [] (fun x => { x with link := { x.link with downRaw := some 1, fails := 1 } })
          (fun d => { d with time := { d.time with raw := 60000001 } })).dev.magState 3 = msDOWN ∧
      cyclesOfMs 50 ≤ (magSt msDOWN [] (fun x => { x with link := { x.link with downRaw := some 1, fails := 1 } })
          (fun d => { d with time := { d.time with raw := 60000001 } })).dev.since 1 ∧
      ((magSt msDOWN [] (fun x => { x with link := { x.link with downRaw := some 1, fails := 1 } })
          (fun d => { d with time := { d.time with raw := 60000001 } })).dev.mag 3).link.fails < 2) ∧
    (((withCmd (oneCmd .atPort (some 0)) [(Reg.mag_MAG_HOLD_TIMEOUT_S 3, 1)] 1200000000).dev.portCmds 3).filter
      (fun c => decide (c.ph = .atPort) && (match c.heldRaw with
        | some r => decide (cyclesOfMs (1000 * (withCmd (oneCmd .atPort (some 0)) [(Reg.mag_MAG_HOLD_TIMEOUT_S 3, 1)] 1200000000).dev.get
            (Reg.mag_MAG_HOLD_TIMEOUT_S 3)) ≤
            (withCmd (oneCmd .atPort (some 0)) [(Reg.mag_MAG_HOLD_TIMEOUT_S 3, 1)] 1200000000).dev.since r)
        | none => false)) = [oneCmd .atPort (some 0)]) := by and_intros <;> decide

def onePkt (ty : Nat) : MagPacket := { seq := 0, ty := ty, flags := 0, tag := 0, index := 0, payload := [] }
def heard (f : MagLink → MagLink) : State := magSt msUP [] (fun x => { x with link := f { x.link with rx := 4095 } }) id

theorem wit_MagPacketsFlow_whole : packetOf (zeros 20 ++ leBytes 4 (crc32c (zeros 20))) = some (onePkt 0) := by decide +kernel

theorem wit_MagPacketsFlow :
    packetOf ([] : List Byte) = none ∧
    ((heard id).dev.magState 3 = msUP ∧ (onePkt 3).seq = (((heard id).dev.mag 3).link.rx + 1) % 4096 ∧ (onePkt 3).ty ≠ 2 ∧
      ((heard id).dev.mag 3).link.owing < 7 ∧ 3 < (heard id).dev.mags.length) ∧
    ((takePkt 3 (onePkt 2) (heard id).dev).1 = true ∧ (takePkt 3 (onePkt 3) (heard id).dev).1 = true) ∧
    ((heard id).dev.mag 3).link.nakOut = false ∧
    0 < ((heard (fun x => { x with owing := 3 })).dev.mag 3).link.owing ∧
    (heard id).dev.magPresent 3 = true ∧
    (let s := ent [(Reg.mag_MAG_STATE 3, msUP), (Reg.mag_REPLAY_TIMEOUT_NS 3, 0)]
        (setMag 3 (fun x => { x with link := { x.link with unacked := [default] } }));
      s.dev.magState 3 = msUP ∧ (s.dev.mag 3).link.unacked ≠ [] ∧ s.dev.magPresent 3 = true ∧
      cyclesOfNs (s.dev.get (Reg.mag_REPLAY_TIMEOUT_NS 3)) ≤ s.dev.since (s.dev.mag 3).link.replayRaw) := by and_intros <;> decide

theorem wit_MagazinesComeAndGo :
    (let s := magSt msUP [(Reg.mln_LANE_POWER 3 0, 0x32)] id id; s.dev.magState 3 = msUP ∧
      s.dev.get (Reg.mln_LANE_POWER 3 0) / 16 = 3) ∧
    ((magSt msUP [(Reg.mln_LANE_POWER 3 0, 0x32)] id id).dev.magState 3 = msUP ∧
      (magSt msUP [(Reg.mln_LANE_POWER 3 0, 0x32)] id id).dev.get (Reg.mln_LANE_POWER 3 0) % 16 = 2 ∧
      (List.range 8).all (fun k => decide (4090 ≤ nth (List.replicate 8 4090) k)) = true) ∧
    ((magSt msUP [(Reg.mag_MAG_PRESENT_PIN 3, 4)] (fun x => { x with present := true }) id).dev.get (Reg.mag_MAG_PRESENT_PIN 3) ≠ 0xFF ∧
      ((magSt msUP [(Reg.mag_MAG_PRESENT_PIN 3, 4)] (fun x => { x with present := true }) id).dev.mag 3).present = true) ∧
    (((magSt msABSENT [(Reg.mag_MAG_PRESENT_PIN 3, 4)] id (setUnit (.mag 3) ⟨.running, false, none⟩)).dev.mag 3).present = false ∧
      3 < (magSt msABSENT [] id id).dev.nMags ∧
      (magSt msABSENT [(Reg.mag_MAG_PRESENT_PIN 3, 4)] id (setUnit (.mag 3) ⟨.running, false, none⟩)).dev.runs (.mag 3) = true) ∧
    (((magSt msABSENT [] (fun x => { x with powerRaw := some 0, supply := true })
          (fun d => { d with time := { d.time with raw := 840000000 } })).dev.mag 3).powerRaw = some 0 ∧
      ((magSt msABSENT [] (fun x => { x with powerRaw := some 0, supply := true }) id).dev.mag 3).supply = true ∧
      cyclesOfMs ((magSt msABSENT [] id id).dev.powerUpMs 3) ≤
        (magSt msABSENT [] (fun x => { x with powerRaw := some 0, supply := true })
          (fun d => { d with time := { d.time with raw := 840000000 } })).dev.since 0) ∧
    writeCheck (st id).dev .firmware (Reg.mag_MAG_KEY 3) (.bytes (zeros 64)) = none ∧
    writeCheck (st id).dev .firmware (Reg.mag_MAG_KEY_CLEAR 3) (.num 1) = none ∧
    (((magSt msUP [] (fun x => { x with keyHeld := some (some (zeros 64)) }) id).dev.mag 3).keyHeld = some (some (zeros 64)) ∧
      (magSt msUP [] (fun x => { x with keyHeld := some (some (zeros 64)) }) id).dev.outstanding 3 = 0) := by and_intros <;> decide

def fetching : State := ent [(Reg.sq_SQ_ENABLE 63, 1), (Reg.sq_SQ_SIZE 63, 4), (Reg.sq_SQ_TAIL 63, 2)] id
def queue63 : State :=
  ent [(Reg.sq_SQ_ENABLE 63, 1), (Reg.sq_SQ_SIZE 63, 4), (Reg.sq_SQ_TAIL 63, 2), (Reg.sq_SQ_CQ 0, 63), (Reg.cq_CQ_ENABLE 63, 1),
    (Reg.cq_CQ_SIZE 63, 16)] (setRcq (fun r => { r with cmds := [oneCmd .ended none], comp := [6] }))

theorem wit_QueuesMove :
    (queue63.dev.ep.d3hot = false ∧ queue63.dev.flag (Reg.cq_CQ_ENABLE 63) = true ∧ queue63.dev.flag (Reg.sq_SQ_ENABLE 0) = false) ∧
    (fetching.dev.flag (Reg.sq_SQ_ENABLE 63) = true ∧ fetching.dev.sqAvail 63 ≠ 0 ∧ fetching.dev.ep.d3hot = false ∧ fetching.dev.calm = true) ∧
    (writeCheck (ent [(Reg.sq_SQ_SIZE 63, 16), (Reg.cq_CQ_SIZE 0, 16), (Reg.cq_CQ_ENABLE 0, 1)] id).dev .firmware
        (Reg.sq_SQ_ENABLE 63) (.num 1) = none ∧ State.reset.dev.get (Reg.sq_SQ_ENABLE 63) = 0) ∧
    (writeCheck (st id).dev .firmware (Reg.cq_CQ_ENABLE 63) (.num 1) = none ∧
      State.reset.dev.get (Reg.cq_CQ_ENABLE 63) = 0 ∧ State.reset.dev.rcq.cmds = []) ∧
    (queue63.dev.rcq.comp = [6] ∧ queue63.dev.cmd? 6 = some (oneCmd .ended none) ∧ (oneCmd .ended none).queue < 64 ∧
      queue63.dev.cqRoom (queue63.dev.get (Reg.sq_SQ_CQ (oneCmd .ended none).queue)) = true ∧
      queue63.dev.rcq.cmds.any (fun x => decide (x.ph = .taken) &&
        queue63.dev.get (Reg.sq_SQ_CQ x.queue) == queue63.dev.get (Reg.sq_SQ_CQ (oneCmd .ended none).queue)) = false) := by
  and_intros <;> decide

/-- A submission waits at queue 63. -/
def offered (op : Nat) : State :=
  ent [(Reg.sq_SQ_ENABLE 63, 1)] (setRcq (fun r => { r with fetched := r.fetched.set 63 [(BitVec.ofNat 8 op) :: zeros 63] }))

theorem wit_CommandsAreAdmitted : ∀ op ∈ [1, 2, 3, 4, 5, 6, 7],
    let s := admitInvalid (offered op).dev.entriesWaiting (offered op);
    s.dev.nextQueue.isSome = true ∧ (s.dev.nextQueue.map (·.1)) = some 63 ∧
    (s.dev.front 63).map (·.op) = some op ∧ (16383 : Nat) < 16384 ∧ s.dev.usedTags.contains 16383 = false := by
  decide

def oneUnit : RecUnit := { (default : RecUnit) with ready := true }
def idlePort (f : MagPort → MagPort) : State :=
  magSt msUP (allAligned ++ [(Reg.ps_PS_ENABLE, 1), (Reg.ps_T1_MS, 1)]) f (fun d => { d with time := { d.time with raw := 1200000 } })
def taking : State := st (fun d => { d with recQ := [oneUnit], take := { d.take with members := [3], ended := false } })
def configure : State := ent [(Reg.mode_MODE_CURRENT, mCONFIGURE)] id

theorem wit_RecorderWorks :
    ((withCmd (oneCmd .active none) [] 0).dev.cmd? 6 = some (oneCmd .active none) ∧ (oneCmd .active none).queue < 64 ∧
      (oneCmd .active none).ph = .active ∧ (withCmd (oneCmd .active none) [] 0).dev.ep.d3hot = false ∧ (oneCmd .active none).op = 2 ∧
      (oneCmd .active none).next < (oneCmd .active none).count) ∧
    ((idlePort (fun x => { x with ready := true })).dev.magIdle 3 = true ∧ ((idlePort (fun x => { x with ready := true })).dev.mag 3).ready = true ∧
      ((idlePort (fun x => { x with ready := true })).dev.mag 3).own = [] ∧
      ((idlePort (fun x => { x with ready := true })).dev.mag 3).exiting = false ∧ (idlePort (fun x => { x with ready := true })).dev.holdup = false ∧
      (idlePort (fun x => { x with ready := true })).dev.mode ≠ mTHERMAL ∧ (idlePort (fun x => { x with ready := true })).dev.magState 3 = msUP ∧
      (idlePort (fun x => { x with ready := true })).dev.psNext 3 = some 1) ∧
    (((idlePort (fun x => { x with exiting := true })).dev.mag 3).exiting = true ∧
      (idlePort (fun x => { x with exiting := true })).dev.magAlignedAll 3 = true ∧
      ((idlePort (fun x => { x with exiting := true })).dev.mag 3).wantIdent = false) ∧
    (taking.dev.frontUnit = [oneUnit] ∧ taking.dev.takeOpen = true ∧
      nth taking.dev.take.members (taking.dev.take.units % max 1 taking.dev.take.members.length) = 3 ∧ taking.dev.fwIdle 3 = true ∧
      [oneUnit].any (fun x => !x.ready) = false ∧ taking.dev.partnerPending oneUnit = false) ∧
    (writeCheck configure.dev .firmware Reg.clip_CLIP_RECOVER (.num 3) = none ∧ configure.dev.mode = mCONFIGURE ∧
      configure.dev.target = 0 ∧ 3 < configure.dev.nMags) ∧
    writeCheck configure.dev .firmware Reg.clip_CLIP_FORMAT (.num 3) = none := by and_intros <;> decide

theorem wit_EndpointTakesWrites :
    (configure.dev.mode ≠ 0 ∧ (6 : Nat) ≤ min 6 (configure.dev.get Reg.pcie_LINK_MAX_SPEED) ∧ [1, 2, 4, 8].contains 8 = true ∧
      configure.dev.get Reg.pcie_LINK_SPEED ≠ 6) ∧
    (configure.dev.ep.d3hot = false ∧ configure.dev.ep.mbxEnable = false) ∧
    ((st (setEp (fun e => { e with mbxEnable := true }))).dev.ep.d3hot = false ∧ (st (setEp (fun e => { e with mbxEnable := true }))).dev.ep.mbxEnable = true) ∧
    (configure.dev.ep.responses = [] ∧ configure.dev.ep.requests = []) := by and_intros <;> decide

theorem wit_EventCopyIsHandled :
    (configure.dev.ep.d3hot = false ∧ configure.arb.missed = 0) ∧
    ((st (setEp (fun e => { e with evtDue := true }))).dev.ep.evtDue = true ∧
      (st (setEp (fun e => { e with evtDue := true }))).dev.ep.evtSignalRaw = none) := by and_intros <;> decide

/-- A pound of 17 GiB with its window open for reads and writes. -/
def pound : State := ent [(Reg.mode_MODE_CURRENT, mOFFLOAD), (Reg.pcie_BAR2_ENABLE, 1), (Reg.pcie_BAR2_WRITE_ENABLE, 1),
  (Reg.dram_MAPPED_BYTES, 17 * 2 ^ 30)] id

theorem wit_PoundWindowOpens :
    (pound.dev.ep.d3hot = false ∧ 16 * 2 ^ 30 < pound.dev.get Reg.dram_MAPPED_BYTES) ∧
    (pound.dev.mode = mOFFLOAD ∧ pound.dev.flag Reg.pcie_BAR2_WRITE_ENABLE = true ∧ pound.dev.flag Reg.pcie_BAR2_ENABLE = true ∧
      pound.dev.bar2In (2 ^ 30 - 2) 2 = true ∧ pound.dev.dram.anyLost = false ∧ pound.mem.wf = true) ∧
    (configure.dev.mode ≠ mOFFLOAD ∧ configure.dev.mode ≠ mPLAYBACK ∧ configure.dev.bar2Open = false) ∧
    (pound.dev.bar2Open = true ∧ pound.dev.bar2In 4 2 = true ∧ (poundRead (pound.dev.ep.window + 4) 2 pound).2 = false ∧
      (poundRead (pound.dev.ep.window + 4) 2 { pound with poison := [0] }).2 = true) := by and_intros <;> decide

theorem wit_HostReadsAndPowers :
    (configure.dev.ep.d3hot = false ∧ configure.dev.mode ≠ 0 ∧ 0xFFFFF8 % 8 = 0 ∧ configure.dev.calm = true) ∧
    ((st (setEp (fun e => { e with d3hot := true }))).dev.ep.d3hot = true ∧ (st (setEp (fun e => { e with d3hot := true }))).arb.waiting = [] ∧
      (st (setEp (fun e => { e with d3hot := true }))).dev.ep.msix.any (fun v => v.pending) = false ∧
      (st (setEp (fun e => { e with d3hot := true }))).dev.ep.responses = [] ∧ (st (setEp (fun e => { e with d3hot := true }))).dev.ep.requests = [] ∧
      (st (setEp (fun e => { e with d3hot := true }))).dev.calm = true) := by and_intros <;> decide

def clock (l : List (Nat × Nat)) (raw : Nat) : Dev := (ent l (fun d => { d with time := { d.time with raw := raw } })).dev

theorem wit_EpochCountsWraps :
    (tbNow (cycle (clock [(Reg.tb_TB_OFFSET, 2 ^ 64 - 1)] 0)) < tbNow (clock [(Reg.tb_TB_OFFSET, 2 ^ 64 - 1)] 0) ∧
      0 < tbDiff (tbNow (cycle (clock [(Reg.tb_TB_OFFSET, 2 ^ 64 - 1)] 0))) (tbNow (clock [(Reg.tb_TB_OFFSET, 2 ^ 64 - 1)] 0)) ∧
      (cycle (clock [(Reg.tb_TB_OFFSET, 2 ^ 64 - 1)] 0)).get Reg.tb_TB_EPOCH ≠ (clock [(Reg.tb_TB_OFFSET, 2 ^ 64 - 1)] 0).get Reg.tb_TB_EPOCH) ∧
    (tbNow (clock [(Reg.tb_TB_OFFSET, 2 ^ 63 + 5), (Reg.tb_TB_RATE, 2 ^ 31)] (2 ^ 64 - 1)) <
        tbNow (cycle (clock [(Reg.tb_TB_OFFSET, 2 ^ 63 + 5), (Reg.tb_TB_RATE, 2 ^ 31)] (2 ^ 64 - 1))) ∧
      tbDiff (tbNow (cycle (clock [(Reg.tb_TB_OFFSET, 2 ^ 63 + 5), (Reg.tb_TB_RATE, 2 ^ 31)] (2 ^ 64 - 1))))
        (tbNow (clock [(Reg.tb_TB_OFFSET, 2 ^ 63 + 5), (Reg.tb_TB_RATE, 2 ^ 31)] (2 ^ 64 - 1))) < 0) := by and_intros <;> decide

theorem wit_StagedTimeIsApplied :
    (writeCheck (st id).dev .firmware Reg.stg_STAGE_ARM (.num 1) = none ∧ (stageRule .firmware (st id).dev).isNone = true ∧
      (st id).dev.stageArmed = false) ∧
    (writeCheck (ent [(Reg.stg_STAGE_ARM, 1)] id).dev .firmware Reg.stg_STAGE_ARM (.num 0) = none ∧
      writeCheck (ent [(Reg.stg_STAGE_ARM, 1)] id).dev .firmware Reg.stg_STAGE_ARM (.num 1) = none ∧
      (ent [(Reg.stg_STAGE_ARM, 1)] id).dev.stageArmed = true) ∧
    (stageRule (.client 1 .udp) (ent [(Reg.ptp_PTP_ENABLE, 1)] id).dev).isNone = false ∧
    ((ent [(Reg.stg_STAGE_ARM, 1), (Reg.stg_STAGE_FLAGS, 1)] id).dev.stageDue = true ∧
      bit ((ent [(Reg.stg_STAGE_ARM, 1), (Reg.stg_STAGE_FLAGS, 1)] id).dev.get Reg.stg_STAGE_FLAGS) 0 = 1) := by and_intros <;> decide

theorem wit_GeneratorsAreArmed :
    (writeCheck (st id).dev .firmware (Reg.tpg_TPG_ARM 15) (.num 1) = none ∧
      (ent [(Reg.tpg_PERIOD 15, 65536 * 101), (Reg.tpg_WIDTH_NS 15, 100)] id).dev.tpgRefuses 15 = false ∧
      (ent [(Reg.tpg_PERIOD 15, 65536 * 100), (Reg.tpg_WIDTH_NS 15, 100)] id).dev.tpgRefuses 15 = true) ∧
    writeCheck (st id).dev .firmware (Reg.tpg_TPG_ARM 15) (.num 0) = none ∧
    writeCheck (st id).dev .firmware (Reg.tpg_INVERT 15) (.num (b2n true)) = none := by and_intros <;> decide

def pulsing (route : Nat) : Tpg := { Tpg.reset with pulse := some { stop := 5, route := route, invert := false } }
def tpgState (g : Tpg) (l : List (Nat × Nat)) (raw : Nat) : State :=
  ent l (fun d => { d with tpg := d.tpg.set 15 g, time := { d.time with raw := raw } })

theorem wit_GeneratorsFire :
    ((tpgState { Tpg.reset with mode := 1, period := 65536, armRaw := 1 } [(Reg.tpg_TPG_ARM 15, 1)] 3).dev.calm = true ∧
      (tpgState { Tpg.reset with mode := 1, period := 65536, armRaw := 1 } [(Reg.tpg_TPG_ARM 15, 1)] 3).dev.tpgDue 15 = 2 + 1) ∧
    (((tpgState (pulsing 1) [] 5).dev.tpgOf 15).pulse = some { stop := 5, route := 1, invert := false } ∧
      5 ≤ (tpgState (pulsing 1) [] 5).dev.time.raw ∧ bit 1 0 = 1) := by and_intros <;> decide

def net (l : List (Nat × Nat)) (f : Dev → Dev) : State :=
  ent ([(Reg.eth_ETH_STATE 1, 1), (Reg.ptp_PTP_ENABLE, 1), (Reg.net_VLAN_TABLE, 0)] ++ l)
    (fun d => setUnit (.eth 1) ⟨.running, false, none⟩ (f d))
/-- VLAN 1 with both ports and the internal port. -/
def withVlan (s : State) : State := onDev (setB Reg.net_VLAN_TABLE ([1, 0, 7, 7] ++ zeros 252)) s
/-- A frame to port 0's neighbour, of an unused type. -/
def plain : List Byte := [2, 0, 0, 0, 0, 9, 2, 0, 0, 0, 0, 8, 0x88, 0xB5] ++ zeros 50
/-- A PTP Sync. -/
def sync : List Byte := [1, 0x1B, 0x19, 0, 0, 0, 2, 0, 0, 0, 0, 8, 0x88, 0xF7, 0, 2] ++ zeros 50
def plainView : EthView := { dst := 0x020000000009, src := 0x020000000008, vid := 1, pcp := 0, body := plain.drop 12 }

set_option maxRecDepth 20000 in
theorem wit_NetworkMovesFrames :
    (net [] id).dev.ethUp 1 = true ∧
    (viewFrame plain ((net [] id).dev.get (Reg.eth_PVID 1)) = some plainView ∧ (net [] id).dev.vlan plainView.vid = none) ∧
    (plain.length + 4 ≤ maxFrame ∧ (withVlan (net [] id)).dev.vlan plainView.vid = some (7, 7) ∧
      viewFrame plain ((withVlan (net [] id)).dev.get (Reg.eth_PVID 1)) = some plainView ∧
      ptpType plainView.body = none ∧ plainView.dst / 16 ≠ 0x0180C200000 ∧
      ((learn plainView.vid plainView.src (1 + 1) (inc64 (Reg.eth_RX_FRAMES 1)
        (learn 1 0x020000000009 1 (withVlan (net [] id)).dev))).targets (1 + 1) 7 plainView).contains 0 = false) ∧
    ((net [(Reg.eth_ETH_STATE 1, 0)] id).dev.runs (.eth 1) = true ∧ (net [(Reg.eth_ETH_STATE 1, 0)] id).dev.flag (Reg.eth_ETH_STATE 1) = false) ∧
    ((viewFrame sync ((net [] id).dev.get (Reg.eth_PVID 1))).isSome = true ∧
      ((viewFrame sync ((net [] id).dev.get (Reg.eth_PVID 1))).bind (fun h => ptpType h.body)) = some 0 ∧
      (net [] id).dev.flag Reg.ptp_PTP_ENABLE = true ∧
      tbDiff 0 0 < (net [(Reg.ptp_LAUNCH_LEAD_US, 5)] id).dev.get Reg.ptp_LAUNCH_LEAD_US * 65536000 ∧
      (net [(Reg.ptp_LAUNCH_LEAD_US, 5)] id).dev.get Reg.ptp_LAUNCH_LEAD_US * 65536000 ≤ tbDiff (5 * 65536000) 0 ∧
      tbDue (5 * 65536000) (tbNow (net [] (fun d => { d with time := { d.time with raw := 6001 } })).dev) = true) ∧
    (net [] (fun d => { d with net := { d.net with best := some ([], 0) } })).dev.net.best.isSome = true ∧
    ((net [] (setHev 7 (fun x => { x with proxy := [0] }))).dev.hev 7).proxy = [0] ∧
    ((net [(Reg.prx_PROXY_ENABLE 7, 0)] id).dev.flag (Reg.prx_PROXY_ENABLE 7) = false ∧
      (net [(Reg.prx_PROXY_ENABLE 7, 1)] id).dev.flag (Reg.prx_PROXY_ENABLE 7) = true) := by
  and_intros <;> first | decide | rfl

/-- Firmware runs in STANDBY. -/
def booted (f : Dev → Dev) : State :=
  ent [(Reg.mode_MODE_CURRENT, mSTANDBY)] (fun d => f { d with boot := { d.boot with phase := .done } })
def msg (ty count : Nat) (body : List Byte) : TuradMsg :=
  { tr := .udp, ip := 0x0A000001, port := 47110, waiting := 0, data := turadMsg ty 1 count 1 false false none body }
/-- A session of client 1 over UDP that has sent nothing. -/
def fresh : Session :=
  { tr := .udp, client := 1, ip := 0x0A000001, port := 47110, ks := none, last := 0, responses := [], sub := none, block := none, raw := 0 }
def oneRef : SessionRef := { tr := .udp, client := 1, ip := 0x0A000001 }
/-- A request of the type that is heard and answered by its handling in state `s`. -/
def handled (ty : Nat) (m : TuradMsg) (s : State) : Bool :=
  match turadHead m.data with
  | some h =>
    (match askOf h with
     | some a =>
       let y := handle (.client 1 .udp) oneRef m.port h false a s
       headFault s.dev m.tr m.waiting m.data.length h == none && h.ty == ty && h.flags == 0 && h.cid == 1 && newer32 h.seq 0 &&
         y.st.dev.served && decide (s.arb.next ≤ y.st.arb.next) && !y.proof
     | none => false)
  | none => false
/-- The state in which the session's request is handled. -/
def inSession : State := onDev (setSession oneRef (fun z => { z with last := 1 }))
  (onDev (fun d => setSession oneRef (fun z => { z with raw := d.time.raw }) d)
    (booted (fun d => { d with srv := { d.srv with sessions := [fresh] } })))
def keyed : State := onDev (setB (Reg.pkey_PROV_KEY 7) (zeros 31 ++ [1])) (booted id)

set_option maxRecDepth 20000 in
theorem wit_ServiceAnswers_messages :
    (handled 1 (msg 1 0 []) inSession = true) ∧ (handled 2 (msg 2 0 []) inSession = true) ∧
    handled 3 (msg 3 1 (itemBytes 0x0300 0 0 (zeros 8))) inSession = true ∧
    handled 4 (msg 4 1 (itemBytes 0x0300 0 0 (zeros 8))) inSession = true ∧
    handled 5 (msg 5 0 (zeros 8 ++ [1, 0, 0, 0] ++ zeros 4)) inSession = true ∧ handled 6 (msg 6 0 []) inSession = true ∧
    (handled 1 (msg 1 1 (itemBytes Reg.auth_AUTH_CHALLENGE 0 0 [])) inSession = true ∧
      msgNames (msg 1 1 (itemBytes Reg.auth_AUTH_CHALLENGE 0 0 [])) Reg.auth_AUTH_CHALLENGE = true) ∧
    ((booted (fun d => { d with srv := { d.srv with sessions := [fresh] } })).dev.session? oneRef = some fresh ∧
      (booted id).dev.authNeeded .udp = false) ∧
    ((match turadHead (msg 2 1 (itemBytes Reg.auth_AUTH_RESPONSE 10 0 (zeros 16))).data with
      | some h =>
        (match askOf h with
         | some (.write l) =>
           let y := handle (.client 1 .udp) oneRef 47110 h false (.write l) keyed
           headFault keyed.dev .udp 0 (msg 2 1 (itemBytes Reg.auth_AUTH_RESPONSE 10 0 (zeros 16))).data.length h == none && h.flags == 0 && h.cid == 1 && l.map (·.key) == [Reg.auth_AUTH_RESPONSE] &&
             y.st.dev.served && decide (keyed.arb.next ≤ y.st.arb.next)
         | _ => false)
      | none => false) = true ∧
      keyed.dev.authNeeded .udp = true ∧ keyed.dev.session? oneRef = none) := by and_intros <;> decide

def oneSub : Subscription := { ranges := [], queue := [default], lost := 0, sent := 0 }
def oneSession : Session :=
  { tr := .udp, client := 1, ip := 0x0A000001, port := 47110, ks := none, last := 0, responses := [], sub := some oneSub
    block := some { key := 0, total := 1, data := [], raw := 0 }, raw := 0 }
/-- An hour after the messages of the session. -/
def later : State := booted (fun d => { d with
  time := { d.time with raw := 3600 * 1200000000 }
  srv := { d.srv with sessions := [oneSession], fails := [{ client := 1, count := 5, lockedRaw := some 0 }] } })

theorem wit_ServiceAnswers :
    ((booted id).dev.served = true ∧ turadHead [1, 1, 0] = none ∧ rdLe [1, 1, 0] 1 1 = 1) ∧
    ((booted id).dev.calm = true ∧ writeCheck (booted id).dev (.client 1 .udp) Reg.auth_SESSION_TIMEOUT_S (.num 0) ≠ none) ∧
    writeCheck (booted id).dev .firmware Reg.auth_SESSION_TIMEOUT_S (.num 60) = none ∧
    (later.dev.session? oneRef = some oneSession ∧ oneSession.sub = some oneSub ∧ oneSub.queue ≠ [] ∧ oneRef.tr ≠ .mailbox) ∧
    (∀ x ∈ later.dev.srv.sessions, x.block.isSome = true ∧ secs 10 ≤ later.dev.cyclesSince ((x.block.map (·.raw)).getD 1)) ∧
    secs (later.dev.get Reg.auth_SESSION_TIMEOUT_S) ≤ later.dev.cyclesSince oneSession.raw ∧
    (∀ f ∈ later.dev.srv.fails, f.lockedRaw.isSome = true ∧ secs 10 ≤ later.dev.cyclesSince (f.lockedRaw.getD 1)) := by
  and_intros <;> decide

def oneSave : SaveJob := { bank := zeros 64, calib := none, dirtyAfter := false }
def saving : State := booted (fun d => { d with srv := { d.srv with save := some oneSave } })

set_option maxRecDepth 20000 in
theorem wit_StoreAndTargetWork :
    writeCheck (booted id).dev .firmware Reg.store_STORE_SAVE (.num 1) = none ∧
    (saving.dev.srv.save.isSome = true ∧ (booted id).dev.srv.save = none ∧ (booted (fun d => { d with holdup := true })).dev.holdup = true) ∧
    (saving.dev.srv.save = some oneSave ∧ saving.dev.srv.savePending = false) ∧
    (let s := booted (fun d => { d with twm := { d.twm with buf := padTo 128 (msg 1 0 []).data, reqLen := (msg 1 0 []).data.length } });
      s.dev.twmBusy = false ∧ s.dev.served = true ∧
      (match turadHead (padTo s.dev.twm.reqLen s.dev.twm.buf) with
       | some h => headFault s.dev .twm 0 (padTo s.dev.twm.reqLen s.dev.twm.buf).length h == none && (askOf h).isSome
       | none => false) = true) ∧
    ((booted id).dev.twmBusy = false ∧
      (turad .twm 0 0 0 (padTo (booted id).dev.twm.reqLen (booted id).dev.twm.buf) (booted id)).1.isSome = true) ∧
    ((booted id).dev.mode ≠ 0 ∧ twmDeaf (booted id) = none) ∧
    ((booted (fun d => { d with twm := { d.twm with asleep := true } })).dev.twm.asleep = true ∧ (booted id).dev.mode = mSTANDBY) ∧
    ((booted id).dev.twmIdle = true ∧ (booted (fun d => { d with twm := { d.twm with lastRaw := some 0 } })).dev.twmIdle = false) := by
  and_intros <;> decide

def scanning (l : List (Nat × Nat)) (f : Scan → Scan) : State :=
  ent ([(Reg.mode_MODE_CURRENT, mSCAN), (Reg.scan_SCAN_STATE, 1), (Reg.enc_ENC_INDEX_MODE 3, 2)] ++ l) (setScan f)

theorem wit_ScanFollowsEncoders :
    (State.reset.dev.hasScan = true ∧ State.reset.dev.get (Reg.enc_ENC_FILTER 3) ≤ 6000 ∧
      0 < (ent [(Reg.enc_ENC_FILTER 3, 1)] id).dev.get (Reg.enc_ENC_FILTER 3)) ∧
    (3 < State.reset.dev.enc.length ∧ State.reset.dev.flag (Reg.enc_ENC_INVERT 3) = false ∧
      (quadPhase true false + 4 - quadPhase (State.reset.dev.encoder 3).a (State.reset.dev.encoder 3).b) % 4 ≠
      (quadPhase false true + 4 - quadPhase (State.reset.dev.encoder 3).a (State.reset.dev.encoder 3).b) % 4 ∧
      (quadPhase true true + 4 - quadPhase (State.reset.dev.encoder 3).a (State.reset.dev.encoder 3).b) % 4 = 2 ∧
      [1, 3].contains ((quadPhase true false + 4 - quadPhase (State.reset.dev.encoder 3).a (State.reset.dev.encoder 3).b) % 4) = true ∧
      [1, 3].contains ((quadPhase false true + 4 - quadPhase (State.reset.dev.encoder 3).a (State.reset.dev.encoder 3).b) % 4) = true) ∧
    (scanning [] id).dev.get (Reg.enc_ENC_INDEX_MODE 3) = 2 ∧
    ((scanning [] id).dev.calm = true ∧ (scanning [] id).dev.mode = mSCAN ∧ (scanning [] id).dev.target = 0 ∧
      (scanning [] id).dev.get Reg.scan_SCAN_STATE = 1 ∧
      (scanning [] id).dev.startSeen ((scanning [] id).dev.get Reg.scan_START_SOURCE) = true) ∧
    (let s := scanning [] (fun c => { c with live := true, dirKnown := true, waitTurn := false, forward := true });
      s.dev.hasScan = true ∧ s.dev.scan.live = true ∧ s.dev.scan.dirKnown = true ∧ s.dev.scan.waitTurn = false ∧
      s.dev.moreFrames = true ∧ s.dev.scan.forward = true) ∧
    399 < (scanning [(Reg.stb_PATTERN_LINES, 400)] id).dev.get Reg.stb_PATTERN_LINES ∧
    (let s := tpgState (pulsing 64) [(Reg.mode_MODE_CURRENT, mCALIBRATE), (Reg.stb_STROBE_SOURCE, 1), (Reg.stb_PATTERN_LINES, 1)] 0;
      s.dev.routed 6 = true ∧ s.dev.mode = mCALIBRATE ∧ s.dev.get Reg.stb_STROBE_SOURCE = 1 ∧ s.dev.hasScan = true ∧
      s.dev.get Reg.stb_PATTERN_LINES ≠ 0 ∧
      (tpgState (pulsing 64) [] 0).dev.tooSoon = false) ∧
    (onDev (setScan (fun c => { c with fireRaw := some 0 })) (tpgState (pulsing 64) [(Reg.scan_SENSOR_CYCLE_NS, 20000)] 1)).dev.tooSoon = true := by
  and_intros <;> decide

theorem wit_ScanFollowsEncoders_passed :
    (let s := scanning [] (fun c => { c with live := true, dirKnown := true, waitTurn := false, forward := true });
      s.dev.slotPos s.dev.scan.slot true ≤ (s.dev.encoder (s.dev.get Reg.scan_SCAN_ENCODER)).posAt 399) := by decide +kernel

def oneXfer : TwXfer :=
  { cls := 1, target := 0x48, noRetry := false, wdata := [1], rlen := 2, tag := 7, owner := .client, attempts := 1, seen := 0, startTb := 0 }
def bus7 (f : TwBus → TwBus) : State := onDev (fun d => { d with time := { d.time with raw := 10 ^ 12 } }) (st (setBus 7 f))
def oneTwXfer : List Byte := [0x48, 0, 1, 2, 7, 0, 0, 0, 1]
def someDoneOk : TwLines := { sclLow := false, sdaLow := false, samples := [true] }

theorem wit_BusesRunTransactions :
    (writeCheck (st id).dev .firmware (Reg.tw_TW_XFER 7) (.bytes oneTwXfer) = none ∧ twXferOk oneTwXfer = true ∧
      (State.reset.dev.bus 7).clients < 8) ∧
    (((bus7 (fun b => { b with queue := [oneXfer] })).dev.bus 7).queue = [oneXfer] ∧
      ((bus7 (fun b => { b with queue := [oneXfer] })).dev.bus 7).canStart = true ∧
      ((bus7 (fun b => { b with queue := [oneXfer] })).dev.bus 7).stuckAt = none) ∧
    ((bus7 (fun b => { b with run := some oneXfer })).dev.calm = true ∧ ((bus7 (fun b => { b with run := some oneXfer })).dev.bus 7).run = some oneXfer ∧
      oneXfer.owner = .client ∧ (oneXfer.result { cut := 0, acks := [true, true, true], data := [] }).1 = 0 ∧ oneXfer.wdata ≠ [] ∧ 7 < (bus7 (fun b => { b with run := some oneXfer })).dev.tw.length) ∧
    (let s := bus7 (fun b => { b with queue := [oneXfer], busy := true, waiting := some (oneXfer, 0) });
      (s.dev.bus 7).queue = [oneXfer] ∧ (s.dev.bus 7).busy = true ∧ s.dev.twWaited 7 = true) ∧
    (let s := bus7 (fun b => { b with queue := [oneXfer], waiting := some (oneXfer, 0) });
      (s.dev.bus 7).queue = [oneXfer] ∧ (s.dev.bus 7).canStart = true ∧ s.dev.twWaited 7 = true) ∧
    (State.reset.dev.calm = true ∧ (State.reset.dev.bus 7).run = none) ∧
    (let s := bus7 (fun b => { b with pulse := true }); (s.dev.bus 7).pulse = true ∧ (s.dev.bus 7).clearing = none ∧
      s.dev.get (Reg.tw_TW_RST_TIME_US 7) * 1200 ≤ (s.dev.time.raw + 2 ^ 64 - (s.dev.bus 7).pulseAt) % 2 ^ 64) ∧
    (let s := bus7 (fun b => { b with pulse := true, clearing := some (oneXfer, true) });
      (s.dev.bus 7).pulse = true ∧ (s.dev.bus 7).clearing = some (oneXfer, true) ∧ clearPulses someDoneOk.samples = some 1 ∧ someDoneOk.sclLow = false ∧
      s.dev.get (Reg.tw_TW_RST_TIME_US 7) * 1200 ≤ (s.dev.time.raw + 2 ^ 64 - (s.dev.bus 7).pulseAt) % 2 ^ 64) ∧
    writeCheck (st id).dev .firmware (Reg.tw_TW_RST_ASSERT 7) (.num (b2n true)) = none := by and_intros <;> decide

theorem wit_DisabledBusSendsNothing :
    writeCheck (st id).dev .firmware (Reg.tw_TW_ENABLE 7) (.num (b2n false)) = none ∧ 7 < State.reset.dev.tw.length ∧
    ((bus7 (fun b => { b with live := false })).dev.bus 7).live = false ∧
    ((bus7 (fun b => { b with run := some oneXfer })).dev.bus 7).run.isSome = true := by and_intros <;> decide

theorem wit_HeatAndHoldupAreHandled :
    ((booted id).dev.mode ≠ 0 ∧ (hkRound [] [] [] (booted id).dev).shutCause = none) ∧
    (hkRound [] [] [] (booted (fun d => setTherm (fun x => { x with noJunction := 4 }) d)).dev).shutCause.isSome = true ∧
    ((ent [(Reg.mode_MODE_CURRENT, mTHERMAL)] (setTherm (fun x => { x with holdMs := some 3600000 }))).dev.mode = mTHERMAL ∧
      (ent [(Reg.mode_MODE_CURRENT, mTHERMAL)] (setTherm (fun x => { x with holdMs := some 3600000 }))).dev.get Reg.thm_HOLD_TIME_S * 1000 ≤ 3600000) ∧
    ((ent [(Reg.mode_MODE_CURRENT, mPREVIEW)] id).dev.holdup = false ∧ (ent [(Reg.mode_MODE_CURRENT, mPREVIEW)] id).dev.mode = mPREVIEW) ∧
    (let s := booted (fun d => { d with holdup := true, time := { d.time with raw := 10 ^ 15 } });
      s.dev.holdup = true ∧ s.dev.pwr.restored = false ∧ s.dev.pwr.done = false ∧
      s.dev.get Reg.rail_PWR_RESTORE_S * 1200000000 ≤ s.dev.since s.dev.pwr.raw) := by
  and_intros <;> decide +kernel

theorem wit_HeatAndHoldupAreHandled_volts :
    f32Rat (State.reset.dev.get Reg.rail_PWR_FAIL_V) + f32Rat (State.reset.dev.get Reg.rail_PWR_FAIL_HYST_V) ≤ ((24000 : Nat) : Rat) / 1000 := by
  have h : f32Rat (State.reset.dev.get Reg.rail_PWR_FAIL_V) + f32Rat (State.reset.dev.get Reg.rail_PWR_FAIL_HYST_V) ≤ 24 := by decide +kernel
  norm_num; exact h

/-- A reset sequence runs since the cycle given. -/
def inRom (raw now : Nat) : State :=
  onDev (fun d => { d with boot := { d.boot with phase := .rom, resetRaw := some raw }, time := { d.time with raw := now } })
    (booted (setN Reg.clk_RESET_CAUSE 0x12))

theorem wit_ResetsStartAnew :
    ((booted id).dev.mode ≠ 0 ∧ (booted id).dev.inReset = false ∧ (booted id).dev.mode ≠ mTHERMAL ∧ (booted id).dev.holdup = false ∧
      (booted id).dev.pwr.done = false ∧ (booted id).dev.pwr.held = none) ∧
    ((inRom 0 23999).dev.mode ≠ 0 ∧ (inRom 0 23999).dev.inReset = true ∧ (inRom 0 24000).dev.inReset = false ∧
      causeRank ((inRom 0 23999).dev.get Reg.clk_RESET_CAUSE) ≤ causeRank 0x12 ∧
      causeRank 0x15 < causeRank ((inRom 0 23999).dev.get Reg.clk_RESET_CAUSE)) ∧
    (ent [(Reg.mode_MODE_CURRENT, mTHERMAL)] id).dev.mode = mTHERMAL ∧
    writeCheck (booted id).dev .firmware Reg.clk_RESET_REQUEST (.num 0xA5A55A5A) = none ∧
    (let s := inRom 0 (600 * 1200000000); s.dev.boot.phase = .rom ∧
      s.dev.get Reg.clk_BOOT_WDT_S * 1200000000 ≤ s.dev.since s.dev.boot.wdtRaw) ∧
    (let s := booted (fun d => { d with time := { d.time with raw := 1200000000 } }); s.dev.boot.phase = .done ∧
      s.dev.mode ≠ mTHERMAL ∧ 1200000000 ≤ s.dev.since s.dev.boot.wdtRaw) := by and_intros <;> decide

def waiting : State := onDev (fun d => { d with boot := { d.boot with phase := .waiting } }) State.reset

theorem wit_FirmwareBootsAndUpdates :
    (let s := onDev (fun d => { d with boot := { d.boot with straps := 1 } }) State.reset;
      s.dev.mode = mBOOT ∧ s.dev.boot.phase = .rom ∧ s.dev.boot.straps % 4 = 1) ∧
    (State.reset.dev.mode = mBOOT ∧ State.reset.dev.boot.phase = .rom ∧ State.reset.dev.boot.straps % 4 = 0 ∧
      rdLe State.reset.dev.header 5 1 ≠ 1) ∧
    (State.reset.dev.flash.table.isSome = true ∧ ({ State.reset.dev.flash with sfdp := [] } : Flash).table = none) ∧
    (waiting.dev.boot.phase = .waiting ∧ imageCheck (fun o n => Mem.readBytes waiting.dev.boot.window o n) waiting.dev.boot.pushLen waiting.dev ≠ 0) ∧
    (writeCheck (booted id).dev .firmware Reg.boot_FW_UPDATE (.bytes []) = none ∧ (booted id).dev.mode = mSTANDBY ∧ ([] : List Byte).length ≤ slotSize) ∧
    ((ent [(Reg.mode_MODE_CURRENT, mPREVIEW)] id).dev.mode ≠ mSTANDBY ∧ (ent [(Reg.mode_MODE_CURRENT, mPREVIEW)] id).dev.mode ≠ mCONFIGURE) ∧
    writeCheck (booted id).dev .firmware Reg.boot_FW_COMMIT (.num 1) = none ∧
    writeCheck (booted id).dev .firmware Reg.boot_SUBSYSTEM_IDS (.num 5) = none ∧
    ((st (fun d => { d with boot := { d.boot with vengRaw := some 0 }, time := { d.time with raw := 120000 } })).dev.boot.vengRaw = some 0 ∧
      120000 ≤ (st (fun d => { d with boot := { d.boot with vengRaw := some 0 }, time := { d.time with raw := 120000 } })).dev.since 0) := by
  and_intros <;> decide

/-- A firmware image of four zero bytes, signed with the key whose hash the fuses hold at reset (assumption 33): the signature
was computed outside Lean from Table 21.5 and FIPS 186-5. -/
def image : List Byte :=
  beBytes 64 0x45544657010000020000000000000700040000000000000000000000000000000000000000000000000000000000000000000000000000000000000000000000 ++
  beBytes 64 0x394341b7182cd227c5c6b07ef8000cdfd86136c4292b8e576573ad7ed9ae41019f5818b4b971c9effc60e1ad9f1289f0ec3a4e415b4e19a4568618029f427fa5 ++
  beBytes 64 0xda9a8bc4ae92e02e06aae5286b300c64def8f0ea9055866064a254515480bc138015d9b72d7d57244ea8ef9ac0c621896708a59367f9dfb9f54ca84b3f1c9db1 ++
  beBytes 64 0x288b231c3ae0d4fe7344fd2533264720000000000000000000000000000000000000000000000000000000000000000000000000000000000000000000000000 ++
  beBytes 64 0x00000000000000000000000000000000000000000000000000000000000000000000000000000000000000000000000000000000000000000000000000000000 ++
  beBytes 64 0x00000000000000000000000000000000000000000000000000000000000000000000000000000000000000000000000000000000000000000000000000000000 ++
  beBytes 64 0x000000000000000000000000000000000000000000000000000000000000000008d999057ba3d2d969260045c55b97f089025959a6f434d651d207d19fb96e9e ++
  beBytes 64 0x4fe0e86ebe0e64f85b96a9c75295df614119121ca99c518b176cf5a6de344669892f19afafe2f62e3695392b908d28783df0daf275de12faad2463ae9961d171 ++ zeros 4

def pushed : State := st (fun d => { d with boot := { d.boot with phase := .waiting, window := Mem.writeBytes [] 0 image, pushLen := 516 } })

/-- Reading back a list written at 0. -/
theorem readBytes_written (l : List Byte) : ∀ n o, o + n ≤ l.length →
    Mem.readBytes (Mem.writeBytes [] 0 l) o n = sliceB l o n
  | 0, o, _ => by simp [Mem.readBytes, sliceB]
  | n + 1, o, h => by
    have hr := Mem.read_writeBytes_same (m := []) 0 l o rfl (by omega)
    rw [Nat.zero_add] at hr
    rw [Mem.readBytes, readBytes_written l n (o + 1) (by omega), hr, sliceB, sliceB,
      List.drop_eq_getElem_cons (show o < l.length by omega), List.take_succ_cons]

/-- The check of an image reads its header and its payload alone. -/
theorem imageCheck_congr {f g : Nat → Nat → List Byte} {n : Nat} (room : Nat) (d : Dev) (h0 : f 0 512 = g 0 512)
    (hn : rdLe (g 0 512) 0x10 4 = n) (h1 : f 512 n = g 512 n) : imageCheck f room d = imageCheck g room d := by
  simp only [imageCheck, h0, hn, h1]

set_option maxRecDepth 20000 in
theorem wit_FirmwareBootsAndUpdates_signed : pushed.dev.boot.phase = .waiting ∧
    imageCheck (fun o n => Mem.readBytes pushed.dev.boot.window o n) pushed.dev.boot.pushLen pushed.dev = 0 := by
  refine ⟨rfl, (imageCheck_congr (g := fun o n => sliceB image o n) (n := 4) _ _ (readBytes_written image 512 0 (by decide +kernel))
    (by decide +kernel) (readBytes_written image 4 512 (by decide +kernel))).trans ?_⟩
  have h : imageCheck (fun o n => sliceB image o n) 516 State.reset.dev = 0 := by decide +kernel
  exact h

/-! ## Ill-formed terms -/

/-- A client whose CLIENT_ID does not fit 16 bits. -/
def bad : Writer := .client 65536 .udp

set_option maxRecDepth 100000 in
/-- A CLIENT_ID that does not fit is refused in every command that carries a writer. -/
theorem wf_refuses_client : ([
    .unitEnable bad (.eth 0),
    .unitDisable bad (.eth 0),
    .modeRequest bad 0,
    .sbSend bad 0 [],
    .ckFreqChange bad 0 0,
    .slip bad (.sensor 0 0),
    .dwell bad (.sensor 0 0),
    .deskewArm bad 0,
    .rxPowerReq bad 0 0,
    .sbPowerReq bad 0 0,
    .prbsSel bad (.sensor 0 0) 0,
    .loop bad (.sensor 0 0) 0,
    .trigNow bad 0,
    .submit bad 0 [],
    .fbPhaseDark bad,
    .fbPhaseFlat bad,
    .fbPhaseBuild bad,
    .fbPhaseClear bad,
    .stagedWrite bad 0 (.num 0),
    .commitFrame bad 0 0,
    .commitRecord bad 0 0,
    .commitCancel bad 0,
    .forceI bad 0,
    .poolCmdMark bad 0 0 0 0 0,
    .poolCmdGenerate bad 0 0 0 0,
    .poolCmdResetPool bad 0,
    .poolCmdAllocate bad 0 0 0 1,
    .outRelease bad 0 0,
    .retrain bad,
    .magKey bad 0 (zeros 64),
    .magKeyClear bad 0,
    .sqEnable bad 0 true,
    .cqEnable bad 0 true,
    .clipRecover bad 0,
    .clipFormat bad 0,
    .stageArm bad true,
    .tpgArm bad 0 true,
    .tpgInvert bad 0 true,
    .dictWrite bad 0 (.num 0),
    .storeSave bad,
    .twXfer bad 0 [],
    .twRstAssert bad 0 true,
    .resetRequest bad 0,
    .fwUpdate bad [],
    .fwCommit bad,
    .subsystemIds bad 0] : List Instr).all (fun c => !c.wf) = true := by decide

set_option maxRecDepth 100000 in
/-- Operands out of the width or length of their fields are refused. -/
theorem wf_refuses_operands_1 : ([
    .evtSourceLost 256 0,
    .evtSourceLost 0 65536,
    .recordFlushDone 0 256,
    .rawSyncSof 0 0 [65536],
    .rawSyncSol 0 0 [65536],
    .rawSyncEol 0 0 [0, 65536] true,
    .rawSyncEof 0 0 [65536],
    .rawSyncAbsent 0 0 [65536],
    .stripePacket 0 [(4, 0)] false,
    .stripePacket 0 [(1, 18446744073709551616)] false,
    .stripeAlignStripe 0 [(1, 0), (4, 0)],
    .modeRequest .firmware 65536,
    .ckFreqChange .firmware 0 256,
    .dwellDone (.sensor 0 0) 4294967296 { ctle := 0, dfe := [0, 0, 0, 0, 0], eyeMv := 0 },
    .dwellDone (.sensor 0 0) 0 { ctle := 16, dfe := [0, 0, 0, 0, 0], eyeMv := 0 },
    .dwellDone (.sensor 0 0) 0 { ctle := 0, dfe := [0, 0, 0, 0], eyeMv := 0 },
    .dwellDone (.sensor 0 0) 0 { ctle := 0, dfe := [0, 0, 0, 0, 0], eyeMv := 65536 },
    .deskewLanding (.sensor 0 0) 128,
    .rxPowerReq .firmware 0 256,
    .sbPowerReq .firmware 0 256,
    .prbsSel .firmware (.sensor 0 0) 256,
    .loop .firmware (.sensor 0 0) 256,
    .trigPinEdge true 16 false,
    .stagedWrite .firmware 16777216 (.num 0),
    .stagedWrite .firmware 0 (.num 18446744073709551616)] : List Instr).all (fun c => !c.wf) = true := by decide

set_option maxRecDepth 100000 in
/-- Operands out of the width or length of their fields are refused. -/
theorem wf_refuses_operands_2 : ([
    .commitFrame .firmware 0 18446744073709551616,
    .commitRecord .firmware 0 4294967296,
    .poolCmdMark .firmware 0 256 0 0 0,
    .poolCmdMark .firmware 0 0 256 0 0,
    .poolCmdMark .firmware 0 0 0 256 0,
    .poolCmdMark .firmware 0 0 0 0 4294967296,
    .poolCmdGenerate .firmware 0 256 0 0,
    .poolCmdGenerate .firmware 0 0 256 0,
    .poolCmdGenerate .firmware 0 0 0 4294967296,
    .poolCmdAllocate .firmware 0 18446744073709551616 0 1,
    .poolCmdAllocate .firmware 0 0 18446744073709551616 1,
    .poolCmdAllocate .firmware 0 0 0 4294967296,
    .outRelease .firmware 0 256,
    .dramReadComplete 0 0 { line := 0, reader := 3, result := 0 },
    .scrubRead 0 0 { line := 0, reader := 0, result := 3 },
    .dramTrainingComplete [{ channel := 12, rank := 0, fail := none, lanes := zeros 80 }],
    .dramTrainingComplete [{ channel := 0, rank := 4, fail := none, lanes := zeros 80 }],
    .dramTrainingComplete [{ channel := 0, rank := 0, fail := none, lanes := zeros 79 }],
    .dramTrainingComplete [{ channel := 0, rank := 0, fail := some (0, 0), lanes := zeros 80 }],
    .dramTrainingComplete [{ channel := 0, rank := 0, fail := some (9, 0), lanes := zeros 80 }],
    .dramTrainingComplete [{ channel := 0, rank := 0, fail := some (1, 256), lanes := zeros 80 }],
    .magRetrain 0 256,
    .magLinkUp 0 (.stripes [[(2, 0)]]),
    .magPacketDiscard 0 (.stripes [List.replicate 8 (4, 0)]),
    .magDataPacket 0 (.words [[]])] : List Instr).all (fun c => !c.wf) = true := by decide

set_option maxRecDepth 100000 in
/-- Operands out of the width or length of their fields are refused. -/
theorem wf_refuses_operands_3 : ([
    .magCompletion 0 (.words (List.replicate 8 [])),
    .ackReceived 0 { seq := 4096, data := 0, ctrl := 0 },
    .ackReceived 0 { seq := 0, data := 65536, ctrl := 0 },
    .nakReceived 0 { seq := 0, data := 0, ctrl := 65536 },
    .laneSleepReceived 0 256,
    .magKey .firmware 0 (zeros 63),
    .sqTailDb 0 18446744073709551616,
    .cqHeadDb 0 18446744073709551616,
    .cmdRead 65536 [],
    .cmdWrite 65536 [],
    .cmdFlush 65536,
    .cmdTrim 65536,
    .cmdAbort 65536,
    .cmdIdentify 65536 [],
    .cmdGetLog 65536 [],
    .clipRecover .firmware 256,
    .clipFormat .firmware 256,
    .pcieLinkUp 0 1,
    .pcieLinkUp 7 1,
    .pcieLinkUp 1 3,
    .devReset 18446744073709551616,
    .mbxCtrl 18446744073709551616,
    .mbxReqTail 18446744073709551616 [],
    .mbxRspHead 18446744073709551616,
    .evtSize 18446744073709551616] : List Instr).all (fun c => !c.wf) = true := by decide

set_option maxRecDepth 100000 in
/-- Operands out of the width or length of their fields are refused. -/
theorem wf_refuses_operands_4 : ([
    .evtTail 18446744073709551616,
    .bar2Window 18446744073709551616,
    .bar2Read 18446744073709551616 0,
    .bar2Read 0 8192,
    .bar2Write 18446744073709551616 [],
    .bar2Write 0 (zeros 4097),
    .hostReset 0,
    .hostReset 5,
    .registerWrite 0 2 0,
    .registerWrite 4 8 0,
    .registerWrite 0 4 4294967296,
    .ethFrameReceived 0 { data := zeros 13, good := true, residence := 0 },
    .ptpLaunch 0 18446744073709551616 0 [],
    .ptpLaunch 0 0 18446744073709551616 [],
    .turadRead { msg 1 0 [] with ip := 4294967296 },
    .turadWrite { msg 2 0 [] with port := 65536 },
    .readBlock { msg 3 0 [] with port := 65536 },
    .writeBlock { msg 4 0 [] with port := 65536 },
    .subscribe { msg 5 0 [] with port := 65536 },
    .unsubscribe { msg 6 0 [] with port := 65536 },
    .authChallenge { msg 1 0 [] with port := 65536 },
    .authResponse { msg 2 0 [] with port := 65536 },
    .dictWrite .firmware 16777216 (.num 0),
    .dictWrite .firmware 0 (.num 18446744073709551616),
    .blockWriteTimeout { oneRef with client := 65536 }] : List Instr).all (fun c => !c.wf) = true := by decide

set_option maxRecDepth 100000 in
/-- Operands out of the width or length of their fields are refused. -/
theorem wf_refuses_operands_5 : ([
    .eventMessageSend { oneRef with ip := 4294967296 },
    .sessionTimeout { oneRef with client := 65536 },
    .authLockoutEnd 65536,
    .twmTransaction [{ addr := 128, read := true, data := [], count := 0, misplaced := false }],
    .scanStart 256,
    .patternFetch 65536,
    .twTransactionComplete 0 { cut := 0, acks := List.replicate 67 true, data := [] },
    .twTransactionComplete 0 { cut := 0, acks := [], data := zeros 65 },
    .housekeepingRound (List.replicate 47 0) [] [],
    .housekeepingRound (65536 :: List.replicate 47 0) [] [],
    .pwrFail 256,
    .pwrRestored 65536,
    .powerOnReset 32,
    .warmReset 256,
    .resetRequest .firmware 4294967296,
    .vengConfirmTimeout 65536,
    .subsystemIds .firmware 4294967296,
    .hostDataTransfer 65536 true [],
    .sleepingTransmitterWake 0 [0],
    .sleepingTransmitterWake 0 (4294967296 :: List.replicate 7 0),
    .macAgeing 281474976710656,
    .hevcAccessUnit 0 { sets := [], slices := [], picture := some { onePic with poc := 4294967296 } },
    .hevcAccessUnit 0 { sets := [], slices := [], picture := some { onePic with w := 0 } },
    .hevcAccessUnit 0 { sets := [], slices := [], picture := some { onePic with h := 0 } },
    .hevcAccessUnit 0 { sets := [], slices := [], picture := some { onePic with ctu := 0 } }] : List Instr).all (fun c => !c.wf) = true := by decide

set_option maxRecDepth 100000 in
/-- Operands out of the width or length of their fields are refused. -/
theorem wf_refuses_operands_6 : ([
    .sqFetchDone 0 (some [zeros 63]),
    .hevcAccessUnit 0 { sets := [], slices := [], picture := some { onePic with rps := [(4294967296, false)] } }] : List Instr).all (fun c => !c.wf) = true := by decide

/-! ## The manual's worked examples, published check values, and single steps -/

/-- The check values of CRC-32C and of CRC-16 with polynomial 0x1021 and initial value 0xFFFF over "123456789" (the catalogue of
parametrised CRC algorithms: CRC-32/ISCSI and CRC-16/IBM-3740). -/
theorem test_crcs : crc32c (ascii "123456789") = 0xE3069283 ∧ crc16 (ascii "123456789") = 0x29B1 := by decide +kernel

/-- SHA-256 of "abc" (FIPS 180-4, examples). -/
theorem test_sha256 : beNat (sha256 (ascii "abc")) = 0xBA7816BF8F01CFEA414140DE5DAE2223B00361A396177A9CB410FF61F20015AD := by
  decide +kernel

/-- The AES S-box at 0x00 and 0x53 (FIPS 197, section 5.1.1). -/
theorem test_sbox : sboxN 0 = 0x63 ∧ sboxN 0x53 = 0xED := by decide +kernel

/-- R397's example: the target is future, 17 × 2^40 units ahead, and not due. -/
theorem test_tb_compare : tbDiff 0x0000010000000000 0xFFFFF00000000000 = 17 * 2 ^ 40 ∧
    tbDue 0x0000010000000000 0xFFFFF00000000000 = false := by decide +kernel

/-- R147's example: a budget of 90 W with h × r = 0.70 refills 630 µJ per tick; the bucket counts in 1/256 µJ. -/
theorem test_weir_refill : ratFloor (f32Rat 0x42B40000 * 2560 * (7 / 10)) = 630 * 256 := by decide +kernel

/-- Table 8.6: the quantiser of block rows 1, 2 and 3 of the worked tile. -/
theorem test_amtan_rows :
    let c : TileCfg := { bits := 16, cfa := 1, h := 256, w := 256, pPic := true, qMin := 0, qMax := 4, qBase := 2, budget := 174720 }
    nextQ c 256 0 0 2 = 2 ∧ nextQ c 256 8 7203 2 = 3 ∧ nextQ c 256 16 13806 3 = 4 ∧ nextQ c 256 24 19905 4 = 4 := by decide +kernel

/-- R252 at 60,000 / 1,001: frame 1 begins 1,001 × 65,536,000,000,000 div 60,000 units after ALIGN. -/
theorem test_frame_time : frameOffset 6 1 = 1093358933333 := by decide +kernel

/-- R65's example: lanes that land at 0, 2, 0 and 5 receive DESKEW 5, 3, 5 and 0. -/
theorem test_deskew :
    (match exec (.deskewLanding (.sensor 3 3) 5) (deskewing [(Reg.sen_LANE_COUNT 3, 4)] .deskew [(0, 0), (1, 2), (2, 0)] 3) with
     | .next t => (List.range 4).map (fun k => t.dev.get (Reg.lan_DESKEW 3 k))
     | _ => []) = [5, 3, 5, 0] := by decide +kernel

/-- R22, R23: two events of one source are numbered in the order posted, after the reset record with sequence number 0. -/
theorem test_arbitration :
    (match exec .eventArbitration (st (fun d => post 0x3806 8 2 0 (post 0x3806 8 1 0 d))) with
     | .next t => t.arb.ring.map (fun r => (r.seq, r.code, r.arg0))
     | _ => []) = [(0, 0x0401, 0), (1, 0x3806, 1), (2, 0x3806, 2)] := by decide +kernel

/-- R38, Table 2.1: STANDBY does not lead to RECORD; the request is refused, nothing moves. -/
theorem test_mode_refused :
    (match exec (.modeRequest .firmware mRECORD) standby with
     | .next t => (t.dev.mode, t.dev.target, t.dev.answer)
     | _ => (0, 0, 0)) = (mSTANDBY, 0, stREFUSED) := by decide +kernel

/-- Table 2.1: STANDBY leads to CONFIGURE; MODE_TARGET shows it until the transition completes. -/
theorem test_mode_accepted :
    (match exec (.modeRequest .firmware mCONFIGURE) standby with
     | .next t => (t.dev.mode, t.dev.target)
     | _ => (0, 0)) = (mSTANDBY, mCONFIGURE) := by decide +kernel

/-- R485: SCL held low begins the reset pulse for the transaction at the front, which leaves the queue. -/
theorem test_scl_low :
    (match exec (.sclLowTimeout 7) (bus7 (fun b => { b with queue := [oneXfer] })) with
     | .next t => ((t.dev.bus 7).pulse, (t.dev.bus 7).queue.length)
     | _ => (false, 9)) = (true, 0) := by decide +kernel

/-- R479: a transaction to address 0x78 is refused; the 7-bit address is 0x08 to 0x77. -/
theorem test_xfer_address : twXferOk [0x78, 0, 1, 0, 0, 0, 0, 0, 1] = false ∧ twXferOk [0x77, 0, 1, 0, 0, 0, 0, 0, 1] = true := by
  decide +kernel

/-- R393: TB falls past 2^64 and TB_EPOCH rises by one. -/
theorem test_epoch : (cycle (clock [(Reg.tb_TB_OFFSET, 2 ^ 64 - 1)] 0)).get Reg.tb_TB_EPOCH = 1 := by decide +kernel

/-- R450: the quadrature sequence A leads B counts up: 00, 10 adds one; in the other direction 00, 01 takes one away. -/
theorem test_quadrature :
    ((encLevels 3 true false State.reset.dev).encoder 3).c = -((encLevels 3 false true State.reset.dev).encoder 3).c ∧
    ((encLevels 3 true true State.reset.dev).encoder 3).c = 0 := by decide +kernel

/-- A step on an empty queue advances TB_RAW by one cycle and leaves the rest (assumption 3). -/
theorem test_idle_step : (match step State.reset with
    | .next t => (t.dev.time.raw, t.pending)
    | _ => (0, [])) = (1, []) := by decide +kernel

/-- A step runs the command at the front and keeps the rest of the queue. -/
theorem test_front_first : (match step { standby with pending := [.twmSleep, .twmWake] } with
    | .next t => (t.dev.twm.asleep, t.pending)
    | _ => (false, [])) = (true, [.twmWake]) := by decide +kernel

end Sys2Proof.Tests
end

section
/-! The statements about what every command of the block does: it answers a next state that keeps the queue of commands, the
canonical form of the memories and the soundness of the log, and where it is a write that a check of R419 refuses it answers
the code and changes nothing else. -/

namespace Sys2Proof.Machine

/-! ## Every command answers a state that keeps the queue -/

theorem completes_next {P : State → Prop} {t : State} (h : P t) : completes (.next t) P := ⟨t, rfl, h⟩

theorem completes_imp {P Q : State → Prop} {o : Host.Outcome State Fault Refusal} (h : completes o P)
    (hPQ : ∀ t, P t → Q t) : completes o Q := by
  obtain ⟨t, ht, hP⟩ := h
  exact ⟨t, ht, hPQ t hP⟩

/-- The shapes that the meanings of commands share: a change of the units alone, a write, an access of the host. -/
theorem Keeps.ofDev (s : State) (f : Dev → Dev) : Keeps s (onDev f s) := keeps_onDev s s f (.rfl' s)

theorem Keeps.ofWrite {s : State} {r : WRes} (h : KeepsW s r) : Keeps s (finishWrite s r) := keeps_finishWrite s s r (.rfl' s) h

theorem Keeps.ofAccess {s : State} {f : State → State} (h : ∀ u, Keeps s u → Keeps s (f u)) : Keeps s (hostAccess f s) :=
  keeps_hostAccess s s f h (.rfl' s)

theorem Keeps.ofAccessDev (s : State) (f : Dev → Dev) : Keeps s (hostAccess (onDev f) s) :=
  .ofAccess fun u h => keeps_onDev s u f h

/-- A command with a condition has no effect where the condition fails. -/
theorem Keeps.ofIf {c : Prop} [Decidable c] {s a : State} (h : Keeps s a) : Keeps s (if c then a else s) :=
  ite_keeps h (.rfl' s)

theorem Keeps.ofUnless {c : Prop} [Decidable c] {s a : State} (h : Keeps s a) : Keeps s (if c then s else a) :=
  ite_keeps (.rfl' s) h

/-! ### Commands whose effect goes by cases -/

theorem execPoolCmdAllocate_keeps (w : Writer) (k : Fin 8) (geometry base count : Nat) (s : State) :
    completes (execPoolCmdAllocate w k geometry base count s) (Keeps s) := by
  refine completes_next ?_
  have hw (t : State) (ht : Keeps s t) (b : List Byte) : Keeps s (finishWrite t (writePoolCmd w b t)) :=
    keeps_finishWrite s t _ ht (keeps_writePoolCmd s t w b ht)
  cases w with
  | firmware => exact hw _ (.ofIf (.ofDev s _)) _
  | client => exact hw s (.rfl' s) _

theorem execFrameTakeUp_keeps (s : State) : completes (execFrameTakeUp s) (Keeps s) := by
  refine completes_next ?_
  split
  · exact keeps_takeUpFrame s s _ (.rfl' s)
  · exact .rfl' s

theorem execPictureCoded_keeps (k : Fin 8) (r : EncResult) (s : State) : completes (execPictureCoded k r s) (Keeps s) := by
  refine completes_next ?_
  split
  · exact .ofIf (keeps_encDone s s _ _ _ (.rfl' s))
  · exact .rfl' s

theorem execPictureDecoded_keeps (k : Fin 8) (r : DecResult) (s : State) :
    completes (execPictureDecoded k r s) (Keeps s) := by
  refine completes_next ?_
  split
  · exact .ofIf (keeps_decDone s s _ _ _ (.rfl' s))
  · exact .rfl' s

theorem execDecWatchdog_keeps (k : Fin 8) (r : DecResult) (s : State) : completes (execDecWatchdog k r s) (Keeps s) := by
  refine completes_next ?_
  split
  · exact .ofIf (keeps_decDone s _ _ _ _ (.ofDev s _))
  · exact .rfl' s

theorem execRecordFlushDone_keeps (ns : Fin 4) (status : Nat) (s : State) :
    completes (execRecordFlushDone ns status s) (Keeps s) := by
  refine completes_next ?_
  split
  · exact .ofIf (keeps_magSettle s _ (keeps_flushDone s s _ (.rfl' s)))
  · exact .rfl' s

theorem execVengConfirmTimeout_keeps (reported : Nat) (s : State) :
    completes (execVengConfirmTimeout reported s) (Keeps s) := by
  refine completes_next ?_
  split
  · exact .ofIf (.ofDev s _)
  · exact .rfl' s

theorem execWarmReset_keeps (cause : Nat) (s : State) : completes (execWarmReset cause s) (Keeps s) :=
  completes_next (ite_keeps (keeps_warmReset s s _ (.rfl' s))
    (ite_keeps (keeps_thermalRestart s s (.rfl' s)) (.ofIf (keeps_requestReset s s _ (.rfl' s)))))

theorem execDwellDone_keeps (l : LaneRef) (matched : Nat) (eq : Equaliser) (s : State) :
    completes (execDwellDone l matched eq s) (Keeps s) := by
  refine completes_next ?_
  cases l with
  | sensor p k => exact keeps_settleState s _ (.ofDev s _)
  | mag p k => exact keeps_magSettle s _ (.ofDev s _)

theorem execDeskewLanding_keeps (l : LaneRef) (pos : Nat) (s : State) : completes (execDeskewLanding l pos s) (Keeps s) := by
  refine completes_next ?_
  cases l with
  | sensor p k => exact keeps_settleState s _ (.ofDev s _)
  | mag p k => exact keeps_magSettle s _ (.ofDev s _)

theorem execDeskewWindowEnd_keeps (p : LinkRef) (s : State) : completes (execDeskewWindowEnd p s) (Keeps s) := by
  refine completes_next ?_
  cases p with
  | sensor p => exact keeps_settleState s _ (.ofDev s _)
  | mag p => exact .ofIf (keeps_magSettle s _ (.ofDev s _))

theorem execPortRealigned_keeps (p : Fin 4) (s : State) : completes (execPortRealigned p s) (Keeps s) := by
  refine completes_next ?_
  dsimp only
  split
  · exact .ofUnless (keeps_settleState s _ ((keeps_mk _ _).2 (.rfl' s)))
  · exact .rfl' s

theorem execPrbsSel_keeps (w : Writer) (l : PrbsRef) (v : Nat) (s : State) : completes (execPrbsSel w l v s) (Keeps s) := by
  refine completes_next (.ofWrite ?_)
  cases l with
  | sensor p k => exact keeps_writeLaneEntry s s _ _ _ (.rfl' s)
  | side p => exact keeps_writeLaneEntry s s _ _ _ (.rfl' s)
  | mag p k => exact keeps_writeMagLane s s _ _ _ (.rfl' s)

theorem execTwmTransaction_keeps (t : List TwmXfer) (s : State) : completes (execTwmTransaction t s) (Keeps s) := by
  refine completes_next (.ofUnless ?_)
  split
  next u hu => exact keeps_twmDeaf s s (.rfl' s) u hu
  next => exact Keeps.foldl _ (fun u x h => keeps_twmPart s u x h) t s (.rfl' s)

theorem execDictWrite_keeps (w : Writer) (key : Nat) (v : Val) (s : State) : completes (execDictWrite w key v s) (Keeps s) := by
  refine completes_next (keeps_writeSettle s _ (.ofWrite ?_))
  cases w with
  | firmware => exact keeps_dictWriteAny s s _ _ _ (.rfl' s)
  | client id tr => exact ite_keepsW (keeps_authWrite s s _ _ _ _ _ (.rfl' s)) (keeps_dictWriteAny s s _ _ _ (.rfl' s))

/-! ### Every command -/

/-- The commands by the shape of their meaning: a change of the units, a write of an entry, an operation on the state, each
as it is or with what settles after it. -/
theorem exec_keeps (c : Instr) (s : State) : completes (exec c s) (Keeps s) := by
  have hs : Keeps s s := .rfl' s
  cases c with
  -- a change of the units
  | viewBankLoaded | backlogPost | bargeTakeHead | stealGrant | weirTick | clockReview | clockRaiseConfirmed | ceilingCheck
  | c0Late | lastActiveLineSent | migrateDone | refreshTick | drfmIssue | rfmIssue | ackTimer | laneSleepReceived
  | magInserted | magPowerUpDone | magKeyApply | storeSaveComplete | ckRestart | prbsLock | stageApply | tpgPulseEnd
  | ethFrameReceived | ethLink | macAgeing | masterLost | ptpLaunch | pcieLinkUp | d3hotEntry | blockWriteTimeout
  | sessionTimeout | authLockoutEnd | twControlClear => exact completes_next (.ofDev s _)
  -- a change of the units under a condition
  | twmWake | twmSleep | frameTrigger | encoderIndex | trackingTick | strobeSyncPulse =>
    exact completes_next (.ofIf (.ofDev s _))
  | finderPresent | sqTailDb => exact completes_next (.ofUnless (.ofDev s _))
  | finderMsg => exact completes_next (.ofUnless (ite_keeps (.ofDev s _) (.ofDev s _)))
  | tbEpochWrap => exact completes_next (.ofUnless ((keeps_mk _ _).2 hs))
  -- a change of the units, and what it leads to at the recorder, at the ports or on a bus
  | magRetrain | magRetrainFail | ackReceived | nakReceived | replayTimeout | sleepingTransmitterWake | tempHoldTimeout
  | magRemoved | psTimer | psExitDone | unitStartupComplete => exact completes_next (keeps_magSettle s _ (.ofDev s _))
  | sidebandFrameSent | laneLockLost | laneWakeDone | trigPinEdge | trigTimeReached | tpgFire =>
    exact completes_next (keeps_settleState s _ (.ofDev s _))
  | stripeAlignStripe => exact completes_next (.ofIf (keeps_settleState s _ (.ofDev s _)))
  | scanStart => exact completes_next (.ofIf (keeps_scanSettle s _ (.ofDev s _)))
  | caParityError => exact completes_next (keeps_forcedGo s _ (.ofDev s _))
  | twTransactionStart | twRstPulseEnd | twTransactionComplete | busBusyTimeout | stretchTimeout | busIdle | busConditionSeen
  | sclLowTimeout => exact completes_next (keeps_twSettle s _ _ (.ofDev s _))
  -- an access of the host
  | evtVectorSignal | bar2Window | tbNowRead | tbRawRead | msixUnmask => exact completes_next (.ofAccessDev s _)
  | devReset => exact completes_next (.ofAccess fun u h => ite_keeps (keeps_requestReset s u _ h) h)
  | mbxCtrl => exact completes_next (.ofAccess fun u h => keeps_mbxControl s u _ h)
  | mbxReqTail => exact completes_next (.ofAccess fun u h => keeps_mbxRequest s u _ _ h)
  | mbxRspHead => exact completes_next (.ofAccess fun u h => keeps_mbxRelease s u _ h)
  | evtSize => exact completes_next (.ofAccess fun u h => keeps_evtResize s u _ h)
  | evtTail => exact completes_next (.ofAccess fun u h => keeps_evtRelease s u _ h)
  | bar2Read => exact completes_next (keeps_bar2Read s s _ _ hs)
  | bar2Write => exact completes_next (keeps_bar2Write s s _ _ hs)
  | registerWrite => exact completes_next (keeps_registerWrite s s _ _ _ hs)
  | hostReset => exact completes_next (.ofUnless (keeps_hostReset s s _ hs))
  | d0Return => exact completes_next (keeps_d0Return s s hs)
  -- a write of an entry
  | unitEnable | unitDisable =>
    exact completes_next (keeps_magSettle s _ (.ofWrite (keeps_writeEnable s s _ _ _ hs)))
  | modeRequest => exact completes_next (.ofWrite (keeps_writeModeRequest s s _ _ hs))
  | sbSend | ckFreqChange | deskewArm => exact completes_next (.ofWrite (keeps_writeLaneEntry s s _ _ _ hs))
  | rxPowerReq | sbPowerReq =>
    exact completes_next (keeps_settleState s _ (.ofWrite (keeps_writeLaneEntry s s _ _ _ hs)))
  | slip | dwell | loop => exact completes_next (.ofWrite (keeps_laneWrite s s _ _ _ _ _ hs))
  | prbsSel w l v => exact execPrbsSel_keeps w l v s
  | trigNow => exact completes_next (keeps_settleState s _ (.ofWrite (keeps_writeTrigNow s s _ _ _ hs)))
  | submit => exact completes_next (.ofWrite (keeps_writeSubmit s s _ _ _ hs))
  | fbPhaseDark | fbPhaseFlat | fbPhaseBuild | fbPhaseClear =>
    exact completes_next (.ofWrite (keeps_writeFbPhase s s _ _ hs))
  | stagedWrite => exact completes_next (.ofIf (.ofWrite (keeps_writeStaged s s _ _ _ _ hs)))
  | commitFrame => exact completes_next (.ofWrite (keeps_writeCommitFrame s s _ _ _ hs))
  | commitRecord => exact completes_next (.ofWrite (keeps_writeCommitRecord s s _ _ _ hs))
  | commitCancel => exact completes_next (.ofWrite (keeps_writeCommitCancel s s _ _ _ hs))
  | forceI => exact completes_next (.ofWrite (keeps_writeForceI s s _ _ _ hs))
  | poolCmdMark | poolCmdGenerate | poolCmdResetPool => exact completes_next (.ofWrite (keeps_writePoolCmd s s _ _ hs))
  | poolCmdAllocate w k geometry base count => exact execPoolCmdAllocate_keeps w k geometry base count s
  | outRelease => exact completes_next (.ofWrite (keeps_writeOutRelease s s _ _ _ hs))
  | retrain => exact completes_next (.ofWrite (keeps_writeDram s s _ _ _ hs))
  | magKey | magKeyClear => exact completes_next (.ofWrite (keeps_writeMag s s _ _ _ hs))
  | sqEnable | cqEnable => exact completes_next (.ofWrite (keeps_writeRcq s s _ _ _ hs))
  | clipRecover | clipFormat => exact completes_next (.ofWrite (keeps_writeClip s s _ _ _ hs))
  | stageArm => exact completes_next (.ofWrite (keeps_writeStageArm s s _ _ hs))
  | tpgArm | tpgInvert => exact completes_next (.ofWrite (keeps_writeTpg s s _ _ _ _ hs))
  | storeSave => exact completes_next (.ofWrite (keeps_writeStoreSave s s _ _ hs))
  | twXfer => exact completes_next (keeps_twSettle s _ _ (.ofWrite (keeps_writeTwXfer s s _ _ _ hs)))
  | twRstAssert => exact completes_next (keeps_twSettle s _ _ (.ofWrite (keeps_writeTwRstAssert s s _ _ _ hs)))
  | resetRequest => exact completes_next (.ofWrite (keeps_writeResetRequest s s _ _ hs))
  | fwUpdate => exact completes_next (.ofWrite (keeps_writeFwUpdate s s _ _ hs))
  | fwCommit => exact completes_next (.ofWrite (keeps_writeFwCommit s s _ _ hs))
  | subsystemIds => exact completes_next (.ofWrite (keeps_writeSubsystemIds s s _ _ hs))
  | dictWrite w key v => exact execDictWrite_keeps w key v s
  -- events and modes
  | eventArbitration => exact completes_next (keeps_arbitrate s s hs)
  | evtSourceLost => exact completes_next (keeps_logLost s s _ hs)
  | unitShutdownComplete => exact completes_next (keeps_magSettle s _ (keeps_unitStopped s s _ hs))
  | modeTransitionComplete => exact completes_next (.ofIf (keeps_standbyReached s _ (keeps_modeComplete s s hs)))
  | modeTimeout => exact completes_next (keeps_modeTimeout s s hs)
  | forcedTransition => exact completes_next (keeps_forcedGo s s hs)
  | recordFlushDone ns status => exact execRecordFlushDone_keeps ns status s
  -- sensor ports
  | rawSyncSof =>
    exact completes_next (keeps_settleState s _ (keeps_onSync s s _ _ _ _ _ (fun n u h => keeps_rawSof s u _ _ n h) hs))
  | rawSyncSol =>
    exact completes_next (keeps_settleState s _ (keeps_onSync s s _ _ _ _ _ (fun n u h => keeps_rawSol s u _ _ n h) hs))
  | rawSyncEof =>
    exact completes_next (keeps_settleState s _ (keeps_onSync s s _ _ _ _ _ (fun _ u h => keeps_rawEof s u _ _ h) hs))
  | rawSyncEol | rawSyncAbsent => exact completes_next (keeps_settleState s _ (keeps_rawSegment s s _ _ _ _ hs))
  | stripePacket => exact completes_next (keeps_settleState s _ (keeps_stripeFeed s s _ _ _ hs))
  | dwellDone l matched eq => exact execDwellDone_keeps l matched eq s
  | deskewLanding l pos => exact execDeskewLanding_keeps l pos s
  | deskewWindowEnd p => exact execDeskewWindowEnd_keeps p s
  | portRealigned p => exact execPortRealigned_keeps p s
  | lateRow => exact completes_next (keeps_settleState s _ (keeps_lateRow s s _ hs))
  | statsFinalWrite => exact completes_next (keeps_finalStats s s _ hs)
  -- pictures
  | frameTakeUp => exact execFrameTakeUp_keeps s
  | jobComplete => exact completes_next (keeps_completeJob s s _ _ hs)
  | deadlineMiss => exact completes_next (keeps_deadlineMiss s s _ hs)
  | amtanPictureOffered => exact completes_next (.ofIf (keeps_offerAll s _ _ (.ofDev s _)))
  | encInputDelayExpiry => exact completes_next (keeps_encExpiry s s _ hs)
  | hevcPictureStart => exact completes_next (keeps_pictureStartCmd s s hs)
  | pictureCoded k r => exact execPictureCoded_keeps k r s
  | hevcAccessUnit => exact completes_next (.ofIf (keeps_decAll s _ _ (.ofDev s _)))
  | pictureDecoded k r => exact execPictureDecoded_keeps k r s
  | decWatchdog k r => exact execDecWatchdog_keeps k r s
  | hevcOutputPublish => exact completes_next (.ofIf (keeps_hevcPublish s s _ hs))
  | outputFrameStart => exact completes_next (.ofIf (keeps_outputFrame s s _ hs))
  -- DRAM
  | dramReadComplete => exact completes_next (keeps_dramRead s s _ _ _ hs)
  | scrubRead => exact completes_next (.ofUnless (keeps_forcedGo s _ (keeps_requesterRead s s _ _ _ _ hs)))
  | dramTrainingComplete => exact completes_next (keeps_trainingEnd s s _ hs)
  -- magazines and the recorder's queues
  | magLinkUp | magPacketDiscard | magDataPacket | magCompletion =>
    exact completes_next (keeps_magSettle s _ (keeps_magFeed s s _ _ hs))
  | cqHeadDb => exact completes_next (.ofUnless (keeps_magSettle s _ (keeps_cqHead s s _ _ hs)))
  | sqFetchDone => exact completes_next (keeps_magSettle s _ (keeps_sqFetched s s _ _ hs))
  | cmdRead | cmdWrite | cmdFlush | cmdTrim | cmdIdentify | cmdGetLog =>
    exact completes_next (keeps_magSettle s _ (keeps_admitNext s s _ _ _ _ (fun _ h => h) hs))
  | cmdAbort =>
    exact completes_next (keeps_magSettle s _ (keeps_admitNext s s _ _ _ _ (fun u h => keeps_onDev s u _ h) hs))
  | completionPost => exact completes_next (keeps_magSettle s _ (keeps_completionTake s s hs))
  | hostDataTransfer => exact completes_next (keeps_magSettle s _ (keeps_hostTransfer s s _ _ _ hs))
  | frameUnitWrite => exact completes_next (keeps_magSettle s _ (keeps_takeWrite s s _ hs))
  -- the dictionary service on its transports
  | turadRead | turadWrite | readBlock | writeBlock | subscribe | unsubscribe =>
    exact completes_next (keeps_turadTake s s _ _ hs)
  | authChallenge | authResponse => exact completes_next (.ofIf (keeps_turadTake s s _ _ hs))
  | eventMessageSend => exact completes_next (keeps_eventSend s s _ hs)
  | twControlSubmit => exact completes_next (keeps_twmSubmit s s hs)
  | twmTransaction t => exact execTwmTransaction_keeps t s
  | proxySend => exact completes_next (keeps_proxySend s s _ hs)
  -- SCAN
  | encoderEdge => exact completes_next (.ofIf (keeps_scanSettle s _ (keeps_encoderEdge s s _ _ _ _ hs)))
  | slotTrigger => exact completes_next (.ofIf (keeps_scanSettle s _ (keeps_slotTrigger s s _ hs)))
  | patternFetch => exact completes_next (.ofIf (keeps_patternFetch s s _ hs))
  -- power, resets and boot
  | housekeepingRound => exact completes_next (keeps_roundEnd s s _ _ _ hs)
  | thermalRestartTimer => exact completes_next (keeps_thermalRestart s s hs)
  | pwrFail => exact completes_next (keeps_powerFail s s _ hs)
  | pwrRestored => exact completes_next (keeps_powerRestored s s _ hs)
  | powerOnReset => exact completes_next (keeps_powerOn s s _ hs)
  | powerLoss => exact completes_next (keeps_powerOff s s hs)
  | warmReset cause => exact execWarmReset_keeps cause s
  | clockFail => exact completes_next (keeps_warmReset s s _ hs)
  | bootWatchdogExpiry | runtimeWatchdogExpiry => exact completes_next (.ofIf (keeps_requestReset s s _ hs))
  | romBoot => exact completes_next (keeps_mbxGo s _ (keeps_romBoot s s hs))
  | bootPushGo => exact completes_next (keeps_mbxGo s _ (keeps_pushGo s s hs))
  | vengConfirmTimeout reported => exact execVengConfirmTimeout_keeps reported s

/-- Settles O3: no meaning of a command faults or refuses, and each keeps the queue (`exec_keeps`). That a command whose
condition fails completes without effect is this model's choice (`Keeps.ofIf`, `Keeps.ofUnless`). -/
theorem everyCommandCompletes : Obligations.EveryCommandCompletes :=
  fun c s => completes_imp (exec_keeps c s) fun _ h => h.pending

/-! ## Refused writes -/

/-- The outcome of a command that is one write of an entry, where a check of R419 refuses it. -/
theorem next_finishWrite_refused {w : Writer} {k c : Nat} {v : Val} {accept : State → Option (Nat × (Dev → Dev))}
    {effect : Nat → State → State} {s : State} (hc : writeCheck s.dev w k v = some c) :
    (.next (finishWrite s (entryWrite w k v accept effect s)) : Host.Outcome State Fault Refusal) =
      .next (onDev (fun d => { d with answer := c }) s) :=
  congrArg _ (finishWrite_refused w k c v accept effect s hc)

theorem next_writeLaneEntry_refused {w : Writer} {k c : Nat} {v : Val} {s : State} (hc : writeCheck s.dev w k v = some c) :
    (.next (finishWrite s (writeLaneEntry w k v s)) : Host.Outcome State Fault Refusal) =
      .next (onDev (fun d => { d with answer := c }) s) := by
  unfold writeLaneEntry
  exact next_finishWrite_refused hc

theorem next_writeMag_refused {w : Writer} {k c : Nat} {v : Val} {s : State} (hc : writeCheck s.dev w k v = some c) :
    (.next (finishWrite s (writeMag w k v s)) : Host.Outcome State Fault Refusal) =
      .next (onDev (fun d => { d with answer := c }) s) := by
  unfold writeMag
  exact next_finishWrite_refused hc

/-- Settles O9: each of the six commands is one write of its entry, and `finishWrite_refused` says what a write leaves that a
check of R419 refuses. -/
theorem refusedWriteChangesNothing : Obligations.RefusedWriteChangesNothing := by
  intro w s code
  refine ⟨?modeRequest, ?stageArm, ?tpgArm, ?sbSend, ?magKey, ?resetRequest⟩
  case modeRequest => exact fun v h => next_finishWrite_refused h
  case stageArm => exact fun v h => next_finishWrite_refused h
  case tpgArm => exact fun n v h => next_finishWrite_refused h
  case sbSend => exact fun p b h => next_writeLaneEntry_refused h
  case magKey => exact fun p b h => next_writeMag_refused h
  case resetRequest => exact fun v h => next_finishWrite_refused h

end Sys2Proof.Machine
end

section
/-! The statements about steps, reset, events and the host's copy of the log. -/

namespace Sys2Proof.Machine

/-! ## Steps and reset -/

theorem step_of_pending {s : State} {c : Instr} {rest : List Instr} (h : s.pending = c :: rest) :
    step s = exec c { s with pending := rest } := by
  unfold step
  rw [h]

theorem step_of_idle {s : State} (h : s.pending = []) : step s = .next (idle s) := by
  unfold step
  rw [h]

/-- Settles O1: `step` goes by the queue of commands (`step_of_pending`). -/
theorem stepRunsFrontCommand : Obligations.StepRunsFrontCommand :=
  fun _ _ _ h => step_of_pending h

theorem sound_iff (s : State) :
    s.sound = true ↔ s.mem.wf = true ∧ s.hostMem.wf = true ∧ s.arb.logSound = true := by
  simp [State.sound, and_assoc]

/-- What keeps the two memories and the log keeps a sound state sound. -/
theorem Keeps.sound {s t : State} (h : Keeps s t) (hs : s.sound = true) : t.sound = true := by
  obtain ⟨hmem, hhost, hlog⟩ := (sound_iff s).mp hs
  exact (sound_iff t).mpr ⟨h.mem hmem, h.host hhost, h.log hlog⟩

/-- A step answers a state that keeps the memories and the log: a cycle changes the units alone, and a command keeps them
by `exec_keeps`. The queue, which a step shortens, is no part of what a sound state is. -/
theorem step_sound (s : State) (hs : s.sound = true) : completes (step s) (fun t => t.sound = true) := by
  cases hp : s.pending with
  | nil =>
    rw [step_of_idle hp]
    exact completes_next ((Keeps.ofDev s _).sound hs)
  | cons c rest =>
    rw [step_of_pending hp]
    exact completes_imp (exec_keeps c { s with pending := rest }) fun _ h => h.sound hs

/-- Settles O4: every step answers a sound state (`step_sound`), and the state it answers is the only one. -/
theorem stepKeepsSoundness : Obligations.StepKeepsSoundness := by
  intro s t hs ht
  obtain ⟨u, hu, hsound⟩ := step_sound s hs
  obtain rfl : u = t := Host.Outcome.next.inj (hu.symm.trans ht)
  exact hsound

/-- Settles O5: the state of reset, evaluated. -/
theorem resetLeaves : Obligations.ResetLeaves := by
  refine ⟨?sound, ?mode, ?target, ?pending, ?next, ?ring, ?sources⟩
  case sound => rfl
  case mode => rfl
  case target => rfl
  case pending => rfl
  case next => rfl
  case ring => rfl
  case sources => rfl

/-! ## The sources of events -/

/-- What keeps the two numbers that name a source. -/
def KeepsName (f : Source → Source) : Prop := ∀ x, (f x).hi = x.hi ∧ (f x).inst = x.inst

/-- The source found by name after one was updated: that one's image, which stood for nothing posted where none was listed. -/
theorem find_updSource (l : List Source) (hi inst j i : Nat) {f : Source → Source} (hf : KeepsName f) :
    (updSource hi inst f l).find? (fun x => x.hi == j && x.inst == i) =
      if j = hi ∧ i = inst then some (f ((l.find? (fun x => x.hi == j && x.inst == i)).getD (Source.empty hi inst)))
      else l.find? (fun x => x.hi == j && x.inst == i) := by
  induction l with
  | nil =>
    have hname := hf (Source.empty hi inst)
    grind [updSource, Source.empty]
  | cons x l ih =>
    have hname := hf x
    grind [updSource]

theorem source_updSource_same (d : Dev) (hi inst : Nat) {f : Source → Source} (hf : KeepsName f) :
    ({ d with sources := updSource hi inst f d.sources } : Dev).source hi inst = f (d.source hi inst) := by
  simp [Dev.source, find_updSource _ _ _ _ _ hf]

theorem source_updSource_other (d : Dev) {hi inst j i : Nat} {f : Source → Source} (hf : KeepsName f)
    (hne : (j, i) ≠ (hi, inst)) :
    ({ d with sources := updSource hi inst f d.sources } : Dev).source j i = d.source j i := by
  have hne' : ¬(j = hi ∧ i = inst) := by simpa using hne
  simp only [Dev.source, find_updSource _ _ _ _ _ hf, if_neg hne']

/-- The source found bears the name it was asked for. -/
theorem source_name (d : Dev) (hi inst : Nat) : (d.source hi inst).hi = hi ∧ (d.source hi inst).inst = inst := by
  simp only [Dev.source]
  cases hx : d.sources.find? (fun x => x.hi == hi && x.inst == inst) with
  | none => exact ⟨rfl, rfl⟩
  | some x => simpa using List.find?_some hx

theorem keepsName_push (e : Event) : KeepsName (fun x => x.push e) := by
  intro x
  grind [Source.push, Source.lose]

/-- An event that is neither an SOF nor kept waits behind those of its source, where the queue has room and is not losing. -/
theorem push_queue {x : Source} {e : Event} (hs : isSof e.code = false) (hk : isKept e.code = false)
    (hl : x.losing = false) (hr : x.queue.length < 16) : (x.push e).queue = x.queue ++ [e] := by
  simp [Source.push, hs, hk, hl, Nat.not_le.mpr hr]

/-- Settles O8: a post updates the source that its code names by `Source.push` and counts itself; it changes nothing else. -/
theorem postEntersItsQueue : Obligations.PostEntersItsQueue := by
  intro code inst arg0 arg1 d hs hk hl hr
  refine ⟨?_, rfl, rfl, fun j i hne => source_updSource_other d (keepsName_push _) hne⟩
  have hsame : (post code inst arg0 arg1 d).source (code / 256) inst = (d.source (code / 256) inst).push _ :=
    source_updSource_same d _ _ (keepsName_push _)
  rw [hsame]
  exact push_queue hs hk hl hr

/-! ## Records of the log -/

/-- A record numbered while the host's copy is off: the log takes it, and the sessions are offered it (R22, R24). -/
theorem logRecord_noCopy {s : State} (tb code inst arg0 arg1 : Nat) (h : s.dev.ep.evtSize = 0) :
    logRecord tb code inst arg0 arg1 s =
      { s with
        arb := s.arb.append (.mk s.arb.next tb code inst (arg0 % 2 ^ 32) (arg1 % 2 ^ 32))
        dev := deliver (.mk s.arb.next tb code inst (arg0 % 2 ^ 32) (arg1 % 2 ^ 32)) s.dev } := by
  simp [logRecord, copyRecord, h]

theorem logLost_of_due {x : Source} {l : Nat × Nat} (s : State) (h : x.due = some l) :
    logLost x s = logRecord (tbNow s.dev) 0x0212 x.inst l.1 l.2
      { s with dev := { s.dev with sources := updSource x.hi x.inst (fun y => { y with due := none }) s.dev.sources } } := by
  simp only [logLost, h]

theorem logLost_of_none {x : Source} (s : State) (h : x.due = none) : logLost x s = s := by
  simp only [logLost, h]

theorem exec_evtSourceLost (hi inst : Nat) (s : State) :
    exec (.evtSourceLost hi inst) s = .next (logLost (s.dev.source hi inst) s) := rfl

/-- Settles O7: the record is logged (`logRecord_noCopy`), and the source that lost them has no loss due any more. -/
theorem lossIsRecorded : Obligations.LossIsRecorded := by
  intro s hi inst n first hdue hev
  obtain ⟨hhi, hinst⟩ := source_name s.dev hi inst
  rw [exec_evtSourceLost, logLost_of_due s hdue, hhi, hinst, logRecord_noCopy _ _ _ _ _ (by exact hev)]
  exact completes_next ⟨rfl, rfl, source_updSource_same s.dev hi inst (fun _ => ⟨rfl, rfl⟩), rfl, rfl⟩

/-! ## A cycle of the arbiter -/

/-- An event that refers to none is numbered with its own ARG1; of a kept one the number is remembered beside. -/
theorem logEvent_of_noRef {e : Event} (s : State) (h : e.ref = none) :
    ∃ q, logEvent e s = { logRecord e.tb e.code e.inst e.arg0 e.arg1 s with
      arb := { (logRecord e.tb e.code e.inst e.arg0 e.arg1 s).arb with seqOf := q } } := by
  simp only [logEvent, h]
  split <;> exact ⟨_, rfl⟩

/-- The head of a queue with no loss to report is taken and numbered. -/
theorem takeHead_of_head {k : Nat × Nat} {s : State} {e : Event} {q : List Event} (hq : (s.dev.source k.1 k.2).queue = e :: q)
    (hdue : (s.dev.source k.1 k.2).due = none) :
    takeHead k s = logEvent e { s with dev := { s.dev with sources := updSource k.1 k.2 Source.pop s.dev.sources } } := by
  simp only [takeHead, hq, logLost_of_none s hdue]

/-- Of one source whose queue holds no event the arbiter takes nothing. -/
theorem takeRest_of_empty (n : Nat) (sof : List (Nat × Nat)) {s : State} {x : Source} (hs : s.dev.sources = [x])
    (hq : x.queue = []) : takeRest n sof s = s := by
  cases n with
  | zero => rfl
  | succ n => simp [takeRest, hs, Source.hasKept, hq, oldestOf]

/-- A source that alone has an event is the next one served, be the event kept or not. -/
theorem takeRest_of_single (n : Nat) {s : State} {x : Source} {e : Event} {q : List Event} (hs : s.dev.sources = [x])
    (hq : x.queue = e :: q) : takeRest (n + 1) [] s = takeRest n [] (takeHead (x.hi, x.inst) s) := by
  have hx : oldestOf [x] = some (x.hi, x.inst) := by simp [oldestOf, hq]
  cases hk : x.hasKept with
  | true => simp [takeRest, hs, hk, hx]
  | false => simp [takeRest, hs, hk, hx, oldestOf]

theorem sofSources_of_single {d : Dev} {x : Source} {e : Event} (hs : d.sources = [x]) (hq : x.queue = [e])
    (he : isSof e.code = false) : sofSources d = [] := by
  have hx : x.hasSof = false := by simp [Source.hasSof, hq, he]
  simp [sofSources, hs, hx]

theorem pop_of_single {x : Source} {e : Event} (hq : x.queue = [e]) (hl : x.losing = false) :
    x.pop = { x with queue := [] } := by
  simp [Source.pop, hq, hl]

/-- A cycle with one event waiting numbers it and ends: the queue it leaves is empty. -/
theorem arbitrate_of_single {s : State} {x : Source} {e : Event} (hs : s.dev.sources = [x]) (hq : x.queue = [e])
    (hl : x.losing = false) (hdue : x.due = none) (hsof : isSof e.code = false) :
    arbitrate s = takeRest 3 [] (logEvent e { s with dev := { s.dev with sources := [{ x with queue := [] }] } }) := by
  have hx : s.dev.source x.hi x.inst = x := by simp [Dev.source, hs]
  have hupd : updSource x.hi x.inst Source.pop s.dev.sources = [{ x with queue := [] }] := by
    simp [updSource, hs, pop_of_single hq hl]
  have hhead := takeHead_of_head (k := (x.hi, x.inst)) (s := s) (by rw [hx]; exact hq) (by rw [hx]; exact hdue)
  rw [hupd] at hhead
  rw [arbitrate, sofSources_of_single hs hq hsof, ← hhead]
  exact takeRest_of_single 3 hs hq

theorem exec_eventArbitration (s : State) : exec .eventArbitration s = .next (arbitrate s) := rfl

/-- Settles O6: the event is the one the arbiter takes (`arbitrate_of_single`), nothing is left for the rest of its cycle, and
the record that it becomes is said by `logRecord_noCopy`. -/
theorem eventIsNumbered : Obligations.EventIsNumbered := by
  intro s x e hs hq hl hdue hsof href hev
  obtain ⟨seqs, hlog⟩ := logEvent_of_noRef (e := e)
    { s with dev := { s.dev with sources := [{ x with queue := [] }] } } href
  rw [logRecord_noCopy _ _ _ _ _ (by exact hev)] at hlog
  rw [exec_eventArbitration, arbitrate_of_single hs hq hl hdue hsof,
    takeRest_of_empty 3 [] (x := { x with queue := [] }) (by rw [hlog]; rfl) rfl, hlog]
  exact completes_next ⟨rfl, rfl, rfl, rfl, rfl, rfl⟩

/-! ## The host's copy of the log -/

theorem hostAccess_of_d0 {f : State → State} {s : State} (h : s.dev.ep.d3hot = false) : hostAccess f s = f s := by
  simp [hostAccess, h]

theorem evtResize_valid {v : Nat} (s : State) (h : 16 ≤ v) (h' : v ≤ 65536) :
    evtResize v s =
      { s with arb := { s.arb with missed := 0, waiting := [] }
               dev := setEp (fun e => { e with evtSize := v, evtHead := 0, evtTail := 0, evtDue := false }) s.dev } := by
  rw [evtResize, if_neg (by omega), if_pos ⟨h, h'⟩]

theorem logOverrun_of_none {s : State} (h : s.arb.missed = 0) : logOverrun s = s := by
  simp [logOverrun, h]

/-- The first signal of vector 0 waits for no hold-off. -/
theorem evtSignal_of_due {d : Dev} (hdue : d.ep.evtDue = true) (hraw : d.ep.evtSignalRaw = none) :
    evtSignal d = signal 0 (setEp (fun e => { e with evtDue := false, evtSignalRaw := some d.time.raw }) d) := by
  simp [evtSignal, hdue, hraw]

/-- Settles O44: in D0 each access has its effect (`hostAccess_of_d0`), which the register's own rule says. -/
theorem eventCopyIsHandled : Obligations.EventCopyIsHandled := by
  refine ⟨?off, ?size, ?tail, ?signal, ?unmask⟩
  case off =>
    intro s hd
    have h : exec (.evtSize 0) s = .next (evtResize 0 s) := congrArg _ (hostAccess_of_d0 hd)
    rw [h]
    exact completes_next ⟨rfl, rfl, rfl, rfl, rfl, rfl, rfl⟩
  case size =>
    intro v s hd hlo hhi
    have h : exec (.evtSize v) s = .next (evtResize v s) := congrArg _ (hostAccess_of_d0 hd)
    rw [h, evtResize_valid s hlo hhi]
    exact completes_next ⟨rfl, rfl, rfl, rfl, rfl, rfl, rfl, rfl, rfl⟩
  case tail =>
    intro v s hd hmissed
    have h : exec (.evtTail v) s = .next (evtRelease v s) := congrArg _ (hostAccess_of_d0 hd)
    rw [h]
    exact congrArg _ (logOverrun_of_none hmissed)
  case signal =>
    intro s hd hdue hraw
    have h : exec .evtVectorSignal s = .next (onDev evtSignal s) := congrArg _ (hostAccess_of_d0 hd)
    rw [h]
    simp only [onDev, evtSignal_of_due hdue hraw]
  case unmask =>
    intro v s hd
    exact congrArg _ (hostAccess_of_d0 hd)

end Sys2Proof.Machine
end

section
/-! The statements about the sequences of the units, and about what commands of the units leave. -/

namespace Sys2Proof.Machine

/-! ## The receive lanes leave the units' sequences -/

theorem foldl_units {α : Type} {f : Dev → α → Dev} (hf : ∀ d x, (f d x).units = d.units) (l : List α) (d : Dev) :
    (l.foldl f d).units = d.units := by
  induction l generalizing d with
  | nil => rfl
  | cons x l ih => exact (ih (f d x)).trans (hf d x)

@[simp] theorem setLane_units (p k : Nat) (f : Lane → Lane) (d : Dev) : (setLane p k f d).units = d.units := rfl

@[simp] theorem setStatus_units (p i : Nat) (b : Bool) (d : Dev) : (setStatus p i b d).units = d.units := rfl

@[simp] theorem laneForget_units (p k : Nat) (d : Dev) : (laneForget p k d).units = d.units := rfl

@[simp] theorem syncLanes_units (p : Nat) (d : Dev) : (syncLanes p d).units = d.units := by
  unfold syncLanes
  refine foldl_units (fun e k => ?_) _ d
  dsimp only
  split <;> split <;> simp

@[simp] theorem rxEnter_units (p st : Nat) (d : Dev) : (rxEnter p st d).units = d.units := by
  unfold rxEnter
  dsimp only
  split <;> simp

@[simp] theorem rxGo_units (p st : Nat) (ref : Option Nat) (d : Dev) : (rxGo p st ref d).units = d.units := by
  unfold rxGo
  dsimp only
  split
  · split <;> simp
  · split
    · split <;> simp
    · split
      · split <;> simp
      · simp

@[simp] theorem encIssue_units (k : Nat) (d : Dev) : (encIssue k d).units = d.units := rfl

@[simp] theorem encPlanRest_units (k : Nat) (d : Dev) : (encPlanRest k d).units = d.units := rfl

/-! ## A shut-down that begins -/

theorem unit_congr {d e : Dev} (h : d.units = e.units) (u : UnitId) : d.unit u = e.unit u := by
  simp only [Dev.unit, h]

/-- A shut-down that begins changes the sequence of its unit alone. -/
theorem unitStop_units (u : UnitId) (ref : Option Nat) (d : Dev) :
    (unitStop u ref d).units = (setUnit u { phase := .stopping, pendingDisable := false, deferred := none } d).units := by
  cases u with
  | port p => simp [unitStop]
  | hevc k => simp only [unitStop]; split <;> simp
  | cluster | view | mag | out | eth | bank => rfl

@[simp] theorem unitStop_unit (u : UnitId) (ref : Option Nat) (d : Dev) :
    (unitStop u ref d).unit u = { phase := .stopping, pendingDisable := false, deferred := none } := by
  rw [unit_congr (unitStop_units u ref d), setUnit_unit, if_pos rfl]

/-! ## Enables and disables by the phase of their unit -/

section
variable {u : UnitId} {d : Dev}

theorem unitEnable_of_running (ref : Option Nat) (h : (d.unit u).phase = .running) : unitEnable u ref d = d := by
  simp [unitEnable, h]

theorem unitEnable_of_starting (ref : Option Nat) (h : (d.unit u).phase = .starting)
    (hp : (d.unit u).pendingDisable = false) : unitEnable u ref d = d := by
  simp [unitEnable, h, hp]

/-- An enable that finds its unit shutting down, or starting with a disable pending, is held; the event of the first one stays
(R28). -/
theorem unitEnable_of_deferred (ref : Option Nat)
    (h : (d.unit u).phase = .stopping ∨ (d.unit u).phase = .starting ∧ (d.unit u).pendingDisable = true) :
    unitEnable u ref d = setUnit u { d.unit u with deferred := some ((d.unit u).deferred.getD ref) } d := by
  obtain h | ⟨h, hp⟩ := h
  · simp [unitEnable, h]
  · simp [unitEnable, h, hp]

theorem unitDisable_of_off (by' : Option Nat) (h : (d.unit u).phase = .off) : unitDisable u by' d = d := by
  simp [unitDisable, h]

theorem unitDisable_of_starting (by' : Option Nat) (h : (d.unit u).phase = .starting)
    (hp : (d.unit u).pendingDisable = false) :
    unitDisable u by' d = setUnit u { d.unit u with pendingDisable := true } d := by
  simp [unitDisable, h, hp]

/-- A disable calls off what is deferred, where an enable would be. -/
theorem unitDisable_of_deferred (by' : Option Nat)
    (h : (d.unit u).phase = .stopping ∨ (d.unit u).phase = .starting ∧ (d.unit u).pendingDisable = true) :
    unitDisable u by' d = setUnit u { d.unit u with deferred := none } d := by
  obtain h | ⟨h, hp⟩ := h
  · simp [unitDisable, h]
  · simp [unitDisable, h, hp]

theorem unitDisable_calls_off (ref by' : Option Nat)
    (h : (d.unit u).phase = .stopping ∨ (d.unit u).phase = .starting ∧ (d.unit u).pendingDisable = true) :
    ((unitDisable u by' (unitEnable u ref d)).unit u).deferred = none := by
  have h' : ((unitEnable u ref d).unit u).phase = .stopping ∨
      ((unitEnable u ref d).unit u).phase = .starting ∧ ((unitEnable u ref d).unit u).pendingDisable = true := by
    simpa [unitEnable_of_deferred ref h] using h
  rw [unitDisable_of_deferred by' h', setUnit_unit, if_pos rfl]

/-- A start-up that completes with no disable pending changes its unit's phase; a port's front-end then takes frames. -/
theorem unitStarted_of_noDisable (h : (d.unit u).phase = .starting) (hs : d.started u = true)
    (hp : (d.unit u).pendingDisable = false) :
    ∃ l, unitStarted u d = { setUnit u { d.unit u with phase := .running } d with itk := l } := by
  cases u with
  | port p =>
    simp only [unitStarted, h, hs, hp, and_self, if_true, Bool.false_eq_true, if_false]
    split
    · exact ⟨_, rfl⟩
    · exact ⟨_, rfl⟩
  | cluster | view | mag | hevc | out | eth | bank =>
    simp only [unitStarted, h, hs, hp, and_self, if_true, Bool.false_eq_true, if_false]
    exact ⟨_, rfl⟩

/-- A start-up that completes with a disable pending begins the shut-down at once, and keeps what is deferred (R29). -/
theorem unitStarted_of_pendingDisable (h : (d.unit u).phase = .starting) (hs : d.started u = true)
    (hp : (d.unit u).pendingDisable = true) :
    (unitStarted u d).unit u =
      { phase := .stopping, pendingDisable := false, deferred := (d.unit u).deferred } := by
  simp [unitStarted, h, hs, hp]

end

/-- Settles O12: each clause is the enable, the disable or the start-up of one phase. -/
theorem enableIsDeferred : Obligations.EnableIsDeferred := by
  refine ⟨fun u ref by' d => ⟨?stopping, ?running, ?off, ?starting, ?pending, ?started⟩, fun _ _ => rfl⟩
  case stopping =>
    intro h
    refine ⟨?_, unitDisable_calls_off ref by' (.inl h), ?_⟩
    · rw [unitEnable_of_deferred ref (.inl h), setUnit_unit, if_pos rfl]
    · rw [unitEnable_of_deferred ref (.inl h), setUnit_regs]
  case running => exact unitEnable_of_running ref
  case off => exact unitDisable_of_off by'
  case starting =>
    intro h hp
    refine ⟨unitEnable_of_starting ref h hp, ?_⟩
    rw [unitDisable_of_starting by' h hp, setUnit_unit, if_pos rfl]
  case pending =>
    intro h hp
    refine ⟨?_, unitDisable_calls_off ref by' (.inr ⟨h, hp⟩)⟩
    rw [unitEnable_of_deferred ref (.inr ⟨h, hp⟩), setUnit_unit, if_pos rfl]
  case started =>
    intro h hp hs
    rw [unitStarted_of_pendingDisable h hs hp]
    exact ⟨rfl, rfl, rfl⟩

/-! ## Sequences that complete -/

theorem unitStopped_of_noDeferred {u : UnitId} {s : State} (h : (s.dev.unit u).phase = .stopping)
    (hq : s.dev.unitQuiet u = true) (hd : (s.dev.unit u).deferred = none) : unitStopped u s = unitOff u s := by
  simp [unitStopped, h, hq, hd]

theorem unitStopped_of_deferred {u : UnitId} {s : State} {r : Option Nat} (h : (s.dev.unit u).phase = .stopping)
    (hq : s.dev.unitQuiet u = true) (hd : (s.dev.unit u).deferred = some r) (hm : (unitOff u s).dev.mayStart u = true) :
    unitStopped u s = onDev (fun d => unitBegin u (postDeferral u.num u.entry r d)) (unitOff u s) := by
  simp [unitStopped, h, hq, hd, hm]

theorem exec_unitStartupComplete (u : UnitId) (s : State) :
    exec (.unitStartupComplete u) s = .next (magSettle (onDev (unitStarted u) s)) := rfl

theorem exec_unitShutdownComplete (u : UnitId) (s : State) :
    exec (.unitShutdownComplete u) s = .next (magSettle (unitStopped u s)) := rfl

/-- Settles O11: `unitStarted_of_noDisable` leaves a calm state calm, so nothing settles after it; a shut-down that completes
goes by what is deferred. -/
theorem unitSequencesComplete : Obligations.UnitSequencesComplete := by
  refine ⟨?started, ?stopped, ?restarted⟩
  case started =>
    intro u s hcalm h hs hp
    obtain ⟨l, hl⟩ := unitStarted_of_noDisable h hs hp
    have hset : magSettle (onDev (unitStarted u) s) = onDev (unitStarted u) s := by
      refine magSettle_calm _ ?_
      rw [onDev_dev, hl]
      exact hcalm
    rw [exec_unitStartupComplete, hset]
    refine completes_next ⟨?_, fun v hv => ?_, ?_, rfl, rfl, rfl, rfl⟩
    · rw [onDev_dev, hl]
      exact (setUnit_unit u u _ s.dev).trans (if_pos rfl)
    · rw [onDev_dev, hl]
      exact (setUnit_unit u v _ s.dev).trans (if_neg hv)
    · rw [onDev_dev, hl]
      rfl
  case stopped =>
    intro u s h hq hd
    rw [exec_unitShutdownComplete, unitStopped_of_noDeferred h hq hd]
  case restarted =>
    intro u s r h hq hd hm
    rw [exec_unitShutdownComplete, unitStopped_of_deferred h hq hd hm]

/-! ## What commands of the units leave -/

/-- Nothing but the units differs: the log, the memories and the waiting commands are those of `s`. -/
def UnitsOnly (s t : State) : Prop :=
  t.arb = s.arb ∧ t.mem = s.mem ∧ t.poison = s.poison ∧ t.hostMem = s.hostMem ∧ t.pending = s.pending

theorem UnitsOnly.refl (s : State) : UnitsOnly s s := ⟨rfl, rfl, rfl, rfl, rfl⟩

theorem unitsOnly_onDev (f : Dev → Dev) (s : State) : UnitsOnly s (onDev f s) := ⟨rfl, rfl, rfl, rfl, rfl⟩

theorem ite_unitsOnly {c : Prop} [Decidable c] {s t u : State} (ht : UnitsOnly s t) (hu : UnitsOnly s u) :
    UnitsOnly s (if c then t else u) := by
  split
  · exact ht
  · exact hu

theorem unitsOnly_patternFetch (i : Nat) (s : State) : UnitsOnly s (patternFetch i s) :=
  ite_unitsOnly (unitsOnly_onDev _ s) (.refl s)

theorem unitsOnly_proxySend (k : Nat) (s : State) : UnitsOnly s (proxySend k s) := by
  unfold proxySend
  dsimp only
  split
  · exact .refl s
  · exact ite_unitsOnly (unitsOnly_onDev _ s) (unitsOnly_onDev _ s)

theorem execVengConfirmTimeout_unitsOnly (mv : Nat) (s : State) : completes (execVengConfirmTimeout mv s) (UnitsOnly s) := by
  refine completes_next ?_
  split
  · exact ite_unitsOnly (unitsOnly_onDev _ s) (.refl s)
  · exact .refl s

/-- The pound, its poison and the waiting commands are those of `s`. -/
def PoundKept (s t : State) : Prop := t.mem = s.mem ∧ t.poison = s.poison ∧ t.pending = s.pending

theorem PoundKept.refl (s : State) : PoundKept s s := ⟨rfl, rfl, rfl⟩

theorem poundKept_onDev (f : Dev → Dev) (s : State) : PoundKept s (onDev f s) := ⟨rfl, rfl, rfl⟩

theorem ite_poundKept {c : Prop} [Decidable c] {s t u : State} (ht : PoundKept s t) (hu : PoundKept s u) :
    PoundKept s (if c then t else u) := by
  split
  · exact ht
  · exact hu

/-- A write whose effect keeps the pound keeps it: the wait for room does (R565), as `arbitrated_roomToRecord` says. -/
theorem poundKept_write (w : Writer) (k : Nat) (v : Val) (accept : State → Option (Nat × (Dev → Dev)))
    {effect : Nat → State → State} (s : State) (he : ∀ n t, PoundKept t (effect n t)) :
    PoundKept s (finishWrite s (entryWrite w k v accept effect s)) := by
  obtain ⟨hm, hp, hq, -⟩ := arbitrated_roomToRecord w s
  cases hc : writeCheck s.dev w k v with
  | some c =>
    rw [finishWrite_refused w k c v accept effect s hc]
    exact poundKept_onDev _ s
  | none =>
    cases ha : accept s with
    | some r =>
      rw [finishWrite_rule w k r.1 v accept r.2 effect s hc ha]
      exact poundKept_onDev _ s
    | none =>
      obtain ⟨em, ep, eq⟩ := he s.dev.posts (onDev (recordWrite w k v) (roomToRecord w s))
      rw [finishWrite_ok w k v accept effect s hc ha]
      exact ⟨em.trans hm, ep.trans hp, eq.trans hq⟩

/-- A write whose effect is on the units alone. -/
theorem poundKept_unitWrite (w : Writer) (k : Nat) (v : Val) (accept : State → Option (Nat × (Dev → Dev)))
    (f : Nat → Dev → Dev) (s : State) :
    PoundKept s (finishWrite s (entryWrite w k v accept (fun n => onDev (f n)) s)) :=
  poundKept_write w k v accept s fun n t => poundKept_onDev (f n) t

theorem poundKept_laneEntry (w : Writer) (k : Nat) (v : Val) (s : State) :
    PoundKept s (finishWrite s (writeLaneEntry w k v s)) := by
  unfold writeLaneEntry
  exact poundKept_unitWrite _ _ _ _ _ s

theorem poundKept_magLane (w : Writer) (k : Nat) (v : Val) (s : State) :
    PoundKept s (finishWrite s (writeMagLane w k v s)) := by
  unfold writeMagLane
  exact poundKept_unitWrite _ _ _ _ _ s

theorem poundKept_laneWrite (w : Writer) (l : LaneRef) (f g : Nat → Nat → Nat) (v : Nat) (s : State) :
    PoundKept s (finishWrite s (laneWrite w l f g v s)) := by
  cases l with
  | sensor p k => exact poundKept_laneEntry w _ _ s
  | mag p k => exact poundKept_magLane w _ _ s

theorem poundKept_prbsSel (w : Writer) (l : PrbsRef) (v : Nat) (s : State) :
    completes (execPrbsSel w l v s) (PoundKept s) := by
  refine completes_next ?_
  cases l with
  | sensor p k => exact poundKept_laneEntry w _ _ s
  | side p => exact poundKept_laneEntry w _ _ s
  | mag p k => exact poundKept_magLane w _ _ s

/-- A write of a magazine port's entry acts on the units in each of its cases. -/
theorem poundKept_mag (w : Writer) (k : Nat) (v : Val) (s : State) : PoundKept s (finishWrite s (writeMag w k v s)) := by
  unfold writeMag
  refine poundKept_write w k v _ s fun _ t => ite_poundKept ?key (ite_poundKept ?clear (poundKept_onDev _ t))
  case key =>
    cases v with
    | bytes b => exact poundKept_onDev _ t
    | num n => exact .refl t
  case clear => exact ite_poundKept (poundKept_onDev _ t) (.refl t)

/-- Settles O60: the commands of the first list change the units alone, some under a condition; those of the second are each a
write whose effect is on the units. -/
theorem unitCommandsLeaveMemory : Obligations.UnitCommandsLeaveMemory := by
  refine ⟨fun s c hc => ?units, fun s c hc => ?writes⟩
  case units =>
    cases c with
    | weirTick | backlogPost | clockReview | clockRaiseConfirmed | ceilingCheck | ckRestart | tpgPulseEnd | stageApply
    | ethFrameReceived | ethLink | macAgeing | ptpLaunch | masterLost | twControlClear | sessionTimeout | blockWriteTimeout
    | authLockoutEnd | storeSaveComplete | prbsLock => exact completes_next (unitsOnly_onDev _ s)
    | encoderIndex | trackingTick | strobeSyncPulse | twmWake | twmSleep =>
      exact completes_next (ite_unitsOnly (unitsOnly_onDev _ s) (.refl s))
    | tbEpochWrap => exact completes_next (ite_unitsOnly (.refl s) (unitsOnly_onDev _ s))
    | patternFetch i => exact completes_next (ite_unitsOnly (unitsOnly_patternFetch i s) (.refl s))
    | proxySend k => exact completes_next (unitsOnly_proxySend k s)
    | vengConfirmTimeout mv => exact execVengConfirmTimeout_unitsOnly mv s
    | _ => cases hc
  case writes =>
    cases c with
    | storeSave | fwUpdate | fwCommit | subsystemIds | submit | tpgInvert | tpgArm | stageArm =>
      exact completes_next (poundKept_unitWrite _ _ _ _ _ s)
    | slip | dwell | loop => exact completes_next (poundKept_laneWrite _ _ _ _ _ s)
    | prbsSel w l v => exact poundKept_prbsSel w l v s
    | magKey | magKeyClear => exact completes_next (poundKept_mag _ _ _ s)
    | _ => cases hc

end Sys2Proof.Machine
end

section
/-! The statements about the operating modes. -/

namespace Sys2Proof.Machine

/-! ## A mode request -/

/-- A request that R36 refuses, where the checks of R419 pass: `modeRefusal` is the entry's own rule. -/
theorem exec_modeRequest_refused {w : Writer} {v r : Nat} {s : State}
    (hc : writeCheck s.dev w Reg.mode_MODE_REQUEST (.num v) = none) (hv : v < 512)
    (hr : modeRefusal s (v % 256) (bit v 8 == 1) = some r) :
    exec (.modeRequest w v) s = .next (onDev (fun d =>
      { post 0x0202 0xFFFF v r (setN Reg.mode_MODE_REFUSE_REASON r d) with answer := stREFUSED }) s) := by
  have hrange : ¬ v / 512 ≠ 0 := by omega
  exact congrArg _ (finishWrite_rule _ _ _ _ _ _ _ s hc (by rw [if_neg hrange, hr]))

/-- Settles O14: the refusal sets one entry and posts an event (`exec_modeRequest_refused`), so the rest reads as before. -/
theorem modeRequestIsRefused : Obligations.ModeRequestIsRefused := by
  intro w v r s hc hv hr
  rw [exec_modeRequest_refused hc hv hr]
  have hval : ∀ k, k ≠ Reg.mode_MODE_REFUSE_REASON → (setN Reg.mode_MODE_REFUSE_REASON r s.dev).val k = s.dev.val k :=
    fun k hk => (setN_val _ k r s.dev).trans (if_neg hk)
  have hget : ∀ k, k ≠ Reg.mode_MODE_REFUSE_REASON → (setN Reg.mode_MODE_REFUSE_REASON r s.dev).get k = s.dev.get k :=
    fun k hk => (setN_get _ k r s.dev).trans (if_neg hk)
  refine completes_next ⟨rfl, ?reason, ?mode, ?target, hval, rfl, rfl⟩
  case reason => exact (setN_get _ _ r s.dev).trans (if_pos rfl)
  case mode => exact hget Reg.mode_MODE_CURRENT (by decide)
  case target => exact hget Reg.mode_MODE_TARGET (by decide)

/-! ## What the lanes' test controls leave -/

/-- `e` differs from `d` in nothing of the modes: the transition is the same, and so is every entry below those of the lanes,
which begin with the first lane's at entry base 0x0810. -/
structure ModesKept (d e : Dev) : Prop where
  trans : e.trans = d.trans
  val : ∀ j, j < 0x0810 * 256 → e.val j = d.val j

theorem ModesKept.refl (d : Dev) : ModesKept d d := ⟨rfl, fun _ _ => rfl⟩

theorem ModesKept.comp {c d e : Dev} (h : ModesKept c d) (g : ModesKept d e) : ModesKept c e :=
  ⟨g.trans.trans h.trans, fun j hj => (g.val j hj).trans (h.val j hj)⟩

theorem ModesKept.get {d e : Dev} (h : ModesKept d e) {j : Nat} (hj : j < 0x0810 * 256) : e.get j = d.get j := by
  simp only [Dev.get, h.val j hj]

theorem modesKept_foldl {α : Type} {f : Dev → α → Dev} (hf : ∀ d x, ModesKept d (f d x)) (l : List α) (d : Dev) :
    ModesKept d (l.foldl f d) := by
  induction l generalizing d with
  | nil => exact .refl d
  | cons x l ih => exact (hf d x).comp (ih (f d x))

theorem modesKept_setV {k : Nat} (hk : 0x0810 * 256 ≤ k) (v : Val) (d : Dev) : ModesKept d (setV k v d) :=
  ⟨rfl, fun j hj => (setV_val k j v d).trans (if_neg (by omega))⟩

/-- The entries of a lane stand above those of the modes. -/
theorem lane_entry_le (p k i : Nat) : 0x0810 * 256 ≤ (0x0810 + 0x100 * p + k) * 256 + i := by omega

theorem modesKept_setN_lane (p k i n : Nat) (d : Dev) : ModesKept d (setN ((0x0810 + 0x100 * p + k) * 256 + i) n d) :=
  modesKept_setV (lane_entry_le p k i) (.num n) d

theorem modesKept_adapt (p k : Nat) (eq : Equaliser) (d : Dev) : ModesKept d (adapt p k eq d) :=
  (modesKept_setN_lane p k 0x0D _ d).comp
    ((modesKept_setV (lane_entry_le p k 0x0C) (.bytes _) _).comp (modesKept_setN_lane p k 0x0B _ _))

theorem modesKept_laneForget (p k : Nat) (d : Dev) : ModesKept d (laneForget p k d) :=
  ModesKept.comp (d := setLane p k _ d) ⟨rfl, fun _ _ => rfl⟩
    ((modesKept_setN_lane p k 0x07 _ _).comp ((modesKept_setN_lane p k 0x08 _ _).comp
      ((modesKept_setN_lane p k 0x04 _ _).comp ((modesKept_setN_lane p k 0x02 _ _).comp (modesKept_adapt p k _ _)))))

theorem modesKept_lanePower (p k n code a b : Nat) (d : Dev) :
    ModesKept d (post code k a b (setN (Reg.lan_LANE_POWER p k) n d)) :=
  (modesKept_setN_lane p k 0x01 n d).comp ⟨rfl, fun _ _ => rfl⟩

theorem modesKept_syncLanes (p : Nat) (d : Dev) : ModesKept d (syncLanes p d) := by
  unfold syncLanes
  refine modesKept_foldl (fun e k => ?_) _ d
  extract_lets old st b
  have hb : ModesKept e b := by
    unfold b
    split
    · exact .refl e
    · exact modesKept_lanePower p k _ _ _ _ e
  split
  · exact hb.comp (modesKept_laneForget p k b)
  · exact hb

/-! ## A mode change -/

/-- What `modeSet` writes and logs first: the mode entries and EV 0x0201 (R37, R45). -/
def modeNoted (dst cause : Nat) (d : Dev) : Dev :=
  post 0x0201 0xFFFF (d.mode * 256 + dst) cause
    (setN Reg.mode_MODE_EXIT_CAUSE cause (setN Reg.mode_MODE_TARGET 0 (setN Reg.mode_MODE_CURRENT dst { d with trans := none })))

/-- The lanes' test controls act on `n` ports where SERVICE is entered or left (R72). -/
def lanesTested (n dst old : Nat) (d : Dev) : Dev :=
  if dst = mSERVICE ∨ old = mSERVICE then (List.range n).foldl (fun e p => syncLanes p e) d else d

/-- What `modeSet` ends with: in STANDBY the management target sleeps (R491), and the event of the change is remembered where
RECORD is entered. `id` is that event's post number. -/
def modeFollowed (dst old id : Nat) (d : Dev) : Dev :=
  if dst = mSTANDBY then twmDoze d
  else if dst = mRECORD then { d with recEnter := some id, recLeave := none }
  else if old = mRECORD then { d with recEnter := none } else d

theorem modeSet_eq (dst cause : Nat) (d : Dev) :
    modeSet dst cause d = modeFollowed dst d.mode d.posts (lanesTested d.nPorts dst d.mode (modeNoted dst cause d)) := rfl

theorem twmDoze_eq (d : Dev) : ∃ t, twmDoze d = { d with twm := t } := by
  unfold twmDoze
  split
  · exact ⟨_, rfl⟩
  · exact ⟨_, rfl⟩

theorem modeFollowed_eq (dst old id : Nat) (d : Dev) :
    ∃ t n l, modeFollowed dst old id d = { d with twm := t, recEnter := n, recLeave := l } := by
  unfold modeFollowed
  split
  · obtain ⟨t, h⟩ := twmDoze_eq d
    exact ⟨t, _, _, h⟩
  · split
    · exact ⟨_, _, _, rfl⟩
    · split
      · exact ⟨_, _, _, rfl⟩
      · exact ⟨_, _, _, rfl⟩

theorem modeFollowed_trans (dst old id : Nat) (d : Dev) : (modeFollowed dst old id d).trans = d.trans := by
  obtain ⟨t, n, l, h⟩ := modeFollowed_eq dst old id d
  rw [h]

theorem modeFollowed_val (dst old id k : Nat) (d : Dev) : (modeFollowed dst old id d).val k = d.val k := by
  obtain ⟨t, n, l, h⟩ := modeFollowed_eq dst old id d
  rw [h]
  rfl

theorem modeFollowed_sources (dst old id : Nat) (d : Dev) : (modeFollowed dst old id d).sources = d.sources := by
  obtain ⟨t, n, l, h⟩ := modeFollowed_eq dst old id d
  rw [h]

theorem modesKept_lanesTested (n dst old : Nat) (d : Dev) : ModesKept d (lanesTested n dst old d) := by
  unfold lanesTested
  split
  · exact modesKept_foldl (fun e p => modesKept_syncLanes p e) _ d
  · exact .refl d

theorem lanesTested_of_noService {dst old : Nat} (n : Nat) (d : Dev) (hdst : dst ≠ mSERVICE) (hold : old ≠ mSERVICE) :
    lanesTested n dst old d = d := if_neg (by simp [hdst, hold])

theorem modesKept_modeSet (dst cause : Nat) (d : Dev) : ModesKept (modeNoted dst cause d) (modeSet dst cause d) := by
  rw [modeSet_eq]
  exact (modesKept_lanesTested d.nPorts dst d.mode _).comp ⟨modeFollowed_trans _ _ _ _, fun j _ => modeFollowed_val _ _ _ j _⟩

/-- An entry after a change is noted: one of the three that it writes, or as before. -/
theorem modeNoted_val (dst cause k : Nat) (d : Dev) :
    (modeNoted dst cause d).val k =
      if k = Reg.mode_MODE_EXIT_CAUSE then .num cause
      else if k = Reg.mode_MODE_TARGET then .num 0
      else if k = Reg.mode_MODE_CURRENT then .num dst
      else d.val k := by
  rw [modeNoted, post_val, setN_val, setN_val, setN_val]
  rfl

theorem get_of_val {d : Dev} {k n : Nat} (h : d.val k = .num n) : d.get k = n := by
  simp only [Dev.get, h]

/-- What an event carries of its state: device time, the cycle and the count of posts. -/
theorem post_sources_congr {c i a b : Nat} {d e : Dev} (hs : e.sources = d.sources) (hp : e.posts = d.posts)
    (ht : e.time = d.time) (htb : tbNow e = tbNow d) : (post c i a b e).sources = (post c i a b d).sources := by
  simp only [post, postRef, hs, hp, ht, htb]

/-- Device time is formed from entries of the time base, which a write of an entry below them leaves (R391). -/
theorem tbNow_setN {k : Nat} (hk : k < Reg.tb_TB_OFFSET) (n : Nat) (d : Dev) : tbNow (setN k n d) = tbNow d := by
  have hget : ∀ j, Reg.tb_TB_OFFSET ≤ j → (setN k n d).get j = d.get j :=
    fun j hj => (setN_get k j n d).trans (if_neg (by omega))
  simp only [tbNow, tbAt, setN_time, hget Reg.tb_TB_ANCHOR (by decide), hget Reg.tb_TB_OFFSET (by decide),
    hget Reg.tb_TB_RATE (by decide)]

/-- The event of a mode change is the one that the state before it would post. -/
theorem modeNoted_sources (dst cause : Nat) (d : Dev) :
    (modeNoted dst cause d).sources = (post 0x0201 0xFFFF (d.mode * 256 + dst) cause d).sources := by
  refine post_sources_congr rfl rfl rfl ?_
  rw [tbNow_setN (by decide), tbNow_setN (by decide), tbNow_setN (by decide)]
  rfl

/-- Outside SERVICE a mode change posts its event and no other. -/
theorem modeSet_sources {dst : Nat} (cause : Nat) {d : Dev} (hdst : dst ≠ mSERVICE) (hold : d.mode ≠ mSERVICE) :
    (modeSet dst cause d).sources = (post 0x0201 0xFFFF (d.mode * 256 + dst) cause d).sources := by
  rw [modeSet_eq, modeFollowed_sources, lanesTested_of_noService _ _ hdst hold, modeNoted_sources]

/-- Outside SERVICE a mode change writes the mode entries and no other. -/
theorem modeSet_val {dst : Nat} (cause k : Nat) {d : Dev} (hdst : dst ≠ mSERVICE) (hold : d.mode ≠ mSERVICE) :
    (modeSet dst cause d).val k = (modeNoted dst cause d).val k := by
  rw [modeSet_eq, modeFollowed_val, lanesTested_of_noService _ _ hdst hold]

/-- Settles O16: `modeNoted` writes the three entries and posts the event; what follows it keeps the entries of the modes, the
lanes' test controls included (`modesKept_modeSet`), and outside SERVICE every entry (`modeSet_val`). -/
theorem modeChangeIsRecorded : Obligations.ModeChangeIsRecorded := by
  intro dst cause d
  have hkept := modesKept_modeSet dst cause d
  refine ⟨?mode, ?target, ?cause, hkept.trans, fun hdst hold => ⟨modeSet_sources cause hdst hold, fun k hcur htgt hcause => ?other⟩⟩
  case mode =>
    exact (hkept.get (by decide)).trans (get_of_val (modeNoted_val dst cause Reg.mode_MODE_CURRENT d))
  case target =>
    exact (hkept.get (by decide)).trans (get_of_val (modeNoted_val dst cause Reg.mode_MODE_TARGET d))
  case cause =>
    exact (hkept.get (by decide)).trans (get_of_val (modeNoted_val dst cause Reg.mode_MODE_EXIT_CAUSE d))
  case other =>
    rw [modeSet_val cause k hdst hold, modeNoted_val, if_neg hcause, if_neg htgt, if_neg hcur]

/-! ## Transitions in progress -/

theorem modeComplete_of_met {s : State} {x : Transition} (h : s.dev.trans = some x) (hp : s.pendingBits = 0) :
    modeComplete s = modeChange s.dev.target x.cause x.ref s := by
  simp only [modeComplete, h, if_pos hp]

theorem exec_modeTransitionComplete_of_met {s : State} {x : Transition} (h : s.dev.trans = some x)
    (hp : s.pendingBits = 0) :
    exec .modeTransitionComplete s = .next (standbyReached (modeChange s.dev.target x.cause x.ref s)) := by
  have hmet : s.dev.trans.isSome = true ∧ s.pendingBits = 0 := ⟨by rw [h]; rfl, hp⟩
  rw [← modeComplete_of_met h hp]
  exact congrArg _ (if_pos hmet)

/-- What a timeout logs and cuts off before anything of the units stops (R40): EV 0x0204, and a take of RECORD or SCAN. -/
def timeoutLogged (s : State) : State :=
  if s.dev.mode = mRECORD ∨ s.dev.mode = mSCAN then takeCut (onDev (post 0x0204 0xFFFF s.pendingBits s.dev.target) s)
  else onDev (post 0x0204 0xFFFF s.pendingBits s.dev.target) s

/-- A transition that has taken its time enters CONFIGURE with cause 0x0A (R40). -/
theorem modeTimeout_of_due {s : State} {x : Transition} (h : s.dev.trans = some x)
    (hdue : s.dev.get Reg.mode_MODE_TIMEOUT_S * 1200000000 ≤ s.dev.since x.raw) :
    ∃ d, modeTimeout s = modeChange mCONFIGURE 0x0A x.ref { timeoutLogged s with dev := d } := by
  simp only [modeTimeout, h, if_neg (Nat.not_lt.mpr hdue)]
  exact ⟨_, rfl⟩

theorem exec_modeTimeout (s : State) : exec .modeTimeout s = .next (modeTimeout s) := rfl

theorem exec_forcedTransition (s : State) : exec .forcedTransition s = .next (forcedGo s) := rfl

theorem forcedGo_of_edge {s : State} {c dst : Nat} {rest : List Nat} (ht : s.dev.target = 0) (hf : s.dev.forced = c :: rest)
    (hedge : forcedTo s.dev.mode c = some dst) :
    forcedGo s = modeAccept dst c false (onDev (fun d => { d with forced := rest }) s) := by
  have htgt : ¬ s.dev.target ≠ 0 := not_not.mpr ht
  simp only [forcedGo, if_neg htgt, hf, hedge]

theorem exec_recordFlushDone_of_status {ns : Fin 4} {status : Nat} {s : State} {data : List Byte}
    {l : List (Nat × List Byte)} (h : (s.dev.mag ns).fw.results = (status, data) :: l) :
    exec (.recordFlushDone ns status) s = .next (magSettle (flushDone ns s)) := by
  change execRecordFlushDone ns status s = _
  simp only [execRecordFlushDone, h, if_pos]

theorem flushDone_of_report {p : Nat} {r : Nat × List Byte} {l : List (Nat × List Byte)} {rest : List FwOp} {s : State}
    (hbusy : (s.dev.mag p).fw.busy = false) (hscript : (s.dev.mag p).fw.script = .report :: rest)
    (hres : (s.dev.mag p).fw.results = r :: l) :
    flushDone p s =
      fwRun p fwFuel (onDev (fun d => post 0x0205 (p + 1) r.1 0 (setFw p (fun x => { x with script := rest }) d)) s) := by
  simp only [flushDone, hbusy, hscript, hres]

/-- Settles O15: each clause is what its operation does where its condition holds. -/
theorem transitionsProceed : Obligations.TransitionsProceed := by
  refine ⟨?complete, ?timeout, ?forced, ?flushed, ?reported⟩
  case complete => exact fun s x h hp => exec_modeTransitionComplete_of_met h hp
  case timeout =>
    intro s x h hdue
    rw [exec_modeTimeout]
    exact completes_next (modeTimeout_of_due h hdue)
  case forced =>
    intro s c dst rest ht hf hedge
    rw [exec_forcedTransition, forcedGo_of_edge ht hf hedge]
  case flushed => exact fun ns status s data l h => exec_recordFlushDone_of_status h
  case reported => exact fun p r l rest s hbusy hscript hres => flushDone_of_report hbusy hscript hres

end Sys2Proof.Machine
end

section
/-! What the statements about the sensor lanes share: the state after an accepted write of a lane's or a port's entry, and the
effect of each such write by its entry (Tables 3.7, 3.8 and 12.9). -/

namespace Sys2Proof.Machine

/-! ## The units at the effect of a write -/

/-- The units that the effect of an accepted write finds: the write is recorded, once its event has room (R419, R565). -/
def noted (w : Writer) (key : Nat) (v : Val) (s : State) : Dev := recordWrite w key v (roomToRecord w s).dev

section
variable (w : Writer) (key : Nat) (v : Val) (s : State)

theorem noted_val {j : Nat} (hj : j ≠ Reg.store_STORE_DIRTY) : (noted w key v s).val j = s.dev.val j :=
  (recordWrite_val w key j v _ hj).trans ((arbitrated_roomToRecord w s).val j)

theorem noted_get {j : Nat} (hj : j ≠ Reg.store_STORE_DIRTY) : (noted w key v s).get j = s.dev.get j :=
  (recordWrite_get w key j v _ hj).trans ((arbitrated_roomToRecord w s).get j)

theorem noted_sen : (noted w key v s).sen = s.dev.sen :=
  (recordWrite_sen w key v _).trans (arbitrated_roomToRecord w s).sen

theorem noted_port (p : Nat) : (noted w key v s).port p = s.dev.port p :=
  congrArg (nth · p) (noted_sen w key v s)

theorem noted_mags : (noted w key v s).mags = s.dev.mags :=
  (recordWrite_mags w key v _).trans (arbitrated_roomToRecord w s).mags

theorem noted_out : (noted w key v s).out = s.dev.out :=
  (recordWrite_out w key v _).trans (arbitrated_roomToRecord w s).out

theorem accepted_mem (f : Nat → Dev → Dev) : (accepted w key v (fun n => onDev (f n)) s).mem = s.mem :=
  (arbitrated_roomToRecord w s).mem

theorem accepted_val (f : Dev → Dev) (j : Nat) :
    (accepted w key v (fun _ => onDev f) s).dev.val j = (f (noted w key v s)).val j := rfl

theorem accepted_get (f : Dev → Dev) (j : Nat) :
    (accepted w key v (fun _ => onDev f) s).dev.get j = (f (noted w key v s)).get j := rfl

theorem accepted_sen (f : Dev → Dev) : (accepted w key v (fun _ => onDev f) s).dev.sen = (f (noted w key v s)).sen := rfl

theorem accepted_port (f : Dev → Dev) (p : Nat) :
    (accepted w key v (fun _ => onDev f) s).dev.port p = (f (noted w key v s)).port p := rfl

theorem accepted_out (f : Dev → Dev) : (accepted w key v (fun _ => onDev f) s).dev.out = (f (noted w key v s)).out := rfl

end

/-! ## The write of a sensor lane's entry -/

theorem laneRule_num (p v : Nat) {key : Nat} (hkey : key ≠ Reg.sen_GANG p) : laneRule p key (.num v) = none :=
  if_neg fun h => hkey h.1

/-- An accepted write of entry `c` of a lane has the effect of Table 3.8. -/
theorem finish_laneEntry (w : Writer) (p : Fin 4) (k : Fin 64) {c : Nat} (hc : c < 256) {n : Nat} {s : State}
    (h : writeCheck s.dev w ((0x0810 + 0x100 * p + k) * 256 + c) (.num n) = none) :
    finishWrite s (writeLaneEntry w ((0x0810 + 0x100 * p + k) * 256 + c) (.num n) s) =
      accepted w ((0x0810 + 0x100 * p + k) * 256 + c) (.num n)
        (fun _ => onDev (laneEffect p k ((0x0810 + 0x100 * p + k) * 256 + c) (.num n))) s := by
  have hp : (((0x0810 + 0x100 * p.val + k) * 256 + c) / 256 - 0x0800) / 0x100 = p := by omega
  have hr : (((0x0810 + 0x100 * p.val + k) * 256 + c) / 256 - 0x0800) % 0x100 = 0x10 + k := by omega
  have hlane : 0x10 ≤ 0x10 + k.val ∧ 0x10 + k.val < 0x50 := by omega
  have hgang : (0x0810 + 0x100 * p.val + k) * 256 + c ≠ (0x0800 + 0x100 * p) * 256 + 0x08 := by omega
  simp only [writeLaneEntry, hp, hr, if_pos hlane, Nat.add_sub_cancel_left]
  exact finishWrite_ok w _ _ _ _ s h (laneRule_num p n hgang)

/-- A write of entry `c` of one of a port's own entry bases, which stand before its lanes', finds the port by its key. -/
theorem writeLaneEntry_port (w : Writer) (p : Fin 4) {r c : Nat} (hr : r < 0x10) (hc : c < 256) (v : Val) :
    writeLaneEntry w ((0x0800 + 0x100 * p + r) * 256 + c) v =
      entryWrite w ((0x0800 + 0x100 * p + r) * 256 + c) v
        (fun _ => laneRule p ((0x0800 + 0x100 * p + r) * 256 + c) v)
        (fun ref => onDev (portEffect p ((0x0800 + 0x100 * p + r) * 256 + c) v ref)) := by
  have hp : (((0x0800 + 0x100 * p.val + r) * 256 + c) / 256 - 0x0800) / 0x100 = p := by omega
  have hm : (((0x0800 + 0x100 * p.val + r) * 256 + c) / 256 - 0x0800) % 0x100 = r := by omega
  have hport : ¬ (0x10 ≤ r ∧ r < 0x50) := by omega
  simp only [writeLaneEntry, hp, hm, if_neg hport]

/-- Such a write has the effect of Table 3.7, where the port's rule does not refuse it. -/
theorem finish_portEntry (w : Writer) (p : Fin 4) {r c : Nat} (hr : r < 0x10) (hc : c < 256) {v : Val} {s : State}
    (h : writeCheck s.dev w ((0x0800 + 0x100 * p + r) * 256 + c) v = none)
    (hrule : laneRule p ((0x0800 + 0x100 * p + r) * 256 + c) v = none) :
    finishWrite s (writeLaneEntry w ((0x0800 + 0x100 * p + r) * 256 + c) v s) =
      accepted w ((0x0800 + 0x100 * p + r) * 256 + c) v
        (fun ref => onDev (portEffect p ((0x0800 + 0x100 * p + r) * 256 + c) v ref)) s := by
  rw [writeLaneEntry_port w p hr hc v]
  exact finishWrite_ok w _ v _ _ s h hrule

theorem finish_portEntry_refused (w : Writer) (p : Fin 4) {r c n : Nat} (hr : r < 0x10) (hc : c < 256) {v : Val} {s : State}
    (h : writeCheck s.dev w ((0x0800 + 0x100 * p + r) * 256 + c) v = none)
    (hrule : laneRule p ((0x0800 + 0x100 * p + r) * 256 + c) v = refuse n) :
    finishWrite s (writeLaneEntry w ((0x0800 + 0x100 * p + r) * 256 + c) v s) =
      onDev (fun d => { d with answer := n }) s := by
  rw [writeLaneEntry_port w p hr hc v]
  exact finishWrite_rule w _ n v _ id _ s h hrule

/-- The checker of a lane restarts: the pattern, its counts and its lock, and the checker and the pattern of the lane's quad. -/
def restartPrbs (p k n : Nat) (d : Dev) : Dev :=
  setN (Reg.lan_PRBS_LOCK p k) 0 (setN (Reg.lan_PRBS_BITS p k) 0 (setN (Reg.lan_PRBS_ERRORS p k) 0
    (setN (Reg.lan_PRBS_SEL p k) n (setLane p k (fun x => { x with prbs := Prbs.reset })
      (setPort p (fun x => { x with gens := x.gens.set (k / 4) (List.replicate 31 true) }) d)))))

section
variable (p k : Nat)

theorem laneEffect_slip : laneEffect p k (Reg.lan_SLIP p k) (.num 1) = slipLane p k := by
  funext d
  simp [laneEffect]

theorem laneEffect_dwell : laneEffect p k (Reg.lan_DWELL p k) (.num 1) = fun d => syncLanes p (startDwell p k d) := by
  funext d
  simp [laneEffect]

theorem laneEffect_loop (v : Nat) :
    laneEffect p k (Reg.lan_LOOP p k) (.num v) = fun d => syncLanes p (setN (Reg.lan_LOOP p k) v d) := by
  funext d
  simp [laneEffect]

theorem laneEffect_prbsSel (v : Nat) :
    laneEffect p k (Reg.lan_PRBS_SEL p k) (.num v) = fun d => syncLanes p (restartPrbs p k v d) := by
  funext d
  simp [laneEffect, restartPrbs]

end

/-! ## The write of a port's entry -/

section
variable (p ref v : Nat)

/-- An entry of a port's second entry base is none of its first. -/
theorem sideEntry_ne (p i : Nat) {j : Nat} (hj : j < 256) :
    (0x0800 + 0x100 * p + 0x01) * 256 + i ≠ (0x0800 + 0x100 * p) * 256 + j := by omega

theorem portEffect_deskewArm : portEffect p (Reg.sen_DESKEW_ARM p) (.num 1) ref = armDeskew p := by
  funext d
  simp [portEffect]

theorem portEffect_rxPowerReq :
    portEffect p (Reg.sen_RX_POWER_REQ p) (.num v) ref = fun d => rxFollow p ref (setN (Reg.sen_RX_POWER_REQ p) v d) := by
  funext d
  simp [portEffect]

/-- What the write of a port's second entry base is not: DESKEW_ARM, RX_POWER_REQ, LANE_COUNT. -/
theorem sideEntry_ne_all (i : Nat) :
    (0x0800 + 0x100 * p + 0x01) * 256 + i ≠ Reg.sen_DESKEW_ARM p ∧
      (0x0800 + 0x100 * p + 0x01) * 256 + i ≠ Reg.sen_RX_POWER_REQ p ∧
      (0x0800 + 0x100 * p + 0x01) * 256 + i ≠ Reg.sen_LANE_COUNT p :=
  ⟨sideEntry_ne p i (by decide), sideEntry_ne p i (by decide), sideEntry_ne p i (by decide)⟩

theorem portEffect_sbPowerReq :
    portEffect p (Reg.sen_SB_POWER_REQ p) (.num v) ref =
      fun d => sbGo p 1 (sbGo p 0 (setN (Reg.sen_SB_POWER_REQ p) v d)) := by
  funext d
  obtain ⟨harm, hrx, -⟩ := sideEntry_ne_all p 0x04
  simp only [portEffect, if_neg harm, if_neg hrx, or_true, if_true]

theorem portEffect_sbPrbsSel :
    portEffect p (Reg.sen_SB_PRBS_SEL p) (.num v) ref =
      fun d => sbPattern p 1 (field v 7 4) (sbPattern p 0 (field v 3 0) (setN (Reg.sen_SB_PRBS_SEL p) v d)) := by
  funext d
  obtain ⟨harm, hrx, -⟩ := sideEntry_ne_all p 0x07
  simp only [portEffect, if_neg harm, if_neg hrx]
  simp [List.range, List.range.loop]

theorem portEffect_ckFreq : portEffect p (Reg.sen_CK_FREQ p) (.num v) ref = ckWrite p (Reg.sen_CK_FREQ p) v := by
  funext d
  obtain ⟨harm, hrx, hcount⟩ := sideEntry_ne_all p 0x09
  simp only [portEffect, if_neg harm, if_neg hrx, if_neg hcount]
  simp

theorem portEffect_sbSend (b : List Byte) :
    portEffect p (Reg.sen_SB_SEND p) (.bytes b) ref =
      sbOffer p { ty := rdLe b 0 1, payload := b.drop 1, owner := .none, tb := 0 } :=
  funext fun _ => if_pos rfl

end

/-! ## The write of a magazine lane's entry -/

/-- The effect of a write of an entry of a magazine lane (Table 12.9), as `writeMagLane` has it (`finish_magLane`). -/
def magLaneEffect (p l k n : Nat) (d : Dev) : Dev :=
  if k = Reg.mln_SLIP p l then (if n = 1 then magSlip p l d else d)
  else if k = Reg.mln_DWELL p l then (if n = 1 then magDwell p l d else d)
  else if k = Reg.mln_PRBS_SEL p l then
    setN (Reg.mln_PRBS_BITS p l) 0 (setN (Reg.mln_PRBS_ERRORS p l) 0
      (setN k n (setMagLane p l (fun x => { x with prbs := Prbs.reset })
        (setMag p (fun x => { x with gens := x.gens.set l (List.replicate 31 true) }) d))))
  else setN k n d

theorem finish_magLane (w : Writer) (p : Fin 4) (k : Fin 8) {c : Nat} (hc : c < 256) {n : Nat} {s : State}
    (h : writeCheck s.dev w ((0x2818 + 0x20 * p + k) * 256 + c) (.num n) = none) :
    finishWrite s (writeMagLane w ((0x2818 + 0x20 * p + k) * 256 + c) (.num n) s) =
      accepted w ((0x2818 + 0x20 * p + k) * 256 + c) (.num n)
        (fun _ => onDev (magLaneEffect p k ((0x2818 + 0x20 * p + k) * 256 + c) n)) s := by
  have hp : (((0x2818 + 0x20 * p.val + k) * 256 + c) / 256 - 0x2810) / 0x20 = p := by omega
  have hk : (((0x2818 + 0x20 * p.val + k) * 256 + c) / 256 - 0x2810) % 0x20 - 8 = k := by omega
  simp only [writeMagLane, hp, hk]
  exact finishWrite_ok w _ _ _ _ s h rfl

section
variable (p k : Nat)

theorem magLaneEffect_slip : magLaneEffect p k (Reg.mln_SLIP p k) 1 = magSlip p k := by
  funext d
  simp [magLaneEffect]

theorem magLaneEffect_dwell : magLaneEffect p k (Reg.mln_DWELL p k) 1 = magDwell p k := by
  funext d
  simp [magLaneEffect]

theorem magLaneEffect_loop (v : Nat) : magLaneEffect p k (Reg.mln_LOOP p k) v = setN (Reg.mln_LOOP p k) v := by
  funext d
  simp [magLaneEffect]

theorem magLaneEffect_prbsSel (v : Nat) :
    magLaneEffect p k (Reg.mln_PRBS_SEL p k) v = fun d =>
      setN (Reg.mln_PRBS_BITS p k) 0 (setN (Reg.mln_PRBS_ERRORS p k) 0
        (setN (Reg.mln_PRBS_SEL p k) v (setMagLane p k (fun x => { x with prbs := Prbs.reset })
          (setMag p (fun x => { x with gens := x.gens.set k (List.replicate 31 true) }) d)))) := by
  funext d
  simp [magLaneEffect]

end

/-! ## Calm states, entries, ports and lanes -/

/-- A command that changes the units alone and leaves them calm has no more than its own effect. -/
theorem settleState_onDev {f : Dev → Dev} {s : State} {e : Dev} (hf : f s.dev = e) (h : e.calm = true) :
    settleState (onDev f s) = { s with dev := e } := by
  subst hf
  exact settleState_calm _ h

theorem setN_val_of_ne {k j : Nat} (h : j ≠ k) (n : Nat) (d : Dev) : (setN k n d).val j = d.val j :=
  (setN_val k j n d).trans (if_neg h)

theorem setN_get_of_ne {k j : Nat} (h : j ≠ k) (n : Nat) (d : Dev) : (setN k n d).get j = d.get j :=
  (setN_get k j n d).trans (if_neg h)

theorem setN_get_same (k n : Nat) (d : Dev) : (setN k n d).get k = n := (setN_get k k n d).trans (if_pos rfl)

theorem lane_ne_dirty (p k c : Nat) : (0x0810 + 0x100 * p + k) * 256 + c ≠ Reg.store_STORE_DIRTY := by
  change _ ≠ 0x0320 * 256 + 0x06
  omega

theorem port_ne_dirty (p r c : Nat) : (0x0800 + 0x100 * p + r) * 256 + c ≠ Reg.store_STORE_DIRTY := by
  change _ ≠ 0x0320 * 256 + 0x06
  omega

theorem magLane_ne_dirty (p k c : Nat) : (0x2818 + 0x20 * p + k) * 256 + c ≠ Reg.store_STORE_DIRTY := by
  change _ ≠ 0x0320 * 256 + 0x06
  omega

theorem foldl_proj {α β : Type} (g : Dev → β) {f : Dev → α → Dev} (hf : ∀ d x, g (f d x) = g d) (l : List α)
    (d : Dev) : g (l.foldl f d) = g d := by
  induction l generalizing d with
  | nil => rfl
  | cons x l ih => exact (ih (f d x)).trans (hf d x)

/-- What a change at a place of a list keeps, it keeps at every place. -/
theorem nth_updAt_proj {α β : Type} [Inhabited α] (g : α → β) {f : α → α} (hf : ∀ x, g (f x) = g x) (i j : Nat)
    (l : List α) : g (nth (updAt i f l) j) = g (nth l j) := by
  by_cases hij : i = j
  · subst hij
    by_cases hi : i < l.length
    · rw [nth_updAt_same i f l hi, hf]
    · rw [updAt, List.modify_eq_self (Nat.le_of_not_lt hi)]
  · rw [nth_updAt_other i j f l hij]

/-- A port that is there. -/
theorem port_setPort {p : Nat} {d : Dev} (hp : p < d.sen.length) (f : SenPort → SenPort) :
    (setPort p f d).port p = f (d.port p) := nth_updAt_same p f d.sen hp

theorem length_sen_setPort (p : Nat) (f : SenPort → SenPort) (d : Dev) :
    (setPort p f d).sen.length = d.sen.length := List.length_modify ..

/-- Port `p` and its lane `k` are there. -/
def HasLane (d : Dev) (p k : Nat) : Prop := p < d.sen.length ∧ k < (d.port p).lanes.length

theorem HasLane.setPort {d : Dev} {p k : Nat} (h : HasLane d p k) {f : SenPort → SenPort}
    (hf : ∀ x, (f x).lanes.length = x.lanes.length) : HasLane (setPort p f d) p k := by
  obtain ⟨hp, hk⟩ := h
  refine ⟨by rwa [length_sen_setPort], ?_⟩
  rwa [port_setPort hp, hf]

theorem HasLane.setLane {d : Dev} {p k : Nat} (h : HasLane d p k) (f : Lane → Lane) : HasLane (setLane p k f d) p k :=
  HasLane.setPort h fun _ => List.length_modify ..

theorem lane_setLane {d : Dev} {p k : Nat} (h : HasLane d p k) (f : Lane → Lane) :
    nth ((setLane p k f d).port p).lanes k = f (nth (d.port p).lanes k) := by
  obtain ⟨hp, hk⟩ := h
  rw [setLane, port_setPort hp]
  exact nth_updAt_same k f _ hk

end Sys2Proof.Machine
end

section
/-! The statements about the sensor lanes, their sidebands and their checkers. -/

namespace Sys2Proof.Machine

/-! ## Sidebands (R59 to R62) -/

/-- A frame that starts on a sideband changes its port, what is drawn and what is put out. -/
theorem sbStart_eq (p i : Nat) (f : SbFrame) (d : Dev) :
    ∃ x n o, sbStart p i f d = { d with sen := x, free := n, out := o } := by
  by_cases ht : (decide (f.ty = 1) || decide (f.ty = 2)) = true
  · simp only [sbStart, if_pos ht]
    exact ⟨_, _, _, rfl⟩
  · simp only [sbStart, if_neg ht]
    exact ⟨_, _, _, rfl⟩

theorem sbStart_calm (p i : Nat) (f : SbFrame) {d : Dev} (h : d.calm = true) : (sbStart p i f d).calm = true := by
  obtain ⟨x, n, o, e⟩ := sbStart_eq p i f d
  rw [e]
  exact h

/-- The trigger frame that is sent at once (Table 3.4). -/
def triggerFrame (d : Dev) : SbFrame := { ty := 1, payload := [], owner := .none, tb := tbNow d }

theorem sendTrigger_of_idle {p : Nat} {d : Dev} (hopen : d.sbOpen p 0 = true) (hidle : (d.sb p 0).sending = none) :
    sendTrigger p 1 d = (true, sbStart p 0 (triggerFrame d) d) := by
  simp only [sendTrigger, hopen, hidle, Bool.not_true, Bool.false_eq_true, if_false]
  rfl

theorem sendTrigger_of_closed {p : Nat} {d : Dev} (hclosed : d.sbOpen p 0 = false) :
    sendTrigger p 1 d = (false, triggerLost p 0 d) := by
  simp only [sendTrigger, hclosed, Bool.not_false, if_true]

/-- A trigger frame carries SEQ, and the next one the number after it (R61). -/
theorem sbStart_trigger_port {p : Nat} {d : Dev} (hp : p < d.sen.length) :
    ((sbStart p 0 (triggerFrame d) d).port p).trigSeq = ((d.port p).trigSeq + 1) % 256 ∧
      ((sbStart p 0 (triggerFrame d) d).port p).trigTb = some (tbNow d) := by
  have hport : (sbStart p 0 (triggerFrame d) d).port p =
      { (setSb p 0 (fun l => { l with sending := some (triggerFrame d) }) d).port p with
        trigSeq := (((setSb p 0 (fun l => { l with sending := some (triggerFrame d) }) d).port p).trigSeq + 1) % 256
        trigTb := some (tbNow d) } := port_setPort (by rwa [setSb, length_sen_setPort]) _
  rw [hport, setSb, port_setPort hp]
  exact ⟨rfl, rfl⟩

theorem exec_frameTrigger {p : Fin 4} {s : State} (hp : p.val < s.dev.nPorts) :
    exec (.frameTrigger p) s = .next (onDev (fun d => (sendTrigger p 1 d).2) s) := congrArg _ (if_pos hp)

/-- The end of a frame that has no owner starts the next of the queue (R62). -/
theorem sbSent_of_queued {p i : Nat} {f g : SbFrame} {q : List SbFrame} {d : Dev} (hs : (d.sb p i).sending = some f)
    (ho : f.owner = .none) (hg : (d.sb p i).goal = none) (hq : (d.sb p i).queue = g :: q) :
    sbSent p i d = sbStart p i g
      (setSb p i (fun l => { l with queue := q }) (setSb p i (fun l => { l with sending := none }) d)) := by
  simp only [sbSent, hs, ho, hg, hq, endOwner]

theorem exec_sbSend_of_sendable {w : Writer} {p : Fin 4} {b : List Byte} {s : State}
    (hc : writeCheck s.dev w (Reg.sen_SB_SEND p) (.bytes b) = none) (hb : sendable b = true) :
    exec (.sbSend w p b) s = .next (accepted w (Reg.sen_SB_SEND p) (.bytes b)
      (fun _ => onDev (sbOffer p { ty := rdLe b 0 1, payload := b.drop 1, owner := .none, tb := 0 })) s) := by
  have hrule : laneRule p (Reg.sen_SB_SEND p) (.bytes b) = none := if_neg (by simp [hb])
  refine congrArg _ ((finish_portEntry w p (r := 1) (by decide) (by decide) hc hrule).trans ?_)
  simp only [portEffect_sbSend]

/-- SB_SEND refuses a frame that no client may send, which is this model's choice (assumption 61). -/
theorem exec_sbSend_of_not_sendable {w : Writer} {p : Fin 4} {b : List Byte} {s : State}
    (hc : writeCheck s.dev w (Reg.sen_SB_SEND p) (.bytes b) = none) (hb : sendable b = false) :
    exec (.sbSend w p b) s = .next (onDev (fun d => { d with answer := stRANGE }) s) := by
  have hrule : laneRule p (Reg.sen_SB_SEND p) (.bytes b) = refuse stRANGE := if_pos ⟨rfl, by rw [hb]; rfl⟩
  exact congrArg _ (finish_portEntry_refused w p (r := 1) (by decide) (by decide) hc hrule)

/-! ## The reference clock (R63) -/

/-- A change of the running clock's frequency holds it low until it restarts. -/
theorem ckWrite_of_running {p v : Nat} {d : Dev} (hon : d.flag (Reg.sen_CK_ENABLE p) = true)
    (hv : d.get (Reg.sen_CK_FREQ p) ≠ v) :
    ckWrite p (Reg.sen_CK_FREQ p) v d =
      emitCk p 0xFF (setPort p (fun x => { x with ckTo := some v }) (setN (Reg.sen_CK_FREQ p) v d)) := by
  have hchange : ¬ (d.get (Reg.sen_CK_FREQ p) = v ∨ (!d.flag (Reg.sen_CK_ENABLE p)) = true) := by simp [hv, hon]
  have hkey : Reg.sen_CK_FREQ p ≠ Reg.sen_CK_ENABLE p := by simp
  simp only [ckWrite, if_neg hkey, if_neg hchange]

theorem exec_ckFreqChange {w : Writer} {p : Fin 4} {v : Nat} {s : State}
    (hc : writeCheck s.dev w (Reg.sen_CK_FREQ p) (.num v) = none) :
    exec (.ckFreqChange w p v) s = .next (accepted w (Reg.sen_CK_FREQ p) (.num v)
      (fun _ => onDev (ckWrite p (Reg.sen_CK_FREQ p) v)) s) := by
  refine congrArg _ ((finish_portEntry w p (r := 1) (by decide) (by decide) hc (laneRule_num p v ?_)).trans ?_)
  · exact sideEntry_ne p 0x09 (by decide)
  · simp only [portEffect_ckFreq]

theorem ckRestart_of_waiting {p v : Nat} {d : Dev} (h : (d.port p).ckTo = some v) :
    ckRestart p d = emitCk p v (setPort p (fun x => { x with ckTo := none }) d) := by
  simp only [ckRestart, h]

/-- Settles O20: a trigger and the end of a frame start one by `sbStart`, and SB_SEND and CK_FREQ are writes of a port's entry
(`finish_portEntry`). The frames that SB_SEND refuses are this model's choice (assumption 61). -/
theorem sidebandsAndClockRun : Obligations.SidebandsAndClockRun := by
  refine ⟨?trigger, ?lost, ?sent, ?send, ?change, ?restart⟩
  case trigger =>
    intro p s hp hopen hidle
    rw [exec_frameTrigger hp]
    simp only [onDev, sendTrigger_of_idle hopen hidle]
    exact completes_next ⟨rfl, ⟨_, rfl⟩, sbStart_trigger_port, rfl⟩
  case lost =>
    intro p s hp hclosed
    rw [exec_frameTrigger hp]
    simp only [onDev, sendTrigger_of_closed hclosed]
    rfl
  case sent =>
    intro p i f g q s hs ho hg hq hcalm
    change Host.Outcome.next (settleState (onDev (sbSent p i) s)) = _
    rw [settleState_onDev (sbSent_of_queued hs ho hg hq) (sbStart_calm _ _ _ hcalm)]
    rfl
  case send =>
    intro w p b s hc
    exact ⟨exec_sbSend_of_sendable hc, exec_sbSend_of_not_sendable hc⟩
  case change =>
    intro w p v s hc hon hv
    have hon' : (noted w (Reg.sen_CK_FREQ p) (.num v) s).flag (Reg.sen_CK_ENABLE p) = true := by
      rw [Dev.flag, noted_get _ _ _ _ (port_ne_dirty p 1 8)]
      exact hon
    have hv' : (noted w (Reg.sen_CK_FREQ p) (.num v) s).get (Reg.sen_CK_FREQ p) ≠ v := by
      rwa [noted_get _ _ _ _ (port_ne_dirty p 1 9)]
    rw [exec_ckFreqChange hc]
    refine completes_next ⟨?freq, fun hp => ?waits, ?out, accepted_mem .., fun k hk hd => ?frame⟩
    case freq =>
      rw [accepted_get, ckWrite_of_running hon' hv']
      exact setN_get_same ..
    case waits =>
      rw [accepted_port, ckWrite_of_running hon' hv']
      exact congrArg SenPort.ckTo (port_setPort (by rwa [setN_sen, noted_sen]) _)
    case out =>
      rw [accepted_out, ckWrite_of_running hon' hv', ← noted_out w (Reg.sen_CK_FREQ p) (.num v) s]
      rfl
    case frame =>
      rw [accepted_val, ckWrite_of_running hon' hv', ← noted_val w (Reg.sen_CK_FREQ p) (.num v) s hd]
      exact setN_val_of_ne hk _ _
  case restart =>
    intro p v s h
    change Host.Outcome.next (onDev (ckRestart p) s) = _
    simp only [onDev, ckRestart_of_waiting h]
    rfl

/-! ## Slips and dwells (R64, R298) -/

theorem exec_slip_sensor {w : Writer} {p : Fin 4} {k : Fin 64} {s : State}
    (hc : writeCheck s.dev w (Reg.lan_SLIP p k) (.num 1) = none) :
    exec (.slip w (.sensor p k)) s =
      .next (accepted w (Reg.lan_SLIP p k) (.num 1) (fun _ => onDev (slipLane p k)) s) := by
  rw [← laneEffect_slip]
  exact congrArg _ (finish_laneEntry w p k (by decide) hc)

theorem exec_slip_mag {w : Writer} {p : Fin 4} {k : Fin 8} {s : State}
    (hc : writeCheck s.dev w (Reg.mln_SLIP p k) (.num 1) = none) :
    exec (.slip w (.mag p k)) s =
      .next (accepted w (Reg.mln_SLIP p k) (.num 1) (fun _ => onDev (magSlip p k)) s) := by
  rw [← magLaneEffect_slip]
  exact congrArg _ (finish_magLane w p k (by decide) hc)

theorem exec_dwell_sensor {w : Writer} {p : Fin 4} {k : Fin 64} {s : State}
    (hc : writeCheck s.dev w (Reg.lan_DWELL p k) (.num 1) = none) :
    exec (.dwell w (.sensor p k)) s =
      .next (accepted w (Reg.lan_DWELL p k) (.num 1) (fun _ => onDev (fun d => syncLanes p (startDwell p k d))) s) := by
  rw [← laneEffect_dwell]
  exact congrArg _ (finish_laneEntry w p k (by decide) hc)

theorem exec_dwell_mag {w : Writer} {p : Fin 4} {k : Fin 8} {s : State}
    (hc : writeCheck s.dev w (Reg.mln_DWELL p k) (.num 1) = none) :
    exec (.dwell w (.mag p k)) s =
      .next (accepted w (Reg.mln_DWELL p k) (.num 1) (fun _ => onDev (magDwell p k)) s) := by
  rw [← magLaneEffect_dwell]
  exact congrArg _ (finish_magLane w p k (by decide) hc)

/-- The positions of a lane follow three entries of the ports: GANG, CODING and WORD_WIDTH (R48, R64). -/
theorem positions_congr {d e : Dev} (p : Nat) (hgang : ∀ q, e.get (Reg.sen_GANG q) = d.get (Reg.sen_GANG q))
    (hcoding : ∀ q, e.get (Reg.sen_CODING q) = d.get (Reg.sen_CODING q))
    (hwidth : ∀ q, e.get (Reg.sen_WORD_WIDTH q) = d.get (Reg.sen_WORD_WIDTH q)) : e.positions p = d.positions p := by
  have hlead : e.lead p = d.lead p := by simp only [Dev.lead, hgang]
  have hstripe : e.stripe p = d.stripe p := by simp only [Dev.stripe, hlead, hcoding]
  have hword : e.wordWidth p = d.wordWidth p := by simp only [Dev.wordWidth, hlead, hwidth]
  rw [Dev.positions, hstripe, hword, ← Dev.positions]

/-- A lane's entry of one number is none of a port's first entry base of another. -/
theorem laneEntry_ne_port (p k q : Nat) {i j : Nat} (hi : i < 256) (hj : j < 256) (hij : i ≠ j) :
    (0x0800 + 0x100 * q) * 256 + j ≠ (0x0810 + 0x100 * p + k) * 256 + i := by omega

theorem noted_positions (w : Writer) (key : Nat) (v : Val) (s : State) (p : Nat) :
    (noted w key v s).positions p = s.dev.positions p :=
  positions_congr p (fun q => noted_get w key v s (port_ne_dirty q 0 8)) (fun q => noted_get w key v s (port_ne_dirty q 0 2))
    (fun q => noted_get w key v s (port_ne_dirty q 0 5))

/-- The entries of a lane once its equaliser has adapted (R69). -/
theorem adapt_get (p k j : Nat) (eq : Equaliser) (d : Dev) (hj : j ≠ Reg.lan_DFE p k) :
    (adapt p k eq d).get j =
      if j = Reg.lan_CTLE p k then eq.ctle % 16 else if j = Reg.lan_EYE_MV p k then eq.eyeMv % 65536 else d.get j := by
  have hdfe (b : List Byte) (e : Dev) : (setB (Reg.lan_DFE p k) b e).get j = e.get j := by
    simp only [Dev.get, setB_val, if_neg hj]
  rw [adapt, setN_get, hdfe, setN_get]

theorem lane_startDwell {d : Dev} {p k : Nat} (h : HasLane d p k) :
    nth ((startDwell p k d).port p).lanes k = { nth (d.port p).lanes k with dwelling := true } := lane_setLane h _

/-- A lane's dwell has ended with its count (R64). -/
def dwelt (p k hits : Nat) (d : Dev) : Dev :=
  setN (Reg.lan_MATCH_COUNT p k) hits (setLane p k (fun l => { l with dwelling := false }) d)

theorem dwelt_get (p k hits j : Nat) (d : Dev) :
    (dwelt p k hits d).get j = if j = Reg.lan_MATCH_COUNT p k then hits else d.get j := setN_get ..

theorem dwellDone_of_idle {p k matched : Nat} {eq : Equaliser} {d : Dev}
    (hdw : (nth (d.port p).lanes k).dwelling = true) (hstep : (d.port p).step = .idle)
    (hcont : d.flag (Reg.sen_CONT_ADAPT p) = false) :
    dwellDone p k matched eq d = dwelt p k (min matched (d.get (Reg.sen_ALIGN_DWELL p))) d := by
  simp only [dwellDone, hdw, hstep, hcont, Bool.not_true, Bool.false_eq_true, if_false]
  rfl

/-- A lane of a search that was not found: slipped and counted, its equaliser as adapted (R64, R69). -/
def searchSlip (p k hits : Nat) (eq : Equaliser) (d : Dev) : Dev :=
  setLane p k (fun l => { l with slips := l.slips + 1 }) (slipLane p k (adapt p k eq (dwelt p k hits d)))

theorem HasLane.slipped {d : Dev} {p k : Nat} (h : HasLane d p k) (hits : Nat) (eq : Equaliser) :
    HasLane (slipLane p k (adapt p k eq (dwelt p k hits d))) p k := h.setLane _

theorem HasLane.searchSlip {d : Dev} {p k : Nat} (h : HasLane d p k) (hits : Nat) (eq : Equaliser) :
    HasLane (searchSlip p k hits eq d) p k := (h.slipped hits eq).setLane _

theorem lane_searchSlip {d : Dev} {p k : Nat} (h : HasLane d p k) (hits : Nat) (eq : Equaliser) :
    nth ((searchSlip p k hits eq d).port p).lanes k =
      { nth (d.port p).lanes k with dwelling := false, slips := (nth (d.port p).lanes k).slips + 1 } := by
  rw [searchSlip, lane_setLane (h.slipped hits eq)]
  exact congrArg (fun l : Lane => { l with slips := l.slips + 1 }) (lane_setLane h _)

/-- A dwell of a search with too few matches and positions left slips its lane and dwells again. -/
theorem dwellDone_of_missed {p k matched : Nat} {eq : Equaliser} {d : Dev}
    (hdw : (nth (d.port p).lanes k).dwelling = true) (hstep : (d.port p).step = .search)
    (hfew : min matched (d.get (Reg.sen_ALIGN_DWELL p)) < d.get (Reg.sen_ALIGN_MIN p))
    (hleft : (nth (d.port p).lanes k).slips + 1 < d.positions p) (h : HasLane d p k) :
    dwellDone p k matched eq d =
      startDwell p k (searchSlip p k (min matched (d.get (Reg.sen_ALIGN_DWELL p))) eq d) := by
  have hslips : (nth ((searchSlip p k (min matched (d.get (Reg.sen_ALIGN_DWELL p))) eq d).port p).lanes k).slips <
      d.positions p := by rwa [lane_searchSlip h]
  have hmiss : decide (d.get (Reg.sen_ALIGN_MIN p) ≤ min matched (d.get (Reg.sen_ALIGN_DWELL p))) = false :=
    decide_eq_false (Nat.not_le.mpr hfew)
  simp only [dwellDone, hdw, hstep, hmiss, Bool.not_true, Bool.false_eq_true, if_false, if_true]
  exact if_pos hslips

/-- A lane's own entries are not those that its positions follow. -/
theorem searchSlip_positions (p k hits : Nat) (eq : Equaliser) (d : Dev) :
    (adapt p k eq (dwelt p k hits d)).positions p = d.positions p := by
  have hget {j : Nat} (q : Nat) (hj : j < 256) (h6 : 6 ≠ j) (hB : 0x0B ≠ j) (hC : 0x0C ≠ j) (hD : 0x0D ≠ j) :
      (adapt p k eq (dwelt p k hits d)).get ((0x0800 + 0x100 * q) * 256 + j) = d.get ((0x0800 + 0x100 * q) * 256 + j) := by
    rw [adapt_get _ _ _ _ _ (laneEntry_ne_port p k q (by decide) hj hC),
      if_neg (laneEntry_ne_port p k q (by decide) hj hB), if_neg (laneEntry_ne_port p k q (by decide) hj hD),
      dwelt_get, if_neg (laneEntry_ne_port p k q (by decide) hj h6)]
  exact positions_congr p (fun q => hget q (by decide) (by decide) (by decide) (by decide) (by decide))
    (fun q => hget q (by decide) (by decide) (by decide) (by decide) (by decide))
    (fun q => hget q (by decide) (by decide) (by decide) (by decide) (by decide))

/-- The entries of a lane that dwells again in a search. -/
theorem startDwell_searchSlip_get (p k hits : Nat) (eq : Equaliser) (d : Dev) :
    (startDwell p k (searchSlip p k hits eq d)).get (Reg.lan_SLIP_POS p k) =
        (d.get (Reg.lan_SLIP_POS p k) + 1) % max 1 (d.positions p) ∧
      (startDwell p k (searchSlip p k hits eq d)).get (Reg.lan_MATCH_COUNT p k) = 0xFFFFFFFF ∧
      (startDwell p k (searchSlip p k hits eq d)).get (Reg.lan_EYE_MV p k) = eq.eyeMv % 65536 ∧
      (startDwell p k (searchSlip p k hits eq d)).get (Reg.lan_CTLE p k) = eq.ctle % 16 := by
  simp [startDwell, searchSlip, setLane, slipLane, adapt_get, dwelt_get, searchSlip_positions]

theorem magDwellDone_of_idle {p k matched : Nat} {eq : Equaliser} {d : Dev}
    (hdw : (nth (d.mag p).lanes k).dwelling = true) (hstep : (d.mag p).step = .idle) :
    magDwellDone p k matched eq d =
      setN (Reg.mln_MATCH_COUNT p k) matched (setMagLane p k (fun l => { l with dwelling := false }) d) := by
  simp [magDwellDone, hdw, hstep]

/-- Settles O21: slips and dwells are writes of a lane's entry (`finish_laneEntry`, `finish_magLane`); the end of a dwell does
nothing more outside a search (`dwellDone_of_idle`), and in one slips the lane and dwells again (`dwellDone_of_missed`). -/
theorem lanesSlipAndDwell : Obligations.LanesSlipAndDwell := by
  refine ⟨?slip, ?magSlip, fun w p k s hc => exec_dwell_sensor hc, ?starts, ?magDwell, ?ends, ?again, ?magEnds⟩
  case slip =>
    intro w p k s hc
    rw [exec_slip_sensor hc]
    refine completes_next ⟨?pos, accepted_mem .., noted_sen .., fun j hj hd => ?frame⟩
    case pos =>
      rw [accepted_get, slipLane, setN_get_same, noted_get _ _ _ _ (lane_ne_dirty p k 4), noted_positions]
    case frame =>
      rw [accepted_val, slipLane, setN_val_of_ne hj, noted_val _ _ _ _ hd]
  case magSlip =>
    intro w p k s hc
    rw [exec_slip_mag hc]
    refine completes_next ⟨?pos, accepted_mem .., noted_mags .., fun j hj hd => ?frame⟩
    case pos =>
      rw [accepted_get, magSlip, setN_get_same, noted_get _ _ _ _ (magLane_ne_dirty p k 4)]
    case frame =>
      rw [accepted_val, magSlip, setN_val_of_ne hj, noted_val _ _ _ _ hd]
  case starts =>
    intro p k d
    refine ⟨?count, fun hp hk => ?_, fun j hj => setN_val_of_ne hj _ _⟩
    case count => rw [startDwell, setN_get_same]
    rw [lane_startDwell ⟨hp, hk⟩]
  case magDwell =>
    intro w p k s hc
    rw [exec_dwell_mag hc]
    refine completes_next ⟨?count, accepted_mem .., fun j hj hd => ?frame⟩
    case count => rw [accepted_get, magDwell, setN_get_same]
    case frame =>
      rw [accepted_val, magDwell, setN_val_of_ne hj]
      exact noted_val _ _ _ _ hd
  case ends =>
    intro p k matched eq s hcalm hdw hstep hcont
    change Host.Outcome.next (settleState (onDev (dwellDone p k matched eq) s)) = _
    rw [settleState_onDev (dwellDone_of_idle hdw hstep hcont) hcalm]
    rfl
  case again =>
    intro p k matched eq s hdw hstep hfew hleft hp hk
    have hlane : HasLane s.dev p k := ⟨hp, hk⟩
    obtain ⟨hpos, hcount, heye, hctle⟩ :=
      startDwell_searchSlip_get p k (min matched (s.dev.get (Reg.sen_ALIGN_DWELL p))) eq s.dev
    refine completes_next ⟨_, rfl, ?_⟩
    rw [dwellDone_of_missed hdw hstep hfew hleft hlane]
    refine ⟨hpos, hcount, heye, hctle, ?_⟩
    rw [lane_startDwell (hlane.searchSlip _ eq), lane_searchSlip hlane]
    exact ⟨rfl, rfl⟩
  case magEnds =>
    intro p k matched eq s _ hdw hstep
    change Host.Outcome.next (magSettle (onDev (fun d => downCheck p (magDwellDone p k matched eq d)) s)) = _
    simp only [onDev, magDwellDone_of_idle hdw hstep]

/-! ## The deskew measurement (R65, R66) -/

theorem exec_deskewArm {w : Writer} {p : Fin 4} {s : State}
    (hc : writeCheck s.dev w (Reg.sen_DESKEW_ARM p) (.num 1) = none) :
    exec (.deskewArm w p) s =
      .next (accepted w (Reg.sen_DESKEW_ARM p) (.num 1) (fun _ => onDev (armDeskew p)) s) := by
  have hgang : Reg.sen_DESKEW_ARM p ≠ Reg.sen_GANG p := by simp
  refine congrArg _ ((finish_portEntry w p (r := 0) (by decide) (by decide) hc (laneRule_num p 1 hgang)).trans ?_)
  simp only [Nat.add_zero, portEffect_deskewArm]

/-- A value written to an entry of every lane of a list is read at each of them. -/
theorem foldl_setN_get {key : Nat → Nat} {n : Nat} {l : List Nat} {d : Dev} {j : Nat}
    (h : j ∈ l ∨ d.get (key j) = n) : (l.foldl (fun a i => setN (key i) n a) d).get (key j) = n := by
  induction l generalizing d with
  | nil => exact h.resolve_left (List.not_mem_nil)
  | cons i l ih =>
    refine ih ?_
    rcases h with hmem | hget
    · rcases List.mem_cons.mp hmem with rfl | hmem
      · exact .inr (setN_get_same ..)
      · exact .inl hmem
    · right
      rw [setN_get, hget, ite_self]

/-- Arming opens the measurement with no lane landed; the lanes' entries leave the port as it is. -/
theorem armDeskew_port {p : Nat} {d : Dev} (hp : p < d.sen.length) :
    (armDeskew p d).port p = { d.port p with armed := true, windowOpen := false, landed := [] } :=
  (foldl_proj (fun e => e.port p) (f := fun e k => setN (Reg.lan_LANDING p k) 0xFF e) (fun _ _ => rfl) _ _).trans
    (port_setPort hp _)

/-- A lane has landed at position `n`, with the window open from then on at the latest (R65). -/
def landedAt (p k n : Nat) (d : Dev) : Dev :=
  setN (Reg.lan_LANDING p k) n (setPort p (fun x => { x with windowOpen := true, landed := x.landed ++ [(k, n)] }) d)

theorem landedAt_port {p : Nat} {d : Dev} (hp : p < d.sen.length) (k n : Nat) :
    (landedAt p k n d).port p = { d.port p with windowOpen := true, landed := (d.port p).landed ++ [(k, n)] } :=
  port_setPort hp _

/-- A lane that lands while others are awaited is noted, the first of them at 0. -/
theorem deskewLanding_of_more {p k pos : Nat} {d : Dev} (harmed : (d.port p).armed = true)
    (hnew : (d.port p).landed.any (fun y => y.1 == k) = false) (hk : k < d.laneCount p) (hp : p < d.sen.length)
    (hmore : (d.port p).landed.length + 1 < d.laneCount p) :
    deskewLanding p k pos d = landedAt p k (if (d.port p).windowOpen then pos % 128 else 0) d := by
  have hgo : ¬ ((!(d.port p).armed || (d.port p).landed.any (fun y => y.1 == k) || decide (d.laneCount p ≤ k)) = true) := by
    simp [harmed, hnew, hk]
  have hcount (n : Nat) : ((landedAt p k n d).port p).landed.length ≠ d.laneCount p := by
    rw [landedAt_port hp, List.length_append]
    exact Nat.ne_of_lt hmore
  simp only [deskewLanding, if_neg hgo]
  exact if_neg (hcount _)

theorem magLanding_of_more {p k pos : Nat} {d : Dev} (harmed : (d.mag p).armed = true)
    (hnew : (d.mag p).landed.any (fun y => y.1 == k) = false) (hmore : (d.mag p).landed.length + 1 < 8) :
    magLanding p k pos d = setMag p (fun y => { y with
      windowOpen := true, landed := y.landed ++ [(k, if y.windowOpen then pos % 128 else 0)] }) d := by
  have hcount : (d.mag p).landed.length + 1 ≠ 8 := by omega
  simp only [magLanding, harmed, hnew, Bool.not_true, Bool.or_false, Bool.false_eq_true, if_false, if_neg hcount]

/-- A window that closes with one lane that has not landed fails the alignment with reason 2 (R66). -/
theorem deskewWindowEnd_of_missing {p k : Nat} {d : Dev} (hopen : (d.port p).windowOpen = true)
    (hstep : (d.port p).step = .deskew)
    (hmissing : (List.range (d.laneCount p)).filter (fun j => !((d.port p).landed.any (fun y => y.1 == j))) = [k]) :
    deskewWindowEnd p d = alignFail p k 2 (setPort p (fun x => { x with armed := false, windowOpen := false }) d) := by
  simp only [deskewWindowEnd, hopen, if_true, deskewFinish, hstep, hmissing, List.foldl_cons, List.foldl_nil]

theorem magDeskewFinish_of_noDeskew {p : Nat} {d : Dev} (hstep : (d.mag p).step ≠ .deskew) :
    magDeskewFinish p d = setMag p (fun x => { x with armed := false, windowOpen := false }) d := if_pos hstep

/-- Settles O22: arming by `armDeskew_port` and `foldl_setN_get`, a landing by `deskewLanding_of_more`, and a window that closes
by `deskewWindowEnd_of_missing`; a magazine's measurement by the like lemmas. -/
theorem deskewIsMeasured : Obligations.DeskewIsMeasured := by
  refine ⟨fun w p s hc => exec_deskewArm hc, ?armed, ?lands, ?magLands, ?fails, ?magCloses⟩
  case armed =>
    intro p d hp
    rw [armDeskew_port hp]
    exact ⟨rfl, rfl, fun k hk => foldl_setN_get (key := Reg.lan_LANDING p) (.inl (List.mem_range.mpr hk))⟩
  case lands =>
    intro p k pos s hcalm harmed hnew hk hp hmore
    change completes (.next (settleState (onDev (deskewLanding p k pos) s))) _
    rw [settleState_onDev (deskewLanding_of_more harmed hnew hk hp hmore) hcalm]
    refine completes_next ⟨setN_get_same .., ?_, rfl, rfl, fun j hj => setN_val_of_ne hj _ _⟩
    exact congrArg SenPort.windowOpen (landedAt_port hp _ _)
  case magLands =>
    intro p k pos s _ harmed hnew hmore
    refine completes_next ?_
    simp only [onDev, magLanding_of_more harmed hnew hmore]
  case fails =>
    intro p k s hopen hstep hmissing
    change Host.Outcome.next (settleState (onDev (deskewWindowEnd p) s)) = _
    simp only [onDev, deskewWindowEnd_of_missing hopen hstep hmissing]
  case magCloses =>
    intro p s hopen _ hstep
    refine (congrArg _ (if_pos hopen)).trans ?_
    simp only [onDev, magDeskewFinish_of_noDeskew hstep]

/-! ## Lock, realignment and power (R67 to R71) -/

/-- A watched lane that loses its lock, where the port is not to be realigned, is noted and logged (R67). -/
theorem lockLost_of_watched {p k cause : Nat} {d : Dev} (hw : d.watched p k = true)
    (hlane : d.get (Reg.lan_LANE_ALIGN p k) ≠ 2) (hauto : d.flag (Reg.sen_REALIGN_AUTO p) = false)
    (hraw : (d.port p).realignRaw = none) :
    lockLost p k cause d = post (senEv p 1) k cause (d.get (Reg.lan_SLIP_POS p k))
      (setStatus p 1 true (setN (Reg.lan_LANE_ALIGN p k) 2 d)) := by
  have hgo : ¬ ((!d.watched p k || decide (d.get (Reg.lan_LANE_ALIGN p k) = 2)) = true) := by simp [hw, hlane]
  simp only [lockLost, if_neg hgo, hraw, hauto, Option.isSome_none, Bool.false_eq_true, if_false]

/-- The entries of a lane that lost its lock and of its port: DEGRADED and LANE_ALIGN, and no other. -/
theorem lockNoted_val (p k j : Nat) (d : Dev) (hlane : j ≠ Reg.lan_LANE_ALIGN p k) (hport : j ≠ Reg.sen_PORT_STATUS p) :
    (setStatus p 1 true (setN (Reg.lan_LANE_ALIGN p k) 2 d)).val j = d.val j :=
  (setN_val_of_ne hport _ _).trans (setN_val_of_ne hlane _ _)

theorem lockNoted_tbNow {p k : Nat} (hp : p < 4) (hk : k < 64) (d : Dev) :
    tbNow (setStatus p 1 true (setN (Reg.lan_LANE_ALIGN p k) 2 d)) = tbNow d := by
  have hlane : (0x0810 + 0x100 * p + k) * 256 + 0x02 < 0x3000 * 256 + 0x01 := by omega
  have hport : (0x0800 + 0x100 * p) * 256 + 0x09 < Reg.tb_TB_OFFSET := Nat.lt_of_le_of_lt (by omega) hlane
  rw [setStatus, tbNow_setN hport, tbNow_setN hlane]

/-- The restart of a port is logged, and indexed in the take (R68, R363). -/
theorem exec_portRealigned {p : Fin 4} {r : Nat} {s : State} (hraw : (s.dev.port p).realignRaw = some r)
    (hdone : ((realigned p s.dev).port p).realignRaw = none) :
    exec (.portRealigned p) s = .next (settleState (onDev (fun d =>
      takeInterrupt (d.lead p) (satU32 (usOfCycles (d.time.raw - r))) (d.intake (d.lead p)).frames (realigned p d)) s)) := by
  change execPortRealigned p s = _
  simp only [execPortRealigned, hraw, hdone, Option.isSome_none, Bool.false_eq_true, if_false]
  rfl

theorem realigned_of_aligned {p r : Nat} {d : Dev} (hraw : (d.port p).realignRaw = some r)
    (hre : (d.port p).realigning = true) (hal : d.aligned p = true) (hstep : (d.port p).step = .idle) :
    realigned p d =
      post (senEv p 5) 0xFFFF (satU32 (usOfCycles (d.time.raw - r))) (d.intake (d.lead p)).frames
        (sendTrain p 0 (setPort p (fun x => { x with realigning := false, realignRaw := none }) d)) := by
  simp only [realigned, hraw, hre, hal, hstep, decide_true, Bool.and_self, if_true]
  rfl

theorem exec_rxPowerReq {w : Writer} {p : Fin 4} {v : Nat} {s : State}
    (hc : writeCheck s.dev w (Reg.sen_RX_POWER_REQ p) (.num v) = none) :
    exec (.rxPowerReq w p v) s = .next (settleState (accepted w (Reg.sen_RX_POWER_REQ p) (.num v)
      (fun ref => onDev (fun d => rxFollow p ref (setN (Reg.sen_RX_POWER_REQ p) v d))) s)) := by
  have hgang : Reg.sen_RX_POWER_REQ p ≠ Reg.sen_GANG p := by simp
  refine congrArg (fun t => Host.Outcome.next (settleState t))
    ((finish_portEntry w p (r := 0) (by decide) (by decide) hc (laneRule_num p v hgang)).trans ?_)
  simp only [Nat.add_zero, portEffect_rxPowerReq]

theorem exec_sbPowerReq {w : Writer} {p : Fin 4} {v : Nat} {s : State}
    (hc : writeCheck s.dev w (Reg.sen_SB_POWER_REQ p) (.num v) = none) :
    exec (.sbPowerReq w p v) s = .next (settleState (accepted w (Reg.sen_SB_POWER_REQ p) (.num v)
      (fun _ => onDev (fun d => sbGo p 1 (sbGo p 0 (setN (Reg.sen_SB_POWER_REQ p) v d)))) s)) := by
  refine congrArg (fun t => Host.Outcome.next (settleState t))
    ((finish_portEntry w p (r := 1) (by decide) (by decide) hc (laneRule_num p v ?_)).trans ?_)
  · exact sideEntry_ne p 0x04 (by decide)
  · simp only [portEffect_sbPowerReq]

theorem rxGo_of_down {p st : Nat} {ref : Option Nat} {d : Dev} (hgoal : (d.port p).goal = none)
    (hdown : st < (d.port p).rx) (hframe : d.inFrame p = false) : rxGo p st ref d = rxEnter p st d := by
  simp only [rxGo, hgoal, if_pos hdown, hframe, Bool.false_eq_true, if_false]

/-- Lanes that wake from below SLEEP have not kept their alignment (Table 3.6): the search begins. -/
theorem rxWoken_of_lost {p : Nat} {d : Dev} (hwake : (d.port p).waking = true) (hrx : (d.port p).rx < 2) :
    rxWoken p d = startSearch p (rxEnter p 3 d) := by
  have hkept : decide ((d.port p).rx = 2) = false := decide_eq_false (Nat.ne_of_lt hrx)
  simp only [rxWoken, hwake, hkept, Bool.not_true, Bool.false_and, Bool.false_eq_true, if_false]

theorem sb_setSb {p i : Nat} {d : Dev} (hp : p < d.sen.length) (hi : i < (d.port p).sb.length) (f : SbLane → SbLane) :
    (setSb p i f d).sb p i = f (d.sb p i) := by
  rw [Dev.sb, setSb, port_setPort hp]
  exact nth_updAt_same i f _ hi

/-- A sideband that wakes: ACTIVE with its queue kept. -/
def sbAwake (p i : Nat) (d : Dev) : Dev :=
  setSb p i (fun l => { l with power := 3, goal := none }) (setSb p i (fun l => { l with waking := false }) d)

theorem sb_sbAwake {p i : Nat} {d : Dev} (hp : p < d.sen.length) (hi : i < (d.port p).sb.length) :
    (sbAwake p i d).sb p i = { d.sb p i with power := 3, goal := none, waking := false } := by
  have hi' : i < ((setSb p i (fun l => { l with waking := false }) d).port p).sb.length := by
    rw [setSb, port_setPort hp]
    exact hi.trans_eq (List.length_modify ..).symm
  rw [sbAwake, sb_setSb (by rwa [setSb, length_sen_setPort]) hi', sb_setSb hp hi]

theorem sbWoken_of_waking {p i : Nat} {d : Dev} (hwake : (d.sb p i).waking = true) (hpow : (d.sb p i).power < 3)
    (hp : p < d.sen.length) (hi : i < (d.port p).sb.length) :
    sbWoken p i d = post (senEv p 6) (64 + i) ((d.sb p i).power * 256 + 3) 0 (sbAwake p i d) := by
  have hpow' : ¬ (d.sb p i).power = 3 := Nat.ne_of_lt hpow
  simp only [sbWoken, if_pos hwake, sbEnter, sb_setSb hp hi, if_neg hpow', if_true]
  rfl

/-- Settles O23: a lost lock by `lockLost_of_watched`, whose entries are none of the time base's, so that its event is the one the
state before would post; the requests are writes of a port's entry, and the wakes follow `sbWoken` and `rxWoken`. -/
theorem lanesLoseLockAndSleep : Obligations.LanesLoseLockAndSleep := by
  refine ⟨?lock, ?realigned, fun w p v s hc => exec_rxPowerReq hc, fun p st ref d => rxGo_of_down,
    fun w p v s hc => exec_sbPowerReq hc, ?sbWakes, ?rxWakes⟩
  case lock =>
    intro p k s hw hlane hauto hraw hcalm
    have hne : Reg.sen_PORT_STATUS p ≠ Reg.lan_LANE_ALIGN p k :=
      laneEntry_ne_port p k p (by decide) (by decide) (by decide)
    change completes (.next (settleState (onDev (lockLost p k 1) s))) _
    rw [settleState_onDev (lockLost_of_watched hw hlane hauto hraw) hcalm]
    refine completes_next ⟨?align, ?status, rfl, ?event, rfl, rfl, fun j hj hj' => ?frame⟩
    case frame => rw [post_val, lockNoted_val p k j _ hj hj']
    case align => rw [post_get, setStatus, setN_get_of_ne hne.symm, setN_get_same]
    case status => rw [post_get, setStatus, setN_get_same, setN_get_of_ne hne]
    case event => exact post_sources_congr rfl rfl rfl (lockNoted_tbNow p.isLt k.isLt s.dev)
  case realigned =>
    intro p r s hraw hre hal hstep hdone
    rw [exec_portRealigned hraw hdone]
    simp only [onDev, realigned_of_aligned hraw hre hal hstep]
    rfl
  case sbWakes =>
    intro p i s hcalm hwake hpow hp hi
    change completes (.next (settleState (onDev (sbWoken p i) s))) _
    rw [settleState_onDev (sbWoken_of_waking hwake hpow hp hi) hcalm]
    have hsb : (post (senEv p 6) (64 + i) ((s.dev.sb p i).power * 256 + 3) 0 (sbAwake p i s.dev)).sb p i =
        { s.dev.sb p i with power := 3, goal := none, waking := false } := sb_sbAwake hp hi
    refine completes_next ?_
    rw [hsb]
    exact ⟨rfl, rfl, rfl, post_sources_congr rfl rfl rfl rfl, rfl, rfl, rfl⟩
  case rxWakes =>
    intro p s hwake hrx
    change Host.Outcome.next (settleState (onDev (rxWoken p) s)) = _
    simp only [onDev, rxWoken_of_lost hwake hrx]

/-! ## Pattern checkers and loops (R73, R74) -/

theorem exec_prbsSel_sensor {w : Writer} {p : Fin 4} {k : Fin 64} {v : Nat} {s : State}
    (hc : writeCheck s.dev w (Reg.lan_PRBS_SEL p k) (.num v) = none) :
    exec (.prbsSel w (.sensor p k) v) s = .next (accepted w (Reg.lan_PRBS_SEL p k) (.num v)
      (fun _ => onDev (fun d => syncLanes p (restartPrbs p k v d))) s) := by
  rw [← laneEffect_prbsSel]
  exact congrArg _ (finish_laneEntry w p k (by decide) hc)

theorem exec_prbsSel_side {w : Writer} {p : Fin 4} {v : Nat} {s : State}
    (hc : writeCheck s.dev w (Reg.sen_SB_PRBS_SEL p) (.num v) = none) :
    exec (.prbsSel w (.side p) v) s = .next (accepted w (Reg.sen_SB_PRBS_SEL p) (.num v) (fun _ => onDev (fun d =>
      sbPattern p 1 (field v 7 4) (sbPattern p 0 (field v 3 0) (setN (Reg.sen_SB_PRBS_SEL p) v d)))) s) := by
  refine congrArg _ ((finish_portEntry w p (r := 1) (by decide) (by decide) hc (laneRule_num p v ?_)).trans ?_)
  · exact sideEntry_ne p 0x07 (by decide)
  · simp only [portEffect_sbPrbsSel]

theorem exec_prbsSel_mag {w : Writer} {p : Fin 4} {k : Fin 8} {v : Nat} {s : State}
    (hc : writeCheck s.dev w (Reg.mln_PRBS_SEL p k) (.num v) = none) :
    exec (.prbsSel w (.mag p k) v) s = .next (accepted w (Reg.mln_PRBS_SEL p k) (.num v)
      (fun _ => onDev (magLaneEffect p k (Reg.mln_PRBS_SEL p k) v)) s) :=
  congrArg _ (finish_magLane w p k (by decide) hc)

theorem exec_loop_sensor {w : Writer} {p : Fin 4} {k : Fin 64} {v : Nat} {s : State}
    (hc : writeCheck s.dev w (Reg.lan_LOOP p k) (.num v) = none) :
    exec (.loop w (.sensor p k) v) s = .next (accepted w (Reg.lan_LOOP p k) (.num v)
      (fun _ => onDev (fun d => syncLanes p (setN (Reg.lan_LOOP p k) v d))) s) := by
  rw [← laneEffect_loop]
  exact congrArg _ (finish_laneEntry w p k (by decide) hc)

theorem exec_loop_mag {w : Writer} {p : Fin 4} {k : Fin 8} {v : Nat} {s : State}
    (hc : writeCheck s.dev w (Reg.mln_LOOP p k) (.num v) = none) :
    exec (.loop w (.mag p k) v) s =
      .next (accepted w (Reg.mln_LOOP p k) (.num v) (fun _ => onDev (setN (Reg.mln_LOOP p k) v)) s) := by
  rw [← magLaneEffect_loop]
  exact congrArg _ (finish_magLane w p k (by decide) hc)

theorem exec_prbsLock_sensor (p : Fin 4) (k : Fin 64) (bits : List Bool) (s : State) :
    exec (.prbsLock (.sensor p k) bits) s = .next (onDev (sensorPrbs p k bits) s) := rfl

theorem exec_prbsLock_mag (p : Fin 4) (k : Fin 8) (bits : List Bool) (s : State) :
    exec (.prbsLock (.mag p k) bits) s = .next (onDev (magPrbs p k bits) s) := rfl

/-! ### What a lane's change of power state leaves of its checker -/

/-- `e` has the checkers of `d`: the same entries of every lane from PRBS_SEL on, and the same checker at every lane. -/
structure CheckersKept (d e : Dev) : Prop where
  val : ∀ b i, 0x0E ≤ i → i < 256 → e.val (b * 256 + i) = d.val (b * 256 + i)
  prbs : ∀ p k, (nth (e.port p).lanes k).prbs = (nth (d.port p).lanes k).prbs

theorem CheckersKept.refl (d : Dev) : CheckersKept d d := ⟨fun _ _ _ _ => rfl, fun _ _ => rfl⟩

theorem CheckersKept.comp {c d e : Dev} (h : CheckersKept c d) (g : CheckersKept d e) : CheckersKept c e :=
  ⟨fun b i hi hb => (g.val b i hi hb).trans (h.val b i hi hb), fun p k => (g.prbs p k).trans (h.prbs p k)⟩

theorem CheckersKept.get {d e : Dev} (h : CheckersKept d e) (b : Nat) {i : Nat} (hi : 0x0E ≤ i) (hb : i < 256) :
    e.get (b * 256 + i) = d.get (b * 256 + i) := by
  simp only [Dev.get, h.val b i hi hb]

theorem checkersKept_setV {i : Nat} (hi : i < 0x0E) (p k : Nat) (v : Val) (d : Dev) :
    CheckersKept d (setV ((0x0810 + 0x100 * p + k) * 256 + i) v d) :=
  ⟨fun b j hj hb => (setV_val _ _ v d).trans (if_neg (by omega)), fun _ _ => rfl⟩

theorem checkersKept_setN {i : Nat} (hi : i < 0x0E) (p k n : Nat) (d : Dev) :
    CheckersKept d (setN ((0x0810 + 0x100 * p + k) * 256 + i) n d) := checkersKept_setV hi p k (.num n) d

theorem checkersKept_post (c i a b : Nat) (d : Dev) : CheckersKept d (post c i a b d) :=
  ⟨fun _ _ _ _ => rfl, fun _ _ => rfl⟩

theorem checkersKept_setLane (p k : Nat) {f : Lane → Lane} (hf : ∀ x, (f x).prbs = x.prbs) (d : Dev) :
    CheckersKept d (setLane p k f d) :=
  ⟨fun _ _ _ _ => rfl, fun q i => nth_updAt_proj (fun x => (nth x.lanes i).prbs)
    (fun _ => nth_updAt_proj Lane.prbs hf k i _) p q d.sen⟩

theorem checkersKept_adapt (p k : Nat) (eq : Equaliser) (d : Dev) : CheckersKept d (adapt p k eq d) :=
  (checkersKept_setN (i := 0x0D) (by decide) p k _ d).comp
    ((checkersKept_setV (i := 0x0C) (by decide) p k (.bytes _) _).comp (checkersKept_setN (i := 0x0B) (by decide) p k _ _))

theorem checkersKept_laneForget (p k : Nat) (d : Dev) : CheckersKept d (laneForget p k d) := by
  unfold laneForget
  extract_lets d1 d2
  have h1 : CheckersKept d d1 := by
    refine checkersKept_setLane p k ?_ d
    exact fun _ => rfl
  have h2 : CheckersKept d1 d2 :=
    (checkersKept_setN (i := 0x07) (by decide) p k 0xFF d1).comp ((checkersKept_setN (i := 0x08) (by decide) p k 0 _).comp
      ((checkersKept_setN (i := 0x04) (by decide) p k 0 _).comp (checkersKept_setN (i := 0x02) (by decide) p k 0 _)))
  exact (h1.comp h2).comp (checkersKept_adapt p k _ d2)

theorem checkersKept_foldl {α : Type} {f : Dev → α → Dev} (hf : ∀ d x, CheckersKept d (f d x)) (l : List α) (d : Dev) :
    CheckersKept d (l.foldl f d) := by
  induction l generalizing d with
  | nil => exact .refl d
  | cons x l ih => exact (hf d x).comp (ih (f d x))

theorem checkersKept_syncLanes (p : Nat) (d : Dev) : CheckersKept d (syncLanes p d) := by
  unfold syncLanes
  refine checkersKept_foldl (fun e k => ?_) _ d
  extract_lets old st b
  have hb : CheckersKept e b := by
    unfold b
    split
    · exact .refl e
    · exact (checkersKept_setN (i := 0x01) (by decide) p k _ e).comp (checkersKept_post _ _ _ _ _)
  split
  · exact hb.comp (checkersKept_laneForget p k b)
  · exact hb

/-! ### A checker that restarts, and one that takes bits -/

theorem restartPrbs_get (p k v : Nat) (d : Dev) :
    (restartPrbs p k v d).get (Reg.lan_PRBS_SEL p k) = v ∧ (restartPrbs p k v d).get (Reg.lan_PRBS_LOCK p k) = 0 ∧
      (restartPrbs p k v d).get (Reg.lan_PRBS_BITS p k) = 0 ∧ (restartPrbs p k v d).get (Reg.lan_PRBS_ERRORS p k) = 0 := by
  simp [restartPrbs]

/-- The lanes' power states follow the restart (R72), and leave the checker as it is. -/
theorem synced_restartPrbs_get (p k v : Nat) (d : Dev) :
    (syncLanes p (restartPrbs p k v d)).get (Reg.lan_PRBS_SEL p k) = v ∧
      (syncLanes p (restartPrbs p k v d)).get (Reg.lan_PRBS_LOCK p k) = 0 ∧
      (syncLanes p (restartPrbs p k v d)).get (Reg.lan_PRBS_BITS p k) = 0 ∧
      (syncLanes p (restartPrbs p k v d)).get (Reg.lan_PRBS_ERRORS p k) = 0 := by
  have hkept := checkersKept_syncLanes p (restartPrbs p k v d)
  obtain ⟨hsel, hlock, hbits, herrs⟩ := restartPrbs_get p k v d
  exact ⟨(hkept.get (0x0810 + 0x100 * p + k) (i := 0x0E) (by decide) (by decide)).trans hsel,
    (hkept.get (0x0810 + 0x100 * p + k) (i := 0x12) (by decide) (by decide)).trans hlock,
    (hkept.get (0x0810 + 0x100 * p + k) (i := 0x11) (by decide) (by decide)).trans hbits,
    (hkept.get (0x0810 + 0x100 * p + k) (i := 0x10) (by decide) (by decide)).trans herrs⟩

theorem synced_restartPrbs_prbs {p k : Nat} {d : Dev} (h : HasLane d p k) (v : Nat) :
    (nth ((syncLanes p (restartPrbs p k v d)).port p).lanes k).prbs = Prbs.reset := by
  have hlane : HasLane (setPort p (fun x => { x with gens := x.gens.set (k / 4) (List.replicate 31 true) }) d) p k :=
    h.setPort fun _ => rfl
  rw [(checkersKept_syncLanes p (restartPrbs p k v d)).prbs p k]
  exact congrArg Lane.prbs (lane_setLane hlane fun x => { x with prbs := Prbs.reset })

theorem sbPattern_eq (p i sel : Nat) (d : Dev) : ∃ o, sbPattern p i sel d = { d with out := o } := by
  unfold sbPattern
  split
  · exact ⟨_, rfl⟩
  · exact ⟨d.out, rfl⟩

theorem sbPattern_val (p i sel j : Nat) (d : Dev) : (sbPattern p i sel d).val j = d.val j := by
  obtain ⟨o, e⟩ := sbPattern_eq p i sel d
  rw [e]
  rfl

theorem sbPattern_sen (p i sel : Nat) (d : Dev) : (sbPattern p i sel d).sen = d.sen := by
  obtain ⟨o, e⟩ := sbPattern_eq p i sel d
  rw [e]

/-- A checker has taken bits: what it is after them, the bits counted and the errors among them (R74). -/
def checked (p k : Nat) (r : Prbs × Nat × Nat) (d : Dev) : Dev :=
  setN (Reg.lan_PRBS_LOCK p k) (b2n r.1.locked) (addSat (2 ^ 32 - 1) (Reg.lan_PRBS_ERRORS p k) r.2.2
    (addW 64 (Reg.lan_PRBS_BITS p k) r.2.1 (setLane p k (fun l => { l with prbs := r.1 }) d)))

/-- The bits that an ACTIVE lane receives, neither inverted nor looped, pass its checker as they are. -/
theorem sensorPrbs_of_received {p k : Nat} {d : Dev} (hsel : d.get (Reg.lan_PRBS_SEL p k) ≠ 0)
    (hpow : d.get (Reg.lan_LANE_POWER p k) = 3) (hloop : d.get (Reg.lan_LOOP p k) ≠ 2)
    (hinv : d.flag (Reg.lan_INVERT p k) = false) (bits : List Bool) :
    sensorPrbs p k bits d = checked p k (prbsRun (d.pattern p (d.get (Reg.lan_PRBS_SEL p k))).1
      (d.pattern p (d.get (Reg.lan_PRBS_SEL p k))).2 (nth (d.port p).lanes k).prbs bits) d := by
  have hon : ¬ (d.get (Reg.lan_PRBS_SEL p k) = 0 ∨ d.get (Reg.lan_LANE_POWER p k) ≠ 3) := by simp [hsel, hpow]
  have hloop' : (d.get (Reg.lan_LOOP p k) == 2) = false := beq_eq_false_iff_ne.mpr hloop
  simp only [sensorPrbs, if_neg hon, hloop', hinv, Bool.false_eq_true, if_false]
  rfl

theorem checked_get (p k : Nat) (r : Prbs × Nat × Nat) (d : Dev) :
    (checked p k r d).get (Reg.lan_PRBS_BITS p k) = (d.get (Reg.lan_PRBS_BITS p k) + r.2.1) % 2 ^ 64 ∧
      (checked p k r d).get (Reg.lan_PRBS_ERRORS p k) = min (2 ^ 32 - 1) (d.get (Reg.lan_PRBS_ERRORS p k) + r.2.2) ∧
      (checked p k r d).get (Reg.lan_PRBS_LOCK p k) = b2n r.1.locked := by
  simp [checked, addSat, setLane]

theorem checked_val {p k j : Nat} (r : Prbs × Nat × Nat) (d : Dev) (hbits : j ≠ Reg.lan_PRBS_BITS p k)
    (herrs : j ≠ Reg.lan_PRBS_ERRORS p k) (hlock : j ≠ Reg.lan_PRBS_LOCK p k) : (checked p k r d).val j = d.val j := by
  rw [checked, setN_val_of_ne hlock, addSat, setN_val_of_ne herrs, addW, setN_val_of_ne hbits]
  rfl

/-- The same at a magazine lane, which shows no lock (R318). -/
def magChecked (p k : Nat) (r : Prbs × Nat × Nat) (d : Dev) : Dev :=
  addSat (2 ^ 32 - 1) (Reg.mln_PRBS_ERRORS p k) r.2.2
    (addW 64 (Reg.mln_PRBS_BITS p k) r.2.1 (setMagLane p k (fun l => { l with prbs := r.1 }) d))

theorem magPrbs_of_received {p k : Nat} {d : Dev} (hsel : d.get (Reg.mln_PRBS_SEL p k) % 16 ≠ 0)
    (hpow : d.get (Reg.mln_LANE_POWER p k) % 16 = 3) (hloop : d.get (Reg.mln_LOOP p k) = 0)
    (hinv : bit (d.get (Reg.mln_INVERT p k)) 0 ≠ 1) (bits : List Bool) :
    magPrbs p k bits d = magChecked p k (prbsRun (prbsTaps (d.get (Reg.mln_PRBS_SEL p k) % 16) 66) (fun _ => true)
      (nth (d.mag p).lanes k).prbs bits) d := by
  have hon : ¬ (d.get (Reg.mln_PRBS_SEL p k) % 16 = 0 ∨ d.get (Reg.mln_LANE_POWER p k) % 16 ≠ 3) := by simp [hsel, hpow]
  have hfar : ¬ d.get (Reg.mln_LOOP p k) = 3 := by rw [hloop]; decide
  have hpar : ¬ d.get (Reg.mln_LOOP p k) = 2 := by rw [hloop]; decide
  simp only [magPrbs, if_neg hfar, if_neg hon, if_neg hpar, if_neg hinv]
  rfl

theorem magChecked_get (p k : Nat) (r : Prbs × Nat × Nat) (d : Dev) :
    (magChecked p k r d).get (Reg.mln_PRBS_BITS p k) = (d.get (Reg.mln_PRBS_BITS p k) + r.2.1) % 2 ^ 64 ∧
      (magChecked p k r d).get (Reg.mln_PRBS_ERRORS p k) = min (2 ^ 32 - 1) (d.get (Reg.mln_PRBS_ERRORS p k) + r.2.2) := by
  simp [magChecked, addSat, setMagLane]

theorem magChecked_val {p k j : Nat} (r : Prbs × Nat × Nat) (d : Dev) (hbits : j ≠ Reg.mln_PRBS_BITS p k)
    (herrs : j ≠ Reg.mln_PRBS_ERRORS p k) : (magChecked p k r d).val j = d.val j := by
  rw [magChecked, addSat, setN_val_of_ne herrs, addW, setN_val_of_ne hbits]
  rfl

/-- Settles O24: PRBS_SEL and LOOP are writes of an entry, after which the lanes take their power states and keep their
checkers (`checkersKept_syncLanes`); received bits pass the checker as `prbsRun` says. -/
theorem patternCheckersCount : Obligations.PatternCheckersCount := by
  refine ⟨?sel, ?sideSel, ?magSel, ?bits, ?magBits, fun w p k v s hc => exec_loop_sensor hc, ?magLoop⟩
  case sel =>
    intro w p k v s hc
    obtain ⟨hsel, hlock, hbits, herrs⟩ := synced_restartPrbs_get p k v (noted w (Reg.lan_PRBS_SEL p k) (.num v) s)
    rw [exec_prbsSel_sensor hc]
    refine completes_next ⟨(accepted_get ..).trans hsel, (accepted_get ..).trans hlock, (accepted_get ..).trans hbits,
      (accepted_get ..).trans herrs, fun hp hk => ?_, accepted_mem ..⟩
    rw [accepted_port]
    exact synced_restartPrbs_prbs ⟨by rwa [noted_sen], by rwa [noted_port]⟩ v
  case sideSel =>
    intro w p v s hc
    rw [exec_prbsSel_side hc]
    refine completes_next ⟨get_of_val ?pattern, accepted_mem .., ?sen, fun j hj hd => ?frame⟩
    case pattern => rw [accepted_val, sbPattern_val, sbPattern_val, setN_val, if_pos rfl]
    case sen => rw [accepted_sen, sbPattern_sen, sbPattern_sen, setN_sen, noted_sen]
    case frame => rw [accepted_val, sbPattern_val, sbPattern_val, setN_val_of_ne hj, noted_val _ _ _ _ hd]
  case magSel =>
    intro w p k v s hc
    rw [exec_prbsSel_mag hc]
    refine completes_next ⟨?_, ?_, ?_, accepted_mem ..⟩
    all_goals
      rw [accepted_get, magLaneEffect_prbsSel]
      simp
  case bits =>
    intro p k bits s hsel hpow hloop hinv
    rw [exec_prbsLock_sensor]
    refine completes_next fun x n e hr => ?_
    rw [onDev_dev, sensorPrbs_of_received hsel hpow hloop hinv, hr]
    obtain ⟨hbits, herrs, hlock⟩ := checked_get p k (x, n, e) s.dev
    exact ⟨hbits, herrs, hlock, rfl, rfl, fun j => checked_val _ _⟩
  case magBits =>
    intro p k bits s hsel hpow hloop hinv
    rw [exec_prbsLock_mag]
    refine completes_next fun x n e hr => ?_
    rw [onDev_dev, magPrbs_of_received hsel hpow hloop hinv, hr]
    obtain ⟨hbits, herrs⟩ := magChecked_get p k (x, n, e) s.dev
    exact ⟨hbits, herrs, rfl, rfl, fun j => magChecked_val _ _⟩
  case magLoop =>
    intro w p k v s hc
    rw [exec_loop_mag hc]
    refine completes_next ⟨?loop, accepted_mem .., fun j hj hd => ?frame⟩
    case loop => rw [accepted_get, setN_get_same]
    case frame => rw [accepted_val, setN_val_of_ne hj, noted_val _ _ _ _ hd]
end Sys2Proof.Machine
end

section
/-! The statements about what arrives on the lanes: raw sync sequences, stripe-link packets, late rows and the final
statistics. -/

namespace Sys2Proof.Machine

/-! ## Raw sync sequences (R49 to R51, R80, R81) -/

theorem onSync_of_sync {p k ty count : Nat} {words : List Nat} {s : State} (f : Nat → State → State)
    (h : syncOf (s.dev.wordWidth p) (s.dev.words p k words) = some (ty, count)) : onSync p k ty words f s = f count s := by
  simp only [onSync, h, if_true]

section
variable {p k : Nat} {s : State}

/-- SOF with no frame in progress begins one, where none is left to join (R80). -/
theorem rawSof_of_first (count : Nat) (hraw : s.dev.stripe p = false) (hhears : s.dev.hears p k = true)
    (hscan : s.dev.scanning p = false) (hseg : s.dev.segOf p k = none) (hcur : s.dev.current p = none)
    (htail : (s.dev.intake (s.dev.lead p)).tail = none) (hacc : s.dev.accepts (s.dev.lead p) = true) :
    rawSof p k count s = beginFrame (s.dev.lead p) (s.dev.countBits p) (count % 2 ^ s.dev.countBits p)
      (s.dev.gangLane p k) (onDev (closeSegs p) s) := by
  simp [rawSof, beginIf, hraw, hhears, hscan, hseg, hcur, htail, hacc]

/-- SOF of a lane that has not sent it joins the frame in progress that carries its count, which is this model's choice
(assumption 94). -/
theorem rawSof_of_joining {count : Nat} {a : Asm} (hraw : s.dev.stripe p = false) (hhears : s.dev.hears p k = true)
    (hscan : s.dev.scanning p = false) (hseg : s.dev.segOf p k = none) (hcur : s.dev.current p = some a)
    (hsof : a.sofLanes.contains (s.dev.gangLane p k) = false) (hhead : a.headField = count % 2 ^ s.dev.countBits p) :
    rawSof p k count s = onDev (setAsm (s.dev.lead p) a.frame
      (fun b => { b with sofLanes := b.sofLanes ++ [s.dev.gangLane p k] })) s := by
  simp [rawSof, hraw, hhears, hscan, hseg, hcur, hsof, hhead, -List.contains_eq_mem]

/-- SOL of a lane of the frame, with the count of its next row, opens a segment that row assembly takes. -/
theorem rawSol_of_expected {count : Nat} {a : Asm} (hraw : s.dev.stripe p = false) (hhears : s.dev.hears p k = true)
    (hscan : s.dev.scanning p = false) (hseg : s.dev.segOf p k = none) (hcur : s.dev.current p = some a)
    (hsof : a.sofLanes.contains (s.dev.gangLane p k) = true) (heof : a.eofLanes.contains (s.dev.gangLane p k) = false)
    (hcount : count % 2 ^ s.dev.countBits p = (s.dev.nextSegment p (s.dev.gangLane p k)).1 % 2 ^ s.dev.countBits p)
    (hrow : (s.dev.nextSegment p (s.dev.gangLane p k)).1 < s.dev.get (Reg.itk_HEIGHT (s.dev.lead p))) :
    rawSol p k count s =
      onDev (setLane p k (fun x => { x with seg := some (count % 2 ^ s.dev.countBits p, true) })) s := by
  simp [rawSol, hraw, hhears, hscan, hseg, hcur, hsof, heof, hcount, Nat.not_le.mpr hrow, -List.contains_eq_mem]

/-- EOF of a lane of the frame: it is noted, and the last lane's ends the frame (R81). -/
theorem rawEof_of_lane {a : Asm} (hraw : s.dev.stripe p = false) (hhears : s.dev.hears p k = true)
    (hscan : s.dev.scanning p = false) (hseg : s.dev.segOf p k = none) (hcur : s.dev.current p = some a)
    (hsof : a.sofLanes.contains (s.dev.gangLane p k) = true) (heof : a.eofLanes.contains (s.dev.gangLane p k) = false) :
    rawEof p k s =
      if a.eofLanes.length + 1 = s.dev.groupLanes p then
        normalEnd p { a with eofLanes := a.eofLanes ++ [s.dev.gangLane p k] }
          (onDev (setAsm (s.dev.lead p) a.frame (fun _ => { a with eofLanes := a.eofLanes ++ [s.dev.gangLane p k] })) s)
      else onDev (setAsm (s.dev.lead p) a.frame (fun _ => { a with eofLanes := a.eofLanes ++ [s.dev.gangLane p k] })) s := by
  simp [rawEof, hraw, hhears, hscan, hseg, hcur, hsof, heof, -List.contains_eq_mem]

/-! ### The end of a segment -/

/-- A segment with its EOL, whose SOL row assembly did not take, is only closed. -/
theorem rawSegment_of_untaken {sol : Nat} {words : List Nat} (full : Bool) (hraw : s.dev.stripe p = false)
    (hhears : s.dev.hears p k = true) (hseg : s.dev.segOf p k = some (sol, false))
    (hsync : syncOf (s.dev.wordWidth p) ((s.dev.words p k words).drop
      (s.dev.get (Reg.itk_WIDTH (s.dev.lead p)) / s.dev.segLanes p)) = some (0xA, sol)) :
    rawSegment p k words full s = onDev (segDone p k 0) s := by
  simp [rawSegment, hraw, hhears, hseg, hsync]

/-- A segment with its EOL goes to row assembly. -/
theorem rawSegment_of_taken {sol : Nat} {words : List Nat} (full : Bool) (hraw : s.dev.stripe p = false)
    (hhears : s.dev.hears p k = true) (hseg : s.dev.segOf p k = some (sol, true))
    (hsync : syncOf (s.dev.wordWidth p) ((s.dev.words p k words).drop
      (s.dev.get (Reg.itk_WIDTH (s.dev.lead p)) / s.dev.segLanes p)) = some (0xA, sol)) :
    rawSegment p k words full s = segTake p k false full
      ((s.dev.words p k words).take (s.dev.get (Reg.itk_WIDTH (s.dev.lead p)) / s.dev.segLanes p))
      (onDev (segDone p k 0) s) := by
  simp [rawSegment, hraw, hhears, hseg, hsync]

/-- A segment without a sync sequence behind it ends the frame MALFORMED (R51); the second in a row loses the lock (R67). -/
theorem rawSegment_of_absent {sol : Nat} {words : List Nat} (hraw : s.dev.stripe p = false)
    (hhears : s.dev.hears p k = true) (hseg : s.dev.segOf p k = some (sol, true))
    (hsync : syncOf (s.dev.wordWidth p) ((s.dev.words p k words).drop
      (s.dev.get (Reg.itk_WIDTH (s.dev.lead p)) / s.dev.segLanes p)) = none) :
    rawSegment p k words false s =
      let t := faultEnd p (2 ^ fMALFORMED) (onDev (segDone p k (((nth (s.dev.port p).lanes k).absent + 1) % 2)) s)
      if (nth (s.dev.port p).lanes k).absent + 1 = 2 then onDev (lockLost p k 2) t else t := by
  have hflags : flags [(fMALFORMED, true), (fOVERFLOW, false)] = 2 ^ fMALFORMED := rfl
  simp [rawSegment, hraw, hhears, hseg, hsync, segTake, hflags]

/-- A row that waits for more parts keeps them all. -/
theorem takeRow_of_fewer {readouts segments row : Nat} {parts : List RowPart}
    (h : (parts.filter (fun x => x.row == row)).length < readouts * segments) :
    takeRow readouts segments row parts = (none, parts) := if_neg (Nat.ne_of_lt h)

/-- The row part that a lane's segment of the frame is. -/
def segPart (d : Dev) (p k : Nat) (samples : List Nat) : RowPart :=
  { row := (d.nextSegment p (d.gangLane p k)).1, readout := (d.nextSegment p (d.gangLane p k)).2
    first := (d.gangLane p k % d.segLanes p) * (d.get (Reg.itk_WIDTH (d.lead p)) / d.segLanes p), samples := samples }

/-- A good segment adds its samples to its row, which waits for more. -/
theorem segTake_of_more {samples : List Nat} {parts : List RowPart}
    (hparts : parts = (s.dev.intake (s.dev.lead p)).parts ++ [segPart s.dev p k samples])
    (hmore : (parts.filter (fun x => x.row == (s.dev.nextSegment p (s.dev.gangLane p k)).1)).length <
      max 1 (s.dev.get (Reg.itk_READOUT_COUNT (s.dev.lead p))) * s.dev.segLanes p) :
    segTake p k false false samples s =
      onDev (setItk (s.dev.lead p) (fun y => { y.close (s.dev.gangLane p k) with parts := parts })) s := by
  subst hparts
  have hrow := takeRow_of_fewer hmore
  have hgood : ¬ (false = true ∨ false = true) := by decide
  simp only [segPart] at hrow
  simp only [segTake, if_neg hgood, hrow, segPart]

end

/-- Settles O17: one lemma for what a lane's sequence does in the case of its clause; a calm state has nothing to settle after
it. That an SOF with the count of the frame in progress joins that frame is this model's choice (assumption 94). -/
theorem rawSequencesBuildFrames : Obligations.RawSequencesBuildFrames := by
  intro p k words count s hraw hhears hscan
  refine ⟨?first, ?joins, ?opens, ?fills, ?skips, ?ends, ?absent⟩
  case first =>
    intro hsync hseg hcur htail hacc
    refine congrArg (fun t => Host.Outcome.next (settleState t)) ?_
    rw [onSync_of_sync _ hsync, rawSof_of_first count hraw hhears hscan hseg hcur htail hacc]
  case joins =>
    intro a hsync hcalm hseg hcur hsof hhead
    change Host.Outcome.next (settleState (onSync p k 0x8 words (rawSof p k) s)) = _
    rw [onSync_of_sync _ hsync, rawSof_of_joining hraw hhears hscan hseg hcur hsof hhead]
    exact congrArg _ (settleState_calm _ hcalm)
  case opens =>
    intro a hsync hcalm hseg hcur hsof heof hcount hrow
    change Host.Outcome.next (settleState (onSync p k 0x9 words (rawSol p k) s)) = _
    rw [onSync_of_sync _ hsync, rawSol_of_expected hraw hhears hscan hseg hcur hsof heof hcount hrow]
    exact congrArg _ (settleState_calm _ hcalm)
  case fills =>
    intro sol parts hcalm hseg hsync hparts hmore
    change Host.Outcome.next (settleState (rawSegment p k words false s)) = _
    rw [rawSegment_of_taken false hraw hhears hseg hsync,
      segTake_of_more (s := onDev (segDone p k 0) s) hparts hmore]
    exact congrArg _ (settleState_calm _ hcalm)
  case skips =>
    intro sol full hcalm hseg hsync
    change Host.Outcome.next (settleState (rawSegment p k words full s)) = _
    rw [rawSegment_of_untaken full hraw hhears hseg hsync]
    exact congrArg _ (settleState_calm _ hcalm)
  case ends =>
    intro a hsync hseg hcur hsof heof
    have hexec : exec (.rawSyncEof p k words) s = .next (settleState (rawEof p k s)) :=
      congrArg (fun t => Host.Outcome.next (settleState t)) (onSync_of_sync (fun _ => rawEof p k) hsync)
    rw [hexec, rawEof_of_lane hraw hhears hscan hseg hcur hsof heof]
    refine ⟨fun hcalm hmore => ?_, fun hlast => ?_⟩
    · rw [if_neg (Nat.ne_of_lt hmore)]
      exact congrArg _ (settleState_calm _ hcalm)
    · rw [if_pos hlast]
  case absent =>
    intro sol hseg hsync
    have hexec : exec (.rawSyncAbsent p k words) s = .next (settleState (rawSegment p k words false s)) := rfl
    rw [hexec, rawSegment_of_absent hraw hhears hseg hsync]
    refine ⟨fun hfirst => ?_, fun hsecond => ?_⟩
    · rw [hfirst]
      rfl
    · rw [hsecond]
      rfl

/-! ## The stripe link (R53 to R57) -/

section
variable {p : Nat} {s : State}

theorem stripeFeed_of_deaf (full : Bool) (blocks : List (Nat × Nat)) (h : s.dev.stripe p = false ∨ (s.dev.port p).rx ≠ 3) :
    stripeFeed p full blocks s = s := by
  have hdeaf : (!s.dev.stripe p) = true ∨ (s.dev.port p).rx ≠ 3 := by simpa using h
  simp only [stripeFeed, if_pos hdeaf]

/-- One block of a port's stream: the lane whose turn it is receives it, and it enters the reassembly of packets (R54). -/
theorem stripeFeed_of_block {raw : Nat × Nat} {b : StripeBlock} {e : Dev} (full : Bool) (hstripe : s.dev.stripe p = true)
    (hrx : (s.dev.port p).rx = 3) (hhears : s.dev.hears p (s.dev.laneAt p (s.dev.port p).nextLane) = true)
    (hblock : receiveBlock p (s.dev.laneAt p (s.dev.port p).nextLane) raw (setPort p (fun x => { x with
      nextLane := ((s.dev.port p).nextLane + 1) % max 1 (s.dev.laneCount p) }) s.dev) = (b, e)) :
    stripeFeed p full [raw] s = stripeBlock p full b { s with dev := e } := by
  simp [stripeFeed, hstripe, hrx, hhears, hblock]

theorem stripeBlock_term {l : List Byte} {bad : Bool} (full : Bool) (h : (s.dev.port p).packet = some (l, bad)) :
    stripeBlock p full .term s = closePacket p l bad full s := by
  simp only [stripeBlock, h]

theorem stripeBlock_data {l : List Byte} {bad : Bool} (full : Bool) (x : List Byte)
    (h : (s.dev.port p).packet = some (l, bad)) :
    stripeBlock p full (.data x) s = onDev (setPort p (fun y => { y with packet := some (l ++ x, bad) })) s := by
  simp only [stripeBlock, h]

/-- A packet with FS begins the frame of its FRAME_ID, where none is in progress and none is left to join (R80). -/
theorem stripePacket_of_first {pkt : StripePacket} {h : Header} {a : Asm} (hstripe : s.dev.stripe p = true)
    (hhears : s.dev.hears p 0 = true) (hscan : s.dev.scanning p = false) (hhead : StripeHeader pkt.header = some h)
    (hfs : h.fs = true) (hcur : s.dev.current p = none) (htail : (s.dev.intake (s.dev.lead p)).tail = none)
    (hacc : s.dev.accepts (s.dev.lead p) = true)
    (hbegun : (beginFrame (s.dev.lead p) 16 h.frame (p - s.dev.lead p) (onDev (closeSegs p) s)).dev.current p = some a) :
    stripePacket p pkt s =
      stripeData p h pkt a (beginFrame (s.dev.lead p) 16 h.frame (p - s.dev.lead p) (onDev (closeSegs p) s)) := by
  simp [stripePacket, beginIf, hstripe, hhears, hscan, hhead, hfs, hcur, htail, hacc, hbegun]

/-- A fault of the port's group ends the frame in progress, outside SCAN (Table 4.2). -/
theorem faultEnd_of_current {a : Asm} (flag : Nat) (hscan : s.dev.scanning p = false) (hcur : s.dev.current p = some a) :
    faultEnd p flag s = endFrame (s.dev.lead p) a.frame flag true (onDev (closeSegs p) s) := by
  simp only [faultEnd, hscan, hcur, Bool.false_eq_true, if_false]

/-- A packet whose header CRC fails ends the frame in progress MALFORMED (R57). -/
theorem stripePacket_of_badHeader {pkt : StripePacket} {a : Asm} (hstripe : s.dev.stripe p = true)
    (hhears : s.dev.hears p 0 = true) (hscan : s.dev.scanning p = false) (hhead : StripeHeader pkt.header = none)
    (hcur : s.dev.current p = some a) :
    stripePacket p pkt s = endFrame (s.dev.lead p) a.frame (2 ^ fMALFORMED) true (onDev (closeSegs p) s) := by
  rw [← faultEnd_of_current (2 ^ fMALFORMED) hscan hcur]
  simp [stripePacket, hstripe, hhears, hhead, hcur]

/-- An ALIGN stripe with a lane number that is not its lane's fails the alignment with reason 4 (R66). -/
theorem alignStripe_of_misplaced {blocks : List (Option (Nat × Nat))} {k : Nat} {d : Dev}
    (hstep : (d.port p).step = .deskew)
    (hfind : (List.range (d.laneCount p)).find? (fun j => match blocks.getD j none with
      | some b => b.1 != d.get (Reg.lan_LOGICAL p j)
      | none => false) = some k) : alignStripe p blocks d = alignFail p k 4 d := by
  unfold alignStripe
  rw [hstep]
  exact congrArg (fun o : Option Nat => match o with
    | some k => alignFail p k 4 d
    | none => d) hfind

/-! ## Late rows (R83) and the final statistics (R124) -/

theorem scanning_of_mode (h : s.dev.mode ≠ mSCAN) : s.dev.scanning p = false := by
  simp only [Dev.scanning, beq_eq_false_iff_ne.mpr h, Bool.false_and]

theorem lateRow_of_late {a : Asm} (hmode : s.dev.mode ≠ mSCAN) (hcur : s.dev.current p = some a)
    (hlate : s.dev.lateNow p a = true) :
    lateRow p s = endFrame (s.dev.lead p) a.frame (2 ^ fLATE) true (onDev (closeSegs p) s) := by
  rw [← faultEnd_of_current (2 ^ fLATE) (scanning_of_mode hmode) hcur]
  simp only [lateRow, if_neg hmode, hcur, hlate, if_true]

end

theorem length_padTo (n : Nat) (b : List Byte) : (padTo n b).length = n := by
  simp only [padTo, zeros, List.length_append, List.length_take, List.length_replicate]
  omega

theorem length_statsBytes (p frame ready rows state : Nat) (f : FocusCfg) (applied : List Nat)
    (win : Nat → Nat × Nat × Nat × Nat) : (statsBytes p frame ready rows state f applied win).length = 4096 :=
  length_padTo ..

/-- The oldest statistics block that waits is written to its slot's place, and its write is logged. -/
theorem finalStats_of_waiting {p : Nat} {f : FinalStats} {rest : List FinalStats} {s : State}
    (h : (s.dev.intake p).stats = f :: rest) :
    finalStats p s = writeStats (s.dev.pixAs p f.live) p f.frame f.slot f.rowsValid
      (if f.rowsValid < (s.dev.pixAs p f.live).height then 3 else 2) f.focus f.rows f.applied
      (onDev (setItk p (fun x => { x with stats := rest })) s) := by
  simp only [finalStats, h]

/-- Settles O18: a block by `stripeFeed_of_block` and what it adds to its packet, a packet by what row assembly does with its
header, a late row by `lateRow_of_late`, and the statistics by `writeStats`, whose block has a fixed size. -/
theorem stripeLinkAndRowsEnd : Obligations.StripeLinkAndRowsEnd := by
  refine ⟨?feed, ?block, fun p pkt h a s => stripePacket_of_first, fun p pkt a s => stripePacket_of_badHeader, ?align,
    fun p blocks k d => alignStripe_of_misplaced, ?late, ?stats⟩
  case feed =>
    intro p blocks full s
    refine ⟨rfl, fun hdeaf hcalm => ?_⟩
    change Host.Outcome.next (settleState (stripeFeed p full blocks s)) = _
    rw [stripeFeed_of_deaf full blocks hdeaf, settleState_calm s hcalm]
  case block =>
    intro p raw full l bad b e s hstripe hrx hhears hblock hpacket
    have hexec : exec (.stripePacket p [raw] full) s = .next (settleState (stripeBlock p full b { s with dev := e })) :=
      congrArg (fun t => Host.Outcome.next (settleState t)) (stripeFeed_of_block full hstripe hrx hhears hblock)
    rw [hexec]
    refine ⟨fun hb => ?_, fun x hb => ?_⟩
    · rw [hb, stripeBlock_term (s := { s with dev := e }) full hpacket]
    · rw [hb, stripeBlock_data (s := { s with dev := e }) full x hpacket]
  case align =>
    intro p blocks s hstripe hrx
    have hgo : (s.dev.stripe p && decide ((s.dev.port p).rx = 3)) = true := by simp [hstripe, hrx]
    have hexec : exec (.stripeAlignStripe p blocks) s = .next (if (s.dev.stripe p && decide ((s.dev.port p).rx = 3)) = true
        then settleState (onDev (stripeAligned p blocks) s) else s) := rfl
    rw [hexec, if_pos hgo]
  case late =>
    intro p a s hmode hcur hlate
    exact congrArg (fun t => Host.Outcome.next (settleState t)) (lateRow_of_late hmode hcur hlate)
  case stats =>
    intro p f rest s h
    exact completes_next ⟨_, length_statsBytes .., finalStats_of_waiting h⟩

end Sys2Proof.Machine
end

section
/-! The statement about the burst triggers of the front-ends. -/

namespace Sys2Proof.Machine

/-! ## A firing of a burst trigger (R103) -/

theorem burstCheck_regs (p : Nat) (d : Dev) : (burstCheck p d).regs = d.regs := by
  unfold burstCheck
  split
  · dsimp only
    split
    · split <;> rfl
    · rfl
  · rfl

theorem burstCheck_val (p k : Nat) (d : Dev) : (burstCheck p d).val k = d.val k := by
  simp only [Dev.val, burstCheck_regs]

theorem burstCheck_get (p k : Nat) (d : Dev) : (burstCheck p d).get k = d.get k := by
  simp only [Dev.get, burstCheck_val]

/-- With no frame in progress and as many begun as the burst takes, EV x05 is all that the check posts (R102, R103). -/
theorem burstCheck_sources_of_ended {p t : Nat} {d : Dev} (hcap : d.capturing p = true)
    (ht : (d.intake p).burst.trigFrame = some t) (hlast : t + d.get (Reg.itk_BURST_POST p) ≤ (d.intake p).frames)
    (hasms : (d.intake p).asms = []) (hcomplete : (d.intake p).burst.complete = false) :
    (burstCheck p d).sources =
      (post (itkEv p 5) 0xFFFF (d.preHeld p t + d.get (Reg.itk_BURST_POST p)) (lo32 t) d).sources := by
  have hended : t + d.get (Reg.itk_BURST_POST p) ≤ (d.intake p).frames ∧
      (d.intake p).asms.all (fun a => decide (t + d.get (Reg.itk_BURST_POST p) ≤ a.frame)) = true ∧
      (!(d.intake p).burst.complete) = true := ⟨hlast, by rw [hasms, List.all_nil], by rw [hcomplete, Bool.not_false]⟩
  simp only [burstCheck, hcap, ht, if_pos hended]
  split <;> rfl

/-- The first firing of the trigger of port `p`, at `tb`: T is `t`, in TRIG_FRAME with TRIG_PRE_HELD, and EV x04 is posted. -/
def fixTrigger (p tb t : Nat) (d : Dev) : Dev :=
  post (itkEv p 4) 0xFFFF (lo32 t) (d.get (Reg.itk_TRIG_SOURCE p))
    (setN (Reg.itk_TRIG_FRAME p) t (setN (Reg.itk_TRIG_PRE_HELD p) (d.preHeld p t)
      (setBurst p (fun b => { b with fired := some tb, trigFrame := some t }) d)))

/-- Two entries of the burst's record, of one port or of two, with different codes. -/
theorem burstEntry_ne (p q : Nat) {i j : Nat} (hi : i < 256) (hj : j < 256) (hij : i ≠ j) :
    (0x0C00 + 0x100 * p + 0x08) * 256 + i ≠ (0x0C00 + 0x100 * q + 0x08) * 256 + j := by omega

theorem intakeEntry_ne_dirty (p r c : Nat) : (0x0C00 + 0x100 * p + r) * 256 + c ≠ Reg.store_STORE_DIRTY := by
  change _ ≠ 0x0320 * 256 + 0x06
  omega

section
variable (p tb : Nat)

theorem fixTrigger_get_trigFrame (t : Nat) (d : Dev) : (fixTrigger p tb t d).get (Reg.itk_TRIG_FRAME p) = t := by
  rw [fixTrigger, post_get, setN_get_same]

theorem fixTrigger_get_trigPreHeld (t : Nat) (d : Dev) :
    (fixTrigger p tb t d).get (Reg.itk_TRIG_PRE_HELD p) = d.preHeld p t := by
  have hne : Reg.itk_TRIG_PRE_HELD p ≠ Reg.itk_TRIG_FRAME p := burstEntry_ne p p (by decide) (by decide) (by decide)
  rw [fixTrigger, post_get, setN_get_of_ne hne, setN_get_same]

theorem fixTrigger_val_of_ne (t : Nat) (d : Dev) {k : Nat} (hframe : k ≠ Reg.itk_TRIG_FRAME p)
    (hheld : k ≠ Reg.itk_TRIG_PRE_HELD p) : (fixTrigger p tb t d).val k = d.val k := by
  rw [fixTrigger, post_val, setN_val_of_ne hframe, setN_val_of_ne hheld, setBurst, setItk_val]

variable {p} (frame : Option Nat) {d : Dev}

theorem fireTrigger_of_idle (hcap : d.capturing p = false) : fireTrigger p tb frame d = d := by
  simp only [fireTrigger, hcap, Bool.not_false, if_true]

/-- Where the source gives no frame, T is the first whose SOF TB is at or after the firing's (R102, assumption 97). -/
theorem fireTrigger_of_first (hcap : d.capturing p = true) (hfired : (d.intake p).burst.fired = none) :
    fireTrigger p tb frame d = burstCheck p (fixTrigger p tb (frame.getD ((d.intake p).frameFrom tb)) d) := by
  simp only [fireTrigger, hcap, hfired, Bool.not_true, Bool.false_eq_true, if_false, fixTrigger]

theorem fireTrigger_of_fired {t0 : Nat} (hcap : d.capturing p = true) (hfired : (d.intake p).burst.fired = some t0) :
    fireTrigger p tb frame d = inc32 (Reg.itk_TRIG_IGNORED p) d := by
  simp only [fireTrigger, hcap, hfired, Bool.not_true, Bool.false_eq_true, if_false]

end

/-- A firing leaves the trigger source of every port. -/
theorem fireTrigger_get_trigSource (p tb q : Nat) (frame : Option Nat) (d : Dev) :
    (fireTrigger p tb frame d).get (Reg.itk_TRIG_SOURCE q) = d.get (Reg.itk_TRIG_SOURCE q) := by
  have hframe : Reg.itk_TRIG_SOURCE q ≠ Reg.itk_TRIG_FRAME p :=
    burstEntry_ne q p (by decide) (by decide) (by decide)
  have hheld : Reg.itk_TRIG_SOURCE q ≠ Reg.itk_TRIG_PRE_HELD p :=
    burstEntry_ne q p (by decide) (by decide) (by decide)
  have hignored : Reg.itk_TRIG_SOURCE q ≠ Reg.itk_TRIG_IGNORED p :=
    burstEntry_ne q p (by decide) (by decide) (by decide)
  cases hcap : d.capturing p with
  | false => rw [fireTrigger_of_idle tb frame hcap]
  | true =>
    cases hfired : (d.intake p).burst.fired with
    | none =>
      rw [fireTrigger_of_first tb frame hcap hfired, burstCheck_get, Dev.get, fixTrigger_val_of_ne p tb _ d hframe hheld,
        ← Dev.get]
    | some t0 => rw [fireTrigger_of_fired tb frame hcap hfired, inc32_get, if_neg hignored]

/-! ## A pin edge -/

/-- What an edge of a pin does at port `p`: it fires the trigger that names it. -/
def pinFire (tp : Bool) (pin : Nat) (falling : Bool) (d : Dev) (p : Nat) : Dev :=
  if d.get (Reg.itk_TRIG_SOURCE p) = 1 ∧ d.namesPin p tp pin falling then fireTrigger p (tbNow d) none d else d

theorem exec_trigPinEdge (tp falling : Bool) (pin : Fin 64) (s : State) :
    exec (.trigPinEdge tp pin falling) s =
      .next (settleState (onDev (fun d => (List.range 4).foldl (pinFire tp pin falling) d) s)) := rfl

section
variable {tp falling : Bool} {pin p : Nat} {d : Dev}

theorem pinFire_of_named (hsource : d.get (Reg.itk_TRIG_SOURCE p) = 1) (hpin : d.namesPin p tp pin falling = true) :
    pinFire tp pin falling d p = fireTrigger p (tbNow d) none d := if_pos ⟨hsource, hpin⟩

theorem pinFire_of_unnamed (h : d.get (Reg.itk_TRIG_SOURCE p) ≠ 1 ∨ d.namesPin p tp pin falling = false) :
    pinFire tp pin falling d p = d := by
  refine if_neg fun ⟨hsource, hpin⟩ => ?_
  rcases h with h | h
  · exact h hsource
  · exact absurd (h.symm.trans hpin) Bool.false_ne_true

theorem pinFire_get_trigSource (q : Nat) :
    (pinFire tp pin falling d p).get (Reg.itk_TRIG_SOURCE q) = d.get (Reg.itk_TRIG_SOURCE q) := by
  unfold pinFire
  split
  · exact fireTrigger_get_trigSource ..
  · rfl

end

theorem foldl_of_fixed {α β : Type} {f : β → α → β} {b : β} {l : List α} (h : ∀ x ∈ l, f b x = b) : l.foldl f b = b := by
  induction l with
  | nil => rfl
  | cons x l ih =>
    rw [List.foldl_cons, h x List.mem_cons_self]
    exact ih fun y hy => h y (List.mem_cons_of_mem x hy)

/-- Only `x` of the list does anything, and what it does leaves nothing to the others. -/
theorem foldl_of_only {α β : Type} {f : β → α → β} {b : β} {x : α} {l : List α} (hnodup : l.Nodup) (hx : x ∈ l)
    (hbefore : ∀ y ∈ l, y ≠ x → f b y = b) (hafter : ∀ y ∈ l, y ≠ x → f (f b x) y = f b x) : l.foldl f b = f b x := by
  obtain ⟨l₁, l₂, rfl⟩ := List.append_of_mem hx
  obtain ⟨-, hnodup₂, hdisj⟩ := List.nodup_append.mp hnodup
  have h₁ : l₁.foldl f b = b := foldl_of_fixed fun y hy =>
    hbefore y (List.mem_append_left _ hy) (hdisj y hy x List.mem_cons_self)
  have h₂ : l₂.foldl f (f b x) = f b x := foldl_of_fixed fun y hy =>
    hafter y (List.mem_append_right _ (List.mem_cons_of_mem x hy)) fun hyx => (List.nodup_cons.mp hnodup₂).1 (hyx ▸ hy)
  rw [List.foldl_append, h₁, List.foldl_cons, h₂]

/-- An edge that one port alone can take fires that port's trigger alone. -/
theorem pinEdge_of_only {tp falling : Bool} {pin : Nat} {p : Fin 4} {d : Dev}
    (hsource : d.get (Reg.itk_TRIG_SOURCE p) = 1) (hpin : d.namesPin p tp pin falling = true)
    (hothers : ∀ q : Fin 4, q ≠ p → d.get (Reg.itk_TRIG_SOURCE q) ≠ 1) :
    (List.range 4).foldl (pinFire tp pin falling) d = fireTrigger p (tbNow d) none d := by
  have hother (q : Nat) (hq : q ∈ List.range 4) (hne : q ≠ p) : d.get (Reg.itk_TRIG_SOURCE q) ≠ 1 :=
    hothers ⟨q, List.mem_range.mp hq⟩ fun h => hne (congrArg Fin.val h)
  refine (foldl_of_only List.nodup_range (List.mem_range.mpr p.isLt) (fun q hq hne => ?before)
    (fun q hq hne => ?after)).trans (pinFire_of_named hsource hpin)
  case before => exact pinFire_of_unnamed (.inl (hother q hq hne))
  case after => exact pinFire_of_unnamed (.inl (by rw [pinFire_get_trigSource]; exact hother q hq hne))

/-- An edge that no port takes changes nothing. -/
theorem pinEdge_of_unnamed {tp falling : Bool} {pin : Nat} {d : Dev}
    (h : ∀ q : Fin 4, d.get (Reg.itk_TRIG_SOURCE q) ≠ 1 ∨ d.namesPin q tp pin falling = false) :
    (List.range 4).foldl (pinFire tp pin falling) d = d :=
  foldl_of_fixed fun q hq => pinFire_of_unnamed (h ⟨q, List.mem_range.mp hq⟩)

/-! ## TRIG_NOW -/

/-- Effects that agree on the units that an accepted write finds leave the same state. -/
theorem accepted_congr {w : Writer} {key : Nat} {v : Val} {s : State} {f g : Dev → Dev}
    (h : f (noted w key v s) = g (noted w key v s)) :
    accepted w key v (fun _ => onDev f) s = accepted w key v (fun _ => onDev g) s :=
  congrArg (fun d : Dev => { roomToRecord w s with dev := { d with answer := 0 } }) h

/-- A write of TRUE that the checks let through fires the trigger of a port whose source is TRIG_NOW. -/
theorem finish_trigNow {w : Writer} {p : Nat} {s : State} (h : writeCheck s.dev w (Reg.itk_TRIG_NOW p) (.num 1) = none)
    (hsource : s.dev.get (Reg.itk_TRIG_SOURCE p) = 3) :
    finishWrite s (writeTrigNow w p 1 s) =
      accepted w (Reg.itk_TRIG_NOW p) (.num 1) (fun _ => onDev (fun d => fireTrigger p (tbNow d) none d)) s := by
  have hnoted : (noted w (Reg.itk_TRIG_NOW p) (.num 1) s).get (Reg.itk_TRIG_SOURCE p) = 3 :=
    (noted_get _ _ _ _ (intakeEntry_ne_dirty p 8 4)).trans hsource
  exact (finishWrite_ok w _ _ noRule _ s h rfl).trans (accepted_congr (if_pos ⟨rfl, hnoted⟩))

/-- Settles O19: a firing by `fireTrigger_of_first` and `fireTrigger_of_fired`, which leave the sources of the other ports, so
that an edge of a pin fires the one port that names it; TRIG_NOW is the write of an entry. -/
theorem burstTriggersFire : Obligations.BurstTriggersFire := by
  refine ⟨?first, fun p tb t0 n d => fireTrigger_of_fired tb n, fun p t d => burstCheck_sources_of_ended, ?time, ?edge, ?noEdge,
    ?now⟩
  case first =>
    intro p tb n d hcap hfired
    have hfire : fireTrigger p tb (some n) d = burstCheck p (fixTrigger p tb n d) :=
      fireTrigger_of_first tb (some n) hcap hfired
    rw [hfire]
    refine ⟨rfl, ?frame, ?held, fun k hframe hheld => ?others⟩
    case frame => rw [burstCheck_get, fixTrigger_get_trigFrame]
    case held => rw [burstCheck_get, fixTrigger_get_trigPreHeld]
    case others => rw [burstCheck_val, fixTrigger_val_of_ne p tb n d hframe hheld]
  case time =>
    intro p s hsource hdue
    exact congrArg (fun d => Host.Outcome.next (settleState { s with dev := d })) (if_pos ⟨hsource, hdue⟩)
  case edge =>
    intro tp falling pin p s hsource hpin hothers
    rw [exec_trigPinEdge, onDev, pinEdge_of_only hsource hpin hothers, onDev]
  case noEdge =>
    intro tp falling pin s hcalm h
    rw [exec_trigPinEdge, settleState_onDev (pinEdge_of_unnamed h) hcalm]
  case now =>
    intro w p s hcheck hsource
    exact congrArg (fun t => Host.Outcome.next (settleState t)) (finish_trigNow hcheck hsource)

end Sys2Proof.Machine
end

section
/-! The statements about the settings sequencers: the write of SUBMIT and the record that it queues. -/

namespace Sys2Proof.Machine

/-! ## The queue of a sequencer -/

/-- A sequencer that is there. -/
theorem seq_setSeq {p : Nat} {d : Dev} (hp : p < d.seqr.length) (f : Sequencer → Sequencer) :
    (setSeq p f d).seq p = f (d.seq p) := nth_updAt_same p f d.seqr hp

theorem syncPending_seq (p q : Nat) (d : Dev) : (syncPending p d).seq q = d.seq q := rfl

theorem syncPending_get_pending (p : Nat) (d : Dev) :
    (syncPending p d).get (Reg.seq_PENDING p) = (d.seq p).recs.length := setN_get_same _ _ d

theorem syncPending_val_of_ne {p k : Nat} (hk : k ≠ Reg.seq_PENDING p) (d : Dev) :
    (syncPending p d).val k = d.val k := setN_val_of_ne hk _ d

/-- The sequencer of port `p` with record `r` behind those that wait and `uid` the next serial number. -/
def queueRecord (p : Nat) (r : SetRec) (uid : Nat) (d : Dev) : Dev :=
  setSeq p (fun q => { q with recs := q.recs ++ [r], nextUid := uid }) d

theorem queueRecord_recs {p : Nat} {d : Dev} (hp : p < d.seqr.length) (r : SetRec) (uid : Nat) :
    ((queueRecord p r uid d).seq p).recs = (d.seq p).recs ++ [r] := congrArg Sequencer.recs (seq_setSeq hp _)

theorem length_queueRecord_recs {p : Nat} {d : Dev} (hp : p < d.seqr.length) (r : SetRec) (uid : Nat) :
    ((queueRecord p r uid d).seq p).recs.length = (d.seq p).recs.length + 1 := by
  rw [queueRecord_recs hp, List.length_append, List.length_singleton]

theorem queueRecord_val (p : Nat) (r : SetRec) (uid k : Nat) (d : Dev) : (queueRecord p r uid d).val k = d.val k :=
  setSeq_val p _ d k

/-! ## A record that is accepted (R112, R113) -/

/-- An accepted record is queued, PENDING follows the queue, and EV 0x1001 names the record and its landing frame. -/
theorem acceptRecord_queues (p : Nat) (b : List Byte) (d : Dev) :
    ∃ r uid f, acceptRecord p b d = post 0x1001 p (rdLe b 0 4) f (syncPending p (queueRecord p r uid d)) :=
  ⟨_, _, _, rfl⟩

theorem acceptRecord_recs_length {p : Nat} {d : Dev} (hp : p < d.seqr.length) (b : List Byte) :
    ((acceptRecord p b d).seq p).recs.length = (d.seq p).recs.length + 1 := by
  obtain ⟨r, uid, f, h⟩ := acceptRecord_queues p b d
  rw [h]
  exact length_queueRecord_recs hp r uid

theorem acceptRecord_get_pending {p : Nat} {d : Dev} (hp : p < d.seqr.length) (b : List Byte) :
    (acceptRecord p b d).get (Reg.seq_PENDING p) = (d.seq p).recs.length + 1 := by
  obtain ⟨r, uid, f, h⟩ := acceptRecord_queues p b d
  rw [h, post_get, syncPending_get_pending, length_queueRecord_recs hp]

theorem acceptRecord_val_of_ne {p k : Nat} (hk : k ≠ Reg.seq_PENDING p) (b : List Byte) (d : Dev) :
    (acceptRecord p b d).val k = d.val k := by
  obtain ⟨r, uid, f, h⟩ := acceptRecord_queues p b d
  rw [h, post_val, syncPending_val_of_ne hk, queueRecord_val]

/-! ## The write of SUBMIT -/

/-- The entry's own rule, as `writeSubmit` has it (`exec_submit`): RANGE for reserved bits, REFUSED with EV 0x1005 for a
reason of R112. -/
def submitRule (p : Nat) (b : List Byte) (s : State) : Option (Nat × (Dev → Dev)) :=
  if rdLe b 5 1 / 2 ≠ 0 ∨ rdLe b 6 2 ≠ 0 then refuse stRANGE
  else match submitReason p b s.dev with
    | some r => some (stREFUSED, post 0x1005 p (rdLe b 0 4) r)
    | none => none

theorem exec_submit (w : Writer) (p : Fin 4) (b : List Byte) (s : State) :
    exec (.submit w p b) s = .next (finishWrite s
      (entryWrite w (Reg.seq_SUBMIT p) (.bytes b) (submitRule p b) (fun _ => onDev (acceptRecord p b)) s)) := rfl

section
variable {p : Nat} {b : List Byte} {s : State}

theorem submitRule_of_reserved (h : rdLe b 5 1 / 2 ≠ 0 ∨ rdLe b 6 2 ≠ 0) : submitRule p b s = refuse stRANGE := if_pos h

theorem submitRule_of_clear (hflags : rdLe b 5 1 / 2 = 0) (hpad : rdLe b 6 2 = 0) :
    submitRule p b s = (submitReason p b s.dev).map fun r => (stREFUSED, post 0x1005 p (rdLe b 0 4) r) := by
  have hclear : ¬ (rdLe b 5 1 / 2 ≠ 0 ∨ rdLe b 6 2 ≠ 0) := not_or.mpr ⟨not_not.mpr hflags, not_not.mpr hpad⟩
  rw [submitRule, if_neg hclear]
  cases submitReason p b s.dev with
  | none => rfl
  | some r => rfl

end

section
variable {w : Writer} {p : Fin 4} {b : List Byte} {s : State}

/-- A write that the entry's own rule refuses: what the rule leaves, and its code answered. -/
theorem exec_submit_refused {c : Nat} {eff : Dev → Dev} (hcheck : writeCheck s.dev w (Reg.seq_SUBMIT p) (.bytes b) = none)
    (hrule : submitRule p b s = some (c, eff)) :
    exec (.submit w p b) s = .next (onDev (fun d => { eff d with answer := c }) s) := by
  rw [exec_submit, finishWrite_rule w _ c _ _ eff _ s hcheck hrule]

theorem exec_submit_accepted (hcheck : writeCheck s.dev w (Reg.seq_SUBMIT p) (.bytes b) = none)
    (hrule : submitRule p b s = none) :
    exec (.submit w p b) s =
      .next (accepted w (Reg.seq_SUBMIT p) (.bytes b) (fun _ => onDev (acceptRecord p b)) s) := by
  rw [exec_submit, finishWrite_ok w _ _ _ _ s hcheck hrule]

end

/-- Settles O25: the rule of SUBMIT decides the outcome of the write, and an accepted record is one more in the queue that
PENDING counts (`acceptRecord_queues`). -/
theorem submissionsAreDecided : Obligations.SubmissionsAreDecided := by
  intro w p b s hcheck
  refine ⟨fun hflags => ?reserved, fun hflags hpad => ⟨fun hreason => ?fits, fun r hreason => ?rejected, fun hp => ?queued⟩⟩
  case reserved => exact exec_submit_refused hcheck (submitRule_of_reserved (.inl hflags))
  case fits => exact exec_submit_accepted hcheck ((submitRule_of_clear hflags hpad).trans (congrArg _ hreason))
  case rejected => exact exec_submit_refused hcheck ((submitRule_of_clear hflags hpad).trans (congrArg _ hreason))
  case queued =>
    exact ⟨acceptRecord_get_pending hp b, acceptRecord_recs_length hp b, fun k hk => acceptRecord_val_of_ne hk b s.dev⟩

end Sys2Proof.Machine
end

section
/-! The statements about the barges, the weir and the flat-field build: jobs that are taken and stolen, frames and jobs that come
and go, the power that the weir meters, and the phases of FB_PHASE. -/

namespace Sys2Proof.Machine

/-! ## A job that is dispatched (R139, R140, R145, R146) -/

/-- The count of a slot's running jobs is kept in the intakes alone (R93). -/
theorem slotRun_itk (j : Job) (f : Nat → Nat) (d : Dev) : ∃ l, slotRun j f d = { d with itk := l } := by
  unfold slotRun
  split
  · split
    · exact ⟨_, rfl⟩
    · exact ⟨_, rfl⟩
  · exact ⟨_, rfl⟩

/-- The barges after the weir admits job `j` of basin `c` to `barge`: the job runs there, it has left the basin, and its energy
has left the bucket. -/
def dispatched (barge c : Nat) (j : Job) (d : Dev) : Barges :=
  { d.brg with
    basins := d.brg.basins.modify c (fun l => l.erase j)
    level := d.brg.level - j.energy, running := d.brg.running.set barge (some j)
    high := d.brg.high && decide (d.weirDepth < 2 * (d.brg.level - j.energy))
    starved := if j.cls = 0 then false else d.brg.starved }

section
variable {barge c : Nat} {j : Job} {d : Dev}

/-- Beside the barges a dispatch changes the slot's count in the intakes and the requests to the fabric, nothing else. -/
theorem dispatch_of_admitted (h : d.admits j = true) :
    ∃ l fab, dispatch barge c j d = (true, { d with brg := dispatched barge c j d, itk := l, fab := fab }) := by
  rw [dispatch, if_pos h]
  generalize hd : setBrg _ (takeFrom c j d) = e
  obtain ⟨l, hl⟩ := slotRun_itk j (· + 1) e
  rw [hl, ← hd]
  exact ⟨l, _, rfl⟩

theorem dispatch_of_refused (h : d.admits j = false) (hcls : j.cls ≠ 0) :
    dispatch barge c j d = (false, setBrg (fun b => { b with refused := true }) d) := by
  rw [dispatch, if_neg (ne_true_of_eq_false h), if_neg hcls]

theorem takeOwn_of_head (hidle : d.bargeIdle barge = true) (hhead : headOf (d.basin (barge / 8)) = some j) :
    takeOwn barge d = (dispatch barge (barge / 8) j d).2 := by
  rw [takeOwn, if_pos hidle, hhead]

theorem stealGrant_of_admitted (hstealer : d.stealer = some barge) (hvictim : d.victim = some (c, j))
    (h : d.admits j = true) :
    stealGrant d = setBrg (fun x => { x with rr := barge }) (inc64 Reg.job_STEALS (dispatch barge c j d).2) := by
  obtain ⟨l, fab, hd⟩ := dispatch_of_admitted (barge := barge) (c := c) h
  simp only [stealGrant, hstealer, hvictim, hd, if_true]

theorem dispatched_basin (hc : c < d.brg.basins.length) :
    (dispatched barge c j d).basins.getD c [] = (d.basin c).erase j :=
  nth_updAt_same c (fun l : List Job => l.erase j) d.brg.basins hc

theorem dispatched_running (hb : barge < d.brg.running.length) :
    (dispatched barge c j d).running.getD barge none = some j := by
  rw [dispatched, List.getD_eq_getElem?_getD, List.getElem?_set_self hb, Option.getD_some]

end

/-- Settles O26: a head that the weir admits is dispatched (`dispatch_of_admitted`), one that it does not admit only marks the
tick, and a steal is a dispatch that moves the arbiter on and is counted. -/
theorem jobsAreDispatched : Obligations.JobsAreDispatched := by
  refine ⟨?taken, ?refused, ?stolen⟩
  case taken =>
    intro b j s hidle hhead hadmit hb hc
    refine completes_next ?_
    rw [onDev_dev, onDev_arb, onDev_mem, takeOwn_of_head hidle hhead]
    obtain ⟨l, fab, hd⟩ := dispatch_of_admitted (barge := b) (c := b / 8) hadmit
    rw [hd]
    exact ⟨rfl, dispatched_running hb, dispatched_basin hc, rfl, rfl, rfl, rfl⟩
  case refused =>
    intro b j s hidle hhead hadmit hcls
    change Host.Outcome.next (onDev (takeOwn b) s) = _
    rw [onDev, takeOwn_of_head hidle hhead, dispatch_of_refused hadmit hcls, onDev]
  case stolen =>
    intro b c j s hstealer hvictim hadmit
    refine completes_next ?_
    rw [onDev_dev, onDev_arb, onDev_mem, stealGrant_of_admitted hstealer hvictim hadmit]
    obtain ⟨l, fab, hd⟩ := dispatch_of_admitted (barge := b) (c := c) hadmit
    rw [hd]
    refine ⟨rfl, rfl, ?steals, fun k hk => ?others, rfl, rfl⟩
    case steals => exact setN_get_same _ _ _
    case others => exact setN_val_of_ne hk _ _

/-! ## Jobs that are posted (R135, R136) -/

/-- What posting changes: the basins and the number of the next posting. -/
def posted (basins : List (List Job)) (n : Nat) : Dev → Dev := setBrg (fun b => { b with basins := basins, postSeq := n })

theorem postJob_posted (j : Job) (d : Dev) : ∃ l n, (postJob j d).2 = posted l n d := by
  unfold postJob
  split
  · exact ⟨_, _, rfl⟩
  · split
    · exact ⟨_, _, rfl⟩
    · exact ⟨_, _, rfl⟩

theorem postJobs_posted (js : List Job) (d : Dev) : ∃ l n, (postJobs js d).2 = posted l n d := by
  induction js generalizing d with
  | nil => exact ⟨_, _, rfl⟩
  | cons j js ih =>
    obtain ⟨l, n, hj⟩ := postJob_posted j d
    obtain ⟨l', n', hjs⟩ := ih (postJob j d).2
    refine ⟨l', n', ?_⟩
    change (postJobs js (postJob j d).2).2 = _
    rw [hjs, hj]
    rfl

theorem backlogPost_posted (d : Dev) :
    ∃ left l n, backlogPost d = syncBacklog (setBrg (fun b => { b with backlog := left }) (posted l n d)) := by
  obtain ⟨l, n, h⟩ := postJobs_posted ((List.range 4).flatMap (fun c => d.brg.backlog.filter (fun j => j.cls == c))) d
  simp only [backlogPost, h]
  exact ⟨_, l, n, rfl⟩

theorem syncBacklog_get (d : Dev) : (syncBacklog d).get Reg.job_BACKLOG = d.brg.backlog.length := setN_get_same _ _ d

theorem syncBacklog_val_of_ne {k : Nat} (hk : k ≠ Reg.job_BACKLOG) (d : Dev) : (syncBacklog d).val k = d.val k :=
  setN_val_of_ne hk _ d

/-! ## Jobs that complete (R133, R145) -/

/-- The units once the job `j` of `barge` has ended: its slot no longer counts it, the weir has its credit, and its barge is
free. -/
def jobEnded (barge energy : Nat) (j : Job) (d : Dev) : Dev :=
  fabricEnd barge (creditJob barge energy j (slotRun j (· - 1) d))

theorem jobEnded_itk (barge energy : Nat) (j : Job) (d : Dev) :
    ∃ l, jobEnded barge energy j d = fabricEnd barge (creditJob barge energy j { d with itk := l }) := by
  obtain ⟨l, h⟩ := slotRun_itk j (· - 1) d
  exact ⟨l, by rw [jobEnded, h]⟩

theorem jobEnded_work? (barge energy : Nat) (j : Job) (d : Dev) (id : Nat) :
    (jobEnded barge energy j d).work? id = d.work? id := by
  obtain ⟨l, h⟩ := jobEnded_itk barge energy j d
  rw [h]
  rfl

section
variable {barge energy : Nat} {j : Job} {s : State}

/-- The job of a work that is no longer under way only ends. -/
theorem completeJob_of_noWork (hrun : s.dev.brg.running.getD barge none = some j) (hclock : s.dev.gated (barge / 8) = false)
    (hwork : s.dev.work? j.work = none) : completeJob barge energy s = onDev (jobEnded barge energy j) s := by
  have hw : (jobEnded barge energy j s.dev).work? j.work = none := (jobEnded_work? ..).trans hwork
  unfold jobEnded at hw ⊢
  simp only [completeJob, hrun, hclock, Bool.false_eq_true, if_false, onDev_dev, hw]

/-- A job that ends without POISON and is not the last of its work counts the work's counter down. -/
theorem completeJob_of_more {w0 w1 : Work} {t : State} (hrun : s.dev.brg.running.getD barge none = some j)
    (hclock : s.dev.gated (barge / 8) = false) (hwork : (jobEnded barge energy j s.dev).work? j.work = some w0)
    (htile : runTile w0 j.tile (onDev (jobEnded barge energy j) s) = (w1, false, t)) (hmore : 1 < w0.left) :
    completeJob barge energy s = poundWrite w1.counter (leBytes 4 (w0.left - 1))
      (onDev (setWork w1.id (fun _ => { w1 with left := w0.left - 1 })) t) := by
  have hleft : ¬ w0.left - 1 = 0 := by omega
  unfold jobEnded at hwork htile
  simp only [completeJob, hrun, hclock, Bool.false_eq_true, if_false, onDev_dev, hwork, htile, if_neg hleft]

end

/-- Settles O27: the eligible frame is taken up, posting leaves all of the units but the basins and the backlog
(`backlogPost_posted`), and a job that completes ends as `jobEnded` says before its tile is run. -/
theorem jobsComeAndGo : Obligations.JobsComeAndGo := by
  refine ⟨?frame, ?backlog, ?ended, ?counted⟩
  case frame =>
    intro info s h
    change execFrameTakeUp s = _
    rw [execFrameTakeUp, h]
  case backlog =>
    intro s
    refine completes_next ?_
    rw [onDev_dev, onDev_arb, onDev_mem]
    obtain ⟨left, l, n, h⟩ := backlogPost_posted s.dev
    rw [h]
    exact ⟨syncBacklog_get _, fun k hk => syncBacklog_val_of_ne hk _, rfl, rfl, rfl, rfl⟩
  case ended =>
    intro b e j s hrun hclock hwork
    refine completes_next ?_
    rw [completeJob_of_noWork hrun hclock hwork, onDev_dev, onDev_arb, onDev_mem]
    obtain ⟨l, h⟩ := jobEnded_itk b e j s.dev
    rw [h]
    exact ⟨rfl, rfl, rfl, rfl, rfl, rfl⟩
  case counted =>
    intro b e j w0 w1 s s1 s2 hrun hclock hs1 hwork htile hmore
    subst hs1
    exact congrArg Host.Outcome.next (completeJob_of_more hrun hclock hwork htile hmore)

/-! ## The weir's tick (R145) -/

theorem weirTick_val_of_ne (base : Nat) (d : Dev) {k : Nat} (hlevel : k ≠ Reg.weir_WEIR_LEVEL_J)
    (hbase : k ≠ Reg.weir_BASE_POWER_W) (hbarge : k ≠ Reg.weir_BARGE_POWER_W) : (weirTick base d).val k = d.val k := by
  rw [weirTick, setN_val_of_ne hlevel, setN_val_of_ne hbase, setN_val_of_ne hbarge, setBrg_val]

/-! ## Missed deadlines (R149) -/

theorem deadlineMiss_of_none {s : State} (h : s.dev.missed = none) (n : Nat) : deadlineMiss n s = s := by
  cases n with
  | zero => rfl
  | succ n => rw [deadlineMiss, h]

theorem missed_mem {d : Dev} {w : Work} (h : d.missed = some w) : w ∈ d.brg.works := List.mem_of_find?_eq_some h

/-- A work past its deadline is discarded; with none left that is, it is the only one. -/
theorem deadlineMiss_of_last {s : State} {w : Work} (h : s.dev.missed = some w)
    (hlast : (discardWork true w s).dev.missed = none) : deadlineMiss s.dev.brg.works.length s = discardWork true w s := by
  obtain ⟨n, hn⟩ := Nat.exists_eq_add_one.mpr (List.length_pos_of_mem (missed_mem h))
  rw [hn, deadlineMiss, h]
  exact deadlineMiss_of_none hlast n

theorem c0Late_of_late {d : Dev} {w : Work} (hworks : d.brg.works = [w]) (hcls : w.cls = 0) (hlate : w.late = false)
    (hdue : (d.waitingJobs w.id).any (fun j => tbDue j.deadline (tbNow d)) = true) :
    c0Late d = post 0x1421 (portInst w.port) (lo32 w.frame) (d.waitingJobs w.id).length
      (setWork w.id (fun x => { x with late := true }) d) := by
  have hnew : (!w.late) = true := by rw [hlate, Bool.not_false]
  rw [c0Late, hworks]
  exact if_pos ⟨hcls, hnew, hdue⟩

/-! ## Cluster clocks and the ceiling (R150 to R152) -/

theorem clockReview_of_manual {d : Dev} (h : d.flag Reg.weir_CLOCK_AUTO = false) :
    clockReview d = setBrg (fun x => { x with
      ticks := 0, refusedTicks := 0, high := decide (d.weirDepth < 2 * x.level) }) d := by
  rw [clockReview, if_neg (ne_true_of_eq_false h)]
  rfl

theorem vengConfirm_of_none {d : Dev} (h : d.boot.vengRaw = none) : vengConfirm d = d := by
  rw [vengConfirm, h]
  rfl

theorem clockRaise_of_suited {c : Nat} {d : Dev} (hrail : d.boot.vengRaw = none)
    (hraise : d.brg.goal.getD c 0 < d.clockStep c) (hsuits : stepMv (d.brg.goal.getD c 0) ≤ d.get Reg.clk_VENG_MV) :
    clockRaise c d = clockSet c (d.brg.goal.getD c 0) d := by
  rw [clockRaise, vengConfirm_of_none hrail]
  exact if_pos ⟨hraise, hsuits⟩

/-- An average above the ceiling stops the clock of cluster `c`, with EV 0x1431. -/
def ceilingStop (c avg : Nat) (d : Dev) : Dev :=
  post 0x1431 c 1 avg (setN Reg.weir_CEILING_GATED (setBit (d.get Reg.weir_CEILING_GATED) c true)
    (setBrg (fun b => { b with calm := 0 }) d))

theorem ceilingCheck_of_above {avg c : Nat} {d : Dev} (habove : (110000 : Rat) < ((avg : Int) : Rat))
    (hc : (d.liveClusters.filter (fun i => !(d.gated i))).getLast? = some c) : ceilingCheck avg d = ceilingStop c avg d := by
  rw [ceilingCheck, if_pos habove, hc]
  rfl

theorem ceilingStop_get_gated (c avg : Nat) (d : Dev) :
    (ceilingStop c avg d).get Reg.weir_CEILING_GATED = setBit (d.get Reg.weir_CEILING_GATED) c true := by
  rw [ceilingStop, post_get, setN_get_same]

theorem ceilingStop_val_of_ne (c avg : Nat) (d : Dev) {k : Nat} (hk : k ≠ Reg.weir_CEILING_GATED) :
    (ceilingStop c avg d).val k = d.val k := by
  rw [ceilingStop, post_val, setN_val_of_ne hk, setBrg_val]

theorem ceilingStop_sources (c avg : Nat) (d : Dev) : (ceilingStop c avg d).sources = (post 0x1431 c 1 avg d).sources :=
  post_sources_congr rfl rfl rfl (tbNow_setN (by decide) _ _)

/-- Settles O28: each clause is what its operation does where its condition holds; a clock that stops changes no entry of the
time base, so its event is the one the state before would post (`ceilingStop_sources`). -/
theorem weirMetersPower : Obligations.WeirMetersPower := by
  refine ⟨?tick, ?missed, ?late, ?review, ?raised, ?ceiling⟩
  case tick =>
    intro base s
    exact completes_next ⟨rfl, rfl, rfl, rfl, rfl, rfl, rfl, rfl, fun k => weirTick_val_of_ne base s.dev⟩
  case missed =>
    intro w s hmissed hlast
    exact congrArg Host.Outcome.next (deadlineMiss_of_last hmissed hlast)
  case late =>
    intro w s hworks hcls hlate hdue
    exact congrArg (fun d => Host.Outcome.next { s with dev := d }) (c0Late_of_late hworks hcls hlate hdue)
  case review =>
    intro s hauto
    exact congrArg (fun d => Host.Outcome.next { s with dev := d }) (clockReview_of_manual hauto)
  case raised =>
    intro c s hrail hraise hsuits
    exact congrArg (fun d => Host.Outcome.next { s with dev := d }) (clockRaise_of_suited hrail hraise hsuits)
  case ceiling =>
    intro avg c s habove hc
    refine completes_next ?_
    rw [onDev_dev, onDev_arb, onDev_mem, ceilingCheck_of_above habove hc]
    exact ⟨ceilingStop_get_gated c avg s.dev, ceilingStop_sources c avg s.dev, rfl, rfl, rfl,
      fun k => ceilingStop_val_of_ne c avg s.dev⟩

/-! ## The flat-field build (R158, R159) -/

/-- The port of the flat-field build is ready for a phase: none is in progress, the mode is CALIBRATE, FLAT_MODE is off, and
OUT_FORMAT is one of the two that R158 takes. -/
structure FlatReady (d : Dev) : Prop where
  phase : d.fb.phase = 0
  mode : d.mode = mCALIBRATE
  flatMode : d.get (Reg.itk_FLAT_MODE (d.get Reg.fb_FB_PORT)) = 0
  format : d.get (Reg.itk_OUT_FORMAT (d.get Reg.fb_FB_PORT)) = 1 ∨ d.get (Reg.itk_OUT_FORMAT (d.get Reg.fb_FB_PORT)) = 2

/-- FB_PHASE then takes every phase but a BUILD with an empty accumulator. -/
theorem FlatReady.fbRule_eq_none {d : Dev} (h : FlatReady d) {v : Nat}
    (hbuild : v = 3 → 0 < d.get Reg.fb_FB_DARK_FRAMES ∧ 0 < d.get Reg.fb_FB_FLAT_FRAMES) : fbRule v d = none := by
  obtain ⟨hphase, hmode, hflat, hformat⟩ := h
  have hport : ¬ (d.get (Reg.itk_FLAT_MODE (d.get Reg.fb_FB_PORT)) ≠ 0 ∨
      (d.get (Reg.itk_OUT_FORMAT (d.get Reg.fb_FB_PORT)) ≠ 1 ∧ d.get (Reg.itk_OUT_FORMAT (d.get Reg.fb_FB_PORT)) ≠ 2)) := by
    omega
  have hframes : ¬ (v = 3 ∧ (d.get Reg.fb_FB_DARK_FRAMES = 0 ∨ d.get Reg.fb_FB_FLAT_FRAMES = 0)) := by omega
  rw [fbRule, if_neg (not_not.mpr hphase), if_neg (not_not.mpr hmode), if_neg hport, if_neg hframes, ite_self]

/-- The count of the frames that phase `v`, DARK or FLAT, adds to its accumulator. -/
def flatCount (v : Nat) : Nat := if v = 1 then Reg.fb_FB_DARK_FRAMES else Reg.fb_FB_FLAT_FRAMES

theorem flatCount_ne_dirty (v : Nat) : flatCount v ≠ Reg.store_STORE_DIRTY := by
  unfold flatCount
  split
  · decide
  · decide

/-- The frames that phase `v` takes: FB_FRAMES, or as many as its accumulator still holds. -/
def flatFrames (v : Nat) (d : Dev) : Nat := min (d.get Reg.fb_FB_FRAMES) (256 - d.get (flatCount v))

theorem flatFrames_ne_zero {v : Nat} {d : Dev} (hframes : 0 < d.get Reg.fb_FB_FRAMES) (hroom : d.get (flatCount v) < 256) :
    flatFrames v d ≠ 0 := by
  unfold flatFrames
  omega

theorem flatFrames_noted (w : Writer) (key : Nat) (x : Val) (s : State) (v : Nat) :
    flatFrames v (noted w key x s) = flatFrames v s.dev := by
  rw [flatFrames, flatFrames, noted_get w key x s (flatCount_ne_dirty v), noted_get w key x s (by decide)]

/-- Phase `v` in progress, with `n` frames still to take. -/
def flatPhase (v n : Nat) (d : Dev) : Dev :=
  setN Reg.fb_FB_PHASE v { d with fb := { d.fb with phase := v, pass := 0, left := n, last := 0 } }

theorem flatPhase_get (v n : Nat) (d : Dev) : (flatPhase v n d).get Reg.fb_FB_PHASE = v := setN_get_same _ _ _

theorem flatPhase_val_of_ne (v n : Nat) (d : Dev) {k : Nat} (hk : k ≠ Reg.fb_FB_PHASE) : (flatPhase v n d).val k = d.val k :=
  setN_val_of_ne hk _ _

theorem fbStart_of_room {v : Nat} {d : Dev} (h : flatFrames v d ≠ 0) : fbStart v d = flatPhase v (flatFrames v d) d :=
  if_neg h

section
variable {w : Writer} {s : State}

/-- An accepted write of DARK or FLAT starts its phase (R158). -/
theorem finish_fbStart {v : Nat} (hready : FlatReady s.dev) (hv : v = 1 ∨ v = 2)
    (hcheck : writeCheck s.dev w Reg.fb_FB_PHASE (.num v) = none) (hframes : 0 < s.dev.get Reg.fb_FB_FRAMES)
    (hroom : s.dev.get (flatCount v) < 256) :
    finishWrite s (writeFbPhase w v s) =
      accepted w Reg.fb_FB_PHASE (.num v) (fun _ => onDev (flatPhase v (flatFrames v s.dev))) s := by
  have hrule : fbRule v s.dev = none := hready.fbRule_eq_none fun h3 => by omega
  have hnoted := flatFrames_noted w Reg.fb_FB_PHASE (.num v) s v
  refine (finishWrite_ok w _ _ _ _ s hcheck hrule).trans ?_
  simp only [if_pos hv]
  refine accepted_congr ?_
  rw [fbStart_of_room (hnoted.trans_ne (flatFrames_ne_zero hframes hroom)), hnoted]

/-- After such a write its phase is in progress with its frames, and no other entry has changed but STORE_DIRTY. -/
theorem fbStart_completes {v : Nat} (hready : FlatReady s.dev) (hv : v = 1 ∨ v = 2)
    (hcheck : writeCheck s.dev w Reg.fb_FB_PHASE (.num v) = none) (hframes : 0 < s.dev.get Reg.fb_FB_FRAMES)
    (hroom : s.dev.get (flatCount v) < 256) :
    completes (.next (finishWrite s (writeFbPhase w v s))) (fun t => t.dev.get Reg.fb_FB_PHASE = v ∧ t.dev.fb.phase = v ∧
      t.dev.fb.left = flatFrames v s.dev ∧ t.mem = s.mem ∧
      ∀ k, k ≠ Reg.fb_FB_PHASE → k ≠ Reg.store_STORE_DIRTY → t.dev.val k = s.dev.val k) := by
  rw [finish_fbStart hready hv hcheck hframes hroom]
  refine completes_next ⟨?phase, rfl, rfl, ?memory, fun k hk hdirty => ?others⟩
  case phase => rw [accepted_get, flatPhase_get]
  case memory => rw [accepted_mem w Reg.fb_FB_PHASE (.num v) s (fun _ => flatPhase v (flatFrames v s.dev))]
  case others => rw [accepted_val, flatPhase_val_of_ne v _ _ hk, noted_val w _ _ s hdirty]

theorem finish_fbBuild (hcheck : writeCheck s.dev w Reg.fb_FB_PHASE (.num 3) = none) (hready : FlatReady s.dev)
    (hdark : 0 < s.dev.get Reg.fb_FB_DARK_FRAMES) (hflat : 0 < s.dev.get Reg.fb_FB_FLAT_FRAMES) :
    finishWrite s (writeFbPhase w 3 s) = accepted w Reg.fb_FB_PHASE (.num 3) (fun _ => fbBuild) s :=
  finishWrite_ok w _ _ _ (fun _ => fbBuild) s hcheck (hready.fbRule_eq_none fun _ => ⟨hdark, hflat⟩)

theorem finish_fbClear (hcheck : writeCheck s.dev w Reg.fb_FB_PHASE (.num 4) = none) (hready : FlatReady s.dev) :
    finishWrite s (writeFbPhase w 4 s) = accepted w Reg.fb_FB_PHASE (.num 4) (fun _ => fbClear) s :=
  finishWrite_ok w _ _ _ (fun _ => fbClear) s hcheck (hready.fbRule_eq_none fun h => by omega)

end

/-- CLEAR leaves no phase in progress and both counts zero. -/
theorem fbClear_get (s : State) : (fbClear s).dev.get Reg.fb_FB_DARK_FRAMES = 0 ∧
    (fbClear s).dev.get Reg.fb_FB_FLAT_FRAMES = 0 ∧ (fbClear s).dev.get Reg.fb_FB_PHASE = 0 := by
  refine ⟨?dark, ?flat, ?phase⟩
  case dark => exact (setN_get_of_ne (by decide) _ _).trans (setN_get_same _ _ _)
  case flat => exact (setN_get_of_ne (by decide) _ _).trans ((setN_get_of_ne (by decide) _ _).trans (setN_get_same _ _ _))
  case phase => exact setN_get_same _ _ _

/-- Settles O29: in a state that is ready (`FlatReady`) FB_PHASE takes every phase, and the effect of its write is `flatPhase`,
`fbBuild` or `fbClear`. -/
theorem flatBuildPhasesStart : Obligations.FlatBuildPhasesStart := by
  intro w s hphase hmode hflatMode hformat
  have hready : FlatReady s.dev := ⟨hphase, hmode, hflatMode, hformat⟩
  refine ⟨fbStart_completes hready (.inl rfl), fbStart_completes hready (.inr rfl), fun hcheck hdark hflat => ?build,
    fun hcheck => ?clear⟩
  case build => exact congrArg Host.Outcome.next (finish_fbBuild hcheck hready hdark hflat)
  case clear => exact ⟨_, congrArg Host.Outcome.next (finish_fbClear hcheck hready), rfl, fbClear_get _⟩

end Sys2Proof.Machine
end

section
/-! The statement about the views: writes of staged entries, and the commit that waits, is withdrawn or has its bank loaded. -/

namespace Sys2Proof.Machine

/-! ## The views at the effect of a write -/

theorem touchStore_views (key : Nat) (d : Dev) : (touchStore key d).views = d.views := by
  unfold touchStore
  split
  · rfl
  · split
    · rfl
    · rfl

theorem recordWrite_views (w : Writer) (key : Nat) (x : Val) (d : Dev) : (recordWrite w key x d).views = d.views := by
  cases w with
  | firmware => exact touchStore_views key d
  | client id tr => exact touchStore_views key _

theorem Arbitrated.views {s t : State} (h : Arbitrated s t) : t.dev.views = s.dev.views := by
  obtain ⟨q, l, n, e, hdev⟩ := h.dev
  rw [hdev]

theorem noted_views (w : Writer) (key : Nat) (x : Val) (s : State) : (noted w key x s).views = s.dev.views :=
  (recordWrite_views w key x _).trans (arbitrated_roomToRecord w s).views

theorem noted_view (w : Writer) (key : Nat) (x : Val) (s : State) (v : Nat) : (noted w key x s).view v = s.dev.view v :=
  congrArg (nth · v) (noted_views w key x s)

/-- A view that is there. -/
theorem view_setView {v : Nat} {d : Dev} (hv : v < d.views.length) (f : View → View) :
    (setView v f d).view v = f (d.view v) := nth_updAt_same v f d.views hv

/-! ## Staged entries (R182) -/

theorem viewEntry_ne (v : Nat) {r c q b : Nat} (hc : c < 256) (hb : b < 256) (hne : r ≠ q ∨ c ≠ b) :
    (0x1800 + 0x100 * v + r) * 256 + c ≠ (0x1800 + 0x100 * v + q) * 256 + b := by omega

theorem viewEntry_ne_dirty (v r c : Nat) : (0x1800 + 0x100 * v + r) * 256 + c ≠ Reg.store_STORE_DIRTY := by
  change _ ≠ 0x0320 * 256 + 0x06
  omega

/-- UNPACK_SHIFT is in no relation to another entry: open staging takes each value that its range admits. -/
theorem stagedRule_unpackShift {v : Nat} {d : Dev} (hopen : (d.view v).closed = false) (x : Val) :
    stagedRule v (Reg.view_UNPACK_SHIFT v) x d = none := by
  have htable : Reg.view_UNPACK_SHIFT v ≠ Reg.view_TRANSFER_TABLE v := viewEntry_ne v (by decide) (by decide) (by decide)
  have hknee : Reg.view_UNPACK_SHIFT v ≠ Reg.view_KNEE v := viewEntry_ne v (by decide) (by decide) (by decide)
  have hwhite : Reg.view_UNPACK_SHIFT v ≠ Reg.view_WHITE v := viewEntry_ne v (by decide) (by decide) (by decide)
  have hthresh : Reg.view_UNPACK_SHIFT v ≠ Reg.view_FC_THRESH v := viewEntry_ne v (by decide) (by decide) (by decide)
  have hlines : Reg.view_UNPACK_SHIFT v ≠ Reg.view_FRAME_LINES v := viewEntry_ne v (by decide) (by decide) (by decide)
  unfold stagedRule
  extract_lets
  rw [if_neg (ne_true_of_eq_false hopen), if_neg fun h => htable h.1,
    if_neg fun h => h.1.elim hknee hwhite, if_neg fun h => hthresh h.1, if_neg fun h => hlines h.1]

/-- An accepted write of a staged entry sets it, and renders no curve unless the entry is TRANSFER (R177). -/
theorem finish_staged {w : Writer} {v key : Nat} {x : Val} {s : State} (hcheck : writeCheck s.dev w key x = none)
    (hrule : stagedRule v key x s.dev = none) (hkey : key ≠ Reg.view_TRANSFER v) :
    finishWrite s (writeStaged w v key x s) = accepted w key x (fun _ => onDev (setV key x)) s := by
  refine (finishWrite_ok w key x _ _ s hcheck ?rule).trans (accepted_congr (if_neg hkey))
  case rule =>
    cases w with
    | firmware => rfl
    | client id tr => exact hrule

theorem unpackShift_staged (v : Fin 4) : ((rowOf (Reg.view_UNPACK_SHIFT v)).map (·.staged)).getD false = true := by
  revert v
  decide

theorem viewOfKey_unpackShift (v : Nat) : viewOfKey (Reg.view_UNPACK_SHIFT v) = v := by
  unfold viewOfKey Reg.view_UNPACK_SHIFT
  omega

theorem exec_stagedWrite_unpackShift (w : Writer) (v : Fin 4) (x : Val) (s : State) :
    exec (.stagedWrite w (Reg.view_UNPACK_SHIFT v) x) s =
      .next (finishWrite s (writeStaged w v (Reg.view_UNPACK_SHIFT v) x s)) := by
  obtain ⟨hlo, hhi⟩ : 0x1800 ≤ Reg.view_UNPACK_SHIFT v / 256 ∧ Reg.view_UNPACK_SHIFT v / 256 < 0x1C00 := by
    unfold Reg.view_UNPACK_SHIFT
    omega
  refine (congrArg Host.Outcome.next (if_pos ⟨hlo, hhi, unpackShift_staged v⟩)).trans ?_
  rw [viewOfKey_unpackShift]

/-! ## Commits (R183) -/

section
variable {v : Nat} {d : Dev}

theorem commitRule_of_free (hnone : (d.view v).commit = none) (hfree : d.bankUsed v (d.view v).spare = false) :
    commitRule v d = none := by
  simp [commitRule, hnone, hfree]

theorem commitSet_view (hv : v < d.views.length) (r : Bool) (n : Nat) :
    ∃ m, (commitSet v r n d).view v = { d.view v with
      closed := true
      commit := some { byRecord := r, value := n, bank := (d.view v).spare, loaded := false, missed := m } } :=
  ⟨_, view_setView hv _⟩

end

section
variable {w : Writer} {v : Nat} {s : State}

theorem finish_commitFrame {f : Nat} (hcheck : writeCheck s.dev w (Reg.view_COMMIT_FRAME v) (.num f) = none)
    (hrule : commitRule v s.dev = none) :
    finishWrite s (writeCommitFrame w v f s) =
      accepted w (Reg.view_COMMIT_FRAME v) (.num f) (fun _ => onDev (commitSet v false f)) s :=
  finishWrite_ok w _ _ _ _ s hcheck hrule

/-- A commit by record is accepted for a record that waits at the view's source port. -/
theorem finish_commitRecord {id : Nat} (hcheck : writeCheck s.dev w (Reg.view_COMMIT_RECORD v) (.num id) = none)
    (hport : s.dev.get (Reg.view_VIEW_SOURCE v) < 4)
    (hrec : (s.dev.seq (s.dev.get (Reg.view_VIEW_SOURCE v))).recs.any (fun r => r.id == id) = true)
    (hrule : commitRule v s.dev = none) :
    finishWrite s (writeCommitRecord w v id s) =
      accepted w (Reg.view_COMMIT_RECORD v) (.num id) (fun _ => onDev (commitSet v true id)) s := by
  refine finishWrite_ok w _ _ _ _ s hcheck ((if_neg ?pending).trans hrule)
  case pending => simp only [hrec, Bool.not_true, Bool.false_eq_true, or_false, not_le, hport]

/-- TRUE withdraws the commit that waits, with EV 0x1802 (Table 7.6). -/
theorem finish_commitCancel (hcheck : writeCheck s.dev w (Reg.view_COMMIT_CANCEL v) (.num 1) = none)
    (hwaits : (s.dev.view v).commit.isSome = true) :
    finishWrite s (writeCommitCancel w v true s) = accepted w (Reg.view_COMMIT_CANCEL v) (.num 1)
      (fun _ => onDev (fun d => viewSweep v (post (viewEv v 2) 0xFFFF 0 0 (setView v (fun y => { y with commit := none }) d))))
      s := by
  have hnoted : (true && ((noted w (Reg.view_COMMIT_CANCEL v) (.num 1) s).view v).commit.isSome) = true := by
    rw [noted_view, hwaits, Bool.and_self]
  exact (finishWrite_ok w _ _ noRule _ s hcheck rfl).trans (accepted_congr (if_pos hnoted))

end

theorem exec_viewBankLoaded_of_unloaded {v : Fin 4} {c : Commit} {s : State} (hcommit : (s.dev.view v).commit = some c)
    (hloaded : c.loaded = false) :
    exec (.viewBankLoaded v) s = .next (onDev (fun d => setView v (fun y =>
      { y with banks := y.banks.set c.bank (d.staging v), commit := some { c with loaded := true } }) d) s) := by
  change execViewBankLoaded v s = _
  simp only [execViewBankLoaded, onDev, hcommit, hloaded, Bool.false_eq_true, if_false]

/-- Settles O30: with staging open UNPACK_SHIFT meets no rule (`stagedRule_unpackShift`), a commit meets none where no commit
waits and the spare bank is free (`commitRule_of_free`), and the write that cancels finds the commit still waiting
(`noted_view`). -/
theorem viewCommitsWait : Obligations.ViewCommitsWait := by
  refine ⟨?staged, ?frame, ?record, ?set, ?cancel, ?loaded⟩
  case staged =>
    intro w v value s hcheck hopen
    rw [exec_stagedWrite_unpackShift, finish_staged hcheck (stagedRule_unpackShift hopen _)
      (viewEntry_ne v (by decide) (by decide) (by decide))]
    refine completes_next ⟨?value, noted_views w _ _ s, accepted_mem w _ _ s _, fun k hk hdirty => ?others⟩
    case value => exact setN_get_same _ _ _
    case others => exact (setN_val_of_ne hk _ _).trans (noted_val w _ _ s hdirty)
  case frame =>
    intro w v f s hcheck hnone hfree
    exact congrArg Host.Outcome.next (finish_commitFrame hcheck (commitRule_of_free hnone hfree))
  case record =>
    intro w v id s hcheck hport hrec hnone hfree
    exact congrArg Host.Outcome.next (finish_commitRecord hcheck hport hrec (commitRule_of_free hnone hfree))
  case set =>
    intro v r n d hv
    obtain ⟨m, hview⟩ := commitSet_view hv r n
    rw [hview]
    exact ⟨rfl, rfl, m, rfl⟩
  case cancel =>
    intro w v s hcheck hwaits _
    have hfinish := finish_commitCancel hcheck hwaits
    exact ⟨_, congrArg Host.Outcome.next hfinish, accepted_mem w _ _ s _, rfl⟩
  case loaded => exact fun _ _ _ => exec_viewBankLoaded_of_unloaded

end Sys2Proof.Machine
end

section
/-! The statement about the streams' inputs: a forced I picture and an offered picture of an Amtan stream, and the encode input
whose delay expires with no picture to take. -/

namespace Sys2Proof.Machine

/-! ## The Amtan streams at the effect of a write -/

theorem touchStore_amt (key : Nat) (d : Dev) : (touchStore key d).amt = d.amt := by
  unfold touchStore
  split
  · rfl
  · split
    · rfl
    · rfl

theorem recordWrite_amt (w : Writer) (key : Nat) (x : Val) (d : Dev) : (recordWrite w key x d).amt = d.amt := by
  cases w with
  | firmware => exact touchStore_amt key d
  | client id tr => exact touchStore_amt key _

theorem Arbitrated.amt {s t : State} (h : Arbitrated s t) : t.dev.amt = s.dev.amt := by
  obtain ⟨q, l, n, e, hdev⟩ := h.dev
  rw [hdev]

theorem noted_amt (w : Writer) (key : Nat) (x : Val) (s : State) : (noted w key x s).amt = s.dev.amt :=
  (recordWrite_amt w key x _).trans (arbitrated_roomToRecord w s).amt

/-- An Amtan stream that is there. -/
theorem amts_setAmt {k : Nat} {d : Dev} (hk : k < d.amt.length) (f : AmtStream → AmtStream) :
    (setAmt k f d).amts k = f (d.amts k) := nth_updAt_same k f d.amt hk

/-! ## A forced I picture (R204) -/

/-- The next picture of stream `k` is to be an I picture. -/
def forceNextI (k : Nat) : Dev → Dev := setAmt k (fun a => { a with force := true })

theorem forceNextI_force {k : Nat} {d : Dev} (hk : k < d.amt.length) : ((forceNextI k d).amts k).force = true :=
  congrArg AmtStream.force (amts_setAmt hk _)

theorem finish_forceI {w : Writer} {k : Nat} {s : State} (hcheck : writeCheck s.dev w (Reg.amt_FORCE_I k) (.num 1) = none) :
    finishWrite s (writeForceI w k true s) =
      accepted w (Reg.amt_FORCE_I k) (.num 1) (fun _ => onDev (forceNextI k)) s :=
  (finishWrite_ok w _ _ noRule _ s hcheck rfl).trans (accepted_congr (if_pos rfl))

/-! ## An encode input whose delay expires (R230) -/

/-- Stream `k` waits no more for the frame of `x`. -/
def awaitEnd (k : Nat) (x : EncWait) : Dev → Dev :=
  setHev k (fun y => { y with awaits := y.awaits.filter (fun z => z.frame != x.frame) })

/-- A REPEAT input that no buffer of the view can give: EV 0x1E01, and a stall for reason 1. -/
def repeatStall (k : Nat) (x : EncWait) (d : Dev) : Dev :=
  encStall k x.frame 1 (post 0x1E01 k (lo32 x.frame) 1 (inc64 (Reg.hev_REPEATS k) d))

theorem repeats_ne_stalls (k : Nat) : Reg.hev_REPEATS k ≠ Reg.hev_STALLS k := by
  unfold Reg.hev_REPEATS Reg.hev_STALLS
  omega

theorem repeatStall_get_repeats (k : Nat) (x : EncWait) (d : Dev) :
    (repeatStall k x d).get (Reg.hev_REPEATS k) = (d.get (Reg.hev_REPEATS k) + 1) % 2 ^ 64 := by
  rw [repeatStall, encStall, post_get, inc64_get, if_neg (repeats_ne_stalls k), post_get, inc64_get, if_pos rfl]

theorem repeatStall_get_stalls (k : Nat) (x : EncWait) (d : Dev) :
    (repeatStall k x d).get (Reg.hev_STALLS k) = (d.get (Reg.hev_STALLS k) + 1) % 2 ^ 64 := by
  rw [repeatStall, encStall, post_get, inc64_get, if_pos rfl, post_get, inc64_get, if_neg (repeats_ne_stalls k).symm]

theorem repeatStall_val_of_ne (k : Nat) (x : EncWait) (d : Dev) {j : Nat} (hrepeats : j ≠ Reg.hev_REPEATS k)
    (hstalls : j ≠ Reg.hev_STALLS k) : (repeatStall k x d).val j = d.val j := by
  rw [repeatStall, encStall, post_val, inc64_val, if_neg hstalls, post_val, inc64_val, if_neg hrepeats]

/-- The view has published nothing: the input that is due stalls. -/
theorem encExpiry_of_unpublished {k : Nat} {x : EncWait} {t : State} (hrun : t.dev.encRuns k = true)
    (hlatest : (t.dev.view (t.dev.get (Reg.hev_VIEW k))).latest = none)
    (hdue : (t.dev.hev k).awaits.find? (fun x =>
      tbDue ((x.eofTb + t.dev.get (Reg.hev_INPUT_DELAY_NS k) * 65536) % 2 ^ 64) (tbNow t.dev)) = some x) :
    encExpiry k t = onDev (fun d => repeatStall k x (awaitEnd k x d)) t := by
  simp only [encExpiry, hrun, hdue, hlatest, Bool.not_true, Bool.false_eq_true, if_false]
  rfl

/-- Settles O32: FORCE_I is the write of an entry, whose record leaves the streams (`noted_amt`); an offer is taken in PLAYBACK
alone; and an expiry that finds nothing published is one REPEAT input that stalls (`encExpiry_of_unpublished`). -/
theorem streamsTakeInputs : Obligations.StreamsTakeInputs := by
  refine ⟨?force, ?offer, ?expiry⟩
  case force =>
    intro w k s hcheck hk
    have hthere : k.val < (noted w (Reg.amt_FORCE_I k) (.num 1) s).amt.length := by rwa [noted_amt]
    exact ⟨_, congrArg Host.Outcome.next (finish_forceI hcheck), forceNextI_force hthere, accepted_mem w _ _ s _,
      fun j hdirty => noted_val w _ _ s hdirty⟩
  case offer =>
    intro k pic s hdecode hplayback
    exact congrArg Host.Outcome.next (if_pos ⟨hdecode, hplayback⟩)
  case expiry =>
    intro k x t hrun hlatest hdue
    have hexpiry := encExpiry_of_unpublished hrun hlatest hdue
    exact ⟨_, congrArg Host.Outcome.next hexpiry, repeatStall_get_repeats k x (awaitEnd k x t.dev),
      repeatStall_get_stalls k x (awaitEnd k x t.dev), rfl, rfl, fun j => repeatStall_val_of_ne k x (awaitEnd k x t.dev)⟩

end Sys2Proof.Machine
end

section
/-! The statement about the HEVC engine: pictures that start and end, access units that wait, publications with nothing decoded,
and output buffers that the host releases. -/

namespace Sys2Proof.Machine

/-! ## A stream's changes -/

/-- An HEVC stream that is there. -/
theorem hev_setHev {k : Nat} {d : Dev} (hk : k < d.hevc.length) (f : Hevc → Hevc) : (setHev k f d).hev k = f (d.hev k) := by
  simp [Dev.hev, setHev, updAt, hk]

/-! ## Firmware's marks and the engine (R224) -/

@[simp] theorem markFault_engine (k arg0 rule : Nat) (d : Dev) : (markFault k arg0 rule d).engine = d.engine := by
  unfold markFault
  split
  · rfl
  · rfl

/-- A MARK command of firmware's, applied or refused, changes the units alone, and of these not the engine. -/
theorem fwMark_units (k buf clear set tag : Nat) (s : State) :
    ∃ f : Dev → Dev, fwMark k buf clear set tag s = onDev f s ∧ ∀ d, (f d).engine = d.engine := by
  unfold fwMark poolCmd
  split
  case h_1 rule _ => exact ⟨_, rfl, markFault_engine k (buf * 256 + 1) rule⟩
  case h_2 => exact ⟨_, rfl, fun _ => rfl⟩

/-! ## A picture that starts (R228, R233) -/

section
variable {t : PicTask} {rest : List PicTask} {s : State}

theorem pictureStartCmd_of_decode {x : AuPicture} (hidle : s.dev.engine = none) (hqueue : s.dev.hevcQ = t :: rest)
    (hau : t.au = some x) : pictureStartCmd s = decStart t x rest s := by
  simp only [pictureStartCmd, hidle, hqueue, hau, Option.isSome_none, Bool.false_eq_true, if_false]

theorem pictureStartCmd_of_encode (hidle : s.dev.engine = none) (hqueue : s.dev.hevcQ = t :: rest) (hau : t.au = none) :
    pictureStartCmd s = onDev (encIssue t.s) (encStart t rest s) := by
  simp only [pictureStartCmd, hidle, hqueue, hau, Option.isSome_none, Bool.false_eq_true, if_false]

end

/-! ## A picture that ends (R233, R241, R242) -/

/-- A write of the pound is no event and does not reach the host's memory. -/
@[simp] theorem poundWrite_arb (a : Nat) (bs : List Byte) (s : State) : (poundWrite a bs s).arb = s.arb := rfl

@[simp] theorem poundWrite_hostMem (a : Nat) (bs : List Byte) (s : State) : (poundWrite a bs s).hostMem = s.hostMem := rfl

/-- A coded picture ends with the mark of its target, in a state where the engine is free. -/
theorem encDone_marks (k : Nat) (run : PicRun) (r : EncResult) (s : State) :
    ∃ pool clear set tag t, encDone k run r s = fwMark pool run.target clear set tag t ∧ t.dev.engine = none ∧
      t.arb = s.arb ∧ t.hostMem = s.hostMem := by
  unfold encDone
  extract_lets d pool a cap au spilt total mark status p s1 s2 s3 d1 d2 d3 host rtp mask d4 d5 s4
  have hfree : s4.dev.engine = none := by
    change d5.engine = none
    unfold d5
    split
    · rfl
    · rfl
  have harb : s3.arb = s.arb := by simp only [s3, s2, s1, poundWrite_arb, onDev_arb]
  have hhost : s3.hostMem = s.hostMem := by simp only [s3, s2, s1, poundWrite_hostMem, onDev_hostMem]
  clear_value d5 s3
  split
  · exact ⟨_, _, _, _, s4, rfl, hfree, harb, hhost⟩
  · exact ⟨_, _, _, _, s4, rfl, hfree, harb, hhost⟩

theorem encDone_frees (k : Nat) (run : PicRun) (r : EncResult) (s : State) :
    (encDone k run r s).dev.engine = none ∧ (encDone k run r s).arb = s.arb ∧
      (encDone k run r s).hostMem = s.hostMem := by
  obtain ⟨pool, clear, set, tag, t, hdone, hfree, harb, hhost⟩ := encDone_marks k run r s
  obtain ⟨f, hmark, hengine⟩ := fwMark_units pool run.target clear set tag t
  rw [hdone, hmark]
  exact ⟨(hengine t.dev).trans hfree, harb, hhost⟩

section
variable {k : Fin 8} {run : PicRun} {s : State}

theorem exec_pictureCoded_of_running (r : EncResult) (hrun : s.dev.engine = some run) (hstream : run.task.s = k.val)
    (hau : run.task.au = none) : exec (.pictureCoded k r) s = .next (encDone k run r s) := by
  change execPictureCoded k r s = _
  simp only [execPictureCoded, hrun, hstream, hau, Option.isNone_none, and_self, if_true]

variable {x : AuPicture}

theorem exec_pictureDecoded_of_running (r : DecResult) (hrun : s.dev.engine = some run) (hstream : run.task.s = k.val)
    (hau : run.task.au = some x) : exec (.pictureDecoded k r) s = .next (decDone k run r s) := by
  change execPictureDecoded k r s = _
  simp only [execPictureDecoded, hrun, hstream, hau, Option.isSome_some, and_self, if_true]

/-- The picture whose budget has passed is cut off: EV 0x1E06 counts the CTUs that were decoded. -/
theorem exec_decWatchdog_of_late (r : DecResult) (hrun : s.dev.engine = some run) (hstream : run.task.s = k.val)
    (hau : run.task.au = some x) (hlate : s.dev.watchdog k x ≤ s.dev.time.raw - run.began) :
    exec (.decWatchdog k r) s = .next (decDone k run r (onDev
      (post 0x1E06 k run.task.poc (r.ctus.filter (fun c => c.samples.isSome)).length) s)) := by
  have hover : run.task.au.any (fun x => decide (s.dev.watchdog k x ≤ s.dev.time.raw - run.began)) = true := by
    rw [hau, Option.any_some]
    exact decide_eq_true hlate
  change execDecWatchdog k r s = _
  simp only [execDecWatchdog, hrun]
  exact congrArg Host.Outcome.next (if_pos ⟨hstream, hover⟩)

end

/-! ## Access units that wait (R241) -/

/-- No access unit is taken while a picture of the stream is under way. -/
theorem decAll_of_busy {k : Nat} {s : State} (hbusy : (s.dev.hev k).busy = true) : decAll k s = s := by
  simp only [decAll, decUnits, hbusy, if_true]
  split
  · rfl
  · rfl

/-! ## Publications (R245) -/

/-- With nothing decoded the stream's views repeat, and the encode streams behind them await the frame that is missing. -/
theorem hevcPublish_of_undecoded {k : Nat} {s : State} (hnone : (s.dev.hev k).outQ = []) :
    hevcPublish k s = onDev (fun d => (d.viewsOf (0x20 + k)).foldl (fun e v => viewRepeat v e)
      (encAwait (0x20 + k) { frame := (d.hev k).published + 1, sofTb := tbNow d, eofTb := tbNow d }
        (setHev k (fun y => { y with published := (d.hev k).published + 1 }) d))) s := by
  simp only [hevcPublish, hnone]
  rfl

/-- Settles O33: the idle engine starts the picture at the front by its kind; a coded picture ends with a mark of firmware's,
which leaves the engine free (`encDone_frees`); a busy stream takes no access unit (`decAll_of_busy`); and a release is the
write of an entry that no rule meets. That an output time without a picture is frame `published + 1` of its source is deduced
(log entry 186). -/
theorem hevcEngineWorks : Obligations.HevcEngineWorks := by
  refine ⟨?decode, ?encode, ?coded, ?accessUnit, ?decoded, ?publish, ?release⟩
  case decode =>
    intro t x rest s hidle hqueue hau
    exact congrArg Host.Outcome.next (pictureStartCmd_of_decode hidle hqueue hau)
  case encode =>
    intro t rest s hidle hqueue hau
    exact congrArg Host.Outcome.next (pictureStartCmd_of_encode hidle hqueue hau)
  case coded =>
    intro k r run s hrun hstream hau
    rw [exec_pictureCoded_of_running r hrun hstream hau]
    exact completes_next (encDone_frees k run r s)
  case accessUnit =>
    intro k au s hdecode hruns hbusy hk
    refine congrArg Host.Outcome.next ((if_pos ⟨hdecode, hruns⟩).trans (decAll_of_busy ?_))
    rw [onDev_dev, hev_setHev hk]
    exact hbusy
  case decoded =>
    intro k r run x s hrun hstream hau
    exact ⟨exec_pictureDecoded_of_running r hrun hstream hau, exec_decWatchdog_of_late r hrun hstream hau⟩
  case publish =>
    intro k s hdecode hruns hnone
    exact congrArg Host.Outcome.next ((if_pos ⟨hdecode, hruns⟩).trans (hevcPublish_of_undecoded hnone))
  case release =>
    intro w k i s hcheck
    exact congrArg Host.Outcome.next (finishWrite_ok w _ _ noRule _ s hcheck rfl)

end Sys2Proof.Machine
end

section
/-! The statement about the video outputs: the frame that a frame start sends, the buffer that the last active line releases,
and the finder's messages and presence. -/

namespace Sys2Proof.Machine

/-! ## The entries that a frame start may write before it counts -/

theorem outFrames_ne_outEntry (n : Nat) {c : Nat} (hc : c ≠ 0x07) : Reg.out_OUT_FRAMES n ≠ (0x2010 + n) * 256 + c := by
  unfold Reg.out_OUT_FRAMES
  omega

theorem outFrames_ne_genEntry (n : Nat) {c : Nat} (hc : c < 256) : Reg.out_OUT_FRAMES n ≠ 0x2000 * 256 + c := by
  unfold Reg.out_OUT_FRAMES
  omega

/-! ## What prepares a frame: nothing is sent, and no frame of the output is counted -/

/-- From `d` to `e` nothing has been sent, and OUT_FRAMES of output `n` reads as it did. -/
structure Unsent (n : Nat) (d e : Dev) : Prop where
  out : e.out = d.out
  frames : e.get (Reg.out_OUT_FRAMES n) = d.get (Reg.out_OUT_FRAMES n)

namespace Unsent
variable {n : Nat} {d e : Dev}

theorem refl (n : Nat) (d : Dev) : Unsent n d d := ⟨rfl, rfl⟩

theorem trans {u : Dev} (h : Unsent n d e) (h' : Unsent n e u) : Unsent n d u :=
  ⟨h'.out.trans h.out, h'.frames.trans h.frames⟩

theorem setOutp (h : Unsent n d e) (m : Nat) (f : Output → Output) : Unsent n d (setOutp m f e) := ⟨h.out, h.frames⟩

theorem setViewBuf (h : Unsent n d e) (v i : Nat) (f : ViewBuf → ViewBuf) : Unsent n d (setViewBuf v i f e) :=
  ⟨h.out, h.frames⟩

theorem post (h : Unsent n d e) (code inst a b : Nat) : Unsent n d (post code inst a b e) := ⟨h.out, h.frames⟩

theorem setN (h : Unsent n d e) {k : Nat} (hk : Reg.out_OUT_FRAMES n ≠ k) (v : Nat) : Unsent n d (setN k v e) :=
  ⟨h.out, (setN_get_of_ne hk v e).trans h.frames⟩

theorem addW (h : Unsent n d e) {k : Nat} (hk : Reg.out_OUT_FRAMES n ≠ k) (w m : Nat) : Unsent n d (addW w k m e) :=
  h.setN hk _

theorem ite {u : Dev} (c : Prop) [Decidable c] (he : Unsent n d e) (hu : Unsent n d u) :
    Unsent n d (if c then e else u) := by
  split
  · exact he
  · exact hu

theorem outStatus (h : Unsent n d e) (i : Nat) (b : Bool) : Unsent n d (outStatus n i b e) :=
  h.setN (outFrames_ne_outEntry n (by decide)) _

end Unsent

theorem outReleaseBuf_of_reading {n i : Nat} {d : Dev} (hreading : (d.output n).reading = some i) :
    outReleaseBuf n d = setOutp n (fun x => { x with reading := none })
      (setViewBuf (d.get (Reg.out_OUT_VIEW n)) i (fun b => { b with readers := b.readers - 1 }) d) := by
  simp only [outReleaseBuf, hreading]

theorem outReleaseBuf_unsent (n : Nat) (d : Dev) : Unsent n d (outReleaseBuf n d) := by
  unfold outReleaseBuf
  split
  · exact ((Unsent.refl n d).setViewBuf _ _ _).setOutp _ _
  · exact .refl n d

theorem jump_unsent (n : Nat) (err : Int) (d : Dev) : Unsent n d (jump n err d) :=
  have hset := (Unsent.refl n d).setOutp n _
  .ite _ hset (hset.post _ _ _ _)

theorem outTiming_unsent (n : Nat) (d : Dev) : Unsent n d (outTiming n d).2 := by
  unfold outTiming
  split
  case h_1 => exact (Unsent.refl n d).setOutp _ _
  case h_2 =>
    extract_lets
    split
    · exact jump_unsent n _ d
    · exact (Unsent.refl n d).setOutp _ _

theorem genlock_unsent (n : Nat) (d : Dev) : Unsent n d (genlock n d) :=
  have hmeasured := ((Unsent.refl n d).setN (outFrames_ne_genEntry n (by decide)) _).outStatus 1 _
  .ite _ hmeasured ((hmeasured.setN (outFrames_ne_genEntry n (by decide)) _).post _ _ _ _)

/-! ## The sending of a frame -/

/-- From `d` to `e` something has been sent, and OUT_FRAMES of output `n` reads as it did. -/
structure Sent (n : Nat) (d e : Dev) : Prop where
  out : d.out.length < e.out.length
  frames : e.get (Reg.out_OUT_FRAMES n) = d.get (Reg.out_OUT_FRAMES n)

theorem emit_out_length (kind : OutKind) (inst : Nat) (info : List Nat) (data : List Byte) (d : Dev) :
    (emit kind inst info data d).out.length = d.out.length + 1 := List.length_append

/-- What puts out one record for each element of a list puts out as many as the list is long. -/
theorem foldl_out_length {α : Type} {f : Dev → α → Dev} (hf : ∀ d x, (f d x).out.length = d.out.length + 1) (l : List α)
    (d : Dev) : (l.foldl f d).out.length = d.out.length + l.length := by
  induction l generalizing d with
  | nil => rfl
  | cons x l ih =>
    rw [List.foldl_cons, ih, hf, List.length_cons]
    omega

theorem sendFinder_sent (n : Nat) (info : List Nat) (l : List Octet) (d : Dev) : Sent n d (sendFinder n info l d) :=
  ⟨Nat.lt_of_lt_of_eq (Nat.lt_succ_self _) (emit_out_length ..).symm, rfl⟩

/-- Each of an SDI frame's links, of which there is one at least, puts out its words. -/
theorem sendSdi_sent (n : Nat) (info : List Nat) (tc : Nat) (pair : Nat → Nat → List Nat) (d : Dev) :
    Sent n d (sendSdi n info tc pair d) := by
  unfold sendSdi
  extract_lets mode v w links
  have hlinks : 0 < links := by unfold links; split <;> decide
  refine ⟨?out, foldl_proj (fun e => e.get (Reg.out_OUT_FRAMES n)) ?kept _ d⟩
  case kept => exact fun _ _ => rfl
  case out =>
    rw [foldl_out_length ?one, List.length_range]
    case one => exact fun _ _ => emit_out_length ..
    exact Nat.lt_add_of_pos_right hlinks

/-! ## A frame start (R254, R255) -/

/-- From `s` to `t` output `n` has sent a frame, which OUT_FRAMES counts; the event log and the pound are as they were. -/
structure FrameSent (n : Nat) (s t : State) : Prop where
  frames : t.dev.get (Reg.out_OUT_FRAMES n) = (s.dev.get (Reg.out_OUT_FRAMES n) + 1) % 2 ^ 64
  out : s.dev.out.length < t.dev.out.length
  arb : t.arb = s.arb
  mem : t.mem = s.mem

/-- A frame that is ready is counted and sent, in the form of the output's mode. -/
theorem frameSent_of_ready {n : Nat} {s : State} {d : Dev} (hready : Unsent n s.dev d) (finder : Bool) (info : List Nat)
    (l : List Octet) (sdiInfo : List Nat) (tc : Nat) (pair : Nat → Nat → List Nat) :
    FrameSent n s (onDev (if finder then sendFinder n info l else sendSdi n sdiInfo tc pair)
      { s with dev := inc64 (Reg.out_OUT_FRAMES n) d }) := by
  have hsent : Sent n (inc64 (Reg.out_OUT_FRAMES n) d)
      ((if finder then sendFinder n info l else sendSdi n sdiInfo tc pair) (inc64 (Reg.out_OUT_FRAMES n) d)) := by
    cases finder with
    | true => exact sendFinder_sent n info l _
    | false => exact sendSdi_sent n sdiInfo tc pair _
  refine ⟨?frames, hready.out ▸ hsent.out, rfl, rfl⟩
  exact hsent.frames.trans (by rw [inc64_get, if_pos rfl, hready.frames])

theorem outputFrame_sent (n : Nat) (s : State) : FrameSent n s (outputFrame n s) := by
  unfold outputFrame
  extract_lets d0 t k d1 v vw o finder fmt g packing rate tcRate dark
  have htimed : Unsent n s.dev d1 :=
    (((outReleaseBuf_unsent n s.dev).trans (outTiming_unsent n d0)).setOutp _ _).trans (genlock_unsent n _)
  clear_value d1
  split
  case h_1 =>
    have hdark : Unsent n s.dev dark := .ite _ htimed (htimed.post _ _ _ _)
    exact frameSent_of_ready ((hdark.setOutp n _).outStatus 2 true) ..
  case h_2 =>
    extract_lets b rep skips _ latched ready
    have hlatched : Unsent n s.dev latched := (htimed.setViewBuf _ _ _).setOutp n _
    have hready : Unsent n s.dev ready :=
      (Unsent.ite _ (hlatched.addW (outFrames_ne_outEntry n (by decide)) _ _) hlatched).addW
        (outFrames_ne_outEntry n (by decide)) _ _
    exact frameSent_of_ready (hready.outStatus 2 false) ..

theorem exec_outputFrameStart_of_runs {n : Fin 8} {s : State} (hruns : s.dev.runs (.out n) = true)
    (hon : s.dev.get (Reg.out_OUT_MODE n) ≠ 0) (hown : s.dev.get (Reg.out_OUT_MODE n) ≠ 5) :
    exec (.outputFrameStart n) s = .next (outputFrame n s) := congrArg Host.Outcome.next (if_pos ⟨hruns, hon, hown⟩)

/-! ## The finder's back channel (R261) -/

section
variable {n : Fin 8} {s : State} (hmode : s.dev.get (Reg.out_OUT_MODE n) = 6)
  (hpin : s.dev.get (Reg.out_FL_BC_PINS n) % 256 ≠ 0xFF)
include hmode hpin

/-- An output in finder mode whose back channel has a pin listens. -/
theorem finder_listens : ¬(s.dev.get (Reg.out_OUT_MODE n) ≠ 6 ∨ s.dev.get (Reg.out_FL_BC_PINS n) % 256 = 0xFF) :=
  not_or_intro (not_not_intro hmode) hpin

theorem exec_finderMsg_framingError (b : List Byte) : exec (.finderMsg n b true) s =
    .next (onDev (fun d => inc32 (Reg.out_FL_RX_ERRORS n) (setOutp n (fun x => { x with rx := [] }) d)) s) :=
  congrArg Host.Outcome.next ((if_neg (finder_listens hmode hpin)).trans (if_pos rfl))

theorem exec_finderMsg_received (b : List Byte) : exec (.finderMsg n b false) s =
    .next (onDev (fun d => finderBytes n (((s.dev.output n).rx ++ b).length + 1) ((s.dev.output n).rx ++ b)
      (setOutp n (fun x => { x with rx := [] }) d)) s) :=
  congrArg Host.Outcome.next ((if_neg (finder_listens hmode hpin)).trans (if_neg Bool.false_ne_true))

end

/-- Settles O34: a frame start is what prepares the frame, which neither sends nor counts (`Unsent`), then the count and the
sending (`outputFrame_sent`); the last
active line ends the sending and releases the buffer that is read (`outReleaseBuf_of_reading`); and an output that listens takes
what comes on the back channel. -/
theorem outputsSendFrames : Obligations.OutputsSendFrames := by
  refine ⟨?frame, ?line, ?message, ?presence⟩
  case frame =>
    intro n s hruns hon hown
    obtain ⟨hframes, hout, harb, hmem⟩ := outputFrame_sent n s
    rw [exec_outputFrameStart_of_runs hruns hon hown]
    exact completes_next ⟨hframes, hout, harb, hmem⟩
  case line =>
    intro n i s hreading
    exact congrArg (fun d => Host.Outcome.next { s with dev := setOutp n (fun x => { x with sending := false }) d })
      (outReleaseBuf_of_reading hreading)
  case message =>
    intro n b s hmode hpin
    exact ⟨exec_finderMsg_framingError hmode hpin b, exec_finderMsg_received hmode hpin b⟩
  case presence =>
    intro n present s hchange hpin
    exact congrArg Host.Outcome.next (if_neg (not_or_intro hchange hpin))

end Sys2Proof.Machine
end

section
/-! The statements about the time base: what a cycle does to its entries, the staged set, and the step on an empty queue. -/

namespace Sys2Proof.Machine

/-! ## A cycle of CLK_FAB (R390, R393) -/

/-- What device time is formed from. -/
theorem tbNow_congr {d e : Dev} (hraw : e.time.raw = d.time.raw) (hanchor : e.get Reg.tb_TB_ANCHOR = d.get Reg.tb_TB_ANCHOR)
    (hoffset : e.get Reg.tb_TB_OFFSET = d.get Reg.tb_TB_OFFSET) (hrate : e.get Reg.tb_TB_RATE = d.get Reg.tb_TB_RATE) :
    tbNow e = tbNow d := by
  simp only [tbNow, tbAt, hraw, hanchor, hoffset, hrate]

/-- TB_EPOCH is no part of device time. -/
theorem tbNow_setN_epoch (n : Nat) (d : Dev) : tbNow (setN Reg.tb_TB_EPOCH n d) = tbNow d :=
  tbNow_congr rfl (setN_get_of_ne (by decide) n d) (setN_get_of_ne (by decide) n d) (setN_get_of_ne (by decide) n d)

/-- The units in the next cycle, before a wrap of device time is counted. -/
def ticked (d : Dev) : Dev :=
  { d with time := { d.time with
      raw := (d.time.raw + 1) % 2 ^ 64, prevTb := tbNow d, prevEpoch := d.get Reg.tb_TB_EPOCH } }

/-- TB_EPOCH in the next cycle. -/
def nextEpoch (d : Dev) : Nat := epochAfter (d.get Reg.tb_TB_EPOCH) (tbNow d) (tbNow (ticked d))

theorem cycle_eq (d : Dev) :
    cycle d = if nextEpoch d = d.get Reg.tb_TB_EPOCH then ticked d else setN Reg.tb_TB_EPOCH (nextEpoch d) (ticked d) := rfl

/-- A cycle changes the count and the store of entries, and nothing else. -/
theorem cycle_fields (d : Dev) :
    ∃ r, cycle d = { ticked d with regs := r } ∧ ∀ k, k ≠ Reg.tb_TB_EPOCH → (cycle d).val k = d.val k := by
  rw [cycle_eq]
  split
  · exact ⟨_, rfl, fun _ _ => rfl⟩
  · exact ⟨_, rfl, fun k hk => setN_val_of_ne hk _ (ticked d)⟩

theorem cycle_raw (d : Dev) : (cycle d).time.raw = (d.time.raw + 1) % 2 ^ 64 := by
  obtain ⟨r, h, -⟩ := cycle_fields d
  rw [h]
  rfl

theorem cycle_sources (d : Dev) : (cycle d).sources = d.sources := by
  obtain ⟨r, h, -⟩ := cycle_fields d
  rw [h]
  rfl

theorem cycle_out (d : Dev) : (cycle d).out = d.out := by
  obtain ⟨r, h, -⟩ := cycle_fields d
  rw [h]
  rfl

theorem cycle_val_of_ne {k : Nat} (hk : k ≠ Reg.tb_TB_EPOCH) (d : Dev) : (cycle d).val k = d.val k := by
  obtain ⟨-, -, h⟩ := cycle_fields d
  exact h k hk

theorem cycle_epoch (d : Dev) : (cycle d).get Reg.tb_TB_EPOCH = nextEpoch d := by
  rw [cycle_eq]
  split
  · next h => exact h.symm
  · exact setN_get_same ..

theorem tbNow_cycle (d : Dev) : tbNow (cycle d) = tbNow (ticked d) := by
  rw [cycle_eq]
  split
  · rfl
  · exact tbNow_setN_epoch ..

theorem cycle_epochAfter (d : Dev) :
    (cycle d).get Reg.tb_TB_EPOCH = epochAfter (d.get Reg.tb_TB_EPOCH) (tbNow d) (tbNow (cycle d)) := by
  rw [cycle_epoch, tbNow_cycle]
  rfl

theorem tbNow_lt (d : Dev) : tbNow d < 2 ^ 64 := Nat.mod_lt _ (by decide)

/-- The signed difference of two counts of 64 bits is their difference, once a wrap forward or back is taken out. -/
theorem tbDiff_cases {new old : Nat} (hnew : new < 2 ^ 64) (hold : old < 2 ^ 64) :
    tbDiff new old = (new : Int) - old ∧ (old < new → 0 < tbDiff new old) ∧ (new < old → tbDiff new old < 0) ∨
      new < old ∧ tbDiff new old = (new : Int) - old + 2 ^ 64 ∧ 0 < tbDiff new old ∨
      old < new ∧ tbDiff new old = (new : Int) - old - 2 ^ 64 ∧ tbDiff new old < 0 := by
  simp only [tbDiff, toInt]
  split <;> omega

theorem epochAfter_rises {epoch old new : Nat} (hlt : new < old) (hpos : 0 < tbDiff new old) :
    epochAfter epoch old new = (epoch + 1) % 2 ^ 32 := if_pos ⟨hlt, hpos⟩

theorem epochAfter_falls {epoch old new : Nat} (hlt : old < new) (hneg : tbDiff new old < 0) :
    epochAfter epoch old new = (epoch + 2 ^ 32 - 1) % 2 ^ 32 :=
  (if_neg fun h => absurd h.1 (by omega)).trans (if_pos ⟨hlt, hneg⟩)

theorem epochAfter_stays {epoch old new : Nat} (hup : new < old → tbDiff new old < 0) (hdown : old < new → 0 < tbDiff new old) :
    epochAfter epoch old new = epoch := by
  unfold epochAfter
  rw [if_neg (by omega), if_neg (by omega)]

/-- The epoch and device time form a 96-bit time that moves by the signed difference of the two device times. -/
theorem epochAfter_moves (epoch : Nat) {old new : Nat} (hnew : new < 2 ^ 64) (hold : old < 2 ^ 64) :
    (((epochAfter epoch old new * 2 ^ 64 + new : Nat) : Int) - ((epoch * 2 ^ 64 + old : Nat) : Int) -
      tbDiff new old) % 2 ^ 96 = 0 := by
  rcases tbDiff_cases hnew hold with ⟨hdiff, hdown, hup⟩ | ⟨hlt, hdiff, hpos⟩ | ⟨hlt, hdiff, hneg⟩
  · rw [epochAfter_stays hup hdown, hdiff]
    omega
  · rw [epochAfter_rises hlt hpos, hdiff]
    omega
  · rw [epochAfter_falls hlt hneg, hdiff]
    omega

/-- Settles O47: a cycle sets TB_EPOCH by `epochAfter`, which moves the 96-bit time by the signed difference
(`epochAfter_moves`). -/
theorem epochCountsWraps : Obligations.EpochCountsWraps := by
  refine ⟨fun d => ⟨cycle_raw d, fun hlt hpos => ?rises, fun hlt hneg => ?falls, ?moves, fun k hk => cycle_val_of_ne hk d⟩,
    fun s h => congrArg Host.Outcome.next (if_neg h)⟩
  case rises => rw [cycle_epochAfter, epochAfter_rises hlt hpos]
  case falls => rw [cycle_epochAfter, epochAfter_falls hlt hneg]
  case moves =>
    rw [cycle_epochAfter]
    exact epochAfter_moves _ (tbNow_lt _) (tbNow_lt d)

/-! ## A step on an empty queue -/

theorem lineAsk_eq (k l : Nat) (d : Dev) : ∃ c, lineAsk k l d = { d with chArb := c } := by
  unfold lineAsk
  split
  · exact ⟨_, rfl⟩
  · exact ⟨_, rfl⟩

/-- The fabric arbiter's cycle changes the two arbiters' own state alone. -/
theorem fabricCycle_eq (d : Dev) : ∃ f c, fabricCycle d = { d with fab := f, chArb := c } := by
  unfold fabricCycle
  extract_lets f
  split
  · exact ⟨_, _, rfl⟩
  · split
    · exact ⟨_, _, rfl⟩
    · next b _ =>
      obtain ⟨x, hx⟩ := lineAsk_eq rqFabric (nth f.line b) { d with fab := f.grant _ _ b }
      exact ⟨_, x, hx⟩

/-- A cycle of the arbiters leaves all but their own state (R141, R142). -/
theorem arbiterCycle_eq (d : Dev) : ∃ f c, channelCycle (fabricCycle d) = { d with fab := f, chArb := c } := by
  obtain ⟨f, c, h⟩ := fabricCycle_eq d
  rw [h]
  exact ⟨f, _, rfl⟩

theorem arbiterCycle_time (d : Dev) : (channelCycle (fabricCycle d)).time = d.time := by
  obtain ⟨f, c, h⟩ := arbiterCycle_eq d
  rw [h]

theorem arbiterCycle_val (d : Dev) (k : Nat) : (channelCycle (fabricCycle d)).val k = d.val k := by
  obtain ⟨f, c, h⟩ := arbiterCycle_eq d
  rw [h]
  rfl

theorem arbiterCycle_sources (d : Dev) : (channelCycle (fabricCycle d)).sources = d.sources := by
  obtain ⟨f, c, h⟩ := arbiterCycle_eq d
  rw [h]

theorem arbiterCycle_out (d : Dev) : (channelCycle (fabricCycle d)).out = d.out := by
  obtain ⟨f, c, h⟩ := arbiterCycle_eq d
  rw [h]

theorem idle_dev (s : State) : (idle s).dev = channelCycle (fabricCycle (cycle s.dev)) := rfl

/-- Settles O2: a step on an empty queue is a cycle of device time, then one of the arbiters, which leaves all but their own
state (`arbiterCycle_eq`). That such a step is a cycle is this model's choice (assumption 3). -/
theorem idleStepCountsOneCycle : Obligations.IdleStepCountsOneCycle := by
  intro s hp
  rw [step_of_idle hp]
  refine completes_next ⟨?raw, onDev_arb .., onDev_mem .., onDev_poison .., onDev_hostMem .., (onDev_pending ..).trans hp,
    ?sources, ?out, fun k hk => ?val⟩
  case raw => rw [idle_dev, arbiterCycle_time, cycle_raw]
  case sources => rw [idle_dev, arbiterCycle_sources, cycle_sources]
  case out => rw [idle_dev, arbiterCycle_out, cycle_out]
  case val => rw [idle_dev, arbiterCycle_val, cycle_val_of_ne hk]

end Sys2Proof.Machine
end

section
/-! What the statements of the later chapters share: what a calm state is read from, and which units the record of a write
leaves. -/

namespace Sys2Proof.Machine

/-- All of the units that a calm state is read from (`Dev.calm`). -/
def Dev.followUps (d : Dev) : List Ending × List (Nat × Nat) × List Nat × Recorder × List MagPort × Take × Option Transition :=
  (d.ends, d.recEnds, d.forced, d.rcq, d.mags, d.take, d.trans)

theorem calm_congr {d e : Dev} (h : e.followUps = d.followUps) : e.calm = d.calm := by
  simp only [Dev.followUps, Prod.mk.injEq] at h
  obtain ⟨hends, hrec, hforced, hrcq, hmags, htake, htrans⟩ := h
  simp only [Dev.calm, hends, hrec, hforced, hrcq, hmags, htake, htrans]

theorem touchStore_eq (k : Nat) (d : Dev) :
    ∃ r c v, touchStore k d = { d with regs := r, calibDirty := c, srv := v } := by
  unfold touchStore
  split
  · exact ⟨_, _, _, rfl⟩
  · split
    · exact ⟨_, _, _, rfl⟩
    · exact ⟨_, _, _, rfl⟩

theorem recordWrite_eq (w : Writer) (k : Nat) (v : Val) (d : Dev) :
    ∃ r c x q n y, recordWrite w k v d =
      { d with regs := r, changes := c, calibDirty := x, sources := q, posts := n, srv := y } := by
  cases w with
  | firmware =>
    obtain ⟨r, c, y, h⟩ := touchStore_eq k d
    exact ⟨r, _, c, _, _, y, h⟩
  | client id tr =>
    obtain ⟨r, c, y, h⟩ := touchStore_eq k { post 0x0101 (if tr = .twm then 0xFFFF else id) (trCode tr * 2 ^ 24 + k)
      (dictArg1 k v) d with changes := bumpChange k d.changes }
    exact ⟨r, _, c, _, _, y, h⟩

/-- Of the units the record of a write changes the store, the events and the two services that hear of it, and no other. -/
theorem noted_eq (w : Writer) (k : Nat) (v : Val) (s : State) :
    ∃ r c x q n y e, noted w k v s =
      { s.dev with regs := r, changes := c, calibDirty := x, sources := q, posts := n, srv := y, ep := e } := by
  obtain ⟨-, -, -, q, l, n, e, hroom⟩ := arbitrated_roomToRecord w s
  obtain ⟨r, c, x, q', n', y, hrec⟩ := recordWrite_eq w k v (roomToRecord w s).dev
  rw [noted, hrec, hroom]
  exact ⟨r, c, x, q', n', y, _, rfl⟩

section
variable (w : Writer) (k : Nat) (v : Val) (s : State)

theorem noted_time : (noted w k v s).time = s.dev.time := by
  obtain ⟨r, c, x, q, n, y, e, h⟩ := noted_eq w k v s
  rw [h]

theorem noted_followUps : (noted w k v s).followUps = s.dev.followUps := by
  obtain ⟨r, c, x, q, n, y, e, h⟩ := noted_eq w k v s
  rw [h]
  rfl

theorem accepted_dev (f : Dev → Dev) :
    (accepted w k v (fun _ => onDev f) s).dev = { f (noted w k v s) with answer := 0 } := rfl

theorem accepted_poison (f : Nat → Dev → Dev) : (accepted w k v (fun n => onDev (f n)) s).poison = s.poison :=
  (arbitrated_roomToRecord w s).poison

end

/-- Two entries of one record with different codes. -/
theorem entry_ne (b : Nat) {i j : Nat} (hij : i ≠ j) : b * 256 + i ≠ b * 256 + j := by omega

/-- The entries of the records behind the store's are none of its own. -/
theorem entry_ne_dirty {b : Nat} (c : Nat) (hb : 0x0320 < b) : b * 256 + c ≠ Reg.store_STORE_DIRTY := by
  change _ ≠ 0x0320 * 256 + 0x06
  omega

theorem val_of_regs {d e : Dev} (h : e.regs = d.regs) (k : Nat) : e.val k = d.val k := by
  simp only [Dev.val, h]

theorem get_congr {d e : Dev} {k : Nat} (h : e.val k = d.val k) : e.get k = d.get k := by
  simp only [Dev.get, h]

theorem get_of_regs {d e : Dev} (h : e.regs = d.regs) (k : Nat) : e.get k = d.get k := get_congr (val_of_regs h k)

theorem bytes_congr {d e : Dev} {k : Nat} (h : e.val k = d.val k) : e.bytes k = d.bytes k := by
  simp only [Dev.bytes, h]

end Sys2Proof.Machine
end

section
/-! The statements about staged updates of the time base and about the pulse generators. -/

namespace Sys2Proof.Machine

/-! ## The staged set (R395) -/

theorem exec_stageArm (w : Writer) (v : Bool) (s : State) :
    exec (.stageArm w v) s = .next (finishWrite s (writeStageArm w v s)) := rfl

/-- A write of STAGE_ARM with value `v` arms the set, or sets STAGE_ARM and STAGE_STATUS back. -/
def setStage (v : Bool) (d : Dev) : Dev :=
  setN Reg.stg_STAGE_STATUS (b2n v) (setN Reg.stg_STAGE_ARM (b2n v)
    { d with time := { d.time with armRaw := if v then some d.time.raw else none } })

theorem setStage_val (v : Bool) (k : Nat) (d : Dev) : (setStage v d).val k =
    if k = Reg.stg_STAGE_STATUS ∨ k = Reg.stg_STAGE_ARM then .num (b2n v) else d.val k := by
  rw [setStage, setN_val, setN_val]
  split
  · next h => rw [if_pos (.inl h)]
  · next h =>
    split
    · next h' => rw [if_pos (.inr h')]
    · next h' => rw [if_neg (not_or_intro h h')]; rfl

/-- What the writes of STAGE_ARM that take effect leave: a set that is not armed is armed, one that is armed is withdrawn. -/
theorem finish_stageArm {w : Writer} {v : Bool} {s : State} (hc : writeCheck s.dev w Reg.stg_STAGE_ARM (.num (b2n v)) = none)
    (hr : (stageRule w s.dev).isNone = true) (harmed : s.dev.stageArmed = !v) :
    finishWrite s (writeStageArm w v s) =
      accepted w Reg.stg_STAGE_ARM (.num (b2n v)) (fun _ => onDev (setStage v)) s := by
  have hrule : stageRule w s.dev = none := Option.isNone_iff_eq_none.mp hr
  have hnoted : (noted w Reg.stg_STAGE_ARM (.num (b2n v)) s).stageArmed = !v := by
    rw [← harmed, Dev.stageArmed, Dev.flag, noted_get _ _ _ _ (by decide)]
    rfl
  cases v with
  | true =>
    refine (finishWrite_ok w _ _ _ _ s hc ?_).trans rfl
    simp [hrule, harmed]
  | false =>
    refine (finishWrite_ok w _ _ _ _ s hc ?_).trans (accepted_congr ?_)
    · simp [hrule]
    · exact if_pos hnoted

theorem exec_stageArm_of_effective {w : Writer} {v : Bool} {s : State}
    (hc : writeCheck s.dev w Reg.stg_STAGE_ARM (.num (b2n v)) = none) (hr : (stageRule w s.dev).isNone = true)
    (harmed : s.dev.stageArmed = !v) :
    completes (exec (.stageArm w v) s) (fun t => t.dev.get Reg.stg_STAGE_ARM = b2n v ∧
      t.dev.get Reg.stg_STAGE_STATUS = b2n v ∧ t.dev.time.armRaw = (if v then some s.dev.time.raw else none) ∧ t.mem = s.mem ∧
      ∀ k, k ≠ Reg.stg_STAGE_ARM → k ≠ Reg.stg_STAGE_STATUS → k ≠ Reg.store_STORE_DIRTY → t.dev.val k = s.dev.val k) := by
  have hval (k : Nat) := (accepted_val w Reg.stg_STAGE_ARM (.num (b2n v)) s (setStage v) k).trans (setStage_val v k _)
  rw [exec_stageArm, finish_stageArm hc hr harmed]
  refine completes_next ⟨?arm, ?status, ?raw, accepted_mem .., fun k harm hstatus hdirty => ?frame⟩
  case arm => exact get_of_val ((hval _).trans (if_pos (.inr rfl)))
  case status => exact get_of_val ((hval _).trans (if_pos (.inl rfl)))
  case raw => rw [accepted_dev, ← noted_time w Reg.stg_STAGE_ARM (.num (b2n v)) s]; rfl
  case frame => rw [hval, if_neg (not_or_intro hstatus harm), noted_val _ _ _ _ hdirty]

/-- A set that is armed is not armed again. That TRUE is no exception to BUSY is this model's choice (assumption 360). -/
theorem exec_stageArm_of_armed {w : Writer} {s : State} (hc : writeCheck s.dev w Reg.stg_STAGE_ARM (.num 1) = none)
    (hr : (stageRule w s.dev).isNone = true) (harmed : s.dev.stageArmed = true) :
    exec (.stageArm w true) s = .next (onDev (fun d => { d with answer := stBUSY }) s) := by
  have hrule : stageRule w s.dev = none := Option.isNone_iff_eq_none.mp hr
  refine congrArg Host.Outcome.next (finishWrite_rule w _ stBUSY _ _ id _ s hc ?_)
  simp [hrule, harmed, refuse]

theorem stageRule_refuses {w : Writer} {d : Dev} (h : (stageRule w d).isNone = false) : stageRule w d = refuse stREFUSED := by
  cases w with
  | firmware => cases h
  | client id tr =>
    unfold stageRule at h ⊢
    dsimp only at h ⊢
    split at h
    · next hptp => exact if_pos hptp
    · cases h

/-- A client's write is refused while PTP_ENABLE is TRUE (R412). -/
theorem exec_stageArm_of_refused {w : Writer} {v : Bool} {s : State}
    (hc : writeCheck s.dev w Reg.stg_STAGE_ARM (.num (b2n v)) = none) (hr : (stageRule w s.dev).isNone = false) :
    exec (.stageArm w v) s = .next (onDev (fun d => { d with answer := stREFUSED }) s) := by
  refine congrArg Host.Outcome.next (finishWrite_rule w _ stREFUSED _ _ id _ s hc ?_)
  simp [stageRule_refuses hr, refuse]

/-! ## Staged time applied -/

/-- A step of time may have ALIGN recomputed (R409), which leaves the entries and the rest of the units. -/
theorem realign_eq (d : Dev) : ∃ a o, realign d = { d with align := a, outs := o } := ⟨_, _, rfl⟩

/-- The time base with no set armed. -/
def disarmed (d : Dev) : Dev := { d with time := { d.time with armRaw := none } }

@[simp] theorem disarmed_get (k : Nat) (d : Dev) : (disarmed d).get k = d.get k := rfl

@[simp] theorem disarmed_val (k : Nat) (d : Dev) : (disarmed d).val k = d.val k := rfl

/-- The entries of an applied set, with TB_EPOCH and STAGE_STATUS as given. -/
def stagedEntries (epoch status : Nat) (d : Dev) : Dev :=
  setN Reg.tb_TB_EPOCH epoch (setN Reg.stg_STAGE_STATUS status (setN Reg.stg_STAGE_ARM 0
    (setN Reg.tb_TB_OFFSET (d.get Reg.stg_STAGE_OFFSET) (setN Reg.tb_TB_RATE (d.get Reg.stg_STAGE_RATE)
      (setN Reg.tb_TB_ANCHOR (d.get Reg.stg_STAGE_ANCHOR) (disarmed d))))))

/-- STAGE_STATUS of a set that is applied now (R395). -/
def stagedStatus (d : Dev) : Nat := if d.time.raw = d.get Reg.stg_STAGE_AT then 2 else 3

theorem applyStaged_eq (d : Dev) :
    ∃ epoch step, (bit (d.get Reg.stg_STAGE_FLAGS) 0 = 1 → epoch = d.get Reg.stg_STAGE_EPOCH) ∧
      applyStaged d = post 0x3001 0xFFFF step (stagedStatus d) (stagedEntries epoch (stagedStatus d) d) :=
  ⟨_, _, fun h => if_pos h, rfl⟩

theorem exec_stageApply_of_due {s : State} (h : s.dev.stageDue = true) :
    ∃ a o, exec .stageApply s = .next { s with dev := { applyStaged s.dev with align := a, outs := o } } := by
  have hexec : exec .stageApply s = execStageApply s := rfl
  rw [hexec]
  simp only [execStageApply, onDev, h, if_true]
  split
  · obtain ⟨a, o, hre⟩ := realign_eq (applyStaged s.dev)
    exact ⟨a, o, by rw [hre]⟩
  · exact ⟨_, _, rfl⟩

/-- Settles O48: STAGE_ARM is the write of an entry, which `stageRule` may refuse; a set that is due is applied as a whole by
`stagedEntries`. That TRUE is no exception to BUSY is this model's choice (assumption 360). -/
theorem stagedTimeIsApplied : Obligations.StagedTimeIsApplied := by
  refine ⟨fun w s hc hr harmed => exec_stageArm_of_effective hc hr harmed,
    fun w s hc hr harmed => exec_stageArm_of_effective hc hr harmed,
    fun w s => exec_stageArm_of_armed, fun w v s => exec_stageArm_of_refused, fun s hdue => ?apply⟩
  obtain ⟨a, o, hexec⟩ := exec_stageApply_of_due hdue
  obtain ⟨epoch, step, hepoch, happly⟩ := applyStaged_eq s.dev
  have hget (k : Nat) : ({ applyStaged s.dev with align := a, outs := o } : Dev).get k =
      (stagedEntries epoch (stagedStatus s.dev) s.dev).get k := by rw [happly]; rfl
  have hval (k : Nat) : ({ applyStaged s.dev with align := a, outs := o } : Dev).val k =
      (stagedEntries epoch (stagedStatus s.dev) s.dev).val k := by rw [happly]; rfl
  rw [hexec]
  refine completes_next ⟨?offset, ?rate, ?anchor, ?arm, ?status, fun hflag => ?epoch, fun k ho hr ha he harm hs => ?frame,
    rfl, rfl⟩
  case offset => rw [hget]; simp [stagedEntries]
  case rate => rw [hget]; simp [stagedEntries]
  case anchor => rw [hget]; simp [stagedEntries]
  case arm => rw [hget]; simp [stagedEntries]
  case status => rw [hget]; simp [stagedEntries, stagedStatus]
  case epoch => rw [hget]; simp [stagedEntries, hepoch hflag]
  case frame => rw [hval]; simp [stagedEntries, ho, hr, ha, he, harm, hs]

/-! ## The writes of a generator's record (R399, R402) -/

theorem exec_tpgArm (w : Writer) (n : Fin 16) (v : Bool) (s : State) :
    exec (.tpgArm w n v) s = .next (finishWrite s (writeTpg w n (Reg.tpg_TPG_ARM n) (.num (b2n v)) s)) := rfl

theorem exec_tpgInvert (w : Writer) (n : Fin 16) (v : Bool) (s : State) :
    exec (.tpgInvert w n v) s = .next (finishWrite s (writeTpg w n (Reg.tpg_INVERT n) (.num (b2n v)) s)) := rfl

section
variable {w : Writer} {n : Nat} {s : State}

theorem finish_tpgArm (hc : writeCheck s.dev w (Reg.tpg_TPG_ARM n) (.num 1) = none) (hr : s.dev.tpgRefuses n = false) :
    finishWrite s (writeTpg w n (Reg.tpg_TPG_ARM n) (.num 1) s) =
      accepted w (Reg.tpg_TPG_ARM n) (.num 1) (fun _ => onDev (tpgArm n)) s := by
  refine (finishWrite_ok w _ _ _ _ s hc (if_neg (by simp [hr]))).trans (accepted_congr ?_)
  simp

theorem finish_tpgArm_refused (hc : writeCheck s.dev w (Reg.tpg_TPG_ARM n) (.num 1) = none)
    (hr : s.dev.tpgRefuses n = true) :
    finishWrite s (writeTpg w n (Reg.tpg_TPG_ARM n) (.num 1) s) = onDev (fun d => { d with answer := stREFUSED }) s :=
  finishWrite_rule w _ stREFUSED _ _ id _ s hc (if_pos ⟨rfl, rfl, hr⟩)

theorem finish_tpgStop (hc : writeCheck s.dev w (Reg.tpg_TPG_ARM n) (.num 0) = none) :
    finishWrite s (writeTpg w n (Reg.tpg_TPG_ARM n) (.num 0) s) =
      accepted w (Reg.tpg_TPG_ARM n) (.num 0) (fun _ => onDev (tpgStop n)) s := by
  refine (finishWrite_ok w _ _ _ _ s hc (if_neg (by simp))).trans (accepted_congr ?_)
  simp

/-- INVERT as set, and the pin's inactive level with it where the generator is not armed. -/
def tpgInverted (n v : Nat) (d : Dev) : Dev :=
  if (setN (Reg.tpg_INVERT n) v d).flag (Reg.tpg_TPG_ARM n) then setN (Reg.tpg_INVERT n) v d
  else tpgIdle n ((setN (Reg.tpg_INVERT n) v d).flag (Reg.tpg_INVERT n)) (setN (Reg.tpg_INVERT n) v d)

theorem finish_tpgInvert {v : Nat} (hc : writeCheck s.dev w (Reg.tpg_INVERT n) (.num v) = none) :
    finishWrite s (writeTpg w n (Reg.tpg_INVERT n) (.num v) s) =
      accepted w (Reg.tpg_INVERT n) (.num v) (fun _ => onDev (tpgInverted n v)) s := by
  have hne : Reg.tpg_INVERT n ≠ Reg.tpg_TPG_ARM n := entry_ne _ (by decide)
  refine (finishWrite_ok w _ _ _ _ s hc (if_neg fun h => hne h.1)).trans (accepted_congr ?_)
  simp only [if_neg hne, if_true]
  rfl

end

/-- The pin's inactive level is no entry. -/
theorem tpgIdle_regs (n : Nat) (high : Bool) (d : Dev) : (tpgIdle n high d).regs = d.regs := by
  unfold tpgIdle
  dsimp only
  split
  · rfl
  · rfl

/-- The entries of a generator that is armed. -/
theorem tpgArm_get (n k : Nat) (d : Dev) : (tpgArm n d).get k =
    if k = Reg.tpg_TPG_ARM n then 1 else if k = Reg.tpg_TPG_STATUS n then 1 else if k = Reg.tpg_FIRED n then 0
    else if k = Reg.tpg_MISSED n then 0 else if k = Reg.tpg_NEXT n then d.get (Reg.tpg_TARGET n) else d.get k := by
  unfold tpgArm
  extract_lets t inv g
  rw [get_of_regs (tpgIdle_regs ..)]
  simp only [setN_get, setTpg_get, t]

theorem tpgStop_val (n k : Nat) (d : Dev) : (tpgStop n d).val k =
    if k = Reg.tpg_TPG_ARM n then .num 0
    else if k = Reg.tpg_TPG_STATUS n then .num (setBit (d.get (Reg.tpg_TPG_STATUS n)) 0 false) else d.val k := by
  rw [tpgStop, setN_val, setN_val]

theorem tpgStop_tpg (n : Nat) (d : Dev) : (tpgStop n d).tpg = d.tpg := rfl

theorem tpgInverted_val (n v k : Nat) (d : Dev) :
    (tpgInverted n v d).val k = if k = Reg.tpg_INVERT n then .num v else d.val k := by
  rw [← setN_val]
  unfold tpgInverted
  split
  · rfl
  · exact val_of_regs (tpgIdle_regs ..) k

theorem noted_tpg (w : Writer) (k : Nat) (v : Val) (s : State) : (noted w k v s).tpg = s.dev.tpg := by
  obtain ⟨r, c, x, q, n, y, e, h⟩ := noted_eq w k v s
  rw [h]

theorem accepted_tpg (w : Writer) (k : Nat) (v : Val) (s : State) (f : Dev → Dev) :
    (accepted w k v (fun _ => onDev f) s).dev.tpg = (f (noted w k v s)).tpg := rfl

/-- Settles O49: each command is the write of an entry, whose effect says the entries that it leaves. -/
theorem generatorsAreArmed : Obligations.GeneratorsAreArmed := by
  refine ⟨?arm, ?refused, ?stop, ?invert⟩
  case arm =>
    intro w n s hc hr
    have hget (k : Nat) := (accepted_get w (Reg.tpg_TPG_ARM n) (.num 1) s (tpgArm n) k).trans (tpgArm_get n k _)
    rw [exec_tpgArm, b2n, if_pos rfl, finish_tpgArm hc hr]
    refine completes_next ⟨(hget _).trans ?_, (hget _).trans ?_, (hget _).trans ?_, (hget _).trans ?_, (hget _).trans ?next,
      accepted_mem ..⟩
    case next => simp [noted_get _ _ _ _ (entry_ne_dirty (b := 0x3010 + n) 2 (by omega))]
    all_goals simp
  case refused =>
    intro w n s hc hr
    exact congrArg Host.Outcome.next (finish_tpgArm_refused hc hr)
  case stop =>
    intro w n s hc
    have hval (k : Nat) := (accepted_val w (Reg.tpg_TPG_ARM n) (.num 0) s (tpgStop n) k).trans (tpgStop_val n k _)
    have hne : Reg.tpg_TPG_STATUS n ≠ Reg.tpg_TPG_ARM n := entry_ne _ (by decide)
    rw [exec_tpgArm, b2n, if_neg Bool.false_ne_true, finish_tpgStop hc]
    refine completes_next ⟨get_of_val ((hval _).trans (if_pos rfl)), get_of_val ?status, ?tpg, accepted_mem ..,
      fun k harm hstatus hdirty => ?frame⟩
    case status => rw [hval, if_neg hne, if_pos rfl, noted_get _ _ _ _ (entry_ne_dirty _ (by omega))]
    case tpg => rw [accepted_tpg, tpgStop_tpg, noted_tpg]
    case frame => rw [hval, if_neg harm, if_neg hstatus, noted_val _ _ _ _ hdirty]
  case invert =>
    intro w n v s hc
    have hval (k : Nat) := (accepted_val w (Reg.tpg_INVERT n) (.num (b2n v)) s (tpgInverted n (b2n v)) k).trans
      (tpgInverted_val n (b2n v) k _)
    rw [exec_tpgInvert, finish_tpgInvert hc]
    refine completes_next ⟨get_of_val ((hval _).trans (if_pos rfl)), accepted_mem .., fun k hk hdirty => ?frame⟩
    rw [hval, if_neg hk, noted_val _ _ _ _ hdirty]

/-! ## A pulse (R399 to R401) -/

/-- What a trigger frame to a port leaves: the entries, the generators and all that a calm state is read from. -/
theorem sendTrigger_eq (p ty : Nat) (d : Dev) : ∃ x n o q m,
    (sendTrigger p ty d).2 = { d with sen := x, free := n, out := o, sources := q, posts := m } := by
  unfold sendTrigger
  extract_lets l f
  split
  · exact ⟨_, _, _, _, _, rfl⟩
  · split
    · obtain ⟨x, n, o, h⟩ := sbStart_eq p 0 f d
      exact ⟨x, n, o, _, _, h⟩
    · split
      · exact ⟨_, _, _, _, _, rfl⟩
      · exact ⟨_, _, _, _, _, rfl⟩

/-- From `d` to `e` no entry, no generator and nothing that a calm state is read from has changed. -/
structure PulseKept (d e : Dev) : Prop where
  regs : e.regs = d.regs
  tpg : e.tpg = d.tpg
  followUps : e.followUps = d.followUps

theorem PulseKept.refl (d : Dev) : PulseKept d d := ⟨rfl, rfl, rfl⟩

theorem PulseKept.trans {c d e : Dev} (h : PulseKept c d) (g : PulseKept d e) : PulseKept c e :=
  ⟨g.regs.trans h.regs, g.tpg.trans h.tpg, g.followUps.trans h.followUps⟩

theorem pulseKept_sendTrigger (p ty : Nat) (d : Dev) : PulseKept d (sendTrigger p ty d).2 := by
  obtain ⟨x, n, o, q, m, h⟩ := sendTrigger_eq p ty d
  rw [h]
  exact ⟨rfl, rfl, rfl⟩

theorem pulseKept_foldl {f : Dev → Nat → Dev} (hf : ∀ d p, PulseKept d (f d p)) (l : List Nat) (d : Dev) :
    PulseKept d (l.foldl f d) := by
  induction l generalizing d with
  | nil => exact .refl d
  | cons p l ih => exact (hf d p).trans (ih (f d p))

/-- A pulse of generator `n` is noted at it; what it puts out leaves the rest. -/
theorem tpgPulse_kept (n : Nat) (d : Dev) : 
    ∃ f : Tpg → Pulse, PulseKept (setTpg n (fun g => { g with pulse := some (f g) }) d) (tpgPulse n d) := by
  unfold tpgPulse
  extract_lets g stop rise d1 d2
  have h2 : PulseKept d1 d2 := by
    unfold d2
    split
    · exact ⟨rfl, rfl, rfl⟩
    · exact .refl d1
  refine ⟨fun g => { stop := stop, route := g.route, invert := g.invert }, ?_⟩
  change PulseKept d1 _
  refine h2.trans (pulseKept_foldl ?_ _ d2)
  intro e p
  split
  · exact pulseKept_sendTrigger p 1 e
  · exact .refl e

/-! ## A firing (R399) -/

/-- What a firing of generator `n` for `m + 1` instants counts, before it is logged. -/
def tpgCounted (n m : Nat) (d : Dev) : Dev :=
  addW 64 (Reg.tpg_MISSED n) m (inc64 (Reg.tpg_FIRED n)
    (setN (Reg.tpg_NEXT n) ((d.tpgOf n).instant ((d.tpgOf n).used + m + 1))
      (setTpg n (fun g => { g with used := (d.tpgOf n).used + m + 1 }) d)))

/-- From `d` to `e` the generators are as they were, and of the entries only ARM and STATUS of generator `n` may differ. -/
structure TpgLogged (n : Nat) (d e : Dev) : Prop where
  tpg : e.tpg = d.tpg
  followUps : e.followUps = d.followUps
  val : ∀ k, k ≠ Reg.tpg_TPG_ARM n → k ≠ Reg.tpg_TPG_STATUS n → e.val k = d.val k

namespace TpgLogged
variable {n : Nat} {d e : Dev}

theorem refl (n : Nat) (d : Dev) : TpgLogged n d d := ⟨rfl, rfl, fun _ _ _ => rfl⟩

theorem trans {u : Dev} (h : TpgLogged n d e) (h' : TpgLogged n e u) : TpgLogged n d u :=
  ⟨h'.tpg.trans h.tpg, h'.followUps.trans h.followUps, fun k ha hs => (h'.val k ha hs).trans (h.val k ha hs)⟩

theorem post (h : TpgLogged n d e) (code inst a b : Nat) : TpgLogged n d (post code inst a b e) :=
  ⟨h.tpg, h.followUps, h.val⟩

theorem status (h : TpgLogged n d e) (v : Nat) : TpgLogged n d (setN (Reg.tpg_TPG_STATUS n) v e) :=
  ⟨h.tpg, h.followUps, fun k ha hs => (setN_val_of_ne hs v e).trans (h.val k ha hs)⟩

theorem stop (h : TpgLogged n d e) : TpgLogged n d (tpgStop n e) :=
  ⟨h.tpg, h.followUps, fun k ha hs => by rw [tpgStop_val, if_neg ha, if_neg hs, h.val k ha hs]⟩

theorem ite {u : Dev} (c : Prop) [Decidable c] (he : TpgLogged n d e) (hu : TpgLogged n d u) :
    TpgLogged n d (if c then e else u) := by
  split
  · exact he
  · exact hu

end TpgLogged

/-- A firing counts its instants, logs what there is to log, and gives one pulse. -/
theorem tpgFire_of_due {n m : Nat} {d : Dev} (hdue : d.tpgDue n = m + 1) :
    ∃ e, TpgLogged n (tpgCounted n m d) e ∧ tpgFire n d = tpgPulse n e := by
  have hpos : ¬ d.tpgDue n = 0 := by omega
  unfold tpgFire
  extract_lets m' g used last late now next d1 d2 d3 d4 d5
  rw [if_neg hpos]
  have h1 : d1 = tpgCounted n m d := by
    have hm : m' - 1 = m := by omega
    have hused : used = (d.tpgOf n).used + m + 1 := by simp only [used, g]; omega
    simp only [d1, next, hm, hused, g, tpgCounted]
  have h2 : TpgLogged n d1 d2 := .ite _ (((TpgLogged.refl n d1).status _).post ..) (.refl n d1)
  have h3 : TpgLogged n d1 d3 := .ite _ (h2.post ..) h2
  have h4 : TpgLogged n d1 d4 := .ite _ (((h3.status _).stop).post ..) h3
  have h5 : TpgLogged n d1 d5 := .ite _ (h4.post ..) h4
  exact ⟨d5, h1 ▸ h5, rfl⟩

theorem tpgOf_setTpg {n : Nat} {d : Dev} (h : n < d.tpg.length) (f : Tpg → Tpg) :
    (setTpg n f d).tpgOf n = f (d.tpgOf n) := nth_updAt_same n f d.tpg h

theorem length_setTpg (n : Nat) (f : Tpg → Tpg) (d : Dev) : (setTpg n f d).tpg.length = d.tpg.length :=
  List.length_modify ..

/-- The entries that a firing counts in. -/
theorem tpgCounted_val (n m k : Nat) (d : Dev) : (tpgCounted n m d).val k =
    if k = Reg.tpg_MISSED n then .num ((d.get (Reg.tpg_MISSED n) + m) % 2 ^ 64)
    else if k = Reg.tpg_FIRED n then .num ((d.get (Reg.tpg_FIRED n) + 1) % 2 ^ 64)
    else if k = Reg.tpg_NEXT n then .num ((d.tpgOf n).instant ((d.tpgOf n).used + m + 1)) else d.val k := by
  simp [tpgCounted]

/-- What a firing leaves of the units. -/
structure Fired (n m : Nat) (d e : Dev) : Prop where
  followUps : e.followUps = d.followUps
  tpg : n < d.tpg.length → (e.tpgOf n).used = (d.tpgOf n).used + m + 1 ∧ (e.tpgOf n).pulse.isSome = true
  val : ∀ k, k ≠ Reg.tpg_TPG_ARM n → k ≠ Reg.tpg_TPG_STATUS n → e.val k = (tpgCounted n m d).val k

theorem tpgFire_fired {n m : Nat} {d : Dev} (hdue : d.tpgDue n = m + 1) : Fired n m d (tpgFire n d) := by
  obtain ⟨e, hlogged, hfire⟩ := tpgFire_of_due hdue
  obtain ⟨f, hpulse⟩ := tpgPulse_kept n e
  rw [hfire]
  refine ⟨hpulse.followUps.trans hlogged.followUps, fun hn => ?tpg, fun k ha hs =>
    (val_of_regs hpulse.regs k).trans (hlogged.val k ha hs)⟩
  have hlen : n < e.tpg.length := by
    rw [hlogged.tpg]
    exact Nat.lt_of_lt_of_eq hn (length_setTpg ..).symm
  have hcounted : e.tpgOf n = { d.tpgOf n with used := (d.tpgOf n).used + m + 1 } := by
    rw [Dev.tpgOf, hlogged.tpg]
    exact tpgOf_setTpg hn _
  have hpulsed : (tpgPulse n e).tpgOf n = { e.tpgOf n with pulse := some (f (e.tpgOf n)) } := by
    rw [Dev.tpgOf, hpulse.tpg]
    exact tpgOf_setTpg hlen _
  rw [hpulsed, hcounted]
  exact ⟨rfl, rfl⟩

/-- The end of a pulse that goes to the pin: the pin takes the inactive level. -/
theorem tpgEnd_of_done {n : Nat} {x : Pulse} {d : Dev} (hx : (d.tpgOf n).pulse = some x) (hstop : x.stop ≤ d.time.raw)
    (hroute : bit x.route 0 = 1) :
    tpgEnd n d = emit .pin n [b2n ((setTpg n (fun g => { g with pulse := none }) d).tpgOf n).idleHigh] []
      (setTpg n (fun g => { g with pulse := none }) d) := by
  simp only [tpgEnd, hx, if_pos hstop, if_pos hroute]

theorem exec_tpgFire (n : Fin 16) (s : State) : exec (.tpgFire n) s = .next (settleState (onDev (tpgFire n) s)) := rfl

theorem exec_tpgFire_of_calm {n : Fin 16} {m : Nat} {s : State} (hcalm : s.dev.calm = true) (hdue : s.dev.tpgDue n = m + 1) :
    ∃ e, Fired n m s.dev e ∧ exec (.tpgFire n) s = .next { s with dev := e } := by
  have hfired := tpgFire_fired hdue
  have hcalm' : (onDev (tpgFire n) s).dev.calm = true := by rw [onDev_dev, calm_congr hfired.followUps, hcalm]
  rw [exec_tpgFire, settleState_calm _ hcalm']
  exact ⟨_, hfired, rfl⟩

theorem exec_tpgPulseEnd (n : Fin 16) (s : State) : exec (.tpgPulseEnd n) s = .next (onDev (tpgEnd n) s) := rfl

/-- Settles O50: a firing leaves a calm state calm, so nothing settles after it, and its entries are those of `tpgCounted`; a
pulse that ends leaves the inactive level at its pin (`tpgEnd_of_done`). -/
theorem generatorsFire : Obligations.GeneratorsFire := by
  refine ⟨?fire, ?pulse⟩
  case fire =>
    intro n m s hcalm hdue
    obtain ⟨e, hfired, hexec⟩ := exec_tpgFire_of_calm hcalm hdue
    have hval (k : Nat) (ha : k ≠ Reg.tpg_TPG_ARM n) (hs : k ≠ Reg.tpg_TPG_STATUS n) :=
      (hfired.val k ha hs).trans (tpgCounted_val n m k s.dev)
    rw [hexec]
    refine completes_next ⟨get_of_val ?fired, get_of_val ?missed, get_of_val ?next, rfl, rfl, hfired.tpg,
      fun k hf hm hn ha hs => ?frame⟩
    case fired => rw [hval _ (entry_ne _ (by decide)) (entry_ne _ (by decide))]; simp
    case missed => rw [hval _ (entry_ne _ (by decide)) (entry_ne _ (by decide))]; simp
    case next => rw [hval _ (entry_ne _ (by decide)) (entry_ne _ (by decide))]; simp
    case frame => rw [hval k ha hs, if_neg hm, if_neg hf, if_neg hn]
  case pulse =>
    intro n x s hx hstop hroute
    rw [exec_tpgPulseEnd, onDev, tpgEnd_of_done hx hstop hroute]
    refine completes_next ⟨rfl, ?level, fun hn => ?ended, rfl, rfl⟩
    case ended => exact congrArg Tpg.pulse (tpgOf_setTpg hn _)
    case level =>
      have hidle : ((setTpg n (fun g => { g with pulse := none }) s.dev).tpgOf n).idleHigh = (s.dev.tpgOf n).idleHigh :=
        nth_updAt_proj Tpg.idleHigh (f := fun g => { g with pulse := none }) (fun _ => rfl) n n s.dev.tpg
      rw [hidle]
      rfl

end Sys2Proof.Machine
end

section
/-! The statements about the PCI Express endpoint: its link, its mailbox, the pound window, power states and host resets. -/

namespace Sys2Proof.Machine

/-! ## The link (R370) -/

theorem linkTrained_of_valid {speed width : Nat} {d : Dev} (hmode : d.mode ≠ 0) (hlo : 1 ≤ speed)
    (hhi : speed ≤ min 6 (d.get Reg.pcie_LINK_MAX_SPEED)) (hwidth : [1, 2, 4, 8].contains width = true)
    (hchange : d.get Reg.pcie_LINK_SPEED ≠ speed) :
    linkTrained speed width d =
      post 0x2C01 0xFFFF speed width (setN Reg.pcie_LINK_SPEED speed (setN Reg.pcie_LINK_WIDTH width d)) := by
  refine if_neg ?_
  rintro (hoff | hzero | hfast | hbad | ⟨hsame, -⟩)
  · exact hmode hoff
  · omega
  · omega
  · rw [hwidth] at hbad
    cases hbad
  · exact hchange hsame

/-! ## The mailbox (R378) -/

/-- With nothing waiting in the mailbox nothing goes on. -/
theorem mbxGo_of_empty {s : State} (hrsp : s.dev.ep.responses = []) (hreq : s.dev.ep.requests = []) : mbxGo s = s := by
  have hkept : onDev (setEp (fun e => { e with responses := [] })) s = s := by
    rw [← hrsp]
    rfl
  simp only [mbxGo, hrsp, mbxDrain, hkept, hreq, List.length_nil, mbxServe]

theorem mbxControl_enable {v : Nat} {s : State} (hv : v % 2 = 1) (hoff : s.dev.ep.mbxEnable = false) :
    mbxControl v s = onDev (setEp (fun e => { e with
      mbxEnable := true, reqHead := 0, reqTail := 0, rspHead := 0, rspTail := 0, requests := [], responses := [] })) s := by
  simp only [mbxControl, onDev, setEp, hv, hoff, if_true, Bool.false_eq_true, if_false]

/-- Settles O43: in D0 each access has its register's effect (`hostAccess_of_d0`), and the link that trains its own. -/
theorem endpointTakesWrites : Obligations.EndpointTakesWrites := by
  refine ⟨?link, ?reset, ?enable, ?tail, ?head⟩
  case link =>
    intro speed width s hmode hlo hhi hwidth hchange
    have h : exec (.pcieLinkUp speed width) s = .next (onDev (linkTrained speed width) s) := rfl
    rw [h, onDev, linkTrained_of_valid hmode hlo hhi hwidth hchange]
    refine completes_next ⟨?speed, ?width, ?sources, rfl, rfl, fun k hs hw => ?frame⟩
    case speed => simp
    case width => simp
    case sources =>
      exact post_sources_congr rfl rfl rfl ((tbNow_setN (by decide) ..).trans (tbNow_setN (by decide) ..))
    case frame => simp [hs, hw]
  case reset =>
    intro s hd
    exact congrArg Host.Outcome.next (hostAccess_of_d0 hd)
  case enable =>
    intro v s hd hv hoff
    exact congrArg Host.Outcome.next ((hostAccess_of_d0 hd).trans (mbxControl_enable hv hoff))
  case tail =>
    intro v l s hd hon
    exact congrArg Host.Outcome.next ((hostAccess_of_d0 hd).trans (if_pos hon))
  case head =>
    intro v s hd hrsp hreq
    exact congrArg Host.Outcome.next ((hostAccess_of_d0 hd).trans (mbxGo_of_empty hrsp hreq))

/-! ## The pound window (R381 to R383) -/

theorem poundAsk_eq (k a n : Nat) (d : Dev) : ∃ x, poundAsk k a n d = { d with chArb := x } := by
  unfold poundAsk
  generalize linesOf a n = l
  induction l generalizing d with
  | nil => exact ⟨_, rfl⟩
  | cons i l ih =>
    obtain ⟨x, hx⟩ := lineAsk_eq k i d
    obtain ⟨y, hy⟩ := ih (lineAsk k i d)
    exact ⟨y, hy.trans (by rw [hx])⟩

theorem poundAsk_regs (k a n : Nat) (d : Dev) : (poundAsk k a n d).regs = d.regs := by
  obtain ⟨x, h⟩ := poundAsk_eq k a n d
  rw [h]

/-- While no rank is lost a write of the pound changes the bytes it covers. -/
theorem poundWrite_mem {s : State} (h : s.dev.dram.anyLost = false) (a : Nat) (b : List Byte) :
    (poundWrite a b s).mem = s.mem.writeBytes a b := by
  simp only [poundWrite, h, Bool.false_eq_true, if_false]

theorem bar2Window_of_valid {v : Nat} {d : Dev} (hunit : v % 2 ^ 30 = 0) (hpound : v < d.get Reg.dram_MAPPED_BYTES) :
    bar2Window v d = setEp (fun e => { e with window := v }) d := if_pos ⟨hunit, hpound⟩

theorem bar2Open_of_offload {d : Dev} (hmode : d.mode = mOFFLOAD) (hon : d.flag Reg.pcie_BAR2_ENABLE = true) :
    d.bar2Open = true := by
  simp [Dev.bar2Open, hmode, hon]

section
variable {off : Nat} {b : List Byte} {s : State}

theorem bar2Write_of_open (hd : s.dev.ep.d3hot = false) (hmode : s.dev.mode = mOFFLOAD)
    (hwrite : s.dev.flag Reg.pcie_BAR2_WRITE_ENABLE = true) (hon : s.dev.flag Reg.pcie_BAR2_ENABLE = true)
    (hin : s.dev.bar2In off b.length = true) :
    bar2Write off b s =
      onDev (poundAsk rqPcie (s.dev.ep.window + off) b.length) (poundWrite (s.dev.ep.window + off) b s) := by
  have hopen := bar2Open_of_offload hmode hon
  simp [bar2Write, hd, hmode, hwrite, hopen, hin]

/-- A write that the mode does not let through is counted and discarded. -/
theorem bar2Write_discarded (hd : s.dev.ep.d3hot = false) (hoffload : s.dev.mode ≠ mOFFLOAD)
    (hplayback : s.dev.mode ≠ mPLAYBACK) : bar2Write off b s = onDev (inc64 Reg.pcie_BAR2_WRITES_DISCARDED) s := by
  simp [bar2Write, hd, hoffload, hplayback]

end

/-- A read through a window that is not open is answered as an Unsupported Request. -/
theorem bar2Read_unsupported {off n : Nat} {s : State} (h : s.dev.bar2Open = false) :
    bar2Read off n s = onDev (emit .pcie 2 [1, off, n] []) s := by
  simp [bar2Read, h]

theorem bar2Read_of_open {off n : Nat} {s : State} (hopen : s.dev.bar2Open = true) (hd : s.dev.ep.d3hot = false)
    (hin : s.dev.bar2In off n = true) : bar2Read off n s =
      onDev (fun e =>
        if (poundRead (s.dev.ep.window + off) n s).2 then
          post 0x2C04 0xFFFF (lo32 (s.dev.ep.window + off)) ((s.dev.ep.window + off) / 2 ^ 32)
            (emit .pcie 2 [2, off, n] (poundRead (s.dev.ep.window + off) n s).1
              (poundAsk rqPcie (s.dev.ep.window + off) n (offloadRead (s.dev.ep.window + off) n e)))
        else emit .pcie 2 [0, off, n] (poundRead (s.dev.ep.window + off) n s).1
          (poundAsk rqPcie (s.dev.ep.window + off) n (offloadRead (s.dev.ep.window + off) n e)))
        (poisonReads (s.dev.ep.window + off) n s) := by
  refine if_neg ?_
  simp [hopen, hd, hin]

/-- Settles O45: a write through an open window is a write of the pound (`poundWrite_mem`), which the laws of the memory describe
byte by byte. -/
theorem poundWindowOpens : Obligations.PoundWindowOpens := by
  refine ⟨?window, ?write, ?discarded, ?unsupported, ?read⟩
  case window =>
    intro v s hd hunit hpound
    have h : exec (.bar2Window v) s = .next (onDev (bar2Window v) s) := congrArg _ (hostAccess_of_d0 hd)
    rw [h, onDev, bar2Window_of_valid hunit hpound]
    rfl
  case write =>
    intro off b s hd hmode hwrite hon hin hlost hwf
    have h : exec (.bar2Write off b) s = .next (bar2Write off b s) := rfl
    have hmem := poundWrite_mem hlost (s.dev.ep.window + off) b
    rw [h, bar2Write_of_open hd hmode hwrite hon hin]
    refine completes_next ⟨poundAsk_regs .., rfl, rfl, fun i hi => ?covered, fun a ha => ?other⟩
    case covered => rw [onDev_mem, hmem, Mem.read_writeBytes_same _ b i hwf hi, List.getD_eq_getElem b 0 hi]
    case other => rw [onDev_mem, hmem, Mem.read_writeBytes_other _ b a hwf ha]
  case discarded =>
    intro off b s hd hoffload hplayback
    exact congrArg Host.Outcome.next (bar2Write_discarded hd hoffload hplayback)
  case unsupported =>
    intro off n s h
    exact congrArg Host.Outcome.next (bar2Read_unsupported h)
  case read =>
    rintro off n s hopen hd hin a rfl
    have h : exec (.bar2Read off n) s = .next (bar2Read off n s) := rfl
    rw [h, bar2Read_of_open hopen hd hin]
    refine ⟨fun hclean => ?_, fun hbad => ?_⟩
    · simp only [hclean, Bool.false_eq_true, if_false]
    · simp only [hbad, if_true]

/-! ## Registers, power states and host resets (R374, R375, R384, R385) -/

theorem registerWrite_whole {off v : Nat} {s : State} (hd : s.dev.ep.d3hot = false) (hmode : s.dev.mode ≠ 0)
    (halign : off % 8 = 0) (hoff : off < 0x1000000) : registerWrite off 8 v s = bar0Write off (v % 2 ^ 64) s := by
  have hreg : off / 8 * 8 = off := by omega
  have hpush : ¬0x1000000 ≤ off := by omega
  simp [registerWrite, hd, hmode, halign, hpush, hreg]

theorem nth_pending {l : List MsixEntry} (h : l.any (fun v => v.pending) = false) (i : Nat) : (nth l i).pending = false := by
  rw [nth]
  cases hx : l[i]? with
  | none => simp [List.getD_eq_getElem?_getD, hx]; rfl
  | some x =>
    have hmem := List.mem_of_getElem? hx
    simp only [List.any_eq_false] at h
    simpa [List.getD_eq_getElem?_getD, hx] using h x hmem

/-- With no message pending no vector sends. -/
theorem msixSend_of_none {d : Dev} (h : d.ep.msix.any (fun v => v.pending) = false) (v : Nat) : msixSend v d = d := by
  simp [msixSend, nth_pending h]

theorem foldl_msixSend_of_none {d : Dev} (h : d.ep.msix.any (fun v => v.pending) = false) (l : List Nat) :
    l.foldl (fun e v => msixSend v e) d = d := by
  induction l with
  | nil => rfl
  | cons v l ih => rw [List.foldl_cons, msixSend_of_none h, ih]

theorem writeTaken_calm {s : State} (h : s.dev.calm = true) : writeTaken s = s := by
  obtain ⟨-, -, -, hcmds, -⟩ := (calm_iff s.dev).mp h
  rw [writeTaken, hcmds]
  rfl

/-- The endpoint back in D0. -/
def d0Entered (d : Dev) : Dev := post 0x2C02 0xFFFF 0 3 (setEp (fun e => { e with d3hot := false }) d)

theorem d0Entered_followUps (d : Dev) : (d0Entered d).followUps = d.followUps := rfl

theorem d0Entered_ep (d : Dev) : (d0Entered d).ep = { d.ep with d3hot := false } := rfl

/-- With nothing waiting nothing goes on after a return to D0. -/
theorem goOn_of_empty {t : State} (hwait : t.arb.waiting = []) (hmsix : t.dev.ep.msix.any (fun v => v.pending) = false)
    (hrsp : t.dev.ep.responses = []) (hreq : t.dev.ep.requests = []) (hcalm : t.dev.calm = true) :
    magSettle (writeTaken (mbxGo (onDev (fun d => (List.range 128).foldl (fun e v => msixSend v e) d)
      (t.arb.waiting.foldl (fun t r => copyRecord r t) { t with arb := { t.arb with waiting := [] } })))) = t := by
  have hsame : ({ t with arb := { t.arb with waiting := [] } } : State) = t := by rw [← hwait]
  have hsend : onDev (fun d => (List.range 128).foldl (fun e v => msixSend v e) d) t = t := by
    simp only [onDev, foldl_msixSend_of_none hmsix]
  rw [hsame, hwait, List.foldl_nil, hsend, mbxGo_of_empty hrsp hreq, writeTaken_calm hcalm, magSettle_calm _ hcalm]

theorem d0Return_of_empty {s : State} (hd : s.dev.ep.d3hot = true) (hwait : s.arb.waiting = [])
    (hmsix : s.dev.ep.msix.any (fun v => v.pending) = false) (hrsp : s.dev.ep.responses = [])
    (hreq : s.dev.ep.requests = []) (hcalm : s.dev.calm = true) : d0Return s = onDev d0Entered s := by
  have hep : (onDev d0Entered s).dev.ep = { s.dev.ep with d3hot := false } := d0Entered_ep s.dev
  have hgo : d0Return s = magSettle (writeTaken (mbxGo (onDev (fun d => (List.range 128).foldl (fun e v => msixSend v e) d)
      ((onDev d0Entered s).arb.waiting.foldl (fun t r => copyRecord r t)
        { onDev d0Entered s with arb := { (onDev d0Entered s).arb with waiting := [] } })))) := if_neg (by simp [hd])
  rw [hgo]
  refine goOn_of_empty ?_ ?_ ?_ ?_ ((calm_congr (d0Entered_followUps s.dev)).trans hcalm)
  · rw [onDev_arb]; exact hwait
  · rw [hep]; exact hmsix
  · rw [hep]; exact hrsp
  · rw [hep]; exact hreq

theorem Regs.find_filter (p : Nat × Val → Bool) (k : Nat) (hk : ∀ v, p (k, v) = true) (r : Regs) :
    Regs.find (r.filter p) k = Regs.find r k := by
  induction r with
  | nil => rfl
  | cons x r ih =>
    obtain ⟨j, v⟩ := x
    by_cases hj : j = k
    · subst hj
      rw [List.filter_cons_of_pos (hk v), Regs.find, Regs.find, if_pos rfl, if_pos rfl]
    · rw [Regs.find, if_neg hj, ← ih, List.filter_cons]
      split
      · rw [Regs.find, if_neg hj]
      · rfl

/-- The units with the host's queues and the endpoint as a host reset leaves them, no command outstanding. -/
def hostCleared (d : Dev) : Dev :=
  setRcq (fun r => { r with fetched := r.fetched.map (fun _ => []) })
    { d with regs := d.regs.filter (fun x => !(decide (0x2940 ≤ x.1 / 256) && decide (x.1 / 256 < 0x29C0))), ep := d.ep.hostReset }

theorem hostCleared_val {k : Nat} (hk : 0x29C0 * 256 ≤ k) (d : Dev) : (hostCleared d).val k = d.val k := by
  have h : Regs.find (hostCleared d).regs k = Regs.find d.regs k := by
    refine Regs.find_filter _ k (fun v => ?_) d.regs
    have hlo : 0x29C0 ≤ k / 256 := by omega
    simp only [Bool.not_eq_true', Bool.and_eq_false_iff, decide_eq_false_iff_not]
    exact .inr (by omega)
  simp only [Dev.val, h]

theorem hostCleared_calm {d : Dev} (h : d.calm = true) : (hostCleared d).calm = true := by
  obtain ⟨hends, hrec, hforced, hcmds, -, hiqs, hrest⟩ := (calm_iff d).mp h
  exact (calm_iff _).mpr ⟨hends, hrec, hforced, hcmds, by simp [hostCleared, setRcq], hiqs, hrest⟩

/-- The units after a reset of the host-facing state of a kind other than FLR, no command outstanding. -/
def hostDown (kind : Nat) (d : Dev) : Dev :=
  post 0x2C03 0xFFFF kind 0 (inc32 Reg.pcie_HOST_RESETS
    (setN Reg.pcie_LINK_SPEED 0 (setN Reg.pcie_LINK_WIDTH 0 (hostCleared d))))

theorem hostDown_followUps (kind : Nat) (d : Dev) : (hostDown kind d).followUps = (hostCleared d).followUps := rfl

/-- The state after a reset of the host-facing state: what waited for the host's copy of the log is lost. -/
def hostLost (d : Dev) (s : State) : State := { s with dev := d, arb := { s.arb with missed := 0, waiting := [] } }

theorem hostReset_of_calm {kind : Nat} {s : State} (hcalm : s.dev.calm = true) (hkind : kind ≠ 3) :
    hostReset kind s = hostLost (hostDown kind s.dev) s := by
  obtain ⟨-, -, -, hcmds, -⟩ := (calm_iff s.dev).mp hcalm
  have hdown : (hostLost (hostDown kind s.dev) s).dev.calm = true :=
    (calm_congr (hostDown_followUps kind s.dev)).trans (hostCleared_calm hcalm)
  have heq : hostReset kind s = magSettle (advance (hostLost (hostDown kind s.dev) s)) := by
    simp only [hostReset, hcmds, List.filter_nil, List.length_nil, List.foldl_nil, if_neg hkind]
    rfl
  rw [heq, advance_calm _ hdown, magSettle_calm _ hdown]

/-- Settles O46: in D0 each access has its register's effect; with nothing waiting the return to D0 leaves no more than EV 0x2C02
(`d0Return_of_empty`), and with no command outstanding a host reset is `hostDown`. That the kinds other than FLR set LINK_SPEED 0
(assumption 352) and that a read of either width latches (assumption 353) is the model's reading. -/
theorem hostReadsAndPowers : Obligations.HostReadsAndPowers := by
  refine ⟨?now, ?raw, ?write, ?enter, ?leave, ?reset⟩
  case now =>
    intro s hd
    exact congrArg Host.Outcome.next (hostAccess_of_d0 hd)
  case raw =>
    intro s hd
    exact congrArg Host.Outcome.next (hostAccess_of_d0 hd)
  case write =>
    intro off v s hd hmode halign hoff
    exact congrArg Host.Outcome.next (registerWrite_whole hd hmode halign hoff)
  case enter =>
    intro s hd
    have h : exec .d3hotEntry s = .next (onDev d3Enter s) := rfl
    rw [h]
    simp only [onDev, d3Enter, hd, Bool.false_eq_true, if_false]
  case leave =>
    intro s hd hwait hmsix hrsp hreq hcalm
    exact congrArg Host.Outcome.next (d0Return_of_empty hd hwait hmsix hrsp hreq hcalm)
  case reset =>
    intro kind s hmode hcalm hkind
    have h : exec (.hostReset kind) s = .next (if s.dev.mode = 0 then s else hostReset kind s) := rfl
    have hcount : (hostCleared s.dev).get Reg.pcie_HOST_RESETS = s.dev.get Reg.pcie_HOST_RESETS :=
      get_congr (hostCleared_val (by decide) s.dev)
    rw [h, if_neg hmode, hostReset_of_calm hcalm hkind]
    refine completes_next ⟨?count, ?speed, rfl, rfl, rfl, rfl, rfl⟩
    case count => simp [hostLost, hostDown, hcount]
    case speed => simp [hostLost, hostDown]

end Sys2Proof.Machine
end

section
/-! The statements about the DRAM controller: errors of its reads, training, refresh and row disturbance. -/

namespace Sys2Proof.Machine

/-! ## The controller's ranks -/

section
variable (c r k : Nat) (d : Dev)

@[simp] theorem setRank_val (f : Rank → Rank) : (setRank c r f d).val k = d.val k := rfl
@[simp] theorem setRank_get (f : Rank → Rank) : (setRank c r f d).get k = d.get k := rfl
@[simp] theorem setRank_followUps (f : Rank → Rank) : (setRank c r f d).followUps = d.followUps := rfl
@[simp] theorem setRank_regs (f : Rank → Rank) : (setRank c r f d).regs = d.regs := rfl
@[simp] theorem setRank_out (f : Rank → Rank) : (setRank c r f d).out = d.out := rfl

/-- A change to a rank of a channel leaves what the channel says of itself. -/
theorem chan_setRank_proj {α : Type} (g : Chan → α) (hg : ∀ x l, g { x with ranks := l } = g x) (i : Nat) (f : Rank → Rank) :
    g ((setRank i r f d).dram.chan c) = g (d.dram.chan c) :=
  nth_updAt_proj g (fun x => hg x _) i c d.dram.chans

theorem chan_setChan (f : Chan → Chan) (hc : c < d.dram.chans.length) :
    (setChan c f d).dram.chan c = f (d.dram.chan c) := nth_updAt_same c f _ hc

theorem rank_setRank (f : Rank → Rank) (hc : c < d.dram.chans.length) (hr : r < (d.dram.chan c).ranks.length) :
    (setRank c r f d).dram.rank c r = f (d.dram.rank c r) := by
  rw [Dram.rank, setRank, chan_setChan c d _ hc]
  exact nth_updAt_same r f _ hr

end

/-! ## Reads (R269 to R273) -/

/-- The corrected read is counted; what of it is logged is no entry. -/
theorem readCorrected_val (c r line k : Nat) (d : Dev) : (readCorrected c r line d).val k =
    if k = Reg.dch_CORRECTED c then .num ((d.get (Reg.dch_CORRECTED c) + 1) % 2 ^ 64) else d.val k := by
  unfold readCorrected
  extract_lets d1 x due
  split
  · simp [d1]
  · simp [d1]

theorem readCorrected_followUps (c r line : Nat) (d : Dev) : (readCorrected c r line d).followUps = d.followUps := by
  unfold readCorrected
  extract_lets d1 x due
  split
  · rfl
  · rfl

section
variable {c r line : Nat} {s : State}

theorem requesterRead_corrected (hlive : (s.dev.dram.rank c r).live = true) :
    requesterRead c r line 1 s = onDev (readCorrected c r line) s := by
  simp [requesterRead, hlive]

theorem requesterRead_uncorrectable (hlive : (s.dev.dram.rank c r).live = true) {l : Nat}
    (hline : s.dev.dram.lineOf c r line = some l) : requesterRead c r line 2 s =
      onDev (failRank c r 1) (poisonRecord (l * 256) (poisonLine l (onDev (inc64 (Reg.dch_UNCORRECTED c)) s))) := by
  simp [requesterRead, hlive, readUncorrectable, hline]

end

theorem poisonLine_contains (l : Nat) (s : State) : (poisonLine l s).poison.contains l = true := by
  unfold poisonLine
  dsimp only
  split
  · next h => exact h
  · simp

/-- The failure of a mapped rank that has no spare. -/
theorem failRank_of_noSpare {c r cause : Nat} {d : Dev} (hmapped : (d.dram.rank c r).st = rkMAPPED)
    (hspare : 4 ≤ d.get (Reg.dch_SPARE_RANK c)) :
    failRank c r cause d = loseRank c r (retireRank c r (post 0x2402 (dramInst c r) cause 0xFF d)) := by
  have hidle : decide (d.get (Reg.dch_SPARE_RANK c) < 4) = false := decide_eq_false (by omega)
  simp only [failRank, if_pos hmapped, hidle, Bool.false_and, Bool.false_eq_true, if_false]

/-! ## A migration that is done (R289) -/

/-- Rank `m.dst` of channel `c` in the place of rank `m.src`. -/
def migrated (c : Nat) (m : Migration) (d : Dev) : Dev :=
  setRank c m.src (fun x => { x with st := rkREPLACED }) (setRank c m.dst (fun x => { x with st := rkMAPPED })
    (setChan c (fun x => { x with mig := none, order := x.order.map (fun r => if r = m.src then m.dst else r) }) d))

theorem migrated_mig {c : Nat} {m : Migration} {d : Dev} (hc : c < d.dram.chans.length) :
    ((migrated c m d).dram.chan c).mig = none := by
  rw [migrated, chan_setRank_proj _ _ _ Chan.mig (fun _ _ => rfl), chan_setRank_proj _ _ _ Chan.mig (fun _ _ => rfl),
    chan_setChan c d _ hc]

theorem migrated_order {c : Nat} {m : Migration} {d : Dev} (hc : c < d.dram.chans.length) :
    ((migrated c m d).dram.chan c).order = (d.dram.chan c).order.map (fun r => if r = m.src then m.dst else r) := by
  rw [migrated, chan_setRank_proj _ _ _ Chan.order (fun _ _ => rfl), chan_setRank_proj _ _ _ Chan.order (fun _ _ => rfl),
    chan_setChan c d _ hc]

theorem migrated_val (c : Nat) (m : Migration) (d : Dev) (k : Nat) : (migrated c m d).val k = d.val k := rfl

theorem exec_migrateDone {c : Fin 12} {m : Migration} {g : Geometry} {s : State} (hmig : (s.dev.dram.chan c).mig = some m)
    (hgeo : geometryOf s.dev.dram.width s.dev.dram.density = some g) : ∃ a b,
    exec (.migrateDone c) s = .next (onDev (fun d => post 0x2403 (dramInst c m.src) a b
      (setN (Reg.dch_MIGRATE_WATERMARK c) g.lines (setN (Reg.dch_SPARE_RANK c) 0xFF (migrated c m d)))) s) := by
  have h : exec (.migrateDone c) s = execMigrateDone c s := rfl
  rw [h]
  simp only [execMigrateDone, onDev, hmig, hgeo]
  exact ⟨_, _, rfl⟩

/-- Settles O35: each read is `requesterRead` of its result, and a migration that is done leaves `migrated`. -/
theorem dramErrorsAreHandled : Obligations.DramErrorsAreHandled := by
  refine ⟨?corrected, ?scrub, fun l s => ⟨poisonLine_contains l s, rfl, rfl⟩, fun c r s => rfl,
    fun c r d hmapped hspare => failRank_of_noSpare hmapped hspare, ?migrate⟩
  case corrected =>
    intro c r x s hchan hreader hresult hlive hcalm
    have h : exec (.dramReadComplete c r x) s = .next (dramRead c r x s) := rfl
    have hread : dramRead c r x s = forcedGo (requesterRead c r x.line 1 s) := by
      simp [dramRead, hchan, hreader, hresult]
    have hcalm' : (onDev (readCorrected c r x.line) s).dev.calm = true :=
      (calm_congr (readCorrected_followUps ..)).trans hcalm
    have hval (k : Nat) := readCorrected_val c r x.line k s.dev
    rw [h, hread, requesterRead_corrected hlive, forcedGo_calm _ hcalm']
    exact completes_next ⟨get_of_val ((hval _).trans (if_pos rfl)), onDev_mem .., onDev_poison .., onDev_arb ..,
      fun k hk => (hval k).trans (if_neg hk)⟩
  case scrub =>
    intro c r x l s hperiod hline hresult hlive
    have h : exec (.scrubRead c r x) s = execScrubRead c r x s := rfl
    rw [h, execScrubRead, if_neg (by simp [hperiod, hline]), hresult, requesterRead_uncorrectable hlive hline]
  case migrate =>
    intro c m g s hmig hgeo hc
    obtain ⟨a, b, h⟩ := exec_migrateDone hmig hgeo
    rw [h]
    refine completes_next ⟨migrated_mig hc, migrated_order hc, ?mark, ?spare, onDev_mem .., onDev_arb .., fun k hm hs => ?frame⟩
    case mark => simp
    case spare => simp
    case frame => simp [hm, hs, migrated_val]

/-! ## Training (R277, R279) -/

theorem dramRule_retrain {d : Dev} (hmode : d.mode = mSERVICE) : dramRule Reg.dram_RETRAIN (.num 1) d = none := by
  simp [dramRule, hmode]

theorem dramEffect_retrain (s : State) : dramEffect Reg.dram_RETRAIN (.num 1) s = startTraining s := rfl

/-- RETRAIN in SERVICE starts training. -/
theorem exec_retrain {w : Writer} {s : State} (hc : writeCheck s.dev w Reg.dram_RETRAIN (.num 1) = none)
    (hmode : s.dev.mode = mSERVICE) :
    exec (.retrain w) s = .next (accepted w Reg.dram_RETRAIN (.num 1) (fun _ => startTraining) s) := by
  have h : exec (.retrain w) s = .next (finishWrite s (writeDram w Reg.dram_RETRAIN (.num 1) s)) := rfl
  have hok := finishWrite_ok w Reg.dram_RETRAIN (.num 1) (fun t => dramRule Reg.dram_RETRAIN (.num 1) t.dev)
    (fun _ => dramEffect Reg.dram_RETRAIN (.num 1)) s hc (dramRule_retrain hmode)
  have heffect : dramEffect Reg.dram_RETRAIN (.num 1) = startTraining := funext dramEffect_retrain
  rw [h]
  exact congrArg Host.Outcome.next (heffect ▸ hok)

theorem accepted_state (w : Writer) (k : Nat) (v : Val) (f : State → State) (s : State) : accepted w k v (fun _ => f) s =
    onDev (fun d => { d with answer := 0 }) (f (onDev (recordWrite w k v) (roomToRecord w s))) := rfl

theorem answered_dram (s : State) : (onDev (fun d => { d with answer := 0 }) s).dev.dram = s.dev.dram := rfl

theorem startTraining_mem (s : State) : (startTraining s).mem = [] := rfl

theorem startTraining_training (s : State) : (startTraining s).dev.dram.training = true := rfl

/-! ## Refresh (R280) -/

/-- Within the limit no urgent refresh is issued. -/
theorem urgent_of_le {c r limit : Nat} {d : Dev} (h : (d.dram.rank c r).owed ≤ limit) :
    (urgent c r limit d).2 = setRank c r (fun y => { y with owed := y.owed - 0 }) d := by
  have hn : (d.dram.rank c r).owed - limit = 0 := by omega
  simp only [urgent, hn, List.range_zero, List.foldl_nil]

/-- What a tick that is due leaves of its rank, within the limit. -/
def refreshed (idle due : Nat) (y : Rank) : Rank := { y with owed := y.owed - idle + 1, due := some due }

section
variable {c : Fin 12} {r : Fin 4} {idle : Nat} {s : State}

theorem exec_refreshTick_of_due (hlive : (s.dev.dram.rank c r).live = true) (hdue : (s.dev.dram.rank c r).due = none)
    (hmode : s.dev.mode ≠ mTHERMAL) :
    exec (.refreshTick c r idle) s = .next (onDev (fun d => (urgent c r (if s.dev.doubled c then 2 else 4)
      (setRank c r (refreshed idle (s.dev.time.raw + refi (s.dev.doubled c))) d)).2) s) := by
  have h : exec (.refreshTick c r idle) s = execRefreshTick c r idle s := rfl
  have hgo : ¬(!(s.dev.dram.rank c r).live || !true || decide (s.dev.mode = mTHERMAL)) = true := by simp [hlive, hmode]
  rw [h]
  simp only [execRefreshTick, onDev, hdue]
  rw [if_neg hgo]
  rfl

/-- A tick that leaves the count owed within the limit changes its rank alone. -/
theorem exec_refreshTick (hlive : (s.dev.dram.rank c r).live = true) (hdue : (s.dev.dram.rank c r).due = none)
    (hmode : s.dev.mode ≠ mTHERMAL) (howed : (s.dev.dram.rank c r).owed - idle + 1 ≤ 2)
    (hc : c.val < s.dev.dram.chans.length) (hr : r.val < (s.dev.dram.chan c).ranks.length) :
    exec (.refreshTick c r idle) s = .next (onDev (fun d => setRank c r (fun y => { y with owed := y.owed - 0 })
      (setRank c r (refreshed idle (s.dev.time.raw + refi (s.dev.doubled c))) d)) s) := by
  have hrank := rank_setRank c r s.dev (refreshed idle (s.dev.time.raw + refi (s.dev.doubled c))) hc hr
  have hlimit : ((setRank c r (refreshed idle (s.dev.time.raw + refi (s.dev.doubled c))) s.dev).dram.rank c r).owed ≤
      if s.dev.doubled c then 2 else 4 := by
    rw [hrank, refreshed]
    dsimp only
    split <;> omega
  rw [exec_refreshTick_of_due hlive hdue hmode]
  simp only [onDev, urgent_of_le hlimit]

end

/-- The channels and a channel's ranks are as many as before. -/
theorem length_setRank (c r : Nat) (f : Rank → Rank) (d : Dev) :
    (setRank c r f d).dram.chans.length = d.dram.chans.length := List.length_modify ..

theorem length_ranks_setRank (c r : Nat) (f : Rank → Rank) (d : Dev) :
    ((setRank c r f d).dram.chan c).ranks.length = (d.dram.chan c).ranks.length :=
  nth_updAt_proj (fun x => x.ranks.length) (fun _ => List.length_modify ..) c c d.dram.chans

theorem exec_drfmIssue {c : Fin 12} {r : Fin 4} {bank : Fin 32} {rows : List Nat} {row : Nat} {s : State}
    (hrow : rows.getLast? = some row) (hlive : (s.dev.dram.rank c r).live = true) :
    exec (.drfmIssue c r bank rows) s = .next (onDev (fun d => emit .dram (dramInst c r) [2, bank.val, row] []
      (inc64 Reg.dram_DRFM_ISSUED (addW 64 Reg.dram_DRFM_REPLACED (rows.length - 1) d))) s) := by
  have h : exec (.drfmIssue c r bank rows) s = execDrfmIssue c r bank rows s := rfl
  rw [h]
  simp only [execDrfmIssue, onDev, hrow, hlive, Bool.not_true, Bool.false_eq_true, if_false]

theorem exec_rfmIssue {c : Fin 12} {r : Fin 4} {bank : Fin 32} {s : State} (hlive : (s.dev.dram.rank c r).live = true) :
    exec (.rfmIssue c r bank) s = .next (onDev (emit .dram (dramInst c r) [3, bank.val] []) s) := by
  have h : exec (.rfmIssue c r bank) s = execRfmIssue c r bank s := rfl
  rw [h]
  simp only [execRfmIssue, onDev, hlive, if_true]

/-- Settles O36: RETRAIN is the write of an entry whose effect starts training; a tick within the limit changes its rank alone.
That training leaves a memory that reads 0 is this model's choice (assumption 232). -/
theorem dramIsTrainedAndRefreshed : Obligations.DramIsTrainedAndRefreshed := by
  refine ⟨?retrain, ?result, ?boot, ?tick, ?drfm, fun c r bank s hlive => exec_rfmIssue hlive⟩
  case retrain =>
    intro w s hc hmode
    rw [exec_retrain hc hmode]
    refine completes_next ⟨?mem, ?training, rfl⟩
    case mem => rw [accepted_state, onDev_mem, startTraining_mem]
    case training => rw [accepted_state, answered_dram, startTraining_training]
  case result =>
    intro l s htraining hmode
    have h : exec (.dramTrainingComplete l) s = .next (trainingEnd l s) := rfl
    rw [h]
    simp only [trainingEnd, htraining, Bool.not_true, Bool.false_eq_true, if_false, if_neg hmode, onDev]
  case boot =>
    intro l s htraining hmode
    have h : exec (.dramTrainingComplete l) s = .next (trainingEnd l s) := rfl
    rw [h]
    simp only [trainingEnd, htraining, Bool.not_true, Bool.false_eq_true, if_false, if_pos hmode, onDev]
  case tick =>
    intro c r idle s hlive hdue hmode howed hc hr
    have hrank := rank_setRank c r s.dev (refreshed idle (s.dev.time.raw + refi (s.dev.doubled c))) hc hr
    have hrank' := rank_setRank c r (setRank c r (refreshed idle (s.dev.time.raw + refi (s.dev.doubled c))) s.dev)
      (fun y => { y with owed := y.owed - 0 }) ((length_setRank ..).symm ▸ hc) ((length_ranks_setRank ..).symm ▸ hr)
    rw [exec_refreshTick hlive hdue hmode howed hc hr]
    refine completes_next ⟨?owed, ?due, rfl, rfl, onDev_arb .., onDev_mem ..⟩
    case owed => rw [onDev_dev, hrank', hrank]; rfl
    case due => rw [onDev_dev, hrank', hrank]; rfl
  case drfm =>
    intro c r bank rows row s hrow hlive
    rw [exec_drfmIssue hrow hlive]
    refine completes_next ⟨?issued, ?replaced, rfl, onDev_arb .., onDev_mem .., fun k hi hr => ?frame⟩
    case issued => simp
    case replaced => simp
    case frame => simp [hi, hr]

end Sys2Proof.Machine
end

section
/-! The statement about boot, its sources, and updates of the firmware. -/

namespace Sys2Proof.Machine

/-! ## The ROM (R532, R533, R538) -/

/-- The ROM's reads of the flash's parameter table change the I/O that it takes and what it puts out, and nothing else. -/
theorem norDiscover_eq (d : Dev) : ∃ b o, norDiscover d = { d with boot := b, out := o } ∧
    (d.flash.table = none → b = d.boot) ∧
    ∀ a, d.flash.table = some a → b.norLines = d.flash.lines ∧ b.norMhz = 100 := by
  unfold norDiscover
  extract_lets d1
  cases htable : d.flash.table with
  | none => exact ⟨d.boot, _, rfl, fun _ => rfl, fun a ha => nomatch ha⟩
  | some a => exact ⟨_, _, rfl, fun h => (nomatch h), fun b _ => ⟨rfl, rfl⟩⟩

/-- A wait for a push changes the boot's state and BOOT_SOURCE. -/
theorem waitPush_eq (source : Nat) (d : Dev) :
    ∃ b, waitPush source d = setN Reg.boot_BOOT_SOURCE source { d with boot := b } ∧ b.phase = .waiting := ⟨_, rfl, rfl⟩

theorem exec_romBoot (s : State) : exec .romBoot s = .next (mbxGo (romBoot s)) := rfl

theorem exec_bootPushGo (s : State) : exec .bootPushGo s = .next (mbxGo (pushGo s)) := rfl

section
variable {s : State}

theorem romBoot_of_push (hmode : s.dev.mode = mBOOT) (hphase : s.dev.boot.phase = .rom) (hsel : s.dev.boot.straps % 4 = 1) :
    romBoot s = onDev (waitPush 1) (onDev norDiscover s) := by
  unfold romBoot
  extract_lets d sel s1 p
  rw [if_neg (not_or_intro (not_not_intro hmode) (not_not_intro hphase)), if_neg (by simp [sel, d, hsel]), if_pos hsel]

theorem romBoot_of_slots (hmode : s.dev.mode = mBOOT) (hphase : s.dev.boot.phase = .rom) (hsel : s.dev.boot.straps % 4 = 0)
    {p : Nat} (hp : p = if rdLe s.dev.header 5 1 = 1 then 1 else 0) :
    romBoot s = romSlots [p, 1 - p] [] p (onDev (norOut 1 0 0x2000) (onDev norDiscover s)) := by
  unfold romBoot
  extract_lets d sel s1 q
  rw [if_neg (not_or_intro (not_not_intro hmode) (not_not_intro hphase)), if_pos hsel, hp]

/-- What the checks of a pushed image say of it (Table 21.6). -/
def pushReason (d : Dev) : Nat := imageCheck (fun o n => Mem.readBytes d.boot.window o n) d.boot.pushLen d

/-- A pushed image that fails its checks is reported. -/
def pushFailed (r : Nat) (d : Dev) : Dev :=
  post 0x0304 0xFFFF 0xFF r { d with boot := { d.boot with pushStatus := r * 256 + 3 } }

theorem pushGo_of_waiting (hmode : s.dev.mode = mBOOT) (hphase : s.dev.boot.phase = .waiting) : pushGo s =
    if pushReason s.dev = 0 then
      firmwareStart 0xFF (s.dev.get Reg.boot_BOOT_SOURCE) false (s.dev.get Reg.boot_BOOT_SOURCE == 2)
        (Mem.readBytes s.dev.boot.window 0 512) s
    else onDev (pushFailed (pushReason s.dev)) s :=
  if_neg (not_or_intro (not_not_intro hmode) (not_not_intro hphase))

end

/-! ## Updates, commits and IDs (R537, R539, R540) -/

section
variable {w : Writer} {image : List Byte} {s : State}

theorem exec_fwUpdate_of_mode (hc : writeCheck s.dev w Reg.boot_FW_UPDATE (.bytes image) = none)
    (hmode : s.dev.mode = mSTANDBY ∨ s.dev.mode = mCONFIGURE) (hlen : image.length ≤ slotSize) :
    exec (.fwUpdate w image) s =
      .next (accepted w Reg.boot_FW_UPDATE (.bytes image) (fun _ => onDev (Sys2Proof.Machine.fwUpdate image)) s) := by
  refine congrArg Host.Outcome.next (finishWrite_ok w _ _ _ _ s hc ?_)
  rw [if_neg (fun h => hmode.elim h.1 h.2), if_neg (Nat.not_lt.mpr hlen)]

theorem exec_fwUpdate_refused (hc : writeCheck s.dev w Reg.boot_FW_UPDATE (.bytes image) = none)
    (hstandby : s.dev.mode ≠ mSTANDBY) (hconfigure : s.dev.mode ≠ mCONFIGURE) :
    exec (.fwUpdate w image) s = .next (onDev (fun d => { d with answer := stMODE }) s) :=
  congrArg Host.Outcome.next (finishWrite_rule w _ stMODE _ _ id _ s hc (if_pos ⟨hstandby, hconfigure⟩))

theorem exec_fwCommit (hc : writeCheck s.dev w Reg.boot_FW_COMMIT (.num 1) = none) :
    exec (.fwCommit w) s = .next (accepted w Reg.boot_FW_COMMIT (.num 1) (fun _ => onDev commitSlot) s) :=
  congrArg Host.Outcome.next ((finishWrite_ok w _ _ _ _ s hc rfl).trans (accepted_congr (if_pos rfl)))

theorem exec_subsystemIds {v : Nat} (hc : writeCheck s.dev w Reg.boot_SUBSYSTEM_IDS (.num v) = none) :
    exec (.subsystemIds w v) s = .next (accepted w Reg.boot_SUBSYSTEM_IDS (.num v) (fun _ => onDev (fun d =>
      writeHeader (putB d.header 0x10 (leBytes 2 (v / 65536) ++ leBytes 2 v)) (setN Reg.boot_SUBSYSTEM_IDS v d))) s) :=
  congrArg Host.Outcome.next (finishWrite_ok w _ _ _ _ s hc rfl)

end

/-! ## The rail (R541) -/

theorem exec_vengConfirmTimeout {mv raw : Nat} {s : State} (hraw : s.dev.boot.vengRaw = some raw) (hdue : 120000 ≤ s.dev.since raw) :
    exec (.vengConfirmTimeout mv) s = .next (onDev (fun d =>
      post 0x0404 0xFFFF d.boot.vengSet mv { d with boot := { d.boot with vengRaw := none } }) s) := by
  have h : exec (.vengConfirmTimeout mv) s = execVengConfirmTimeout mv s := rfl
  rw [h]
  simp only [execVengConfirmTimeout, hraw, if_pos hdue]

/-- Settles O59: each start of the ROM is a branch of `romBoot` or `pushGo`, and each update the write of an entry. That the ROM
takes 100 MHz and the table's data lines is presumed (assumption 480). -/
theorem firmwareBootsAndUpdates : Obligations.FirmwareBootsAndUpdates := by
  refine ⟨?push, ?waiting, ?slots, ?go, fun w image s => exec_fwUpdate_of_mode, fun w image s => exec_fwUpdate_refused,
    fun w s => exec_fwCommit, fun w v s => exec_subsystemIds, ?rail⟩
  case push =>
    intro s hmode hphase hsel
    rw [exec_romBoot, romBoot_of_push hmode hphase hsel]
  case waiting =>
    intro d
    obtain ⟨b, o, hnor, hnone, hsome⟩ := norDiscover_eq d
    rw [hnor]
    obtain ⟨b', hwait, hphase⟩ := waitPush_eq 1 { d with boot := b, out := o }
    rw [hwait]
    exact ⟨hphase, setN_get_same .., rfl, rfl, fun k hk => setN_val_of_ne hk _ _, hnone, hsome⟩
  case slots =>
    rintro s t hmode hphase hsel rfl
    refine ⟨fun hfirst => ?_, fun hfirst => ?_⟩
    · rw [exec_romBoot, romBoot_of_slots hmode hphase hsel (if_pos hfirst).symm]
    · rw [exec_romBoot, romBoot_of_slots hmode hphase hsel (if_neg hfirst).symm]
  case go =>
    intro s hmode hphase
    rw [exec_bootPushGo, pushGo_of_waiting hmode hphase]
    refine ⟨fun hpass => congrArg (fun t => Host.Outcome.next (mbxGo t)) (if_pos hpass), ?_⟩
    rintro r rfl hfail
    exact congrArg (fun t => Host.Outcome.next (mbxGo t)) (if_neg hfail)
  case rail =>
    intro mv raw s hraw hdue
    rw [exec_vengConfirmTimeout hraw hdue]
    exact completes_next ⟨rfl, post_sources_congr rfl rfl rfl rfl, rfl, onDev_arb .., onDev_mem ..⟩

end Sys2Proof.Machine
end

section
/-! The statement about the housekeeping round, the shutdown and hold-up. -/

namespace Sys2Proof.Machine

/-- Device time is formed from three entries, and no other entry counts. -/
theorem tbNow_setN_of_ne {k : Nat} (hoffset : k ≠ Reg.tb_TB_OFFSET) (hrate : k ≠ Reg.tb_TB_RATE) (hanchor : k ≠ Reg.tb_TB_ANCHOR)
    (n : Nat) (d : Dev) : tbNow (setN k n d) = tbNow d :=
  tbNow_congr rfl (setN_get_of_ne hanchor.symm n d) (setN_get_of_ne hoffset.symm n d) (setN_get_of_ne hrate.symm n d)

/-! ## The round and the shutdown (R497, R508, R509) -/

theorem exec_housekeepingRound {codes : List Nat} {zones : List Rat} {hot : List (Nat × Nat)} {s : State}
    (hmode : s.dev.mode ≠ 0) : exec (.housekeepingRound codes zones hot) s =
      .next (magSettle (match (hkRound codes zones hot s.dev).shutCause with
        | some c => hardwareShutdown c (onDev (hkRound codes zones hot) s)
        | none => onDev (hkRound codes zones hot) s)) := by
  have h : exec (.housekeepingRound codes zones hot) s = .next (roundEnd codes zones hot s) := rfl
  rw [h, roundEnd, if_neg hmode]
  rfl

theorem thermalRestart_of_due {n : Nat} {s : State} (hmode : s.dev.mode = mTHERMAL) (hhold : s.dev.therm.holdMs = some n)
    (hdue : s.dev.get Reg.thm_HOLD_TIME_S * 1000 ≤ n) : thermalRestart s = warmReset 0x10 s := by
  simp only [thermalRestart, hhold, if_pos (And.intro hmode hdue)]

/-! ## Hold-up (R512 to R516) -/

/-- CAP_CHG_EN is a pin and the entry CAP_CHG_ALLOWED. -/
theorem capSync_eq (d : Dev) : ∃ r o, capSync d = { d with regs := r, out := o } ∧
    ∀ k, k ≠ Reg.hold_CAP_CHG_ALLOWED → (capSync d).val k = d.val k := by
  unfold capSync
  extract_lets level
  split
  · exact ⟨_, _, rfl, fun _ _ => rfl⟩
  · exact ⟨_, _, rfl, fun k hk => setN_val_of_ne hk level d⟩

/-- What a synchronised pin leaves of the units. -/
structure CapKept (d e : Dev) : Prop where
  val : ∀ k, k ≠ Reg.hold_CAP_CHG_ALLOWED → e.val k = d.val k
  sources : e.sources = d.sources
  posts : e.posts = d.posts
  time : e.time = d.time
  units : e.units = d.units
  holdup : e.holdup = d.holdup
  pwr : e.pwr = d.pwr

theorem capKept_capSync (d : Dev) : CapKept d (capSync d) := by
  obtain ⟨r, o, h, hval⟩ := capSync_eq d
  refine ⟨hval, ?_, ?_, ?_, ?_, ?_, ?_⟩ <;> rw [h]

theorem CapKept.tbNow {d e : Dev} (h : CapKept d e) : tbNow e = tbNow d :=
  tbNow_congr (congrArg TimeBase.raw h.time) (get_congr (h.val _ (by decide)))
    (get_congr (h.val _ (by decide))) (get_congr (h.val _ (by decide)))

/-- The units in hold-up, before the input's loss is posted. -/
def holdupBegun (d : Dev) : Dev :=
  { d with holdup := true, pwr := { raw := d.time.raw, done := false, restored := false, held := none } }

/-- The units once the loss of the input is posted, and the recorder's gate with it. -/
def holdupPosted (source : Nat) (d : Dev) : Dev :=
  post 0x2903 0xFFFF (satU32 d.rcq.refused) 3
    (setN Reg.hold_HOLDUP_STATE 1 (capSync (post 0x3C07 0xFFFF source d.mode (holdupBegun d))))

theorem powerFail_of_preview {source : Nat} {s : State} (hhold : s.dev.holdup = false) (hmode : s.dev.mode = mPREVIEW) :
    powerFail source s = magSettle (forceStandby (onDev (fun _ =>
      (List.finRange 8).foldl (fun e k => unitDisable (.bank k) none e) (holdupPosted source s.dev)) s)) := by
  unfold powerFail
  extract_lets d d1 d2 d3 s1
  have hgo : ¬(d.holdup = true ∨ d.mode = 0) := by
    simp [d, hhold, hmode]
  have hboot : d.mode ≠ mBOOT := by simp [d, hmode]
  have hlow : ¬(d.mode = mTHERMAL ∨ d.mode = mSTANDBY ∧ d.target = 0) := by simp [d, hmode]
  rw [if_neg hgo, if_neg hlow, if_neg hboot]
  rfl

theorem holdupPosted_fields (source : Nat) (d : Dev) : ∃ e, CapKept (post 0x3C07 0xFFFF source d.mode (holdupBegun d)) e ∧
    holdupPosted source d = post 0x2903 0xFFFF (satU32 d.rcq.refused) 3 (setN Reg.hold_HOLDUP_STATE 1 e) :=
  ⟨_, capKept_capSync _, rfl⟩

/-- The two events of the loss of the input, in order. -/
theorem holdupPosted_sources (source : Nat) (d : Dev) : (holdupPosted source d).sources =
    (post 0x2903 0xFFFF (satU32 d.rcq.refused) 3 (post 0x3C07 0xFFFF source d.mode d)).sources := by
  obtain ⟨e, hkept, hposted⟩ := holdupPosted_fields source d
  have hfirst : (post 0x3C07 0xFFFF source d.mode (holdupBegun d)).sources = (post 0x3C07 0xFFFF source d.mode d).sources :=
    post_sources_congr rfl rfl rfl rfl
  have htb : tbNow (setN Reg.hold_HOLDUP_STATE 1 e) = tbNow d :=
    (tbNow_setN_of_ne (by decide) (by decide) (by decide) 1 e).trans (hkept.tbNow.trans rfl)
  rw [hposted]
  exact post_sources_congr (hkept.sources.trans hfirst) hkept.posts hkept.time htb

/-- What the loss of the input leaves of the units in PREVIEW. -/
structure HeldUp (d e : Dev) : Prop where
  holdup : e.holdup = true
  state : e.get Reg.hold_HOLDUP_STATE = 1
  mode : e.mode = d.mode
  units : e.units = d.units
  raw : e.pwr.raw = d.time.raw
  done : e.pwr.done = false

theorem heldUp_holdupPosted (source : Nat) (d : Dev) : HeldUp d (holdupPosted source d) := by
  obtain ⟨e, hkept, hposted⟩ := holdupPosted_fields source d
  rw [hposted]
  exact ⟨hkept.holdup, setN_get_same .., (setN_get_of_ne (by decide) 1 e).trans (get_congr (hkept.val _ (by decide))), hkept.units,
    congrArg PowerFail.raw hkept.pwr, congrArg PowerFail.done hkept.pwr⟩

theorem powerFail_of_holdup {source : Nat} {s : State} (h : s.dev.holdup = true) : powerFail source s = s := if_pos (.inl h)

/-- The units with the input restored. -/
def inputRestored (mv : Nat) (d : Dev) : Dev :=
  setN Reg.hold_HOLDUP_STATE 3 (post 0x3C08 0xFFFF mv 0 { d with pwr := { d.pwr with restored := true } })

theorem inputRestored_pwr (mv : Nat) (d : Dev) : (inputRestored mv d).pwr = { d.pwr with restored := true } := rfl

theorem inputRestored_val (mv k : Nat) (d : Dev) :
    (inputRestored mv d).val k = if k = Reg.hold_HOLDUP_STATE then .num 3 else d.val k := setN_val ..

theorem inputRestored_sources (mv : Nat) (d : Dev) : (inputRestored mv d).sources = (post 0x3C08 0xFFFF mv 0 d).sources :=
  post_sources_congr rfl rfl rfl rfl

/-- Until EV 0x3C0A nothing that waits for it goes on. -/
theorem afterHoldup_of_undone {s : State} (h : s.dev.pwr.done = false) : afterHoldup s = s := by
  refine if_neg ?_
  rintro ⟨-, hdone, -⟩
  rw [h] at hdone
  cases hdone

theorem powerRestored_of_clear {mv : Nat} {s : State} (hhold : s.dev.holdup = true) (hnot : s.dev.pwr.restored = false)
    (hdone : s.dev.pwr.done = false) (htime : s.dev.get Reg.rail_PWR_RESTORE_S * 1200000000 ≤ s.dev.since s.dev.pwr.raw)
    (hlevel : f32Rat (s.dev.get Reg.rail_PWR_FAIL_V) + f32Rat (s.dev.get Reg.rail_PWR_FAIL_HYST_V) ≤ ((mv : Nat) : Rat) / 1000) :
    powerRestored mv s = onDev (inputRestored mv) s := by
  have hgo : s.dev.holdup = true ∧ (!s.dev.pwr.restored) = true ∧
      s.dev.get Reg.rail_PWR_RESTORE_S * 1200000000 ≤ s.dev.since s.dev.pwr.raw ∧
      f32Rat (s.dev.get Reg.rail_PWR_FAIL_V) + f32Rat (s.dev.get Reg.rail_PWR_FAIL_HYST_V) ≤ ((mv : Nat) : Rat) / 1000 :=
    ⟨hhold, by rw [hnot]; rfl, htime, hlevel⟩
  have hundone : (onDev (inputRestored mv) s).dev.pwr.done = false := by
    rw [onDev_dev, inputRestored_pwr]
    exact hdone
  exact (if_pos hgo).trans (afterHoldup_of_undone hundone)

/-- Settles O57: each command is the branch of its rule that the conditions choose. That the recorder's gate posts EV 0x2903 at
the start of hold-up is this model's choice (assumption 300). -/
theorem heatAndHoldupAreHandled : Obligations.HeatAndHoldupAreHandled := by
  refine ⟨?round, ?shut, ?restart, ?fail, ?again, ?restored⟩
  case round =>
    intro codes zones hot s hmode hcause
    rw [exec_housekeepingRound hmode, hcause]
  case shut =>
    intro codes zones hot c s hmode hcause
    rw [exec_housekeepingRound hmode, hcause]
  case restart =>
    intro n s hmode hhold hdue
    exact congrArg Host.Outcome.next (thermalRestart_of_due hmode hhold hdue)
  case fail =>
    intro src s hhold hmode
    have hheld := heldUp_holdupPosted src s.dev
    have h : exec (.pwrFail src) s = .next (powerFail src s) := rfl
    have hsources := holdupPosted_sources src s.dev
    rw [h, powerFail_of_preview hhold hmode]
    exact completes_next ⟨_, rfl, hheld.holdup, hheld.state, hheld.mode.trans hmode, hheld.units, hheld.raw, hheld.done, hsources⟩
  case again =>
    intro src s hhold
    exact congrArg Host.Outcome.next (powerFail_of_holdup hhold)
  case restored =>
    intro mv s hhold hnot hdone htime hlevel
    have h : exec (.pwrRestored mv) s = .next (powerRestored mv s) := rfl
    have hval (k : Nat) := inputRestored_val mv k s.dev
    rw [h, powerRestored_of_clear hhold hnot hdone htime hlevel]
    refine completes_next ⟨get_of_val ((hval _).trans (if_pos rfl)), ?pwr, inputRestored_sources mv s.dev,
      get_congr ((hval _).trans (if_neg (by decide))), fun k hk => (hval k).trans (if_neg hk), onDev_arb .., onDev_mem ..⟩
    case pwr => rw [onDev_dev, inputRestored_pwr]

end Sys2Proof.Machine
end

section
/-! The statement about resets: what each records, what it keeps, and which requests it answers. -/

namespace Sys2Proof.Machine

/-! ## The record of a reset (R22, R529) -/

/-- A record logged has the next sequence number; whether the host's copy takes it changes no entry. -/
theorem logRecord_log (tb code inst arg0 arg1 : Nat) (s : State) :
    (logRecord tb code inst arg0 arg1 s).arb.next = s.arb.next + 1 ∧
      (logRecord tb code inst arg0 arg1 s).arb.ring =
        (s.arb.append (.mk s.arb.next tb code inst (arg0 % 2 ^ 32) (arg1 % 2 ^ 32))).ring := by
  simp only [logRecord, copyRecord]
  split
  · exact ⟨rfl, rfl⟩
  · split
    · exact ⟨rfl, rfl⟩
    · split
      · exact ⟨rfl, rfl⟩
      · exact ⟨rfl, rfl⟩

/-- The three entries that a reset sets (R529). -/
theorem resetCause_val (cause count k : Nat) (d : Dev) : (resetCause cause count d).val k =
    if k = Reg.clk_RESET_CAUSE then .num cause else if k = Reg.clk_RESET_COUNT then .num count
    else if k = Reg.mode_MODE_EXIT_CAUSE then .num (exitOfReset cause) else d.val k := by
  simp [resetCause]

/-- The machine from which the reset record is made. -/
def resetBlank (cause count : Nat) (d : Dev) (s : State) : State :=
  { s with dev := resetCause cause count d, arb := Arbiter.reset, mem := [], poison := [] }

theorem afterReset_eq (cause count : Nat) (d : Dev) (s : State) :
    afterReset cause count d s = logRecord (tbNow d) 0x0401 0xFFFF cause count (resetBlank cause count d s) := rfl

theorem resetBlank_arb (cause count : Nat) (d : Dev) (s : State) : (resetBlank cause count d s).arb = Arbiter.reset := rfl

theorem ring_append_reset (r : LogRecord) : (Arbiter.reset.append r).ring = [r] := by
  simp [Arbiter.append, Arbiter.reset]

section
variable (cause count : Nat) (d : Dev) (s : State)

theorem afterReset_val (k : Nat) : (afterReset cause count d s).dev.val k =
    if k = Reg.clk_RESET_CAUSE then .num cause else if k = Reg.clk_RESET_COUNT then .num count
    else if k = Reg.mode_MODE_EXIT_CAUSE then .num (exitOfReset cause) else d.val k := by
  rw [afterReset_eq, (arbitrated_logRecord ..).val]
  exact resetCause_val ..

theorem afterReset_cause : (afterReset cause count d s).dev.get Reg.clk_RESET_CAUSE = cause :=
  get_of_val ((afterReset_val ..).trans (if_pos rfl))

theorem afterReset_count : (afterReset cause count d s).dev.get Reg.clk_RESET_COUNT = count :=
  get_of_val (by rw [afterReset_val, if_neg (by decide), if_pos rfl])

theorem afterReset_exit : (afterReset cause count d s).dev.get Reg.mode_MODE_EXIT_CAUSE = exitOfReset cause :=
  get_of_val (by rw [afterReset_val, if_neg (by decide), if_neg (by decide), if_pos rfl])

/-- The first record of the new sequence is EV 0x0401. -/
theorem afterReset_ring : (afterReset cause count d s).arb.ring =
    [.mk 0 (tbNow d) 0x0401 0xFFFF (cause % 2 ^ 32) (count % 2 ^ 32)] := by
  rw [afterReset_eq, (logRecord_log ..).2, resetBlank_arb, ring_append_reset]
  rfl

theorem afterReset_next : (afterReset cause count d s).arb.next = 1 := by
  rw [afterReset_eq, (logRecord_log ..).1]
  rfl

theorem afterReset_mem : (afterReset cause count d s).mem = [] := by
  rw [afterReset_eq, (arbitrated_logRecord ..).mem]
  rfl

theorem afterReset_poison : (afterReset cause count d s).poison = [] := by
  rw [afterReset_eq, (arbitrated_logRecord ..).poison]
  rfl

theorem afterReset_pending : (afterReset cause count d s).pending = s.pending := by
  rw [afterReset_eq, (arbitrated_logRecord ..).pending]
  rfl

end

section
variable {cause count : Nat} {d : Dev} {s : State} (h : d.ep.evtSize = 0)
include h

/-- After a reset that disables the host's copy the record changes the log and the sessions alone. -/
theorem afterReset_noCopy : ∃ r, afterReset cause count d s =
    { resetBlank cause count d s with arb := Arbiter.reset.append r, dev := deliver r (resetCause cause count d) } :=
  ⟨_, (afterReset_eq ..).trans (logRecord_noCopy _ _ _ _ _ h)⟩

theorem afterReset_hostMem : (afterReset cause count d s).hostMem = s.hostMem := by
  obtain ⟨r, hr⟩ := afterReset_noCopy (cause := cause) (count := count) (s := s) h
  rw [hr]
  rfl

theorem afterReset_units : (afterReset cause count d s).dev.time = d.time ∧
    (afterReset cause count d s).dev.sources = d.sources ∧ (afterReset cause count d s).dev.fuses = d.fuses ∧
    (afterReset cause count d s).dev.boot = d.boot := by
  obtain ⟨r, hr⟩ := afterReset_noCopy (cause := cause) (count := count) (s := s) h
  rw [hr]
  exact ⟨rfl, rfl, rfl, rfl⟩

end

/-! ## What a reset keeps of the entries (R526) -/

theorem Regs.find_append {a : Regs} {k : Nat} (h : Regs.find a k = none) (b : Regs) : Regs.find (a ++ b) k = Regs.find b k := by
  induction a with
  | nil => rfl
  | cons x a ih =>
    obtain ⟨j, v⟩ := x
    rw [Regs.find] at h
    rw [List.cons_append, Regs.find]
    split
    · next hj => rw [if_pos hj] at h; cases h
    · next hj => rw [if_neg hj] at h; exact ih h

/-- The fused entries are those of the identity record. -/
theorem find_fusedRegs {k : Nat} (hk : k / 256 ≠ 0x0100) (r : Regs) : Regs.find (fusedRegs r) k = none := by
  induction r with
  | nil => rfl
  | cons x r ih =>
    obtain ⟨j, v⟩ := x
    rw [fusedRegs, List.filter_cons]
    split
    · next hj =>
      have hne : j ≠ k := by
        rintro rfl
        exact hk (by simpa using hj)
      rw [Regs.find, if_neg hne]
      exact ih
    · exact ih

theorem senseFuses_val {k : Nat} (hr : k ≠ Reg.fuse_ROLLBACK_FUSED) (hv : k ≠ Reg.fuse_KEYS_REVOKED) (d : Dev) :
    (senseFuses d).val k = d.val k := by
  rw [senseFuses, setN_val_of_ne hr, setN_val_of_ne hv]

theorem val_of_find {d : Dev} {k : Nat} {v : Val} (h : d.regs.find k = some v) : d.val k = v := by
  rw [Dev.val, h, Option.getD_some]

theorem val_of_unset {d : Dev} {k : Nat} (h : d.regs.find k = none) : d.val k = defaultVal k := by
  rw [Dev.val, h, Option.getD_none]

/-- MODE_CURRENT of a device whose store lists it nowhere. -/
theorem mode_of_unset {d : Dev} (h : d.regs.find Reg.mode_MODE_CURRENT = none) : d.mode = mBOOT :=
  get_of_val (val_of_unset h)

/-! ## Power-on reset and power loss (R526, R554) -/

/-- The units of a power-on reset, before the entries that name it. -/
def powerOnUnits (straps : Nat) (d : Dev) : Dev :=
  senseFuses { outside d { Dev.reset with regs := fusedRegs d.regs } with
    boot := { (outside d { Dev.reset with regs := fusedRegs d.regs }).boot with straps := straps % 16 } }

theorem powerOnUnits_mode (straps : Nat) (d : Dev) : (powerOnUnits straps d).mode = mBOOT :=
  get_of_val ((senseFuses_val (by decide) (by decide) _).trans (val_of_unset (find_fusedRegs (by decide) d.regs)))

/-- What the units are after a power-on reset, the entries aside. -/
structure PoweredOn (straps : Nat) (d e : Dev) : Prop where
  evtSize : e.ep.evtSize = 0
  straps : e.boot.straps = straps % 16
  sources : e.sources = []
  fuses : e.fuses = d.fuses

theorem poweredOn_powerOnUnits (straps : Nat) (d : Dev) : PoweredOn straps d (powerOnUnits straps d) := ⟨rfl, rfl, rfl, rfl⟩

theorem exec_powerOnReset (straps : Nat) (s : State) : exec (.powerOnReset straps) s =
    .next (afterReset (straps / 16 % 2) 0 (powerOnUnits straps s.dev) s) := rfl

/-- Device time is formed from no entry that a reset sets. -/
theorem afterReset_tbNow {cause count : Nat} {d : Dev} {s : State} (h : d.ep.evtSize = 0) :
    tbNow (afterReset cause count d s).dev = tbNow d := by
  have hget (k : Nat) (hc : k ≠ Reg.clk_RESET_CAUSE) (hn : k ≠ Reg.clk_RESET_COUNT) (he : k ≠ Reg.mode_MODE_EXIT_CAUSE) :
      (afterReset cause count d s).dev.get k = d.get k :=
    get_congr (by rw [afterReset_val, if_neg hc, if_neg hn, if_neg he])
  obtain ⟨htime, -⟩ := afterReset_units (cause := cause) (count := count) (s := s) h
  exact tbNow_congr (congrArg TimeBase.raw htime) (hget _ (by decide) (by decide) (by decide))
    (hget _ (by decide) (by decide) (by decide)) (hget _ (by decide) (by decide) (by decide))

/-! ## Warm resets (R526, R527) -/

/-- The entries that Table 21.2 keeps through a warm reset. -/
def keptEntries : List Nat := [Reg.tb_TB_OFFSET, Reg.tb_TB_RATE, Reg.tb_TB_ANCHOR, Reg.tb_TB_EPOCH, Reg.thm_SHUTDOWNS]

theorem lanesTo_fuses (p : Nat) (tx rx : Option Nat) (d : Dev) : (lanesTo p tx rx d).fuses = d.fuses := by
  unfold lanesTo
  exact foldl_proj Dev.fuses (fun _ _ => rfl) (List.range 8) d

theorem drivePin_fuses (pin : Nat) (active : Bool) (d : Dev) : (drivePin pin active d).fuses = d.fuses := by
  unfold drivePin
  split
  · rfl
  · rfl

theorem supplyOff_fuses (p : Nat) (d : Dev) : (supplyOff p d).fuses = d.fuses := by
  rw [supplyOff, drivePin_fuses, lanesTo_fuses, setMag_fuses]

theorem clocksStop_fuses (d : Dev) : (clocksStop d).fuses = d.fuses := by
  refine foldl_proj Dev.fuses (fun e p => ?_) _ d
  split
  · rfl
  · rfl

/-- What a warm reset leaves of the units, before the entries that name it. -/
structure WarmKept (d e : Dev) : Prop where
  mode : e.mode = mBOOT
  val : ∀ k ∈ keptEntries, e.val k = d.val k
  raw : e.time.raw = d.time.raw
  sources : e.sources = []
  fuses : e.fuses = d.fuses
  evtSize : e.ep.evtSize = 0

/-- What is put out and the entries named here do not matter to it. -/
theorem WarmKept.emit {d e : Dev} (h : WarmKept d e) (x : OutKind) (i : Nat) (l : List Nat) (b : List Byte) :
    WarmKept d (emit x i l b e) := ⟨h.mode, h.val, h.raw, h.sources, h.fuses, h.evtSize⟩

theorem WarmKept.ite {d e u : Dev} (c : Prop) [Decidable c] (he : WarmKept d e) (hu : WarmKept d u) :
    WarmKept d (if c then e else u) := by
  split
  · exact he
  · exact hu

theorem WarmKept.setN {d e : Dev} (h : WarmKept d e) {k : Nat} (hmode : k ≠ Reg.mode_MODE_CURRENT) (hk : k ∉ keptEntries) (n : Nat) :
    WarmKept d (setN k n e) :=
  ⟨(setN_get_of_ne hmode.symm n e).trans h.mode,
    fun j hj => (setN_val_of_ne (ne_of_mem_of_not_mem hj hk) n e).trans (h.val j hj), h.raw, h.sources, h.fuses, h.evtSize⟩

theorem warmKept_foldl {α : Type} {d : Dev} {f : Dev → α → Dev} (hf : ∀ e x, WarmKept d e → WarmKept d (f e x)) (l : List α) {e : Dev}
    (h : WarmKept d e) : WarmKept d (l.foldl f e) := by
  induction l generalizing e with
  | nil => exact h
  | cons x l ih => exact ih (hf e x h)

/-- The value that a listed key is given. -/
theorem find_map_of_mem {l : List Nat} {k : Nat} (h : k ∈ l) (f : Nat → Val) :
    Regs.find (l.map (fun j => (j, f j))) k = some (f k) := by
  induction l with
  | nil => cases h
  | cons j l ih =>
    rw [List.map_cons, Regs.find]
    split
    · next hj => rw [hj]
    · next hj => exact ih ((List.mem_cons.mp h).resolve_left (Ne.symm hj))

/-- The entries after a warm reset. -/
def keptRegs (d : Dev) : Regs := fusedRegs d.regs ++ keptEntries.map (fun k => (k, d.val k))

theorem keptRegs_find {k : Nat} (hk : k ∈ keptEntries) (d : Dev) : (keptRegs d).find k = some (d.val k) := by
  have hident : k / 256 ≠ 0x0100 := by
    revert k
    decide
  rw [keptRegs, Regs.find_append (find_fusedRegs hident d.regs), find_map_of_mem hk]

theorem keptRegs_mode (d : Dev) : (keptRegs d).find Reg.mode_MODE_CURRENT = none := by
  rw [keptRegs, Regs.find_append (find_fusedRegs (by decide) d.regs)]
  rfl

/-- Units with the entries of a warm reset and the rest as after a power-on reset. -/
theorem WarmKept.ofFields {d e : Dev} (hregs : e.regs = keptRegs d) (hraw : e.time.raw = d.time.raw) (hsources : e.sources = [])
    (hfuses : e.fuses = d.fuses) (hsize : e.ep.evtSize = 0) : WarmKept d e :=
  ⟨mode_of_unset (by rw [hregs, keptRegs_mode]), fun k hk => val_of_find (by rw [hregs, keptRegs_find hk]), hraw, hsources, hfuses,
    hsize⟩

theorem WarmKept.senseFuses {d e : Dev} (h : WarmKept d e) : WarmKept d (senseFuses e) :=
  (h.setN (by decide) (by decide) _).setN (by decide) (by decide) _

theorem warmReset_of_running {cause : Nat} {s : State} (hmode : s.dev.mode ≠ 0) (hin : s.dev.inReset = false) :
    ∃ e, WarmKept s.dev e ∧ warmReset cause s = afterReset cause ((s.dev.get Reg.clk_RESET_COUNT + 1) % 2 ^ 32) e s := by
  unfold warmReset
  extract_lets d kept d0 blank time e0 e1 ranks heat bus e2 e3 e4 e5
  have hfuses : e2.fuses = d.fuses := by
    refine (clocksStop_fuses d0).trans (foldl_proj Dev.fuses (fun e p => ?_) _ d)
    split
    · exact supplyOff_fuses p e
    · rfl
  have h2 : WarmKept d e2 := .ofFields rfl rfl rfl hfuses rfl
  have h3 : WarmKept d e3 := by
    refine warmKept_foldl (fun e n he => ?_) _ h2.senseFuses
    exact .ite _ (he.emit ..) he
  have h4 : WarmKept d e4 := .ite _ (h3.emit ..) h3
  have h5 : WarmKept d e5 := .ite _ (h4.emit ..) h4
  rw [if_neg hmode, if_neg (by rw [hin]; exact Bool.false_ne_true)]
  exact ⟨_, h5.setN (by decide) (by decide) _, rfl⟩

theorem mem_keptEntries {k : Nat} : k ∈ keptEntries ↔ k = Reg.tb_TB_OFFSET ∨ k = Reg.tb_TB_RATE ∨ k = Reg.tb_TB_ANCHOR ∨
    k = Reg.tb_TB_EPOCH ∨ k = Reg.thm_SHUTDOWNS := by
  simp [keptEntries]

theorem afterReset_val_of_kept {cause count : Nat} {d : Dev} {s : State} {k : Nat} (hk : k ∈ keptEntries) :
    (afterReset cause count d s).dev.val k = d.val k := by
  have hne : k ≠ Reg.clk_RESET_CAUSE ∧ k ≠ Reg.clk_RESET_COUNT ∧ k ≠ Reg.mode_MODE_EXIT_CAUSE := by
    revert k
    decide
  obtain ⟨hcause, hcount, hexit⟩ := hne
  rw [afterReset_val, if_neg hcause, if_neg hcount, if_neg hexit]

theorem afterReset_mode (cause count : Nat) (d : Dev) (s : State) : (afterReset cause count d s).dev.mode = d.mode :=
  get_congr (by rw [afterReset_val, if_neg (by decide), if_neg (by decide), if_neg (by decide)])

theorem exitOfReset_warm {cause : Nat} (h : 0x10 ≤ cause) : exitOfReset cause = if cause = 0x10 then 0x09 else 0x0B :=
  if_neg (by omega)

/-- The first record of the new sequence, by number, code and cause. -/
theorem afterReset_first {cause : Nat} (h : cause ≤ 0x15) (count : Nat) (d : Dev) (s : State) :
    (afterReset cause count d s).arb.ring.map (fun r => (r.seq, r.code, r.arg0)) = [(0, 0x0401, cause)] := by
  have hcause : cause % 2 ^ 32 = cause := Nat.mod_eq_of_lt (by omega)
  rw [afterReset_ring, hcause, List.map_singleton]

/-- A warm reset requested while a reset is in progress (R527). -/
theorem warmReset_of_inReset {cause : Nat} {s : State} (hmode : s.dev.mode ≠ 0) (hin : s.dev.inReset = true) :
    warmReset cause s = if causeRank cause < causeRank (s.dev.get Reg.clk_RESET_CAUSE) then
      afterReset cause (s.dev.get Reg.clk_RESET_COUNT) s.dev s else s :=
  (if_neg hmode).trans (if_pos hin)

/-! ## Requests (R528, R530) -/

section
variable {c : Nat} {s : State}

theorem requestReset_of_thermal (hmode : s.dev.mode = mTHERMAL) :
    requestReset c s = onDev (post 0x0403 0xFFFF c mTHERMAL) s := by
  have hrun : s.dev.mode ≠ 0 := by simp [hmode]
  exact (if_neg hrun).trans (if_pos hmode)

theorem requestReset_of_running (hmode : s.dev.mode ≠ 0) (hcool : s.dev.mode ≠ mTHERMAL) (hhold : s.dev.holdup = false) :
    requestReset c s = warmReset c s := by
  refine (if_neg hmode).trans ((if_neg hcool).trans (if_neg ?_))
  rintro ⟨hup, -⟩
  rw [hhold] at hup
  cases hup

/-- A request of a host or a client in hold-up, held (R528). -/
def requestHeld (c : Nat) (d : Dev) : Dev := post 0x0402 0xFFFF c 0 { d with pwr := { d.pwr with held := some c } }

theorem requestReset_of_holdup (hmode : s.dev.mode ≠ 0) (hcool : s.dev.mode ≠ mTHERMAL) (hhold : s.dev.holdup = true)
    (hdone : s.dev.pwr.done = false) (hc : c = 0x11 ∨ c = 0x12) (hheld : s.dev.pwr.held = none) :
    requestReset c s = onDev (requestHeld c) s := by
  have hgo : s.dev.holdup = true ∧ (!s.dev.pwr.done) = true ∧ (c = 0x11 ∨ c = 0x12) := ⟨hhold, by rw [hdone]; rfl, hc⟩
  refine (if_neg hmode).trans ((if_neg hcool).trans ((if_pos hgo).trans ?_))
  simp only [onDev, hheld]
  rfl

theorem exec_warmReset_of_request (hlo : 0x11 ≤ c) (hhi : c ≤ 0x14) : exec (.warmReset c) s = .next (requestReset c s) := by
  have h : exec (.warmReset c) s = execWarmReset c s := rfl
  rw [h, execWarmReset, if_neg (by omega), if_neg (by omega), if_pos ⟨hlo, hhi⟩]

/-- A write of the key to RESET_REQUEST asks for a reset. -/
theorem exec_resetRequest {w : Writer} (hc : writeCheck s.dev w Reg.clk_RESET_REQUEST (.num 0xA5A55A5A) = none) :
    exec (.resetRequest w 0xA5A55A5A) s =
      .next (accepted w Reg.clk_RESET_REQUEST (.num 0xA5A55A5A) (fun _ => requestReset 0x12) s) := by
  have hok := finishWrite_ok w Reg.clk_RESET_REQUEST (.num 0xA5A55A5A) noRule
    (fun _ s => if 0xA5A55A5A = 0xA5A55A5A then requestReset 0x12 s else s) s hc rfl
  have heffect : (fun (_ : Nat) (s : State) => if 0xA5A55A5A = 0xA5A55A5A then requestReset 0x12 s else s) =
      fun _ => requestReset 0x12 := by
    funext _ t
    rw [if_pos rfl]
  rw [heffect] at hok
  exact congrArg Host.Outcome.next hok

end

theorem powerOff_mode (s : State) : (powerOff s).dev.mode = 0 := setN_get_same ..

/-- Settles O58: every reset ends in `afterReset`, which makes the first record and sets the three entries; what a reset keeps is
`PoweredOn` and `WarmKept`. That a request during a
reset makes no second one (assumption 482), that a lost pound reads 0 (assumption 232), that no command is a service of the
run-time watchdog (assumption 484) and that OFF is mode 0 (assumption 493) is this model's reading. -/
theorem resetsStartAnew : Obligations.ResetsStartAnew := by
  refine ⟨?power, ?warm, ?merge, fun s => rfl, ?request, fun w s hc => exec_resetRequest hc,
    fun s hphase hdue => congrArg Host.Outcome.next (if_pos ⟨hphase, hdue⟩),
    fun s hphase hcool hdue => congrArg Host.Outcome.next (if_pos ⟨hphase, hcool, hdue⟩),
    fun s => completes_next ⟨powerOff_mode s, rfl, rfl, rfl, rfl, rfl, rfl⟩⟩
  case power =>
    intro straps s
    have hbit : straps / 16 % 2 < 2 := Nat.mod_lt _ (by decide)
    have hon := poweredOn_powerOnUnits straps s.dev
    have hmode := powerOnUnits_mode straps s.dev
    rw [exec_powerOnReset]
    generalize powerOnUnits straps s.dev = e at hon hmode
    obtain ⟨-, hsources, hfuses, hboot⟩ := afterReset_units (cause := straps / 16 % 2) (count := 0) (s := s) hon.evtSize
    refine completes_next ⟨(afterReset_mode ..).trans hmode, afterReset_mem .., afterReset_poison .., afterReset_next .., ?ring,
      afterReset_cause .., ?exit, afterReset_count .., ?pins, hsources.trans hon.sources, hfuses.trans hon.fuses,
      afterReset_hostMem hon.evtSize, afterReset_pending ..⟩
    case ring => rw [afterReset_ring, afterReset_tbNow hon.evtSize, Nat.mod_eq_of_lt (by omega), Nat.zero_mod]
    case exit => rw [afterReset_exit, exitOfReset, if_pos hbit]
    case pins => rw [hboot, hon.straps]
  case warm =>
    intro c s hmode hin hlo hhi
    obtain ⟨e, hkept, hreset⟩ := warmReset_of_running (cause := c) hmode hin
    obtain ⟨htime, hsources, hfuses, -⟩ :=
      afterReset_units (cause := c) (count := (s.dev.get Reg.clk_RESET_COUNT + 1) % 2 ^ 32) (s := s) hkept.evtSize
    rw [hreset]
    exact ⟨(afterReset_mode ..).trans hkept.mode, afterReset_mem .., afterReset_poison .., afterReset_next ..,
      afterReset_first hhi .., afterReset_cause .., (afterReset_exit ..).trans (exitOfReset_warm hlo), afterReset_count ..,
      fun k hk => (afterReset_val_of_kept (mem_keptEntries.mpr hk)).trans (hkept.val k (mem_keptEntries.mpr hk)),
      (congrArg TimeBase.raw htime).trans hkept.raw, hsources.trans hkept.sources, hfuses.trans hkept.fuses,
      afterReset_hostMem hkept.evtSize, afterReset_pending ..⟩
  case merge =>
    intro c s hmode hin
    refine ⟨fun hlater => (warmReset_of_inReset hmode hin).trans (if_neg (Nat.not_lt.mpr hlater)), fun hfirst hlo hhi => ?_⟩
    rw [warmReset_of_inReset hmode hin, if_pos hfirst]
    exact ⟨afterReset_cause .., afterReset_first hhi .., (afterReset_exit ..).trans (exitOfReset_warm hlo), afterReset_count ..⟩
  case request =>
    intro c s hmode hlo hhi
    rw [exec_warmReset_of_request hlo hhi]
    refine ⟨fun hthermal => ?refused, fun hcool hhold => ?granted, fun hcool hhold hdone hhost hheld => ?held⟩
    case refused => rw [requestReset_of_thermal hthermal]
    case granted => rw [requestReset_of_running hmode hcool hhold]
    case held =>
      rw [requestReset_of_holdup hmode hcool hhold hdone (by omega) hheld]
      exact completes_next ⟨rfl, rfl, post_sources_congr rfl rfl rfl rfl, rfl, onDev_arb .., onDev_mem ..⟩


end Sys2Proof.Machine
end

section
/-! The statements about the magazine ports: training, packets, and magazines that come and go. -/

namespace Sys2Proof.Machine

/-! ## What the lanes' work leaves -/

/-- Key `k` lies outside the lane records of port `p`. -/
def offLanes (p k : Nat) : Prop := k / 256 < 0x2818 + 0x20 * p ∨ 0x2820 + 0x20 * p ≤ k / 256

theorem offLanes_below {p b c : Nat} (hb : b < 0x2818 + 0x20 * p) (hc : c < 256) : offLanes p (b * 256 + c) := by
  unfold offLanes
  omega

/-- The entries of a port's first record. -/
theorem offLanes_port (p : Nat) {c : Nat} (hc : c < 256) : offLanes p ((0x2810 + 0x20 * p) * 256 + c) :=
  offLanes_below (by omega) hc

/-- PORTS_UP is no entry of a port. -/
theorem port_ne_portsUp (p c : Nat) : (0x2810 + 0x20 * p) * 256 + c ≠ Reg.magg_PORTS_UP := by
  change _ ≠ 0x2800 * 256 + 0x01
  omega

/-- From `d` to `e` of the entries only those of the lanes of port `p` have changed, and its magazine is as present as before. -/
structure LanesOnly (p : Nat) (d e : Dev) : Prop where
  val : ∀ k, offLanes p k → e.val k = d.val k
  present : (e.mag p).present = (d.mag p).present

namespace LanesOnly
variable {p : Nat} {c d e : Dev}

theorem refl (p : Nat) (d : Dev) : LanesOnly p d d := ⟨fun _ _ => rfl, rfl⟩

theorem trans (h : LanesOnly p c d) (g : LanesOnly p d e) : LanesOnly p c e :=
  ⟨fun k hk => (g.val k hk).trans (h.val k hk), g.present.trans h.present⟩

theorem get (h : LanesOnly p d e) {k : Nat} (hk : offLanes p k) : e.get k = d.get k := get_congr (h.val k hk)

theorem setMag (d : Dev) {f : MagPort → MagPort} (hf : ∀ x, (f x).present = x.present) : LanesOnly p d (setMag p f d) :=
  ⟨fun _ _ => rfl, nth_updAt_proj MagPort.present hf p p d.mags⟩

theorem emit (x : OutKind) (i : Nat) (l : List Nat) (b : List Byte) (d : Dev) : LanesOnly p d (emit x i l b d) :=
  ⟨fun _ _ => rfl, rfl⟩

/-- A write of an entry of lane `k` of the port. -/
theorem setLane {k j : Nat} (hk : k < 8) (hj : j < 256) (v : Nat) (d : Dev) :
    LanesOnly p d (setN ((0x2818 + 0x20 * p + k) * 256 + j) v d) := by
  refine ⟨fun i hi => setN_val_of_ne ?_ v d, rfl⟩
  unfold offLanes at hi
  omega

theorem foldl {α : Type} {f : Dev → α → Dev} {l : List α} (hf : ∀ e, ∀ x ∈ l, LanesOnly p e (f e x)) (d : Dev) :
    LanesOnly p d (l.foldl f d) := by
  induction l generalizing d with
  | nil => exact .refl p d
  | cons x l ih =>
    exact (hf d x List.mem_cons_self).trans (ih (fun e y hy => hf e y (List.mem_cons_of_mem x hy)) (f d x))

theorem lanes {f : Dev → Nat → Dev} (hf : ∀ e k, k < 8 → LanesOnly p e (f e k)) (d : Dev) :
    LanesOnly p d ((List.range 8).foldl f d) :=
  .foldl (fun e k hk => hf e k (List.mem_range.mp hk)) d

theorem ite (b : Prop) [Decidable b] (hd : LanesOnly p c d) (he : LanesOnly p c e) : LanesOnly p c (if b then d else e) := by
  split
  · exact hd
  · exact he

/-- The presence of the magazine is read from an entry of the port and from its pin. -/
theorem magPresent (h : LanesOnly p d e) : e.magPresent p = d.magPresent p := by
  have hpin : e.get (Reg.mag_MAG_PRESENT_PIN p) = d.get (Reg.mag_MAG_PRESENT_PIN p) := h.get (offLanes_port p (by decide))
  rw [Dev.magPresent, Dev.magPresent, hpin, h.present]

end LanesOnly

theorem lanesOnly_lanesTo (p : Nat) (tx rx : Option Nat) (d : Dev) : LanesOnly p d (lanesTo p tx rx d) :=
  .lanes (fun e _ hk => .setLane hk (by decide) _ e) d

theorem lanesOnly_setLink (p : Nat) (f : MagLink → MagLink) (d : Dev) : LanesOnly p d (setLink p f d) :=
  .setMag d (fun _ => rfl)

theorem lanesOnly_sendBlocks (p : Nat) (l : List MagBlock) (d : Dev) : LanesOnly p d (sendBlocks p l d) := by
  unfold sendBlocks
  extract_lets x asleep l1 s0 s1 y lanes
  have hwake : LanesOnly p d (if asleep then lanesTo p (some 3) none d else d) := .ite _ (lanesOnly_lanesTo ..) (.refl p d)
  refine .trans ?_ (.emit ..)
  refine .trans hwake ?_
  exact .setMag _ (fun _ => rfl)

theorem lanesOnly_tell (p st : Nat) (d : Dev) : LanesOnly p d (tell p st d) :=
  (LanesOnly.setMag d (f := fun y => { y with told := st }) (fun _ => rfl)).trans (lanesOnly_sendBlocks ..)

theorem lanesOnly_magDwells (p : Nat) (step : AlignStep) (d : Dev) : LanesOnly p d (magDwells p step d) := by
  refine (LanesOnly.setMag d (f := fun x => { x with step := step, armed := false, windowOpen := false, landed := [] })
    (fun _ => rfl)).trans (.lanes (fun e k hk => ?_) _)
  have hfound : LanesOnly p e (setMagLane p k (fun l => { l with slips := 0, found := false }) e) := .setMag e (fun _ => rfl)
  have hdwell (u : Dev) : LanesOnly p u (setMagLane p k (fun l => { l with dwelling := true }) u) := .setMag u (fun _ => rfl)
  exact (hfound.trans (hdwell _)).trans (.setLane hk (by decide) _ _)

theorem lanesOnly_magSearch (p : Nat) (d : Dev) : LanesOnly p d (magSearch p d) := by
  have halign : LanesOnly p d ((List.range 8).foldl (fun e k => setN (Reg.mln_LANE_ALIGN p k) 0 e) d) :=
    .lanes (fun e _ hk => .setLane hk (by decide) _ e) d
  refine .trans ?_ (lanesOnly_tell ..)
  refine .trans (halign.trans (lanesOnly_magDwells p .search _)) ?_
  exact .setMag _ (fun _ => rfl)

/-! ## Retraining (R299) -/

theorem setMagState_val {p st k : Nat} (hk : k ≠ Reg.magg_PORTS_UP) (d : Dev) :
    (setMagState p st d).val k = if k = Reg.mag_MAG_STATE p then .num st else d.val k := by
  rw [setMagState, setN_val_of_ne hk, setN_val]

theorem setMagState_present (p st : Nat) (d : Dev) : ((setMagState p st d).mag p).present = (d.mag p).present := rfl

/-- The entries of the port after its link went DOWN: MAG_STATE and the lanes' entries. -/
theorem magDown_val {p k : Nat} (hoff : offLanes p k) (hup : k ≠ Reg.magg_PORTS_UP) (d : Dev) :
    (magDown p d).val k = if k = Reg.mag_MAG_STATE p then .num msDOWN else d.val k := by
  rw [magDown, (lanesOnly_magSearch ..).val k hoff, (lanesOnly_lanesTo ..).val k hoff, setMagState_val hup,
    (lanesOnly_setLink ..).val k hoff]

theorem magDown_present (p : Nat) (d : Dev) : ((magDown p d).mag p).present = (d.mag p).present := by
  rw [magDown, (lanesOnly_magSearch ..).present, (lanesOnly_lanesTo ..).present, setMagState_present,
    (lanesOnly_setLink ..).present]

/-- A retrain of a link that is UP. -/
theorem magRetrain_of_up {p cause : Nat} {d : Dev} (h : d.magState p = msUP) :
    magRetrain p cause d = magDown p (inc32 (Reg.mag_RETRAINS p) (setLink p (fun x => { x with cause := cause }) d)) :=
  if_neg (not_not_intro h)

theorem magPresent_magDown (p : Nat) (d : Dev) : (magDown p d).magPresent p = d.magPresent p := by
  have hpin : (magDown p d).get (Reg.mag_MAG_PRESENT_PIN p) = d.get (Reg.mag_MAG_PRESENT_PIN p) := by
    refine get_congr ((magDown_val (offLanes_port p (by decide)) (port_ne_portsUp p _) d).trans (if_neg (entry_ne _ (by decide))))
  rw [Dev.magPresent, Dev.magPresent, hpin, magDown_present]

theorem magPresent_inc32_retrains (p : Nat) (d : Dev) : (inc32 (Reg.mag_RETRAINS p) d).magPresent p = d.magPresent p := by
  have hpin : (inc32 (Reg.mag_RETRAINS p) d).get (Reg.mag_MAG_PRESENT_PIN p) = d.get (Reg.mag_MAG_PRESENT_PIN p) := by
    rw [inc32_get, if_neg (entry_ne _ (by decide))]
  rw [Dev.magPresent, Dev.magPresent, hpin]
  rfl

theorem magPresent_magRetrain (p cause : Nat) (d : Dev) : (magRetrain p cause d).magPresent p = d.magPresent p := by
  unfold magRetrain
  split
  · rfl
  · rw [magPresent_magDown, magPresent_inc32_retrains, (lanesOnly_setLink ..).magPresent]

/-- With its magazine present a port whose link is DOWN keeps it. -/
theorem downCheck_of_present {p : Nat} {d : Dev} (h : d.magPresent p = true) : downCheck p d = d := by
  refine if_neg ?_
  rw [h]
  simp

theorem magRetrain_state {p cause : Nat} {d : Dev} (h : d.magState p = msUP) : (magRetrain p cause d).magState p = msDOWN := by
  rw [magRetrain_of_up h]
  exact get_of_val ((magDown_val (offLanes_port p (by decide)) (port_ne_portsUp p _) _).trans (if_pos rfl))

theorem magRetrain_retrains {p cause : Nat} {d : Dev} (h : d.magState p = msUP) :
    (magRetrain p cause d).get (Reg.mag_RETRAINS p) = (d.get (Reg.mag_RETRAINS p) + 1) % 2 ^ 32 := by
  rw [magRetrain_of_up h, get_congr ((magDown_val (offLanes_port p (by decide)) (port_ne_portsUp p _) _).trans (if_neg (entry_ne _ (by decide)))), inc32_get, if_pos rfl,
    (lanesOnly_setLink ..).get (offLanes_port p (by decide))]

/-- A retrain that failed before the third in a row counts another. -/
theorem retrainFail_of_early {p r : Nat} {d : Dev} (hraw : (d.mag p).link.downRaw = some r) (hdown : d.magState p = msDOWN)
    (hdue : cyclesOfMs 50 ≤ d.since r) (hfails : (d.mag p).link.fails < 2) :
    retrainFail p d = magDown p (inc32 (Reg.mag_RETRAINS p)
      (setLink p (fun x => { x with fails := (d.mag p).link.fails + 1 }) d)) := by
  have hgo : (decide (d.magState p ≠ msDOWN) || decide (d.since r < cyclesOfMs 50)) = false := by
    rw [decide_eq_false (not_not_intro hdown), decide_eq_false (Nat.not_lt.mpr hdue)]
    rfl
  have hmore : (d.mag p).link.fails + 1 < 3 := by omega
  simp only [retrainFail, hraw, hgo, Bool.false_eq_true, if_false, if_pos hmore]

/-! ## What the lanes carry (R296, R297) -/

/-- With no lane inverted, stripes are read as they come. -/
theorem magFeed_stripes {p : Nat} {l : List (List (Nat × Nat))} {s : State} (hrx : s.dev.get (Reg.mln_LANE_POWER p 0) % 16 = 3)
    (hfec : (s.dev.mag p).fecOn = false) (hinv : ∀ k, k < 8 → bit (s.dev.get (Reg.mln_INVERT p k)) 0 = 0) :
    magFeed p (.stripes l) s = l.foldl (fun t x => magStripe p ((List.range 8).map (fun k => x.getD k (3, 0))) t) s := by
  have hread (x : List (Nat × Nat)) : (List.range 8).map (fun k =>
      if bit (s.dev.get (Reg.mln_INVERT p k)) 0 = 1 then invertBlock (x.getD k (3, 0)) else x.getD k (3, 0)) =
        (List.range 8).map (fun k => x.getD k (3, 0)) := by
    refine List.map_congr_left (fun k hk => if_neg ?_)
    rw [hinv k (List.mem_range.mp hk)]
    decide
  unfold magFeed
  extract_lets d
  rw [if_neg (not_not_intro hrx), hfec]
  dsimp only
  simp only [d, hread]

theorem magFeed_words {p : Nat} {l : List (List Nat)} {s : State} (hrx : s.dev.get (Reg.mln_LANE_POWER p 0) % 16 = 3)
    (hfec : (s.dev.mag p).fecOn = true) :
    magFeed p (.words l) s = (List.range 80).foldl (fun t i => magStripe p ((magWords p l s.dev).1.map (fun b => nth b i)) t)
      { s with dev := (magWords p l s.dev).2 } := by
  unfold magFeed
  extract_lets d
  rw [if_neg (not_not_intro hrx), hfec]

/-! ## Training (R298) -/

/-- What a TRAIN block with STATE 0x03 on lane `k` notes at the port. -/
def trainNoted (k fec : Nat) (x : MagPort) : MagPort :=
  { x with
    trains := updAt k (fun n => n + 1) x.trains
    heard := updAt k (fun h => h || decide (2 ≤ 3)) x.heard, theirs := fec == 1 }

theorem mag_setMag {p : Nat} {d : Dev} (hp : p < d.mags.length) (f : MagPort → MagPort) : (setMag p f d).mag p = f (d.mag p) :=
  nth_updAt_same p f d.mags hp

theorem trainIn_of_enough {p k fec : Nat} {d : Dev} (hup : d.magState p ≠ msUP) (halign : d.magAlignedAll p = true)
    (htold : (d.mag p).told = 3) (hp : p < d.mags.length)
    (hall : (updAt k (fun n => n + 1) (d.mag p).trains).all (fun n => decide (16 ≤ n)) = true) :
    trainIn p k 3 fec d = linkUp p (setMag p (trainNoted k fec) d) := by
  have hnoted := mag_setMag hp (trainNoted k fec)
  unfold trainIn
  extract_lets d1 d2
  have h1 : d1 = setMag p (trainNoted k fec) d := rfl
  have h2 : d2 = d1 := by
    have htold1 : ((d1.mag p).told != 3) = false := by
      rw [h1, hnoted, trainNoted, htold]
      rfl
    simp only [d2, htold1, Bool.and_false, Bool.false_eq_true, if_false]
  have hall2 : (d2.mag p).trains.all (fun n => decide (16 ≤ n)) = true := by
    rw [h2, h1, hnoted]
    exact hall
  rw [if_neg hup, if_neg (by rw [halign]; exact Bool.false_ne_true), if_pos hall2, h2, h1]

/-- The port with its link UP, RS-FEC running where both ends ask for it. -/
def linkedPort (x : MagPort) : MagPort :=
  { x with
    fecOn := x.fec && x.theirs, settled := false, packet := none, stripes := if x.fec && x.theirs then 0 else x.stripes
    link := { x.link with fails := 0, downRaw := none, ackDue := true } }

/-- The units with the link of port `p` UP, before EV 0x2802. -/
def linked (p : Nat) (d : Dev) : Dev :=
  setMagState p msUP (setLink p (fun x => { x with fails := 0, downRaw := none, ackDue := true })
    (setMag p (fun x => { x with
      fecOn := (d.mag p).fec && (d.mag p).theirs, settled := false, packet := none
      stripes := if (d.mag p).fec && (d.mag p).theirs then 0 else x.stripes }) d))

theorem linkUp_of_trained {p : Nat} {d : Dev} (hstate : d.magState p = msTRAINING ∨ d.magState p = msDOWN)
    (halign : d.magAlignedAll p = true) (hident : (d.mag p).wantIdent = false) (hexit : (d.mag p).exiting = false) :
    linkUp p d = post 0x2802 (magInst p) (d.mag p).rate (b2n ((d.mag p).fec && (d.mag p).theirs)) (linked p d) := by
  unfold linkUp
  extract_lets fec d1 d2
  have hgo : ¬((decide (d.magState p ≠ msTRAINING ∧ d.magState p ≠ msDOWN) || !d.magAlignedAll p) = true) := by
    rw [halign]
    rcases hstate with h | h
    · simp [h]
    · simp [h]
  have h2 : d2 = d1 := by simp only [d2, hident, Bool.false_eq_true, if_false]
  rw [if_neg hgo, hexit, Bool.false_and, if_neg Bool.false_ne_true, h2]
  rfl

theorem linked_mag {p : Nat} {d : Dev} (hp : p < d.mags.length) : (linked p d).mag p = linkedPort (d.mag p) := by
  have hlen : p < (setMag p (fun x => { x with
      fecOn := (d.mag p).fec && (d.mag p).theirs, settled := false, packet := none
      stripes := if (d.mag p).fec && (d.mag p).theirs then 0 else x.stripes }) d).mags.length :=
    Nat.lt_of_lt_of_eq hp (List.length_modify ..).symm
  have h : (linked p d).mag p = (setLink p (fun x => { x with fails := 0, downRaw := none, ackDue := true })
    (setMag p (fun x => { x with
      fecOn := (d.mag p).fec && (d.mag p).theirs, settled := false, packet := none
      stripes := if (d.mag p).fec && (d.mag p).theirs then 0 else x.stripes }) d)).mag p := rfl
  rw [h, setLink, mag_setMag hlen, mag_setMag hp]
  rfl

theorem linked_val {p k : Nat} (hk : k ≠ Reg.magg_PORTS_UP) (d : Dev) :
    (linked p d).val k = if k = Reg.mag_MAG_STATE p then .num msUP else d.val k := setMagState_val hk _

theorem tbNow_setMagState {p : Nat} (hp : p < 4) (st : Nat) (d : Dev) : tbNow (setMagState p st d) = tbNow d := by
  have hkey : Reg.mag_MAG_STATE p < Reg.tb_TB_OFFSET := by
    change (0x2810 + 0x20 * p) * 256 + 0x04 < 0x3000 * 256 + 0x01
    omega
  rw [setMagState, tbNow_setN (by decide), tbNow_setN hkey]

/-- Settles O37: what the lanes carry is read by `magFeed`; enough TRAIN blocks end in `linkUp`; a retrain is `magDown` with its
count (`magRetrain_of_up`), which leaves the magazine present. -/
theorem magLinksTrain : Obligations.MagLinksTrain := by
  refine ⟨?stripes, ?words, ?train, ?up, ?retrain, fun p d h => ⟨magRetrain_state h, magRetrain_retrains h⟩, ?fail, ?hold⟩
  case stripes =>
    intro p l s hrx hfec hinv
    exact congrArg (fun t => Host.Outcome.next (magSettle t)) (magFeed_stripes hrx hfec hinv)
  case words =>
    intro p l s hrx hfec
    exact congrArg (fun t => Host.Outcome.next (magSettle t)) (magFeed_words hrx hfec)
  case train =>
    intro p k fec d hup halign htold hp hall
    refine ⟨_, trainIn_of_enough hup halign htold hp hall, ?_, ?_, rfl, rfl, rfl⟩
    · rw [mag_setMag hp, trainNoted]
    · rw [mag_setMag hp, trainNoted]
  case up =>
    intro p d hstate halign hident hexit hp
    have hmag : (linkUp p d).mag p = linkedPort (d.mag p) := by
      rw [linkUp_of_trained hstate halign hident hexit]
      exact linked_mag hp
    have hval (k : Nat) (hk : k ≠ Reg.magg_PORTS_UP) :
        (linkUp p d).val k = if k = Reg.mag_MAG_STATE p then .num msUP else d.val k := by
      rw [linkUp_of_trained hstate halign hident hexit]
      exact linked_val hk d
    refine ⟨get_of_val ((hval _ (port_ne_portsUp p _)).trans (if_pos rfl)), ?fails, ?ack, ?fecOn, ?sources,
      fun k hs hu => (hval k hu).trans (if_neg hs)⟩
    case fails => rw [hmag, linkedPort]
    case ack => rw [hmag, linkedPort]
    case fecOn => rw [hmag, linkedPort]
    case sources =>
      rw [linkUp_of_trained hstate halign hident hexit]
      exact post_sources_congr rfl rfl rfl ((tbNow_setMagState p.isLt ..).trans rfl)
  case retrain =>
    intro p s hup hpresent
    have hkeep (cause : Nat) : downCheck p (magRetrain p cause s.dev) = magRetrain p cause s.dev :=
      downCheck_of_present ((magPresent_magRetrain ..).trans hpresent)
    have h (cause : Nat) : exec (.magRetrain p cause) s = execMagRetrain p cause s := rfl
    refine ⟨?_, ?_⟩
    · rw [h]
      simp only [execMagRetrain, onDev, true_or, if_true, hkeep]
    · rw [h]
      simp only [execMagRetrain, onDev, true_or, or_true, if_true, hkeep]
  case fail =>
    intro p r s hraw hdown hdue hfails
    have h : exec (.magRetrainFail p) s = .next (magSettle (onDev (retrainFail p) s)) := rfl
    rw [h]
    simp only [onDev, retrainFail_of_early hraw hdown hdue hfails]
  case hold =>
    intro p c s hlist
    have hfold : ∀ l : List RecCmd, l = [c] →
        l.foldl (fun e x => endCmd x.tag 0x80 0 0 e) s.dev = endCmd c.tag 0x80 0 0 s.dev := by
      intro l hl
      rw [hl, List.foldl_cons, List.foldl_nil]
    have h : exec (.tempHoldTimeout p) s = execTempHoldTimeout p s := rfl
    rw [h]
    unfold execTempHoldTimeout onDev
    exact congrArg (fun d => Host.Outcome.next (magSettle { s with dev := d })) (hfold _ hlist)

end Sys2Proof.Machine
end

section
/-! The statement about the packets of a magazine link: their ends, acknowledgements and resends. -/

namespace Sys2Proof.Machine

/-! ## What a port puts on its lanes (R296, R302) -/

theorem lanesTo_out (p : Nat) (tx rx : Option Nat) (d : Dev) : (lanesTo p tx rx d).out = d.out := by
  unfold lanesTo
  exact foldl_proj Dev.out (fun _ _ => rfl) (List.range 8) d

theorem lanesTo_mags (p : Nat) (tx rx : Option Nat) (d : Dev) : (lanesTo p tx rx d).mags = d.mags := by
  unfold lanesTo
  exact foldl_proj Dev.mags (fun _ _ => rfl) (List.range 8) d

/-- The blocks sent are one item of what the block puts out; a transmitter that does not sleep changes no entry. -/
theorem sendBlocks_eq (p : Nat) (l : List MagBlock) (d : Dev) : ∃ (e : Dev) (f : MagPort → MagPort) (n : Nat) (b : List Byte),
    sendBlocks p l d = emit .magLink p [b2n (d.mag p).fecOn, n] b (setMag p f e) ∧ e.out = d.out ∧ e.mags = d.mags ∧
      (d.get (Reg.mln_LANE_POWER p 0) / 16 ≠ 2 → e.regs = d.regs) := by
  unfold sendBlocks
  extract_lets x asleep l1 s0 s1 y lanes
  refine ⟨if asleep then lanesTo p (some 3) none d else d, _, _, _, rfl, ?_, ?_, fun hawake => ?_⟩
  · split
    · exact lanesTo_out ..
    · rfl
  · split
    · exact lanesTo_mags ..
    · rfl
  · rw [if_neg]
    simp [asleep, hawake]

theorem sendBlocks_out (p : Nat) (l : List MagBlock) (d : Dev) : ∃ (n : Nat) (b : List Byte), (sendBlocks p l d).out =
    d.out ++ [{ kind := .magLink, inst := p, info := [b2n (d.mag p).fecOn, n], data := b }] := by
  obtain ⟨e, f, n, b, h, hout, -⟩ := sendBlocks_eq p l d
  refine ⟨n, b, ?_⟩
  rw [h, ← hout]
  rfl

theorem sendBlocks_regs {p : Nat} {l : List MagBlock} {d : Dev} (h : d.get (Reg.mln_LANE_POWER p 0) / 16 ≠ 2) :
    (sendBlocks p l d).regs = d.regs := by
  obtain ⟨e, f, n, b, hsend, -, -, hregs⟩ := sendBlocks_eq p l d
  rw [hsend, emit_regs, setMag_regs, hregs h]

theorem sendAck_regs {p : Nat} {d : Dev} (h : d.get (Reg.mln_LANE_POWER p 0) / 16 ≠ 2) : (sendAck p d).regs = d.regs := by
  unfold sendAck
  extract_lets l dl cl
  exact sendBlocks_regs (l := [.ack l.rx dl cl]) h

theorem length_sendBlocks (p : Nat) (l : List MagBlock) (d : Dev) : (sendBlocks p l d).mags.length = d.mags.length := by
  obtain ⟨e, f, n, b, hsend, -, hmags, -⟩ := sendBlocks_eq p l d
  rw [hsend, emit_mags, ← hmags]
  exact List.length_modify ..

theorem onDev_congr {f g : Dev → Dev} {s : State} (h : f s.dev = g s.dev) : onDev f s = onDev g s :=
  congrArg (fun d => { s with dev := d }) h

/-! ## Packets received (R300, R301) -/

section
variable {p : Nat} {b : List Byte} {k : MagPacket} {s : State}

theorem packetEnd_of_good (hk : packetOf b = some k) :
    packetEnd p b false s = packetIn p k (onDev (setMag p (fun x => { x with packet := none })) s) := by
  unfold packetEnd
  rw [if_neg Bool.false_ne_true, hk]

theorem packetEnd_of_bad {bad : Bool} (hup : s.dev.magState p = msUP) (h : bad = true ∨ packetOf b = none) :
    packetEnd p b bad s = onDev (discardPkt p) (onDev (setMag p (fun x => { x with packet := none })) s) := by
  have hnone : (if bad then none else packetOf b) = none := by
    rcases h with hbad | hcrc
    · rw [if_pos hbad]
    · rw [hcrc, ite_self]
  have hup' : (onDev (setMag p (fun x => { x with packet := none })) s).dev.magState p = msUP := hup
  unfold packetEnd
  rw [hnone]
  exact onDev_congr (if_pos hup')

theorem discardPkt_first {d : Dev} (h : (d.mag p).link.nakOut = false) : discardPkt p d =
    setLink p (fun x => { x with nakOut := true }) (sendBlocks p [.nak (d.mag p).link.rx] d) := by
  unfold discardPkt
  extract_lets l
  rw [if_neg]
  rw [h]
  exact Bool.false_ne_true

/-- The link with a control packet taken in sequence. -/
def controlTaken (seq : Nat) (x : MagLink) : MagLink :=
  { x with rx := seq, owing := x.owing + 1, nakOut := false, ctrlGot := (x.ctrlGot + 1) % 65536 }

theorem takePkt_of_control {d : Dev} (hup : d.magState p = msUP) (hseq : k.seq = ((d.mag p).link.rx + 1) % 4096)
    (hty : k.ty ≠ 2) (howing : (d.mag p).link.owing < 7) :
    takePkt p k d = (true, setLink p (controlTaken k.seq) d) := by
  unfold takePkt
  extract_lets l d1
  have h1 : d1 = setLink p (controlTaken k.seq) d := by
    simp only [d1, if_neg hty]
    rfl
  have hfew : ¬8 ≤ l.owing + 1 := by
    simp only [l]
    omega
  rw [if_neg (not_not_intro hup), if_neg (not_not_intro hseq), if_neg hfew, h1]

theorem mag_setLink {d : Dev} (hp : p < d.mags.length) (f : MagLink → MagLink) : ((setLink p f d).mag p).link = f (d.mag p).link :=
  congrArg MagPort.link (mag_setMag hp _)

theorem packetIn_of_taken (h : (takePkt p k s.dev).1 = true) : packetIn p k s =
    if k.ty = 2 then onDev (takeData p k) { s with dev := (takePkt p k s.dev).2 }
    else if k.ty = 3 then takeCompletion p k { s with dev := (takePkt p k s.dev).2 }
    else onDev (magProtocol p (k.tag % 16384) 4) { s with dev := (takePkt p k s.dev).2 } := by
  unfold packetIn
  extract_lets r s1
  rw [if_neg]
  rw [h]
  exact Bool.false_ne_true

end

/-! ## Resends (R305, R306) -/

theorem magPresent_releasePkts (p seq : Nat) (d : Dev) : (releasePkts p seq d).magPresent p = d.magPresent p := by
  unfold releasePkts
  extract_lets l rest
  split
  · rfl
  · exact (lanesOnly_setLink ..).magPresent

theorem magPresent_replays (p n : Nat) (d : Dev) : (addW 64 (Reg.mag_REPLAYS p) n d).magPresent p = d.magPresent p := by
  have hpin : (addW 64 (Reg.mag_REPLAYS p) n d).get (Reg.mag_MAG_PRESENT_PIN p) = d.get (Reg.mag_MAG_PRESENT_PIN p) := by
    rw [addW_get, if_neg (entry_ne _ (by decide))]
  rw [Dev.magPresent, Dev.magPresent, hpin]
  rfl

theorem lanesOnly_emitPkt (p : Nat) (k : LinkPkt) (d : Dev) : LanesOnly p d (emitPkt p k d) := lanesOnly_sendBlocks ..

theorem magPresent_resendAll (p : Nat) (d : Dev) : (resendAll p d).magPresent p = d.magPresent p := by
  unfold resendAll
  extract_lets l d1
  have h1 : LanesOnly p d d1 := .foldl (fun e k _ => lanesOnly_emitPkt p k e) d
  split
  · rfl
  · split
    · exact magPresent_magRetrain p 2 d
    · rw [magPresent_replays, (lanesOnly_setLink ..).magPresent, h1.magPresent]

theorem exec_magDataPacket (p : Fin 4) (rx : MagRx) (s : State) :
    exec (.magDataPacket p rx) s = .next (magSettle (magFeed p rx s)) := rfl

theorem exec_magCompletion (p : Fin 4) (rx : MagRx) (s : State) :
    exec (.magCompletion p rx) s = .next (magSettle (magFeed p rx s)) := rfl

theorem exec_magPacketDiscard (p : Fin 4) (rx : MagRx) (s : State) :
    exec (.magPacketDiscard p rx) s = .next (magSettle (magFeed p rx s)) := rfl

/-- Settles O38: a packet's end is `packetEnd`, one in sequence is `takePkt`; acknowledgements and resends put their blocks on the
lanes by `sendBlocks`, whose packets' magazine stays present. -/
theorem magPacketsFlow : Obligations.MagPacketsFlow := by
  refine ⟨?carried, ?good, ?bad, fun p d h => discardPkt_first h, ?taken, ?kinds, fun p l d => sendBlocks_out p l d, ?ack, ?timer,
    ?nak, ?replay⟩
  case carried =>
    intro p l s hrx hfec hinv t ht
    have hfeed := magFeed_stripes (l := l) hrx hfec hinv
    refine ⟨?_, ?_, ?_⟩
    · rw [exec_magDataPacket, hfeed, ht]
    · rw [exec_magCompletion, hfeed, ht]
    · rw [exec_magPacketDiscard, hfeed, ht]
  case good =>
    rintro p b k s t rfl hk
    exact packetEnd_of_good hk
  case bad =>
    rintro p b bad s t rfl hup h
    exact packetEnd_of_bad hup h
  case taken =>
    intro p k d hup hseq hty howing hp
    have hlink := mag_setLink hp (controlTaken k.seq)
    rw [takePkt_of_control hup hseq hty howing]
    refine ⟨rfl, ?_, ?_, ?_, rfl, rfl⟩
    · exact congrArg MagLink.rx hlink
    · exact congrArg MagLink.owing hlink
    · exact congrArg MagLink.ctrlGot hlink
  case kinds =>
    rintro p k s t htaken rfl
    refine ⟨fun hdata => ?_, fun hcomp => ?_⟩
    · rw [packetIn_of_taken htaken, if_pos hdata]
    · rw [packetIn_of_taken htaken, if_neg (by omega), if_pos hcomp]
  case ack =>
    intro p a s hup
    have h : exec (.ackReceived p a) s = .next (magSettle (onDev (ackIn p a.seq a.data a.ctrl) s)) := rfl
    rw [h]
    simp only [onDev, ackIn, if_neg (not_not_intro hup)]
  case timer =>
    intro p s hup howing
    have h : exec (.ackTimer p) s = .next (onDev (sendAck p) s) := by
      have h : exec (.ackTimer p) s = execAckTimer p s := rfl
      rw [h]
      simp only [execAckTimer, onDev, hup, howing, decide_true, Bool.true_or, Bool.and_true, if_true]
    rw [h]
    refine completes_next ⟨rfl, fun hp => ?link, fun hawake => sendAck_regs hawake, onDev_arb .., onDev_mem ..⟩
    case link =>
      have hlink (f : MagLink → MagLink) (l : List MagBlock) := mag_setLink (Nat.lt_of_lt_of_eq hp (length_sendBlocks p l s.dev).symm) f
      rw [onDev_dev, sendAck, hlink]
      exact ⟨rfl, rfl⟩
  case nak =>
    intro p a s hup hpresent
    have h : exec (.nakReceived p a) s = .next (magSettle (onDev (nakIn p a.seq) s)) := rfl
    have hkeep := downCheck_of_present
      ((magPresent_resendAll p (releasePkts p (a.seq % 4096) s.dev)).trans ((magPresent_releasePkts ..).trans hpresent))
    rw [h]
    simp only [onDev, nakIn, if_neg (not_not_intro hup), hkeep]
  case replay =>
    intro p s hup hunacked hdue hpresent
    have h : exec (.replayTimeout p) s = execReplayTimeout p s := rfl
    have hkeep := downCheck_of_present ((magPresent_resendAll p s.dev).trans hpresent)
    have hsome : (s.dev.mag p).link.unacked.isEmpty = false := by
      cases hl : (s.dev.mag p).link.unacked with
      | nil => exact absurd hl hunacked
      | cons k l => rfl
    rw [h]
    simp only [execReplayTimeout, onDev, hup, hsome, hdue, decide_true, Bool.not_false, Bool.and_true, if_true, hkeep]

end Sys2Proof.Machine
end

section
/-! The statement about magazines that sleep, come and go, and about their keys. -/

namespace Sys2Proof.Machine

/-! ## Sleep (R316) -/

section
variable {p : Nat} {d : Dev}

theorem sleepIn_theirs (hup : d.magState p = msUP) : sleepIn p 1 d = lanesTo p none (some 2) d := by
  have h0 : bit 1 0 = 1 := by decide
  have h1 : ¬bit 1 1 = 1 := by decide
  simp only [sleepIn, if_neg (not_not_intro hup), h0, if_true, h1, false_and, if_false]

theorem sleepIn_ours (hup : d.magState p = msUP) (hactive : d.get (Reg.mln_LANE_POWER p 0) / 16 = 3) :
    sleepIn p 2 d = sleepTx p false d := by
  have h0 : ¬bit 2 0 = 1 := by decide
  have h1 : bit 2 1 = 1 := by decide
  simp only [sleepIn, if_neg (not_not_intro hup), h0, if_false, h1, hactive, and_self, if_true]

end

/-! ## Keys (R319, R320) -/

/-- The port whose entry a key of its records names. -/
theorem port_of_entry (p : Nat) {r c : Nat} (hr : r < 0x20) (hc : c < 256) :
    (((0x2810 + 0x20 * p + r) * 256 + c) / 256 - 0x2810) / 0x20 = p := by omega

/-- The entries of a port's key are no bounds of its write window. -/
theorem not_writeWindow (p : Nat) {c : Nat} (hc : c < 256) : ¬((0x2810 + 0x20 * p + 0x02) * 256 + c = Reg.mag_MAG_WRITE_MIN_C p ∨
    (0x2810 + 0x20 * p + 0x02) * 256 + c = Reg.mag_MAG_WRITE_MAX_C p) := by
  rintro (h | h)
  · change _ = (0x2810 + 0x20 * p + 0x01) * 256 + 0x01 at h
    omega
  · change _ = (0x2810 + 0x20 * p + 0x01) * 256 + 0x02 at h
    omega

section
variable {w : Writer} {p : Fin 4} {s : State}

/-- An accepted write depends on what its effect does, not on how it is written. -/
theorem accepted_effect {w : Writer} {k : Nat} {v : Val} {f : Nat → State → State} {g : State → State} {s : State}
    (h : ∀ n t, f n t = g t) : accepted w k v f s = accepted w k v (fun _ => g) s :=
  congrArg (fun f => accepted w k v f s) (funext fun n => funext fun t => h n t)

theorem exec_magKey {key : List Byte} (hc : writeCheck s.dev w (Reg.mag_MAG_KEY p) (.bytes key) = none) :
    exec (.magKey w p key) s = .next (accepted w (Reg.mag_MAG_KEY p) (.bytes key)
      (fun _ => onDev (setMag p (fun x => { x with keyHeld := some (some key) }))) s) := by
  have h : exec (.magKey w p key) s = .next (finishWrite s (writeMag w (Reg.mag_MAG_KEY p) (.bytes key) s)) := rfl
  have hport : (Reg.mag_MAG_KEY p / 256 - 0x2810) / 0x20 = p := port_of_entry p (by decide) (by decide)
  rw [h, writeMag, hport]
  refine congrArg Host.Outcome.next ((finishWrite_ok w _ _ _ _ s hc (if_neg (not_writeWindow p (by decide)))).trans (accepted_effect fun n t => ?_))
  exact if_pos rfl

theorem exec_magKeyClear (hc : writeCheck s.dev w (Reg.mag_MAG_KEY_CLEAR p) (.num 1) = none) :
    exec (.magKeyClear w p) s = .next (accepted w (Reg.mag_MAG_KEY_CLEAR p) (.num 1)
      (fun _ => onDev (setMag p (fun x => { x with keyHeld := some none }))) s) := by
  have h : exec (.magKeyClear w p) s = .next (finishWrite s (writeMag w (Reg.mag_MAG_KEY_CLEAR p) (.num 1) s)) := rfl
  have hport : (Reg.mag_MAG_KEY_CLEAR p / 256 - 0x2810) / 0x20 = p := port_of_entry p (by decide) (by decide)
  rw [h, writeMag, hport]
  have hkey : Reg.mag_MAG_KEY_CLEAR p ≠ Reg.mag_MAG_KEY p := entry_ne _ (by decide)
  refine congrArg Host.Outcome.next ((finishWrite_ok w _ _ _ _ s hc (if_neg (not_writeWindow p (by decide)))).trans (accepted_effect fun n t => ?_))
  exact (if_neg hkey).trans ((if_pos rfl).trans (if_pos rfl))

end

theorem exec_magKeyApply (p : Fin 4) (s : State) : exec (.magKeyApply p) s = .next (onDev (keyApply p) s) := rfl

/-- The units with a key in force, before it is checked. -/
def keyed (p : Nat) (key : List Byte) (d : Dev) : Dev :=
  setB (Reg.mag_MAG_KEY_ID p) (keyId key) (setMag p (fun x => { x with key := some key, keyHeld := none }) d)

theorem keyApply_of_quiet {p : Nat} {key : List Byte} {d : Dev} (hheld : (d.mag p).keyHeld = some (some key))
    (hquiet : d.outstanding p = 0) : keyApply p d = keyCheck p (keyed p key d) := by
  simp only [keyApply, hheld, hquiet, ne_eq, not_true_eq_false, if_false]
  rfl

/-- A key that the check finds wrong (R320). -/
def keyBad (p : Nat) (d : Dev) : Bool :=
  d.flag (Reg.mag_MAG_ENCRYPT p) && (d.mag p).ready &&
    (match (d.mag p).key with
     | none => true
     | some k => sliceB (padTo 128 (d.bytes (Reg.mag_MAG_IDENTIFY p))) 0x60 16 != zeros 16 &&
        sliceB (padTo 128 (d.bytes (Reg.mag_MAG_IDENTIFY p))) 0x60 16 != keyId k)

/-- The check of a key notes a mismatch at the port, and posts one. -/
theorem keyCheck_eq (p : Nat) (d : Dev) : ∃ a b, keyCheck p d =
    if keyBad p d then post 0x2807 (magInst p) a b (setMag p (fun y => { y with mismatch := keyBad p d }) d)
    else setMag p (fun y => { y with mismatch := keyBad p d }) d := ⟨_, _, rfl⟩

theorem keyCheck_val (p k : Nat) (d : Dev) : (keyCheck p d).val k = d.val k := by
  obtain ⟨a, b, h⟩ := keyCheck_eq p d
  rw [h]
  split
  · rfl
  · rfl

theorem keyCheck_mag {p : Nat} {d : Dev} (hp : p < d.mags.length) :
    (keyCheck p d).mag p = { d.mag p with mismatch := keyBad p d } := by
  obtain ⟨a, b, h⟩ := keyCheck_eq p d
  rw [h]
  split
  · exact mag_setMag hp (fun y => { y with mismatch := keyBad p d })
  · exact mag_setMag hp (fun y => { y with mismatch := keyBad p d })

theorem keyCheck_sources {p : Nat} {d : Dev} (h : keyBad p d = false) : (keyCheck p d).sources = d.sources := by
  obtain ⟨a, b, hcheck⟩ := keyCheck_eq p d
  rw [hcheck, h, if_neg Bool.false_ne_true]
  rfl

section
variable {p : Nat} {key : List Byte} {d : Dev}

theorem keyed_val (k : Nat) : (keyed p key d).val k = if k = Reg.mag_MAG_KEY_ID p then .bytes (keyId key) else d.val k := setB_val ..

theorem keyed_mag (hp : p < d.mags.length) : (keyed p key d).mag p = { d.mag p with key := some key, keyHeld := none } :=
  mag_setMag hp (fun x => { x with key := some key, keyHeld := none })

theorem length_keyed : (keyed p key d).mags.length = d.mags.length := List.length_modify ..

/-- Where MAG_ENCRYPT is FALSE or the magazine is not ready no key is wrong. -/
theorem keyBad_keyed (hp : p < d.mags.length) (h : d.flag (Reg.mag_MAG_ENCRYPT p) = false ∨ (d.mag p).ready = false) :
    keyBad p (keyed p key d) = false := by
  have hflag : (keyed p key d).flag (Reg.mag_MAG_ENCRYPT p) = d.flag (Reg.mag_MAG_ENCRYPT p) := by
    rw [Dev.flag, Dev.flag, get_congr ((keyed_val _).trans (if_neg (entry_ne _ (by decide))))]
  rw [keyBad, hflag, keyed_mag hp]
  rcases h with hoff | hnot
  · rw [hoff, Bool.false_and, Bool.false_and]
  · rw [hnot, Bool.and_false, Bool.false_and]

end

/-! ## Presence (R317, R321) -/

section
variable {p : Fin 4} {s : State}

theorem exec_magRemoved (hpin : s.dev.get (Reg.mag_MAG_PRESENT_PIN p) ≠ 0xFF) (hpresent : (s.dev.mag p).present = true) :
    exec (.magRemoved p) s = .next (magSettle (onDev (magGone p) s)) := by
  refine congrArg (fun t => Host.Outcome.next (magSettle t)) (onDev_congr (if_neg ?_))
  rw [hpresent, decide_eq_false hpin]
  exact Bool.false_ne_true

theorem exec_magInserted (hpin : s.dev.get (Reg.mag_MAG_PRESENT_PIN p) ≠ 0xFF) (habsent : (s.dev.mag p).present = false)
    (hport : p.val < s.dev.nMags) (hrun : s.dev.runs (.mag p) = true) :
    exec (.magInserted p) s = .next (onDev (fun d => supplyOn p (setMag p (fun x => { x with present := true }) d)) s) := by
  refine congrArg Host.Outcome.next (onDev_congr ((if_neg ?_).trans (if_pos hrun)))
  rw [habsent, decide_eq_false hpin, decide_eq_false (Nat.not_le.mpr hport)]
  exact Bool.false_ne_true

theorem exec_magPowerUpDone {r : Nat} (hraw : (s.dev.mag p).powerRaw = some r) (hsupply : (s.dev.mag p).supply = true)
    (hdue : cyclesOfMs (s.dev.powerUpMs p) ≤ s.dev.since r) :
    exec (.magPowerUpDone p) s = .next (onDev (fun d => magTrain p (setMag p (fun x => { x with powerRaw := none }) d)) s) := by
  have h : exec (.magPowerUpDone p) s = execMagPowerUpDone p s := rfl
  have hgo : ((s.dev.mag p).supply && decide (cyclesOfMs (s.dev.powerUpMs p) ≤ s.dev.since r)) = true := by
    rw [hsupply, decide_eq_true hdue]
    rfl
  rw [h, execMagPowerUpDone]
  refine congrArg Host.Outcome.next (onDev_congr ?_)
  rw [hraw]
  exact if_pos hgo

end

/-- Settles O39: each command's conditions choose the one branch of its rule, and a key takes effect by `keyed` with its check.
That a magazine's request to sleep is obeyed at once (assumption 284) and that a lane wakes with 4,090 matches (assumption 268)
is deduced. -/
theorem magazinesComeAndGo : Obligations.MagazinesComeAndGo := by
  refine ⟨?theirs, ?ours, ?wake, fun p s => exec_magRemoved, fun p s => exec_magInserted, fun p r s => exec_magPowerUpDone,
    fun w p key s => exec_magKey, fun w p s => exec_magKeyClear, ?apply, fun key => rfl⟩
  case theirs =>
    intro p s hup
    exact congrArg Host.Outcome.next (onDev_congr (sleepIn_theirs hup))
  case ours =>
    intro p s hup hactive
    exact congrArg Host.Outcome.next (onDev_congr (sleepIn_ours hup hactive))
  case wake =>
    intro p m s hup hasleep hall
    refine congrArg (fun t => Host.Outcome.next (magSettle t)) (onDev_congr ((if_neg ?_).trans (if_pos hall)))
    rw [decide_eq_false (not_not_intro hup), hasleep]
    decide
  case apply =>
    intro p key s hheld hquiet hp
    have hlen : p.val < (keyed p key s.dev).mags.length := Nat.lt_of_lt_of_eq hp length_keyed.symm
    have hmag := keyCheck_mag hlen
    rw [keyed_mag hp] at hmag
    have hval (k : Nat) := (keyCheck_val p k (keyed p key s.dev)).trans (keyed_val k)
    rw [exec_magKeyApply, onDev_congr (g := fun d => keyCheck p (keyed p key d)) (keyApply_of_quiet hheld hquiet)]
    refine completes_next ⟨?key, ?held, ?id, onDev_arb .., onDev_mem .., fun hgood => ⟨?mismatch, ?sources⟩, fun k hk => ?frame⟩
    case key => rw [onDev_dev, hmag]
    case held => rw [onDev_dev, hmag]
    case id => rw [onDev_dev, Dev.bytes, hval, if_pos rfl]
    case mismatch => rw [onDev_dev, hmag, keyBad_keyed hp hgood]
    case sources => rw [onDev_dev, keyCheck_sources (keyBad_keyed hp hgood)]; rfl
    case frame => rw [onDev_dev, hval, if_neg hk]

end Sys2Proof.Machine
end

section
/-! The statement about the recorder's queues: doorbells, fetches, queues that are enabled, and completions. -/

namespace Sys2Proof.Machine

/-! ## Doorbells (R326) -/

section
variable {n v : Nat} {d : Dev}

theorem sqTail_of_disabled (h : d.flag (Reg.sq_SQ_ENABLE n) = false) : sqTail n v d = d := by
  refine if_pos ?_
  rw [h]
  rfl

/-- The tail of an enabled SQ is set, and what is behind it is asked for. -/
theorem sqTail_of_enabled (h : d.flag (Reg.sq_SQ_ENABLE n) = true) : sqTail n v d =
    { setN (Reg.sq_SQ_TAIL n) (v % 65536) d with
      out := d.out ++ (if v % 65536 = d.get (Reg.sq_SQ_HEAD n) then []
        else [{ kind := .pcie, inst := n, info := [0x100, d.get (Reg.sq_SQ_HEAD n), v], data := [] }]) } := by
  unfold sqTail
  extract_lets d1
  have htail : d1.get (Reg.sq_SQ_TAIL n) = v % 65536 := setN_get_same ..
  rw [h, htail, Bool.not_true, if_neg Bool.false_ne_true]
  by_cases hv : v % 65536 = d.get (Reg.sq_SQ_HEAD n)
  · rw [if_pos hv, if_neg (by simp [hv]), List.append_nil]
    rfl
  · rw [if_neg hv, if_pos (by simp [hv])]
    rfl

end

theorem cqHead_of_enabled {n v : Nat} {s : State} (h : s.dev.flag (Reg.cq_CQ_ENABLE n) = true) :
    cqHead n v s = writeTaken (onDev (setN (Reg.cq_CQ_HEAD n) (v % 65536)) s) := if_pos h

/-! ## Fetches (R326, R350) -/

section
variable {n : Nat} {s : State} (hon : s.dev.flag (Reg.sq_SQ_ENABLE n) = true) (havail : s.dev.sqAvail n ≠ 0)
  (hd : s.dev.ep.d3hot = false)
include hon havail hd

theorem sqFetched_of_ready (entries : Option (List (List Byte))) : sqFetched n entries s =
    match entries with
    | none => onDev (fun e => post 0x2901 n (e.get (Reg.sq_SQ_HEAD n)) 0 (setN (Reg.sq_SQ_ENABLE n) 0 e)) s
    | some l =>
      let k := (l.take (s.dev.sqAvail n)).map (padTo 64)
      let s1 := onDev (fun e => setN (Reg.sq_SQ_HEAD n) ((e.get (Reg.sq_SQ_HEAD n) + k.length) % max 1 (e.get (Reg.sq_SQ_SIZE n)))
        (setRcq (fun r => { r with fetched := updAt n (fun x => x ++ k) r.fetched }) e)) s
      advance (admitInvalid s1.dev.entriesWaiting s1) := by
  refine if_neg ?_
  rw [hon, hd, decide_eq_false havail]
  decide

end

/-- The units with SQ `n` stopped by a failed fetch. -/
def sqStopped (n : Nat) (d : Dev) : Dev := post 0x2901 n (d.get (Reg.sq_SQ_HEAD n)) 0 (setN (Reg.sq_SQ_ENABLE n) 0 d)

theorem sqStopped_followUps (n : Nat) (d : Dev) : (sqStopped n d).followUps = d.followUps := rfl

/-! ## Queues that are enabled (R325, R326) -/

/-- The queue that an entry of a queue's record names. -/
theorem queue_of_entry {b n c : Nat} (hb : b % 0x40 = 0) (hn : n < 64) (hc : c < 256) : ((b + n) * 256 + c) / 256 % 0x40 = n := by
  omega

/-- The entries of the queues' records lie in their ranges. -/
theorem record_of_entry (b : Nat) {c : Nat} (hc : c < 256) : (b * 256 + c) / 256 = b := by omega

theorem rcqRule_sqEnable {n : Nat} (hn : n < 64) (d : Dev) : rcqRule (Reg.sq_SQ_ENABLE n) (.num 1) d = none := by
  have hrec : Reg.sq_SQ_ENABLE n / 256 = 0x2940 + n := record_of_entry _ (by decide)
  have hqueue : Reg.sq_SQ_ENABLE n / 256 % 0x40 = n := queue_of_entry (by decide) hn (by decide)
  unfold rcqRule
  extract_lets q
  have hq : q = n := hqueue
  rw [hq, hrec]
  dsimp only
  rw [if_pos ⟨by omega, by omega⟩]
  simp

theorem rcqRule_cqEnable {n : Nat} (hn : n < 64) (d : Dev) : rcqRule (Reg.cq_CQ_ENABLE n) (.num 1) d = none := by
  have hrec : Reg.cq_CQ_ENABLE n / 256 = 0x2980 + n := record_of_entry _ (by decide)
  have hqueue : Reg.cq_CQ_ENABLE n / 256 % 0x40 = n := queue_of_entry (by decide) hn (by decide)
  unfold rcqRule
  extract_lets q
  have hq : q = n := hqueue
  rw [hq, hrec]
  dsimp only
  rw [if_neg (by omega), if_pos ⟨by omega, by omega⟩]
  simp

/-- SQ `n`, enabled from index 0. -/
def sqOpened (n : Nat) (d : Dev) : Dev :=
  if (setN (Reg.sq_SQ_ENABLE n) 1 d).flag (Reg.sq_SQ_ENABLE n) && !(d.flag (Reg.sq_SQ_ENABLE n)) then
    setN (Reg.sq_SQ_HEAD n) 0 (setN (Reg.sq_SQ_TAIL n) 0 (setN (Reg.sq_SQ_ENABLE n) 1 d))
  else setN (Reg.sq_SQ_ENABLE n) 1 d

theorem sqOpened_val {n k : Nat} {d : Dev} (hoff : d.get (Reg.sq_SQ_ENABLE n) = 0) : (sqOpened n d).val k =
    if k = Reg.sq_SQ_HEAD n then .num 0 else if k = Reg.sq_SQ_TAIL n then .num 0 else if k = Reg.sq_SQ_ENABLE n then .num 1
    else d.val k := by
  have hrise : ((setN (Reg.sq_SQ_ENABLE n) 1 d).flag (Reg.sq_SQ_ENABLE n) && !(d.flag (Reg.sq_SQ_ENABLE n))) = true := by
    rw [Dev.flag, Dev.flag, setN_get_same, hoff]
    rfl
  rw [sqOpened, if_pos hrise, setN_val, setN_val, setN_val]

theorem rcqEffect_sqEnable {n : Nat} (hn : n < 64) (s : State) :
    rcqEffect (Reg.sq_SQ_ENABLE n) (.num 1) s = onDev (sqOpened n) s := by
  have hrec : Reg.sq_SQ_ENABLE n / 256 = 0x2940 + n := record_of_entry _ (by decide)
  have hqueue : Reg.sq_SQ_ENABLE n / 256 % 0x40 = n := queue_of_entry (by decide) hn (by decide)
  unfold rcqEffect
  extract_lets q
  have hq : q = n := hqueue
  rw [hq, if_pos ⟨rfl, by omega⟩]
  rfl

/-- CQ `n`, enabled from index 0 with phase 1. -/
def cqOpened (n : Nat) (d : Dev) : Dev :=
  if (setN (Reg.cq_CQ_ENABLE n) 1 d).flag (Reg.cq_CQ_ENABLE n) && !(d.flag (Reg.cq_CQ_ENABLE n)) then
    setRcq (fun r => { r with phase := updAt n (fun _ => true) r.phase })
      (setN (Reg.cq_CQ_HEAD n) 0 (setN (Reg.cq_CQ_TAIL n) 0 (setN (Reg.cq_CQ_ENABLE n) 1 d)))
  else setN (Reg.cq_CQ_ENABLE n) 1 d

theorem cqOpened_val {n k : Nat} {d : Dev} (hoff : d.get (Reg.cq_CQ_ENABLE n) = 0) : (cqOpened n d).val k =
    if k = Reg.cq_CQ_HEAD n then .num 0 else if k = Reg.cq_CQ_TAIL n then .num 0 else if k = Reg.cq_CQ_ENABLE n then .num 1
    else d.val k := by
  have hrise : ((setN (Reg.cq_CQ_ENABLE n) 1 d).flag (Reg.cq_CQ_ENABLE n) && !(d.flag (Reg.cq_CQ_ENABLE n))) = true := by
    rw [Dev.flag, Dev.flag, setN_get_same, hoff]
    rfl
  rw [cqOpened, if_pos hrise, setRcq_val, setN_val, setN_val, setN_val]

theorem cqOpened_cmds (n : Nat) (d : Dev) : (cqOpened n d).rcq.cmds = d.rcq.cmds := by
  unfold cqOpened
  split
  · rfl
  · rfl

/-- With no command outstanding no completion waits for room. -/
theorem writeTaken_of_none {s : State} (h : s.dev.rcq.cmds = []) : writeTaken s = s := by
  rw [writeTaken, h]
  rfl

theorem rcqEffect_cqEnable {n : Nat} (hn : n < 64) {s : State} (hcmds : s.dev.rcq.cmds = []) :
    rcqEffect (Reg.cq_CQ_ENABLE n) (.num 1) s = onDev (cqOpened n) s := by
  have hrec : Reg.cq_CQ_ENABLE n / 256 = 0x2980 + n := record_of_entry _ (by decide)
  have hqueue : Reg.cq_CQ_ENABLE n / 256 % 0x40 = n := queue_of_entry (by decide) hn (by decide)
  have hsq : Reg.cq_CQ_ENABLE n ≠ Reg.sq_SQ_ENABLE n := by
    change (0x2980 + n) * 256 + 0x01 ≠ (0x2940 + n) * 256 + 0x01
    omega
  have hnone : (onDev (cqOpened n) s).dev.rcq.cmds = [] := (cqOpened_cmds n s.dev).trans hcmds
  unfold rcqEffect
  extract_lets q
  have hq : q = n := hqueue
  rw [hq, if_neg (fun h => hsq h.1), if_pos ⟨rfl, by omega⟩]
  exact writeTaken_of_none hnone

/-- The commands outstanding are no part of the record of a write. -/
theorem noted_cmds (w : Writer) (k : Nat) (v : Val) (s : State) : (noted w k v s).rcq.cmds = s.dev.rcq.cmds := by
  obtain ⟨r, c, x, q, n, y, e, h⟩ := noted_eq w k v s
  rw [h]

section
variable {w : Writer} {n : Fin 64} {s : State}

theorem exec_sqEnable (hc : writeCheck s.dev w (Reg.sq_SQ_ENABLE n) (.num 1) = none) :
    exec (.sqEnable w n true) s = .next (accepted w (Reg.sq_SQ_ENABLE n) (.num 1) (fun _ => onDev (sqOpened n)) s) :=
  congrArg Host.Outcome.next ((finishWrite_ok w _ _ _ _ s hc (rcqRule_sqEnable n.isLt s.dev)).trans
    (accepted_effect fun _ t => rcqEffect_sqEnable n.isLt t))

theorem exec_cqEnable (hc : writeCheck s.dev w (Reg.cq_CQ_ENABLE n) (.num 1) = none) (hcmds : s.dev.rcq.cmds = []) :
    exec (.cqEnable w n true) s = .next (accepted w (Reg.cq_CQ_ENABLE n) (.num 1) (fun _ => onDev (cqOpened n)) s) := by
  have hnone : (noted w (Reg.cq_CQ_ENABLE n) (.num 1) s).rcq.cmds = [] := (noted_cmds ..).trans hcmds
  refine congrArg Host.Outcome.next ((finishWrite_ok w _ _ _ _ s hc (rcqRule_cqEnable n.isLt s.dev)).trans ?_)
  exact congrArg (onDev (fun d => { d with answer := 0 })) (rcqEffect_cqEnable n.isLt hnone)

end

/-! ## Completions (R330) -/

theorem takeHost_of_room {c : RecCmd} {s : State} (hroom : s.dev.cqRoom (s.dev.get (Reg.sq_SQ_CQ c.queue)) = true)
    (hfirst : s.dev.rcq.cmds.any (fun x => decide (x.ph = .taken) &&
      s.dev.get (Reg.sq_SQ_CQ x.queue) == s.dev.get (Reg.sq_SQ_CQ c.queue)) = false) : takeHost c s = writeCqe c s := by
  refine if_pos ?_
  rw [hroom, hfirst]
  rfl

theorem completionTake_of_host {tag : Nat} {c : RecCmd} {rest : List Nat} {s : State} (hcomp : s.dev.rcq.comp = tag :: rest)
    (hcmd : s.dev.cmd? tag = some c) (hhost : c.queue < 64) :
    completionTake s = takeHost c (onDev (setRcq (fun r => { r with comp := rest })) s) := by
  have hcmd' : (onDev (setRcq (fun r => { r with comp := rest })) s).dev.cmd? tag = some c := hcmd
  unfold completionTake
  rw [hcomp]
  dsimp only
  rw [hcmd']
  exact if_pos hhost

/-- A completion is written at the tail of its CQ. -/
theorem writeCqe_hostMem (c : RecCmd) (s : State) : (writeCqe c s).hostMem = s.hostMem.writeBytes
    (s.dev.get (Reg.cq_CQ_BASE (s.dev.get (Reg.sq_SQ_CQ c.queue))) +
      16 * s.dev.get (Reg.cq_CQ_TAIL (s.dev.get (Reg.sq_SQ_CQ c.queue))))
    (cqe s.dev c (nth s.dev.rcq.phase (s.dev.get (Reg.sq_SQ_CQ c.queue)))) := by
  unfold writeCqe
  rfl

theorem writeCqe_mem (c : RecCmd) (s : State) : (writeCqe c s).mem = s.mem := by
  unfold writeCqe
  rfl

/-- Settles O40: each doorbell and fetch is its rule's branch; a queue that is enabled is the write of an entry. That a queue that
is enabled starts at index 0 is this model's choice (assumption 291). -/
theorem queuesMove : Obligations.QueuesMove := by
  refine ⟨?tail, ?head, ?disabled, ?failed, ?fetched, ?sqEnable, ?cqEnable, ?post, fun c s => ⟨_, writeCqe_hostMem c s, writeCqe_mem c s⟩⟩
  case tail =>
    intro n v s hd hon
    have h : exec (.sqTailDb n v) s = .next (onDev (sqTail n v) s) := by
      refine congrArg Host.Outcome.next (if_neg ?_)
      rw [hd]
      exact Bool.false_ne_true
    have htail := sqTail_of_enabled (v := v) hon
    rw [h, onDev, htail]
    exact completes_next ⟨setN_get_same .., rfl, rfl, rfl, rfl, fun k hk => setN_val_of_ne hk _ _⟩
  case head =>
    intro n v s hd hon
    have h : exec (.cqHeadDb n v) s = .next (magSettle (cqHead n v s)) := by
      refine congrArg Host.Outcome.next (if_neg ?_)
      rw [hd]
      exact Bool.false_ne_true
    rw [h, cqHead_of_enabled hon]
  case disabled =>
    intro n v s hoff
    refine congrArg Host.Outcome.next ?_
    split
    · rfl
    · rw [onDev, sqTail_of_disabled hoff]
  case failed =>
    intro n s hon havail hd hcalm
    have h : exec (.sqFetchDone n none) s = .next (magSettle (sqFetched n none s)) := rfl
    have hcalm' : (onDev (sqStopped n) s).dev.calm = true := (calm_congr (sqStopped_followUps n s.dev)).trans hcalm
    rw [h, sqFetched_of_ready hon havail hd]
    exact congrArg Host.Outcome.next (magSettle_calm _ hcalm')
  case fetched =>
    intro n l k s s1 hon havail hd hk hs1
    have h : exec (.sqFetchDone n (some l)) s = .next (magSettle (sqFetched n (some l) s)) := rfl
    rw [h, sqFetched_of_ready hon havail hd, hs1, hk]
  case sqEnable =>
    intro w n s hc hoff
    have hoff' : (noted w (Reg.sq_SQ_ENABLE n) (.num 1) s).get (Reg.sq_SQ_ENABLE n) = 0 :=
      (noted_get _ _ _ _ (entry_ne_dirty 1 (by omega))).trans hoff
    have hval (k : Nat) := (accepted_val w (Reg.sq_SQ_ENABLE n) (.num 1) s (sqOpened n) k).trans (sqOpened_val hoff')
    rw [exec_sqEnable hc]
    refine completes_next ⟨get_of_val ((hval _).trans ?on), get_of_val ((hval _).trans ?head), get_of_val ((hval _).trans ?tail),
      accepted_mem .., accepted_poison .., fun k he hh ht hdirty => ?frame⟩
    case on => simp
    case head => simp
    case tail => simp
    case frame => rw [hval, if_neg hh, if_neg ht, if_neg he, noted_val _ _ _ _ hdirty]
  case cqEnable =>
    intro w n s hc hoff hcmds
    have hoff' : (noted w (Reg.cq_CQ_ENABLE n) (.num 1) s).get (Reg.cq_CQ_ENABLE n) = 0 :=
      (noted_get _ _ _ _ (entry_ne_dirty 1 (by omega))).trans hoff
    have hval (k : Nat) := (accepted_val w (Reg.cq_CQ_ENABLE n) (.num 1) s (cqOpened n) k).trans (cqOpened_val hoff')
    rw [exec_cqEnable hc hcmds]
    refine completes_next ⟨get_of_val ((hval _).trans ?on), get_of_val ((hval _).trans ?head), get_of_val ((hval _).trans ?tail),
      accepted_mem .., accepted_poison ..⟩
    case on => simp
    case head => simp
    case tail => simp
  case post =>
    intro tag c rest s hcomp hcmd hhost hroom hfirst
    have h : exec .completionPost s = .next (magSettle (completionTake s)) := rfl
    rw [h, completionTake_of_host hcomp hcmd hhost]
    exact congrArg (fun t => Host.Outcome.next (magSettle t)) (takeHost_of_room hroom hfirst)

end Sys2Proof.Machine
end

section
/-! The statement about the recorder's transfers, power states, units and the clip store's commands. -/

namespace Sys2Proof.Machine

/-! ## Transfers (R335) -/

theorem hostTransfer_of_write {tag : Nat} {c : RecCmd} {data : List Byte} {s : State} (hcmd : s.dev.cmd? tag = some c)
    (hhost : c.queue < 64) (hactive : c.ph = .active) (hd : s.dev.ep.d3hot = false) (hop : c.op = 2) (hmore : c.next < c.count) :
    hostTransfer tag true data s = portRun (c.ns - 1) (onDev (fun d =>
      enqueue (c.ns - 1) (dataPkt d (c.ns - 1) c c.next data) (setCmd tag (fun x => { x with next := x.next + 1 }) d)) s) := by
  have hgo : ¬(decide (64 ≤ c.queue) || !(decide (c.ph = .active)) || s.dev.ep.d3hot || decide (c.op = 5) || decide (c.op = 3) ||
      decide (c.op = 4)) = true := by
    simp [hactive, hd, hop, Nat.not_le.mpr hhost]
  unfold hostTransfer
  rw [hcmd]
  dsimp only
  rw [if_neg hgo, if_pos hop, if_neg (Nat.not_le.mpr hmore), if_neg (by decide)]

/-! ## Power states (R345, R346) -/

theorem psTimer_of_ps0 {p : Nat} {d : Dev} (hidle : d.magIdle p = true) (hready : (d.mag p).ready = true)
    (hown : (d.mag p).own = []) (hexit : (d.mag p).exiting = false) (hhold : d.holdup = false) (hmode : d.mode ≠ mTHERMAL)
    (hup : d.magState p = msUP) (hnext : d.psNext p = some 1) :
    psTimer p d = setPs p 1 0 (lanesTo p none (some 2) (sleepTx p true d)) := by
  have hgo : ¬(!d.magIdle p || !(d.mag p).ready || !(d.mag p).own.isEmpty || (d.mag p).exiting || d.holdup ||
      decide (d.mode = mTHERMAL) || decide (d.magState p ≠ msUP) && decide (d.ps p < 2)) = true := by
    simp [hidle, hready, hown, hexit, hhold, hmode, hup]
  unfold psTimer
  extract_lets m
  rw [if_neg hgo, hnext]
  rfl

theorem exec_psExitDone {p : Fin 4} {s : State} (hexit : (s.dev.mag p).exiting = true) (hup : s.dev.magState p = msUP)
    (halign : s.dev.magAlignedAll p = true) (hident : (s.dev.mag p).wantIdent = false)
    (hown : (s.dev.mag p).own.all (fun o => o.op == opTEMP) = true) :
    exec (.psExitDone p) s = .next (magSettle (onDev (fun d =>
      setPs p 0 1 (setMag p (fun x => { x with exiting := false, ready := true }) d)) s)) := by
  refine congrArg (fun t => Host.Outcome.next (magSettle t)) (onDev_congr (if_pos ?_))
  rw [hexit, decide_eq_true hup, halign, hident, hown]
  rfl

/-! ## Recording units (R363) -/

theorem takeWrite_of_turn {p : Nat} {u : RecUnit} {us : List RecUnit} {s : State} (hfront : s.dev.frontUnit = u :: us)
    (hopen : s.dev.takeOpen = true) (hmembers : s.dev.take.members ≠ [])
    (hturn : nth s.dev.take.members (s.dev.take.units % max 1 s.dev.take.members.length) = p) (hfw : s.dev.fwIdle p = true)
    (hready : (u :: us).any (fun x => !x.ready) = false) (hpartner : us = [] → s.dev.partnerPending u = false) :
    takeWrite p s = writeUnit p (u :: us)
      (onDev (fun e => { e with recQ := (u :: us).foldl (fun l x => l.erase x) e.recQ }) s) := by
  have hpair : (decide ((u :: us).length = 1) && (u :: us).any s.dev.partnerPending) = false := by
    cases us with
    | nil => simp [hpartner rfl]
    | cons x l => simp
  have hmember : s.dev.take.members.isEmpty = false := by
    cases hl : s.dev.take.members with
    | nil => exact absurd hl hmembers
    | cons x l => rfl
  unfold takeWrite
  extract_lets d
  rw [hfront]
  dsimp only
  rw [hopen, hmember, decide_eq_false (not_not_intro hturn), hfw, hready, hpair]
  exact if_neg (by decide)

/-! ## The clip store's commands (R366, R367) -/

theorem clipRule_of_configure {p : Nat} {d : Dev} (hmode : d.mode = mCONFIGURE) (htarget : d.target = 0) (hp : p < d.nMags) :
    clipRule (.num p) d = none := by
  simp [clipRule, hmode, htarget, Nat.not_le.mpr hp]

section
variable {w : Writer} {p : Nat} {s : State} (hmode : s.dev.mode = mCONFIGURE) (htarget : s.dev.target = 0) (hp : p < s.dev.nMags)
include hmode htarget hp

theorem exec_clipRecover (hc : writeCheck s.dev w Reg.clip_CLIP_RECOVER (.num p) = none) :
    exec (.clipRecover w p) s = .next (accepted w Reg.clip_CLIP_RECOVER (.num p)
      (fun _ s => fwAll (onDev (fun d => fwAdd p ((d.mag p).openClips.map (fun i => .act (.scan i))) d) s)) s) := by
  refine congrArg Host.Outcome.next ((finishWrite_ok w _ _ _ _ s hc ?_).trans (accepted_effect fun _ t => ?_))
  · exact (if_pos (.inr rfl)).trans (clipRule_of_configure hmode htarget hp)
  · exact (if_neg (by decide)).trans (if_pos rfl)

theorem exec_clipFormat (hc : writeCheck s.dev w Reg.clip_CLIP_FORMAT (.num p) = none) :
    exec (.clipFormat w p) s = .next (accepted w Reg.clip_CLIP_FORMAT (.num p) (fun _ s => fwAll (onDev (fun d =>
      storeReport p (fwAdd p (formatOps p d) (setMag p (fun x => { x with store := none, clip := none }) d))) s)) s) := by
  refine congrArg Host.Outcome.next ((finishWrite_ok w _ _ _ _ s hc ?_).trans (accepted_effect fun _ t => ?_))
  · exact (if_pos (.inl rfl)).trans (clipRule_of_configure hmode htarget hp)
  · exact if_pos rfl

end

/-- Settles O42: each command is the branch of its rule that the conditions choose. -/
theorem recorderWorks : Obligations.RecorderWorks := by
  refine ⟨?transfer, ?timer, fun p s => exec_psExitDone, ?unit, fun w p s hc hmode htarget hp => exec_clipRecover hmode htarget hp hc,
    fun w p s hc hmode htarget hp => exec_clipFormat hmode htarget hp hc⟩
  case transfer =>
    intro tag c data s hcmd hhost hactive hd hop hmore
    exact congrArg (fun t => Host.Outcome.next (magSettle t)) (hostTransfer_of_write hcmd hhost hactive hd hop hmore)
  case timer =>
    intro p s hidle hready hown hexit hhold hmode hup hnext
    exact congrArg (fun t => Host.Outcome.next (magSettle t))
      (onDev_congr (psTimer_of_ps0 hidle hready hown hexit hhold hmode hup hnext))
  case unit =>
    intro p u us s hfront hopen hmembers hturn hfw hready hpartner
    exact congrArg (fun t => Host.Outcome.next (magSettle t)) (takeWrite_of_turn hfront hopen hmembers hturn hfw hready hpartner)

end Sys2Proof.Machine
end

section
/-! The statement about the two-wire buses: what a bus keeps of its transactions, and how a transaction ends. -/

namespace Sys2Proof.Machine

/-- Device time is formed from entries of the time base's record alone. -/
theorem tbNow_of_record {d e : Dev} (hraw : e.time.raw = d.time.raw) (hval : ∀ k, k / 256 = 0x3000 → e.val k = d.val k) :
    tbNow e = tbNow d :=
  tbNow_congr hraw (get_congr (hval _ (by decide))) (get_congr (hval _ (by decide))) (get_congr (hval _ (by decide)))

/-- An entry of another record. -/
theorem ne_of_record {k b c : Nat} (hc : c < 256) (h : k / 256 ≠ b) : k ≠ b * 256 + c := by omega

/-! ## The bus (R481, R482) -/

@[simp] theorem timed_run (raw : Nat) (old b : TwBus) : (TwBus.timed raw old b).run = b.run := rfl
@[simp] theorem timed_busy (raw : Nat) (old b : TwBus) : (TwBus.timed raw old b).busy = b.busy := rfl
@[simp] theorem timed_queue (raw : Nat) (old b : TwBus) : (TwBus.timed raw old b).queue = b.queue := rfl
@[simp] theorem timed_clearing (raw : Nat) (old b : TwBus) : (TwBus.timed raw old b).clearing = b.clearing := rfl

section
variable {n : Nat} {d : Dev}

theorem bus_setBus (hn : n < d.tw.length) (f : TwBus → TwBus) :
    (setBus n f d).bus n = TwBus.timed d.time.raw (d.bus n) (f (d.bus n)) := nth_updAt_same n _ _ hn

theorem twSync_bus : (twSync n d).bus n = d.bus n := rfl

theorem twSync_val {k : Nat} (hk : k ≠ Reg.tw_TW_STATE n) : (twSync n d).val k = d.val k := setN_val_of_ne hk _ d

/-- A bus that has nothing to report leaves nothing to follow. -/
theorem twSettle_calm {s : State} (h : s.dev.calm = true) : twSettle n s = onDev (twSync n) s :=
  settleState_calm _ ((calm_congr rfl).trans h)

end

/-! ## Ends of transactions (R480, R483) -/

section
variable {n : Nat} {x : TwXfer} {r : TwEnd} {d : Dev}

/-- SUCCESS is the end of a transaction that was not cut short and whose bytes were all acknowledged. -/
theorem result_of_success (h : (x.result r).1 = 0) : x.result r = (0, x.wdata.length, padTo x.rlen r.data) := by
  unfold TwXfer.result at h ⊢
  extract_lets at h ⊢
  split at h
  · split at h
    · next hslots => rw [if_pos hslots]
    · split at h <;> exact absurd h (Nat.succ_ne_zero _)
  all_goals exact absurd h (Nat.succ_ne_zero _)

theorem result_of_acked (hcut : r.cut.val = 0) (hacks : ∀ a, a ∈ r.acks → a = true) (hlen : x.wdata.length + 2 ≤ r.acks.length) :
    x.result r = (0, x.wdata.length, padTo x.rlen r.data) := by
  unfold TwXfer.result
  extract_lets w slots got acked
  have hgot : got.length = slots := by
    have hslots : slots ≤ r.acks.length := by
      have hw : (if w = 0 then 0 else 1 + w) ≤ 1 + w := by split <;> omega
      have hr : (if x.rlen = 0 then 0 else 1) ≤ 1 := by split <;> omega
      exact (Nat.add_le_add hw hr).trans (by omega)
    rw [show got = r.acks.take slots from List.takeWhile_eq_self_iff.mpr fun a ha => hacks a (List.mem_of_mem_take ha)]
    exact List.length_take_of_le hslots
  rw [hcut]
  exact if_pos hgot

theorem result_of_silence (hcut : r.cut.val = 0) (hw : x.wdata ≠ []) (hacks : r.acks = []) : (x.result r).1 = 1 := by
  have hlen : x.wdata.length ≠ 0 := by simpa using hw
  unfold TwXfer.result
  extract_lets w slots got acked
  have hgot : got = [] := by simp [got, hacks]
  have hslots : ¬ got.length = slots := by
    rw [hgot, show slots = 1 + w + (if x.rlen = 0 then 0 else 1) from congrArg (· + _) (if_neg hlen), List.length_nil]
    omega
  rw [hcut]
  exact congrArg Prod.fst ((if_neg hslots).trans (if_neg (by simp [hgot])))

/-- What TW_RESULT holds of a transaction (Table 19.5). -/
def TwXfer.report (x : TwXfer) (status acked : Nat) (data : List Byte) (tb : Nat) : List Byte :=
  leBytes 4 x.tag ++ leBytes 1 status ++ leBytes 1 acked ++ leBytes 1 data.length ++
    leBytes 1 x.attempts ++ leBytes 8 x.startTb ++ leBytes 8 tb ++ padTo 64 data

theorem twFinish_of_success (hx : x.owner = .client) (acked : Nat) (data : List Byte) :
    twFinish n x 0 acked data d = post 0x3801 n x.tag 0 (setB (Reg.tw_TW_RESULT n) (x.report 0 acked data (tbNow d))
      (inc64 (Reg.tw_TW_TRANSACTIONS n) d)) := by
  unfold twFinish
  extract_lets d1 d2
  rw [hx]
  rfl

theorem twComplete_of_success (hrun : (d.bus n).run = some x) (hresult : (x.result r).1 = 0) :
    twComplete n r d = twFinish n x 0 x.wdata.length (padTo x.rlen r.data) (twRunEnded n false d) := by
  unfold twComplete
  rw [hrun]
  dsimp only
  rw [result_of_success hresult]
  rfl

end

/-! ## Conditions of other controllers (R482) -/

/-- A bus without a transaction of its own hears the conditions of others. -/
theorem onDev_of_notRunning {n : Nat} {s : State} (hrun : (s.dev.bus n).run = none) (f : Dev → Dev) :
    onDev (fun d => if (d.bus n).run.isNone then f d else d) s = onDev f s :=
  onDev_congr (if_pos (by rw [hrun]; rfl))

theorem twSettle_setBusy {n : Nat} {busy : Bool} {s : State} (hcalm : s.dev.calm = true) (hrun : (s.dev.bus n).run = none)
    (hn : n < s.dev.tw.length) : completes (.next (twSettle n (onDev (fun d =>
      if (d.bus n).run.isNone then setBus n (fun b => { b with busy := busy }) d else d) s)))
    (fun t => (t.dev.bus n).busy = busy ∧ (t.dev.bus n).queue = (s.dev.bus n).queue ∧ (t.dev.bus n).run = none ∧
      (t.dev.bus n).clearing = (s.dev.bus n).clearing ∧ t.arb = s.arb ∧ t.mem = s.mem ∧ t.dev.sources = s.dev.sources ∧
      ∀ k, k ≠ Reg.tw_TW_STATE n → t.dev.val k = s.dev.val k) := by
  have hquiet : (onDev (setBus n (fun b => { b with busy := busy })) s).dev.calm = true := (calm_congr rfl).trans hcalm
  rw [onDev_of_notRunning hrun, twSettle_calm hquiet]
  refine ⟨_, rfl, ?_⟩
  simp only [onDev_dev, onDev_arb, onDev_mem, twSync_bus, bus_setBus hn, timed_busy, timed_queue, timed_run, timed_clearing]
  exact ⟨trivial, trivial, hrun, trivial, trivial, trivial, rfl, fun k hk => twSync_val hk⟩

/-! ## The commands -/

section
variable {w : Writer} {n : Fin 8} {s : State}

theorem exec_twXfer {b : List Byte} (hc : writeCheck s.dev w (Reg.tw_TW_XFER n) (.bytes b) = none) (hok : twXferOk b = true)
    (hroom : (s.dev.bus n).clients < 8) : exec (.twXfer w n b) s = .next (twSettle n (accepted w (Reg.tw_TW_XFER n) (.bytes b)
      (fun _ => onDev (fun d => twSync n (twOffer n (twClient b) d))) s)) := by
  refine congrArg (fun t => Host.Outcome.next (twSettle n t)) (finishWrite_ok w _ _ _ _ s hc ?_)
  exact (if_neg (by rw [hok]; decide)).trans (if_neg (Nat.not_le.mpr hroom))

end

section
variable {n : Nat} {x : TwXfer} {q : List TwXfer} {l : TwLines} {d : Dev}

section
variable (hq : (d.bus n).queue = x :: q)
include hq

theorem twStart_of_free (hstart : (d.bus n).canStart = true) (hstuck : (d.bus n).stuckAt = none) (hscl : l.sclLow = false)
    (hsda : l.sdaLow = false) : twStart n l d = twBegin n x (setBus n (fun b => { b with queue := q }) d) := by
  simp [twStart, hq, hstart, hstuck, hscl, hsda]

theorem twBusyTimeout_of_waited (hbusy : (d.bus n).busy = true) (hwaited : d.twWaited n = true) :
    twBusyTimeout n d = twFinish n x 6 0 [] (setBus n (fun b => { b with queue := q }) d) := by
  simp [twBusyTimeout, hq, hbusy, hwaited]

theorem twSclLow_of_waited (hstart : (d.bus n).canStart = true) (hwaited : d.twWaited n = true) :
    twSclLow n d = clearPulse n x true (setBus n (fun b => { b with queue := q }) d) := by
  simp [twSclLow, hq, hstart, hwaited]

end

section
variable (hpulse : (d.bus n).pulse = true)
  (htime : d.get (Reg.tw_TW_RST_TIME_US n) * 1200 ≤ (d.time.raw + 2 ^ 64 - (d.bus n).pulseAt) % 2 ^ 64)
include hpulse htime

theorem twPulseEnd_of_alone (hclear : (d.bus n).clearing = none) :
    twPulseEnd n l d = emitRst n (setBus n (fun b => { b with pulse := false }) d) := by
  have hover : ¬(!(d.bus n).pulse || decide ((d.time.raw + 2 ^ 64 - (d.bus n).pulseAt) % 2 ^ 64 <
      d.get (Reg.tw_TW_RST_TIME_US n) * 1200)) = true := by
    rw [hpulse, decide_eq_false (Nat.not_lt.mpr htime)]
    decide
  unfold twPulseEnd
  extract_lets b d1
  rw [if_neg hover, show b.clearing = none from hclear]

theorem twPulseEnd_of_clear {via : Bool} {k : Nat} (hclear : (d.bus n).clearing = some (x, via)) (hscl : l.sclLow = false)
    (hk : clearPulses l.samples = some k) :
    twPulseEnd n l d = clearDone n x k 1 (emitRst n (setBus n (fun b => { b with pulse := false }) d)) := by
  have hover : ¬(!(d.bus n).pulse || decide ((d.time.raw + 2 ^ 64 - (d.bus n).pulseAt) % 2 ^ 64 <
      d.get (Reg.tw_TW_RST_TIME_US n) * 1200)) = true := by
    rw [hpulse, decide_eq_false (Nat.not_lt.mpr htime)]
    decide
  unfold twPulseEnd
  extract_lets b d1
  rw [if_neg hover, show b.clearing = some (x, via) from hclear]
  dsimp only
  rw [if_neg (by rw [hscl]; decide), hk]

end
end

/-- The units after a client's transaction whose bytes were all acknowledged. -/
def twSucceeded (n : Nat) (x : TwXfer) (r : TwEnd) (d : Dev) : Dev :=
  post 0x3801 n x.tag 0 (setB (Reg.tw_TW_RESULT n) (x.report 0 x.wdata.length (padTo x.rlen r.data) (tbNow d))
    (inc64 (Reg.tw_TW_TRANSACTIONS n) (twRunEnded n false d)))

section
variable {n : Nat} {x : TwXfer} {r : TwEnd} {d : Dev}

theorem twComplete_client (hrun : (d.bus n).run = some x) (hclient : x.owner = .client) (hresult : (x.result r).1 = 0) :
    twComplete n r d = twSucceeded n x r d :=
  (twComplete_of_success hrun hresult).trans (twFinish_of_success hclient ..)

theorem twSucceeded_bus (hn : n < d.tw.length) : ((twSucceeded n x r d).bus n).run = none ∧ ((twSucceeded n x r d).bus n).busy = false := by
  have h : (twSucceeded n x r d).bus n = (twRunEnded n false d).bus n := rfl
  rw [h, twRunEnded, bus_setBus hn]
  exact ⟨rfl, rfl⟩

theorem twSucceeded_val (k : Nat) : (twSucceeded n x r d).val k =
    if k = Reg.tw_TW_RESULT n then .bytes (x.report 0 x.wdata.length (padTo x.rlen r.data) (tbNow d))
    else if k = Reg.tw_TW_TRANSACTIONS n then .num ((d.get (Reg.tw_TW_TRANSACTIONS n) + 1) % 2 ^ 64) else d.val k := by
  have h : (twSucceeded n x r d).val k = (setB (Reg.tw_TW_RESULT n)
    (x.report 0 x.wdata.length (padTo x.rlen r.data) (tbNow d))
    (inc64 (Reg.tw_TW_TRANSACTIONS n) (twRunEnded n false d))).val k := rfl
  rw [h, setB_val, inc64_val]
  rfl

theorem twSucceeded_sources : (twSucceeded n x r d).sources = (post 0x3801 n x.tag 0 d).sources := by
  refine post_sources_congr rfl rfl rfl (tbNow_of_record rfl fun k hk => ?_)
  have hrecord : k / 256 ≠ 0x3810 + n := by omega
  rw [setB_val, if_neg (ne_of_record (by decide) hrecord), inc64_val, if_neg (ne_of_record (by decide) hrecord)]
  rfl

end

theorem exec_twTransactionComplete_client {n : Fin 8} {x : TwXfer} {r : TwEnd} {s : State} (hcalm : s.dev.calm = true)
    (hrun : (s.dev.bus n).run = some x) (hclient : x.owner = .client) (hresult : (x.result r).1 = 0) :
    exec (.twTransactionComplete n r) s = .next (onDev (fun d => twSync n (twSucceeded n x r d)) s) := by
  have hend : onDev (twComplete n r) s = onDev (twSucceeded n x r) s := onDev_congr (twComplete_client hrun hclient hresult)
  have hquiet : (onDev (twSucceeded n x r) s).dev.calm = true := (calm_congr rfl).trans hcalm
  have h : exec (.twTransactionComplete n r) s = .next (twSettle n (onDev (twComplete n r) s)) := rfl
  rw [h, hend, twSettle_calm hquiet]
  rfl

/-! ## A clock stretched too long (R480) -/

theorem twBegin_eq (n : Nat) (x : TwXfer) (d : Dev) :
    ∃ f, twBegin n x d = emit .twoWire n (0 :: (d.twTimes n ++ x.wires)) [] (setBus n f d) := ⟨_, rfl⟩

theorem twStretch_of_run {n : Nat} {x : TwXfer} {d : Dev} (hrun : (d.bus n).run = some x) (acked : Nat) :
    twStretch n acked d = emitRst n (setBus n (fun b => { b with pulse := true }) (twFinish n x 8 acked [] (twRunEnded n true d))) := by
  unfold twStretch
  rw [hrun]

/-- Settles O55: each command is the branch of its rule that the conditions choose, and in a calm state a bus that reports
has nothing left to follow. -/
theorem busesRunTransactions : Obligations.BusesRunTransactions := by
  refine ⟨fun w n b s => exec_twXfer, ?start, ?complete, fun x r => result_of_acked, fun x r => result_of_silence, ?wires, ?waited,
    ?stretch, fun n s hcalm hrun hn => twSettle_setBusy hcalm hrun hn, fun n stop s hcalm hrun hn => twSettle_setBusy hcalm hrun hn,
    ?low, ?pulse, ?clear, ?assert⟩
  case start =>
    intro n x q l s hq hstart hstuck hscl hsda
    exact congrArg (fun t => Host.Outcome.next (twSettle n t)) (onDev_congr (twStart_of_free hq hstart hstuck hscl hsda))
  case complete =>
    intro n x r s hcalm hrun hclient hresult hn
    obtain ⟨hended, hidle⟩ := twSucceeded_bus (x := x) (r := r) hn
    refine ⟨_, exec_twTransactionComplete_client hcalm hrun hclient hresult, hended, hidle, ?_, ?_, ?_, twSucceeded_sources, rfl, rfl,
      ?_⟩
    · rw [onDev_dev, get_congr (twSync_val (entry_ne _ (by decide))), Dev.get, twSucceeded_val, if_neg (entry_ne _ (by decide)),
        if_pos rfl]
    · rw [onDev_dev, get_congr (twSync_val (entry_ne _ (by decide)))]
      refine get_congr ?_
      rw [twSucceeded_val, if_neg (entry_ne _ (by decide)), if_neg (entry_ne _ (by decide))]
    · rw [onDev_dev, bytes_congr (twSync_val (entry_ne _ (by decide))), Dev.bytes, twSucceeded_val, if_pos rfl]
      rfl
    · intro k hcount hresult' hstate
      rw [onDev_dev, twSync_val hstate, twSucceeded_val, if_neg hresult', if_neg hcount]
  case wires =>
    intro n x d
    obtain ⟨f, h⟩ := twBegin_eq n x d
    exact ⟨setBus n f d, rfl, rfl, h⟩
  case waited =>
    intro n x q s hq hbusy hwaited
    exact congrArg (fun t => Host.Outcome.next (twSettle n t)) (onDev_congr (twBusyTimeout_of_waited hq hbusy hwaited))
  case stretch =>
    intro n x s hrun
    refine ⟨_, rfl, (freeDraw s.dev).1 % (x.wdata.length + 1), Nat.le_of_lt_succ (Nat.mod_lt _ (Nat.succ_pos _)), ?_⟩
    have hdrawn : ((freeDraw s.dev).2.bus n).run = some x := hrun
    refine congrArg (fun d => twSettle n { s with dev := d }) (Eq.trans ?_ (twStretch_of_run hdrawn _))
    beta_reduce
    rw [hrun]
  case low =>
    intro n x q s hq hstart hwaited
    exact congrArg (fun t => Host.Outcome.next (twSettle n t)) (onDev_congr (twSclLow_of_waited hq hstart hwaited))
  case pulse =>
    intro n l s hpulse hclear htime
    exact congrArg (fun t => Host.Outcome.next (twSettle n t)) (onDev_congr (twPulseEnd_of_alone hpulse htime hclear))
  case clear =>
    intro n x via k l s hpulse hclear hscl hk htime
    exact congrArg (fun t => Host.Outcome.next (twSettle n t)) (onDev_congr (twPulseEnd_of_clear hpulse htime hclear hscl hk))
  case assert =>
    intro w n v s hc
    exact congrArg (fun t => Host.Outcome.next (twSettle n t)) (finishWrite_ok w _ _ _ _ s hc rfl)

end Sys2Proof.Machine
end

section
/-! The statement about the persistent store and the management target. -/

namespace Sys2Proof.Machine

/-! ## Saves (R444, R445) -/

section
variable {d : Dev}

theorem exec_storeSave {w : Writer} {s : State} (hc : writeCheck s.dev w Reg.store_STORE_SAVE (.num 1) = none) :
    exec (.storeSave w) s = .next (accepted w Reg.store_STORE_SAVE (.num 1) (fun _ => onDev saveAsk) s) :=
  congrArg Host.Outcome.next ((finishWrite_ok w _ _ _ _ s hc rfl).trans (accepted_effect fun _ _ => rfl))

theorem saveAsk_of_saving (h : d.srv.save.isSome = true) :
    saveAsk d = setN Reg.store_STORE_STATUS 2 { d with srv := { d.srv with savePending := true } } := if_pos h

theorem saveAsk_of_holdup (hnone : d.srv.save = none) (hhold : d.holdup = true) : saveAsk d = saveFail 5 0 4 d :=
  (if_neg (by rw [hnone]; decide)).trans (if_pos hhold)

section
variable (fail area status : Nat)

theorem saveFail_val (k : Nat) : (saveFail fail area status d).val k = if k = Reg.store_STORE_STATUS then .num status else d.val k :=
  setN_val ..

theorem saveFail_sources : (saveFail fail area status d).sources = (post 0x0324 0xFFFF fail area d).sources :=
  post_sources_congr rfl rfl rfl (tbNow_setN (by decide) _ _)

end

theorem saveNext_of_none (h : d.srv.savePending = false) : saveNext d = d := if_neg (by rw [h]; decide)

/-! ## Ends of saves (R444, R445) -/

variable {j : SaveJob}

theorem put_copy_banks (f : Flash) (i : Nat) (b : List Byte) :
    (f.put true i b).bank0 = f.bank0 ∧ (f.put true i b).bank1 = f.bank1 := by
  by_cases hi : i = 0 <;> simp [Flash.put, hi]

theorem put_bank (f : Flash) (i : Nat) (b : List Byte) :
    if i = 0 then (f.put false i b).bank0 = b ∧ (f.put false i b).bank1 = f.bank1
    else (f.put false i b).bank1 = b ∧ (f.put false i b).bank0 = f.bank0 := by
  by_cases hi : i = 0 <;> simp [Flash.put, hi]

theorem copyWritten_eq (j : SaveJob) (d : Dev) :
    ∃ f, copyWritten j d = { d with flash := f } ∧ f.bank0 = d.flash.bank0 ∧ f.bank1 = d.flash.bank1 := by
  unfold copyWritten
  split
  · exact ⟨_, rfl, put_copy_banks ..⟩
  · exact ⟨d.flash, rfl, rfl, rfl⟩

/-- The units with no save under way. -/
def unsaved (d : Dev) : Dev := { d with srv := { d.srv with save := none } }

/-- What a save that has failed leaves of the flash. -/
def failedFlash (fail area : Nat) (j : SaveJob) (d : Dev) : Dev :=
  if fail = 5 then (if area = 1 then unsaved d else copyWritten j (unsaved d))
  else if area = 1 then { unsaved d with flash := (unsaved d).flash.put true (otherArea d.srv.copyInForce) [] }
  else { copyWritten j (unsaved d) with flash := (copyWritten j (unsaved d)).flash.put false (otherArea d.bankInForce) [] }

theorem failedFlash_eq (fail area : Nat) (j : SaveJob) (d : Dev) : ∃ f, failedFlash fail area j d = { unsaved d with flash := f } := by
  obtain ⟨f, hcopy, -⟩ := copyWritten_eq j (unsaved d)
  unfold failedFlash
  rw [hcopy]
  split
  · split <;> exact ⟨_, rfl⟩
  · split <;> exact ⟨_, rfl⟩

theorem saveEnd_of_failed {fail : Nat} (hjob : d.srv.save = some j) (hpending : d.srv.savePending = false) (hfail : fail ≠ 0)
    (area : Nat) : saveEnd fail area d = saveFail fail area (if fail = 5 then 4 else 3)
      { failedFlash fail area j d with calibDirty := d.calibDirty || j.calib.isSome } := by
  obtain ⟨f, hflash⟩ := failedFlash_eq fail area j d
  have hnext : (saveFail fail area (if fail = 5 then 4 else 3)
      { failedFlash fail area j d with calibDirty := d.calibDirty || j.calib.isSome }).srv.savePending = false := by
    rw [hflash]
    exact hpending
  rw [← saveNext_of_none hnext]
  unfold saveEnd
  rw [hjob]
  exact if_pos hfail

/-- The units when a save has put its image in force. -/
def savedUnits (j : SaveJob) (d : Dev) : Dev :=
  { copyWritten j (unsaved d) with
    flash := (copyWritten j (unsaved d)).flash.put false (otherArea d.bankInForce) j.bank
    srv := { (copyWritten j (unsaved d)).srv with
      copyInForce := if j.calib.isSome then some (otherArea d.srv.copyInForce) else (copyWritten j (unsaved d)).srv.copyInForce } }

/-- The entries that a save sets when it has put its image in force. -/
def savedEntries (j : SaveJob) (i : Nat) (d : Dev) : Dev :=
  setN Reg.store_STORE_SEQ (rdLe j.bank 8 4) (setN Reg.store_STORE_BANK i (setN Reg.store_CALIB_SEQ (rdLe j.bank 0x18 4)
    (setN Reg.store_STORE_STATUS 0 d)))

/-- STORE_DIRTY when a save has put its image in force. -/
def cleaned (j : SaveJob) (d : Dev) : Dev := if j.dirtyAfter then d else setN Reg.store_STORE_DIRTY 0 d

theorem cleaned_fields (j : SaveJob) (d : Dev) : (cleaned j d).srv = d.srv ∧ (cleaned j d).flash = d.flash ∧
    (cleaned j d).sources = d.sources ∧ (cleaned j d).posts = d.posts ∧ (cleaned j d).time = d.time := by
  unfold cleaned
  split <;> exact ⟨rfl, rfl, rfl, rfl, rfl⟩

theorem cleaned_val_of_ne {k : Nat} (hk : k ≠ Reg.store_STORE_DIRTY) (j : SaveJob) (d : Dev) : (cleaned j d).val k = d.val k := by
  unfold cleaned
  split
  · rfl
  · exact setN_val_of_ne hk _ _

theorem savedEntries_val (j : SaveJob) (i k : Nat) (d : Dev) : (savedEntries j i d).val k =
    if k = Reg.store_STORE_SEQ then .num (rdLe j.bank 8 4)
    else if k = Reg.store_STORE_BANK then .num i
    else if k = Reg.store_CALIB_SEQ then .num (rdLe j.bank 0x18 4)
    else if k = Reg.store_STORE_STATUS then .num 0 else d.val k := by
  simp only [savedEntries, setN_val]

theorem savedUnits_fields (j : SaveJob) (d : Dev) : (savedUnits j d).regs = d.regs ∧ (savedUnits j d).srv.save = none ∧
    (savedUnits j d).srv.savePending = d.srv.savePending ∧ (savedUnits j d).sources = d.sources ∧
    (savedUnits j d).posts = d.posts ∧ (savedUnits j d).time = d.time := by
  obtain ⟨f, hcopy, -⟩ := copyWritten_eq j (unsaved d)
  rw [savedUnits, hcopy]
  exact ⟨rfl, rfl, rfl, rfl, rfl, rfl⟩

theorem savedUnits_flash (j : SaveJob) (d : Dev) :
    if otherArea d.bankInForce = 0 then (savedUnits j d).flash.bank0 = j.bank ∧ (savedUnits j d).flash.bank1 = d.flash.bank1
    else (savedUnits j d).flash.bank1 = j.bank ∧ (savedUnits j d).flash.bank0 = d.flash.bank0 := by
  obtain ⟨f, hcopy, hbank0, hbank1⟩ := copyWritten_eq j (unsaved d)
  have hput := put_bank f (otherArea d.bankInForce) j.bank
  rw [hbank0, hbank1] at hput
  rw [savedUnits, hcopy]
  exact hput

/-- The units after a save that has put its image in force. -/
def saved (j : SaveJob) (d : Dev) : Dev := cleaned j (savedEntries j (otherArea d.bankInForce) (savedUnits j d))

theorem saved_val (j : SaveJob) (d : Dev) {k : Nat} (hk : k ≠ Reg.store_STORE_DIRTY) : (saved j d).val k =
    if k = Reg.store_STORE_SEQ then .num (rdLe j.bank 8 4)
    else if k = Reg.store_STORE_BANK then .num (otherArea d.bankInForce)
    else if k = Reg.store_CALIB_SEQ then .num (rdLe j.bank 0x18 4)
    else if k = Reg.store_STORE_STATUS then .num 0 else d.val k := by
  rw [saved, cleaned_val_of_ne hk, savedEntries_val, val_of_regs (savedUnits_fields j d).1]

theorem saved_clean {j : SaveJob} {d : Dev} (h : j.dirtyAfter = false) : (saved j d).get Reg.store_STORE_DIRTY = 0 := by
  rw [saved, cleaned, if_neg (by rw [h]; decide), setN_get, if_pos rfl]

theorem saved_sources (j : SaveJob) (d : Dev) (a b : Nat) :
    (post 0x0323 0xFFFF a b (saved j d)).sources = (post 0x0323 0xFFFF a b d).sources := by
  obtain ⟨-, -, hsources, hposts, htime⟩ := cleaned_fields j (savedEntries j (otherArea d.bankInForce) (savedUnits j d))
  obtain ⟨-, -, -, hsources', hposts', htime'⟩ := savedUnits_fields j d
  refine post_sources_congr (hsources.trans hsources') (hposts.trans hposts') (htime.trans htime')
    (tbNow_of_record (congrArg TimeBase.raw (htime.trans htime')) fun k hk => ?_)
  have hrecord : k / 256 ≠ 0x0320 := by omega
  rw [saved_val j d (ne_of_record (by decide) hrecord), if_neg (ne_of_record (by decide) hrecord),
    if_neg (ne_of_record (by decide) hrecord), if_neg (ne_of_record (by decide) hrecord), if_neg (ne_of_record (by decide) hrecord)]

theorem saveEnd_of_saved (hjob : d.srv.save = some j) (hpending : d.srv.savePending = false) (area : Nat) :
    saveEnd 0 area d = post 0x0323 0xFFFF (rdLe j.bank 8 4) (rdLe j.bank 0x18 4)
      (saved j d) := by
  have hnext : (post 0x0323 0xFFFF (rdLe j.bank 8 4) (rdLe j.bank 0x18 4) (saved j d)).srv.savePending = false :=
    (congrArg Service.savePending (cleaned_fields j _).1).trans ((savedUnits_fields j d).2.2.1.trans hpending)
  rw [← saveNext_of_none hnext]
  unfold saveEnd
  rw [hjob]
  exact if_neg (not_not_intro rfl)

end

/-! ## The management target (R440, R489 to R491) -/

theorem rdLe_turadMsg_type (ty cid count seq : Nat) (response auth : Bool) (body : List Byte) :
    rdLe (turadMsg ty cid count seq response auth none body) 1 1 = ty % 256 := by
  have hslice : sliceB (turadMsg ty cid count seq response auth none body) 1 1 = [BitVec.ofNat 8 ty] := rfl
  rw [rdLe, hslice]
  simp [leNat]

section
variable {s : State}

theorem twmSubmit_of_answer {b : List Byte} {t : State} (hidle : s.dev.twmBusy = false)
    (hanswer : turad .twm 0 0 0 (padTo s.dev.twm.reqLen s.dev.twm.buf) s = (some b, t)) :
    twmSubmit s = onDev (setTwm (fun x => { x with
      buf := padTo 128 b, rspLen := b.length, status := 2 + (if rdLe b 1 1 = 8 then 4 else 0) })) t := by
  unfold twmSubmit
  rw [if_neg (by rw [hidle]; decide), hanswer]

/-- The target's messages are READs and WRITEs. -/
theorem type_of_headFault {waiting size : Nat} {h : TuradHead} {d : Dev} (hfault : headFault d .twm waiting size h = none) :
    h.ty ≤ 2 := by
  by_contra hty
  have hwire : Transport.twm = .twm ∧ (2 < h.ty ∨ h.flags ≠ 0) := ⟨rfl, .inl (Nat.lt_of_not_le hty)⟩
  unfold headFault at hfault
  rw [if_pos hwire] at hfault
  split at hfault
  · exact Option.some_ne_none _ hfault
  · split at hfault
    · exact Option.some_ne_none _ hfault
    · split at hfault <;> exact Option.some_ne_none _ hfault

theorem turad_twm {h : TuradHead} {a : Ask} {q : List Byte} (hserved : s.dev.served = true) (hhead : turadHead q = some h)
    (hfault : headFault s.dev .twm 0 q.length h = none) (hask : askOf h = some a) :
    turad .twm 0 0 0 q s = (some (turadMsg h.ty h.cid
      (handle (.client h.cid .twm) { tr := .twm, client := h.cid, ip := 0 } 0 h false a s).count h.seq true false none
      (handle (.client h.cid .twm) { tr := .twm, client := h.cid, ip := 0 } 0 h false a s).body),
      (handle (.client h.cid .twm) { tr := .twm, client := h.cid, ip := 0 } 0 h false a s).st) := by
  unfold turad
  rw [if_neg (by rw [hserved]; decide), hhead]
  dsimp only
  rw [hfault, hask]
  rfl

theorem twmPart_read (n : Nat) : twmPart { addr := s.dev.get Reg.twm_TWM_ADDR, read := true, data := [], count := n, misplaced := false } s =
    onDev (fun d => emit .twoWire 8 [d.twm.pointer, n] ((List.range n).map (fun i => d.twmAt ((d.twm.pointer + i) % 256)))
      (setTwm (fun x => { x with lastRaw := some d.time.raw, pointer := (d.twm.pointer + n) % 256 }) d)) s := by
  unfold twmPart
  rw [if_neg (not_not_intro rfl)]
  exact if_pos rfl

theorem exec_twmTransaction {l : List TwmXfer} (hmode : s.dev.mode ≠ 0) (hdeaf : twmDeaf s = none) :
    exec (.twmTransaction l) s = .next (l.foldl (fun u x => twmPart x u) s) := by
  have h : exec (.twmTransaction l) s = execTwmTransaction l s := rfl
  rw [h, execTwmTransaction, if_neg hmode, hdeaf]

theorem exec_twmSleep (hmode : s.dev.mode = mSTANDBY) : exec .twmSleep s = .next (onDev twmDoze s) :=
  congrArg Host.Outcome.next (if_pos hmode)

/-! ## The wake of the target (R491) -/

theorem twmWake_val (k : Nat) (d : Dev) : (twmWake d).val k =
    if k = Reg.twm_TWM_SLEEP_NACKS then .num ((d.get Reg.twm_TWM_SLEEP_NACKS + 1) % 2 ^ 32) else d.val k := inc32_val ..

theorem twmWake_sources (d : Dev) : (twmWake d).sources =
    (post 0x3806 8 ((d.get Reg.twm_TWM_SLEEP_NACKS + 1) % 2 ^ 32) 0 d).sources := by
  have hcount : (inc32 Reg.twm_TWM_SLEEP_NACKS d).get Reg.twm_TWM_SLEEP_NACKS = (d.get Reg.twm_TWM_SLEEP_NACKS + 1) % 2 ^ 32 :=
    (inc32_get ..).trans (if_pos rfl)
  unfold twmWake
  extract_lets d1
  rw [show d1.get Reg.twm_TWM_SLEEP_NACKS = _ from hcount]
  exact post_sources_congr rfl rfl rfl (tbNow_setN_of_ne (by decide) (by decide) (by decide) _ _)

end

/-- Settles O53: what a save leaves is said once for its success and once for its failure; the target hands its buffer to the
service. That STORE_SAVE_COMPLETE ends a save whole is the model's choice (entry 404). -/
theorem storeAndTargetWork : Obligations.StoreAndTargetWork := by
  refine ⟨fun w s => exec_storeSave, fun d => ⟨?saving, ?holdup⟩, ?saved, ?failed, ?submit, ?answered, ?clear, ?parts, ?read, ?wake,
    ?busy, ?sleep⟩
  case saving =>
    intro hsave
    rw [saveAsk_of_saving hsave]
    exact ⟨(setN_get ..).trans (if_pos rfl), rfl, rfl, fun k hk => setN_val_of_ne hk _ _⟩
  case holdup =>
    intro hnone hhold
    rw [saveAsk_of_holdup hnone hhold]
    exact ⟨get_of_val ((saveFail_val ..).trans (if_pos rfl)), rfl, saveFail_sources .., rfl⟩
  case saved =>
    intro j area s hjob hpending
    have h : exec (.storeSaveComplete 0 area) s = .next (onDev (saveEnd 0 area) s) := rfl
    obtain ⟨hsrv, hflash, -⟩ := cleaned_fields j (savedEntries j (otherArea s.dev.bankInForce) (savedUnits j s.dev))
    refine ⟨_, h, ?_⟩
    simp only [onDev_dev, onDev_arb, onDev_mem]
    rw [saveEnd_of_saved hjob hpending]
    refine ⟨get_of_val ?_, get_of_val ?_, get_of_val ?_, get_of_val ?_, ?_, ?_, ?_, saved_sources .., trivial, trivial⟩
    · exact (saved_val j _ (by decide)).trans ((if_neg (by decide)).trans ((if_neg (by decide)).trans ((if_neg (by decide)).trans
        (if_pos rfl))))
    · exact (saved_val j _ (by decide)).trans (if_pos rfl)
    · exact (saved_val j _ (by decide)).trans ((if_neg (by decide)).trans ((if_neg (by decide)).trans (if_pos rfl)))
    · exact (saved_val j _ (by decide)).trans ((if_neg (by decide)).trans (if_pos rfl))
    · exact (congrArg Service.save hsrv).trans (savedUnits_fields j s.dev).2.1
    · exact saved_clean
    · have hput := savedUnits_flash j s.dev
      rw [← show (saved j s.dev).flash = (savedUnits j s.dev).flash from hflash] at hput
      exact hput
  case failed =>
    intro j fail area s hjob hpending hfail
    have h : exec (.storeSaveComplete fail area) s = .next (onDev (saveEnd fail area) s) := rfl
    obtain ⟨f, hflash⟩ := failedFlash_eq fail area j s.dev
    refine ⟨_, h, ?_⟩
    simp only [onDev_dev, onDev_arb, onDev_mem]
    rw [saveEnd_of_failed hjob hpending hfail, hflash]
    exact ⟨get_of_val ((saveFail_val ..).trans (if_pos rfl)), rfl, saveFail_sources .., fun k hk => (saveFail_val ..).trans (if_neg hk),
      trivial, trivial⟩
  case submit =>
    intro h a y b q s hidle hserved hq hhead hfault hask hy hb
    have hanswer : turad .twm 0 0 0 (padTo s.dev.twm.reqLen s.dev.twm.buf) s = (some b, y.st) := by
      rw [← hq, hb, hy]
      exact turad_twm hserved hhead hfault hask
    have hty : rdLe b 1 1 ≠ 8 := by
      have := type_of_headFault hfault
      rw [hb, rdLe_turadMsg_type]
      omega
    refine congrArg Host.Outcome.next ((twmSubmit_of_answer hidle hanswer).trans ?_)
    rw [if_neg hty]
  case answered =>
    intro b s t hidle hanswer
    exact congrArg Host.Outcome.next (twmSubmit_of_answer hidle hanswer)
  case clear =>
    intro s hidle
    have h : exec .twControlClear s = .next (onDev twmClear s) := rfl
    refine ⟨_, h.trans (congrArg Host.Outcome.next (onDev_congr (if_neg (by rw [hidle]; decide)))), ?_⟩
    exact ⟨rfl, rfl, rfl, rfl, rfl, rfl⟩
  case parts =>
    intro l s hmode hdeaf
    exact exec_twmTransaction hmode hdeaf
  case read =>
    intro n s hmode hdeaf
    refine ⟨_, (exec_twmTransaction hmode hdeaf).trans (congrArg Host.Outcome.next (twmPart_read n)), ?_⟩
    exact ⟨rfl, rfl, rfl, rfl, rfl⟩
  case wake =>
    intro s hasleep hmode
    have h : exec .twmWake s = .next (if s.dev.twm.asleep ∧ s.dev.mode = mSTANDBY then onDev twmWake s else s) := rfl
    refine ⟨_, h.trans (congrArg Host.Outcome.next (if_pos ⟨hasleep, hmode⟩)), rfl, rfl, get_of_val ?_, twmWake_sources _,
      fun k hk => ?_, rfl⟩
    · exact (twmWake_val ..).trans (if_pos rfl)
    · exact (twmWake_val ..).trans (if_neg hk)
  case busy =>
    intro s hmode hbusy
    rw [exec_twmSleep hmode]
    exact congrArg Host.Outcome.next (onDev_congr (g := id) (if_neg (by rw [hbusy]; decide)))
  case sleep =>
    intro s hmode hidle
    have hdoze : onDev twmDoze s = onDev (fun d => { d with twm := { d.twm with asleep := true, wakeRaw := none, lastRaw := none } }) s :=
      onDev_congr (if_pos hidle)
    refine ⟨_, (exec_twmSleep hmode).trans (congrArg Host.Outcome.next hdoze), ?_⟩
    exact ⟨rfl, rfl, rfl, rfl, rfl⟩

end Sys2Proof.Machine
end

section
/-! The statement about the network: the switch, launches, the ordinary clock and proxy streaming. -/

namespace Sys2Proof.Machine

/-! ## The switch (R404) -/

theorem vlan_congr {d e : Dev} (h : e.val Reg.net_VLAN_TABLE = d.val Reg.net_VLAN_TABLE) (vid : Nat) : e.vlan vid = d.vlan vid := by
  simp only [Dev.vlan, bytes_congr h]

theorem vlan_received (p vid : Nat) (d : Dev) : (inc64 (Reg.eth_RX_FRAMES p) d).vlan vid = d.vlan vid := by
  have hrecord : Reg.net_VLAN_TABLE / 256 ≠ 0x3110 + p := by
    change 0x3100 ≠ _
    omega
  exact vlan_congr ((inc64_val ..).trans (if_neg (ne_of_record (by decide) hrecord))) vid

section
variable {p : Nat} {f : EthFrame} {h : EthView} {d : Dev} (hup : d.ethUp p = true)
include hup

theorem ethIn_of_error (hbad : f.good = false) : ethIn p f d = inc64 (Reg.eth_RX_ERRORS p) d :=
  (if_neg (by rw [hup]; decide)).trans (if_pos (by rw [hbad]; rfl))

variable (hgood : f.good = true) (hview : viewFrame f.data (d.get (Reg.eth_PVID p)) = some h)
include hgood hview

theorem ethIn_of_unlisted (hvlan : d.vlan h.vid = none) : ethIn p f d = inc64 (Reg.eth_RX_FRAMES p) d := by
  unfold ethIn
  extract_lets d1
  have hnone : d1.vlan h.vid = none := (vlan_received ..).trans hvlan
  rw [if_neg (by rw [hup]; decide), if_neg (by rw [hgood]; decide), hview]
  dsimp only
  rw [hnone]
  exact ite_self d1

theorem ethIn_of_listed {m u : Nat} (hlen : f.data.length + 4 ≤ maxFrame) (hvlan : d.vlan h.vid = some (m, u))
    (hptp : ptpType h.body = none) (hdst : h.dst / 16 ≠ 0x0180C200000)
    (hown : ((learn h.vid h.src (p + 1) (inc64 (Reg.eth_RX_FRAMES p) d)).targets (p + 1) m h).contains 0 = false) :
    ethIn p f d = ((learn h.vid h.src (p + 1) (inc64 (Reg.eth_RX_FRAMES p) d)).targets (p + 1) m h).foldl
      (fun e q => ethSend q u { h with body := e.transit p f.residence h.body } e)
      (learn h.vid h.src (p + 1) (inc64 (Reg.eth_RX_FRAMES p) d)) := by
  unfold ethIn
  extract_lets d1
  have hsome : d1.vlan h.vid = some (m, u) := (vlan_received ..).trans hvlan
  have hinside : ((learn h.vid h.src (p + 1) d1).targets (p + 1) m h).contains 0 = false := hown
  have houtside : ∀ q ∈ (learn h.vid h.src (p + 1) d1).targets (p + 1) m h, (fun q => q != 0) q = true := by
    intro q hq
    have : q ≠ 0 := by
      rintro rfl
      simp [hq] at hinside
    simpa using this
  rw [if_neg (by rw [hup]; decide), if_neg (by rw [hgood]; decide), hview]
  dsimp only
  rw [if_neg (Nat.not_lt.mpr hlen), hsome]
  simp only [hptp, beq_false_of_ne hdst, Bool.or_false, Bool.false_eq_true, if_false, hinside, Bool.false_and,
    List.filter_eq_self.mpr houtside]
  rfl

end

/-! ## Ageing (R404) -/

theorem mem_macs_aged (mac : Nat) (d : Dev) (e : MacEntry) :
    e ∈ (d.net.macs.filter (fun e => e.mac != mac || decide ((d.time.raw + 2 ^ 64 - e.raw) % 2 ^ 64 < 300 * 1200000000))) ↔
      e ∈ d.net.macs ∧ (e.mac = mac → (d.time.raw + 2 ^ 64 - e.raw) % 2 ^ 64 < 300 * 1200000000) := by
  rw [List.mem_filter]
  simp [or_iff_not_imp_left]

/-! ## Launches (R408) -/

section
variable {p launch handed ty : Nat} {frame : List Byte} {h : EthView} {d : Dev}
  (hview : viewFrame frame (d.get (Reg.eth_PVID p)) = some h) (hptp : ptpType h.body = some ty) (hty : ty ≤ 3)
  (henable : d.flag Reg.ptp_PTP_ENABLE = true) (hup : d.ethUp p = true)
include hview hptp hty henable hup

theorem ptpLaunch_of_late (hlate : tbDiff launch handed < d.get Reg.ptp_LAUNCH_LEAD_US * 65536000) :
    ptpLaunch p launch handed frame d = post 0x3104 p ty (satU32 ((((d.get Reg.ptp_LAUNCH_LEAD_US * 65536000 : Nat) : Int) -
      tbDiff launch handed).toNat / 65536000)) (inc64 Reg.ptp_LAUNCH_MISSED d) := by
  unfold ptpLaunch
  extract_lets lead
  rw [hview]
  dsimp only
  rw [hptp]
  dsimp only
  rw [henable, hup, decide_eq_false (Nat.not_lt.mpr hty), if_neg (by decide)]
  exact if_pos hlate

theorem ptpLaunch_of_due {m u : Nat} (hlead : d.get Reg.ptp_LAUNCH_LEAD_US * 65536000 ≤ tbDiff launch handed)
    (hdue : tbDue launch (tbNow d) = true) (hvlan : d.vlan h.vid = some (m, u)) :
    ptpLaunch p launch handed frame d = ethSend (p + 1) u { h with body := stampLaunch launch d h.body } d := by
  unfold ptpLaunch
  extract_lets lead
  rw [hview]
  dsimp only
  rw [hptp]
  dsimp only
  rw [henable, hup, decide_eq_false (Nat.not_lt.mpr hty), if_neg (by decide), if_neg, if_pos hdue, hvlan]
  exact Int.not_lt.mpr hlead

end

theorem missed_sources (c i a b : Nat) (d : Dev) :
    (post c i a b (inc64 Reg.ptp_LAUNCH_MISSED d)).sources = (post c i a b d).sources :=
  post_sources_congr rfl rfl rfl (tbNow_setN_of_ne (by decide) (by decide) (by decide) _ d)

/-! ## Proxy streaming (R411) -/

theorem foldl_emit_regs {α : Type} (kind : OutKind) (inst : Nat) (info : List Nat) (g : α → List Byte) (l : List α) (d : Dev) :
    (l.foldl (fun e x => emit kind inst info (g x) e) d).regs = d.regs :=
  foldl_proj Dev.regs (f := fun e x => emit kind inst info (g x) e) (fun _ _ => rfl) l d

theorem foldl_emit_length {α : Type} (kind : OutKind) (inst : Nat) (info : List Nat) (g : α → List Byte) (l : List α) (d : Dev) :
    (l.foldl (fun e x => emit kind inst info (g x) e) d).out.length = d.out.length + l.length := by
  induction l generalizing d with
  | nil => rfl
  | cons x l ih =>
    rw [List.foldl_cons, ih, emit, List.length_append, List.length_cons, List.length_cons, List.length_nil]
    omega

section
variable {k i : Nat} {rest : List Nat} {s : State} (hfront : (s.dev.hev k).proxy = i :: rest)
include hfront

theorem proxySend_of_disabled (h : s.dev.flag (Reg.prx_PROXY_ENABLE k) = false) : proxySend k s = onDev (proxyDone k i) s := by
  unfold proxySend
  extract_lets d
  rw [hfront]
  exact if_pos (by rw [h]; rfl)

/-- The pictures that wait are sent packet by packet, and PACKETS counts them. -/
theorem proxySend_of_enabled {n : Nat} (h : s.dev.flag (Reg.prx_PROXY_ENABLE k) = true)
    (hn : n = ((nalUnits (poundRead (s.dev.encOutAddr k i + 64)
        (rdLe (poundRead (s.dev.encOutAddr k i) 64 s).1 0x28 4) s).1 false []).map
      (rtpPayloads (s.dev.get (Reg.prx_PROXY_MTU k) - 40))).flatten.length) :
    ∃ f d, proxySend k s = onDev (fun _ => proxyDone k i (datagrams (s.dev.get (Reg.prx_PROXY_DEST k) / 2 ^ 16) n
        (if s.dev.get (Reg.prx_PROXY_VLAN k) = 0 then 1 else s.dev.get (Reg.prx_PROXY_VLAN k))
        (addW 64 (Reg.prx_PACKETS k) n (setNet f d)))) s ∧ d.regs = s.dev.regs ∧ d.out.length = s.dev.out.length + n := by
  subst hn
  unfold proxySend
  extract_lets d
  rw [hfront]
  refine ⟨_, _, if_neg (by rw [h]; decide), foldl_emit_regs .., ?_⟩
  rw [foldl_emit_length, List.length_zip, List.length_range, Nat.min_self]

end

/-- Settles O51: each command is the branch of its rule that the conditions choose. That a frame of a VLAN that is not in the
table is dropped is among the choices for the switch (entry 366), and that a proxy that is not enabled releases its buffers is
deduced (entry 375). -/
theorem networkMovesFrames : Obligations.NetworkMovesFrames := by
  refine ⟨?error, ?unlisted, ?listed, ?down, ?up, ?ageing, ?launch, ?lost, ?off, ?sent⟩
  case error =>
    intro p f s hup hbad
    exact congrArg Host.Outcome.next (onDev_congr (ethIn_of_error hup hbad))
  case unlisted =>
    intro p f h s hup hgood hview hvlan
    exact congrArg Host.Outcome.next (onDev_congr (ethIn_of_unlisted hup hgood hview hvlan))
  case listed =>
    intro p f h m u s hup hgood hview hlen hvlan hptp hdst hown
    exact congrArg Host.Outcome.next (onDev_congr (ethIn_of_listed hup hgood hview hlen hvlan hptp hdst hown))
  case down =>
    intro p s
    exact congrArg Host.Outcome.next (onDev_congr (if_pos rfl))
  case up =>
    intro p s hruns hstate
    exact congrArg Host.Outcome.next (onDev_congr ((if_neg (by decide)).trans (if_pos (by rw [hruns, hstate]; rfl))))
  case ageing =>
    intro mac s
    exact ⟨_, rfl, mem_macs_aged mac s.dev, rfl, rfl, rfl, rfl⟩
  case launch =>
    intro p launch handed ty frame h s hview hptp hty henable hup
    refine ⟨fun hlate => ?_, fun m u hlead hdue hvlan => ?_⟩
    · have h : exec (.ptpLaunch p launch handed frame) s = .next (onDev (Sys2Proof.Machine.ptpLaunch p launch handed frame) s) := rfl
      refine ⟨_, h, ?_⟩
      simp only [onDev_dev]
      rw [ptpLaunch_of_late hview hptp hty henable hup hlate]
      exact ⟨(inc64_get ..).trans (if_pos rfl), missed_sources .., rfl, fun k hk => (inc64_val ..).trans (if_neg hk)⟩
    · exact congrArg Host.Outcome.next (onDev_congr (ptpLaunch_of_due hview hptp hty henable hup hlead hdue hvlan))
  case lost =>
    intro s henable hbest
    exact congrArg Host.Outcome.next (onDev_congr (if_pos (by rw [henable, hbest]; rfl)))
  case off =>
    intro k i rest s hfront hoff
    exact congrArg Host.Outcome.next (proxySend_of_disabled hfront hoff)
  case sent =>
    intro k i n rest s hfront hon hn
    obtain ⟨f, d, hsend, hregs, hout⟩ := proxySend_of_enabled hfront hon hn
    refine ⟨_, congrArg Host.Outcome.next hsend, _, rfl, ?_, hout, fun j hj => ?_⟩
    · rw [addW_get, if_pos rfl]
      exact congrArg (fun x => (x + n) % 2 ^ 64) (get_of_regs hregs _)
    · rw [addW_val, if_neg hj]
      exact val_of_regs hregs j

end Sys2Proof.Machine
end

section
/-! The statement about the scan unit: encoders, the scan's start, its slots and the strobes. -/

namespace Sys2Proof.Machine

/-! ## Encoders (R449 to R452) -/

section
variable {e : Nat} {d : Dev}

theorem encoder_setEnc (he : e < d.enc.length) (f : Encoder → Encoder) : (setEnc e f d).encoder e = f (d.encoder e) :=
  nth_updAt_same e f d.enc he

/-- A change of an encoder that keeps its count. -/
theorem encoder_setEnc_count {f : Encoder → Encoder} (hf : ∀ x, (f x).c = x.c) (i : Nat) :
    ((setEnc e f d).encoder i).c = (d.encoder i).c := nth_updAt_proj Encoder.c hf e i d.enc

/-- The units after a step of encoder `e` to the count `c`. -/
def counted (e : Nat) (a b : Bool) (c : Int) (d : Dev) : Dev :=
  setN (Reg.enc_ENC_POSITION e) (ofInt 64 c) (setEnc e (fun x => { x with c := c }) (setEnc e (fun x => { x with a := a, b := b }) d))

theorem counted_encoder (he : e < d.enc.length) (a b : Bool) (c : Int) :
    (counted e a b c d).encoder e = { d.encoder e with a := a, b := b, c := c } := by
  have he' : e < (setEnc e (fun x => { x with a := a, b := b }) d).enc.length := (List.length_modify ..).symm ▸ he
  have h : (counted e a b c d).encoder e = (setEnc e (fun x => { x with c := c }) (setEnc e (fun x => { x with a := a, b := b }) d)).encoder e := rfl
  rw [h, encoder_setEnc he', encoder_setEnc he]

theorem counted_position (a b : Bool) (c : Int) : (counted e a b c d).get (Reg.enc_ENC_POSITION e) = ofInt 64 c :=
  (setN_get ..).trans (if_pos rfl)

section
variable {a b : Bool}

theorem encLevels_forward (hinvert : d.flag (Reg.enc_ENC_INVERT e) = false)
    (hstep : (quadPhase a b + 4 - quadPhase (d.encoder e).a (d.encoder e).b) % 4 = 1) :
    encLevels e a b d = counted e a b (toInt 48 (ofInt 48 ((d.encoder e).c + 1))) d := by
  unfold encLevels
  extract_lets x step d1 up c
  have hup : up = true := by simp only [up, step, x, hstep, hinvert]; rfl
  have hstep' : step = 1 := hstep
  rw [if_neg (by rw [hstep']; decide), if_neg (by rw [hstep']; decide), show c = toInt 48 (ofInt 48 (x.c + (if up then 1 else -1))) from rfl,
    hup]
  rfl

theorem encLevels_backward (hinvert : d.flag (Reg.enc_ENC_INVERT e) = false)
    (hstep : (quadPhase a b + 4 - quadPhase (d.encoder e).a (d.encoder e).b) % 4 = 3) :
    encLevels e a b d = counted e a b (toInt 48 (ofInt 48 ((d.encoder e).c - 1))) d := by
  unfold encLevels
  extract_lets x step d1 up c
  have hup : up = false := by simp only [up, step, x, hstep, hinvert]; rfl
  have hstep' : step = 3 := hstep
  rw [if_neg (by rw [hstep']; decide), if_neg (by rw [hstep']; decide), show c = toInt 48 (ofInt 48 (x.c + (if up then 1 else -1))) from rfl,
    hup]
  rfl

theorem encLevels_illegal (hstep : (quadPhase a b + 4 - quadPhase (d.encoder e).a (d.encoder e).b) % 4 = 2) :
    encLevels e a b d = encIllegal e (setEnc e (fun x => { x with a := a, b := b }) d) := if_pos hstep

end

theorem encIllegal_errors : (encIllegal e d).get (Reg.enc_ENC_ERRORS e) = (d.get (Reg.enc_ENC_ERRORS e) + 1) % 2 ^ 64 := by
  have hcount : (inc64 (Reg.enc_ENC_ERRORS e) (setEnc e (fun x => { x with illegal := x.illegal + 1 }) d)).get (Reg.enc_ENC_ERRORS e) =
    (d.get (Reg.enc_ENC_ERRORS e) + 1) % 2 ^ 64 := (inc64_get ..).trans (if_pos rfl)
  unfold encIllegal
  extract_lets d1 x quiet
  split <;> exact hcount

theorem encIllegal_count (i : Nat) : ((encIllegal e d).encoder i).c = (d.encoder i).c := by
  have hcount : ((inc64 (Reg.enc_ENC_ERRORS e) (setEnc e (fun x => { x with illegal := x.illegal + 1 }) d)).encoder i).c =
    (d.encoder i).c :=
    encoder_setEnc_count (f := fun x => { x with illegal := x.illegal + 1 }) (fun _ => rfl) i
  unfold encIllegal
  extract_lets d1 x quiet
  split
  · exact hcount
  · exact (encoder_setEnc_count (f := fun x => { x with illegal := 0, errRaw := some d.time.raw }) (fun _ => rfl) i).trans hcount

/-- In index mode 2 every edge latches the position (R451). -/
theorem encIndex_latch (hmode : d.get (Reg.enc_ENC_INDEX_MODE e) = 2) : encIndex e d =
    setEnc e (fun x => { x with indexed := x.indexed || (decide (d.mode = mSCAN) && !(d.encoder e).indexed) })
      (setN (Reg.enc_ENC_INDEX_POS e) (ofInt 64 (d.encoder e).c) d) := by
  unfold encIndex
  rw [hmode]
  rfl

/-- The tracking loop follows the count and leaves it (R452). -/
theorem trackTick_count : ((trackTick e d).encoder e).c = (d.encoder e).c := by
  have hset : ∀ y : Encoder, y.c = (d.encoder e).c → ((setEnc e (fun _ => y) d).encoder e).c = (d.encoder e).c := by
    intro y hy
    by_cases he : e < d.enc.length
    · rw [encoder_setEnc he, hy]
    · rw [setEnc, updAt, List.modify_eq_self (Nat.le_of_not_lt he)]
  unfold trackTick
  extract_lets x w pp err y old st d1
  split <;> exact hset y rfl

end

/-! ## The scan's start and its slots (R456, R458) -/

theorem scanSettle_calm {s : State} (h : s.dev.calm = true) : scanSettle s = s := by
  rw [scanSettle, settleState_calm s h, forcedGo_calm s h]

/-- The scan unit at its start (R458). -/
def Scan.started (x : Scan) (c : Int) (bidir : Bool) : Scan :=
  { x with live := true, forward := true, dirKnown := !bidir, far := c, start := c, slot := 0, waitTurn := false
           passes := 0, taken := 0, cur := none, consumed := 0, stopping := none, skips := 0, fireRaw := none }

/-- The units at the scan's start, before its event. -/
def scanReady (d : Dev) : Dev :=
  setN Reg.scan_LINES_FIRED 0 (setN Reg.scan_LINE_SLOT 0 (setN Reg.scan_SCAN_STATE 2
    (setScan (fun x => x.started (d.encoder (d.get Reg.scan_SCAN_ENCODER)).c d.bidir) d)))

theorem scanReady_val (k : Nat) (d : Dev) : (scanReady d).val k =
    if k = Reg.scan_LINES_FIRED then .num 0 else if k = Reg.scan_LINE_SLOT then .num 0
    else if k = Reg.scan_SCAN_STATE then .num 2 else d.val k := by
  simp only [scanReady, setN_val]
  rfl

theorem scanStart_of_armed {d : Dev} (hmode : d.mode = mSCAN) (htarget : d.target = 0) (hstate : d.get Reg.scan_SCAN_STATE = 1) :
    scanStart (d.get Reg.scan_START_SOURCE) d =
      post 0x3401 0xFFFF (d.get Reg.scan_START_SOURCE) (tbNow d % 2 ^ 32) (scanReady d) := if_pos ⟨hmode, htarget, hstate, rfl⟩

theorem scanReady_sources (a b : Nat) (d : Dev) :
    (post 0x3401 0xFFFF a b (scanReady d)).sources = (post 0x3401 0xFFFF a b d).sources := by
  refine post_sources_congr rfl rfl rfl (tbNow_of_record rfl fun k hk => ?_)
  have hrecord : k / 256 ≠ 0x3400 := by omega
  rw [scanReady_val, if_neg (ne_of_record (by decide) hrecord), if_neg (ne_of_record (by decide) hrecord),
    if_neg (ne_of_record (by decide) hrecord)]

theorem slotTrigger_of_reached {j : Nat} {s : State} (hlive : s.dev.scan.live = true) (hdir : s.dev.scan.dirKnown = true)
    (hturn : s.dev.scan.waitTurn = false) (hmore : s.dev.moreFrames = true) (hforward : s.dev.scan.forward = true)
    (hreached : s.dev.slotPos s.dev.scan.slot true ≤ (s.dev.encoder (s.dev.get Reg.scan_SCAN_ENCODER)).posAt j) :
    slotTrigger j s = if (openFrame s).dev.tooSoon
      then skipLine ((s.dev.encoder (s.dev.get Reg.scan_SCAN_ENCODER)).posAt j) (openFrame s)
      else fireLine ((s.dev.encoder (s.dev.get Reg.scan_SCAN_ENCODER)).posAt j) (openFrame s) := by
  unfold slotTrigger
  extract_lets d c pos l reached s1
  have hl : reached = true := by
    rw [← hforward] at hreached
    exact (if_pos hforward).trans (decide_eq_true hreached)
  exact if_pos (by rw [show c.live = true from hlive, show c.dirKnown = true from hdir, show c.waitTurn = false from hturn,
    show d.moreFrames = true from hmore, hl]; rfl)

/-! ## Strobe-sync pulses (R472) -/

section
variable {d : Dev} (hmode : d.mode = mCALIBRATE) (hsource : d.get Reg.stb_STROBE_SOURCE = 1) (hscan : d.hasScan = true)
  (hlines : d.get Reg.stb_PATTERN_LINES ≠ 0)
include hmode hsource hscan hlines

theorem strobeSync_of_calibrate : strobeSync d = if d.tooSoon then inc64 Reg.scan_LINES_SKIPPED d
    else (fireEntry (d.scan.syncIdx % d.get Reg.stb_PATTERN_LINES) (freeDraw d).1 (d.scan.syncIdx % d.get Reg.stb_PATTERN_LINES)
      (setScan (fun c => { c with syncIdx := d.scan.syncIdx % d.get Reg.stb_PATTERN_LINES + 1, fireRaw := some d.time.raw })
        (freeDraw d).2)).2.2.2 := by
  have hgo : ¬(d.mode != mCALIBRATE || d.get Reg.stb_STROBE_SOURCE != 1 || !d.hasScan || d.get Reg.stb_PATTERN_LINES == 0) = true := by
    simp [hmode, hsource, hscan, hlines]
  exact if_neg hgo

end

/-- Settles O54: each command is the branch of its rule that the conditions choose. That SCAN_START acts by its row (entry 436)
and that strobe sync fires from entry 0 with a free frame number (entry 445) are the model's choices. -/
theorem scanFollowsEncoders : Obligations.ScanFollowsEncoders := by
  refine ⟨?edge, ?levels, ?index, ?tick, ?start, ?slot, ?fetch, ?strobe⟩
  case edge =>
    intro e a b held j s hscan
    refine ⟨fun hheld => congrArg Host.Outcome.next (if_pos (by rw [hscan, Dev.encPasses, decide_eq_true hheld]; rfl)), fun hshort => ?_⟩
    have hno : ¬(s.dev.hasScan && s.dev.encPasses e held) = true := by
      rw [Dev.encPasses, decide_eq_false (Nat.not_le.mpr hshort), Bool.and_false]
      decide
    exact ⟨congrArg Host.Outcome.next (if_neg hno), congrArg Host.Outcome.next (if_neg hno)⟩
  case levels =>
    intro e a b d he hinvert
    refine ⟨fun hstep => ?_, fun hstep => ?_, fun hstep => ?_⟩
    · rw [encLevels_forward hinvert hstep]
      exact ⟨counted_encoder he .., counted_position ..⟩
    · rw [encLevels_backward hinvert hstep]
      exact counted_encoder he ..
    · rw [encLevels_illegal hstep]
      refine ⟨encIllegal_errors, (encIllegal_count e).trans (encoder_setEnc_count ?_ e)⟩
      exact fun _ => rfl
  case index =>
    intro e held s hscan hheld hmode
    have hpass : (s.dev.hasScan && s.dev.encPasses e held) = true := by
      rw [hscan, Dev.encPasses, decide_eq_true hheld]
      rfl
    refine ⟨_, congrArg Host.Outcome.next (if_pos hpass), ?_⟩
    simp only [onDev_dev, onDev_arb, onDev_mem]
    rw [encIndex_latch hmode]
    refine ⟨(setN_get ..).trans (if_pos rfl), encoder_setEnc_count ?_ e, fun k hk => setN_val_of_ne hk _ _, rfl, trivial, trivial⟩
    exact fun _ => rfl
  case tick =>
    intro e s hscan
    exact ⟨_, congrArg Host.Outcome.next (if_pos hscan), rfl, trackTick_count, rfl, rfl⟩
  case start =>
    intro s hscan hcalm hmode htarget hstate hseen
    have hstart : onDev (scanStart (s.dev.get Reg.scan_START_SOURCE)) s =
        onDev (fun d => post 0x3401 0xFFFF (d.get Reg.scan_START_SOURCE) (tbNow d % 2 ^ 32) (scanReady d)) s :=
      onDev_congr (scanStart_of_armed hmode htarget hstate)
    have hquiet : (onDev (scanStart (s.dev.get Reg.scan_START_SOURCE)) s).dev.calm = true := by
      rw [hstart]
      exact (calm_congr rfl).trans hcalm
    refine ⟨_, (congrArg Host.Outcome.next (if_pos (by rw [hscan, hseen]; rfl))).trans
      (congrArg Host.Outcome.next ((scanSettle_calm hquiet).trans hstart)), ?_⟩
    simp only [onDev_dev, onDev_arb, onDev_mem]
    refine ⟨get_of_val ?_, get_of_val ?_, get_of_val ?_, rfl, rfl, rfl, scanReady_sources .., fun k hstate' hfired hslot => ?_, trivial,
      trivial⟩
    · exact (scanReady_val ..).trans ((if_neg (by decide)).trans ((if_neg (by decide)).trans (if_pos rfl)))
    · exact (scanReady_val ..).trans (if_pos rfl)
    · exact (scanReady_val ..).trans ((if_neg (by decide)).trans (if_pos rfl))
    · exact (scanReady_val ..).trans ((if_neg hfired).trans ((if_neg hslot).trans (if_neg hstate')))
  case slot =>
    intro j s hscan hlive hdir hturn hmore hforward hreached
    exact congrArg Host.Outcome.next ((if_pos hscan).trans
      (congrArg scanSettle (slotTrigger_of_reached hlive hdir hturn hmore hforward hreached)))
  case fetch =>
    intro i s hscan hi
    exact ⟨_, congrArg Host.Outcome.next ((if_pos hscan).trans (if_pos hi)), rfl, rfl, rfl, rfl, rfl⟩
  case strobe =>
    intro s hrouted hmode hsource hscan hlines
    have hsync := strobeSync_of_calibrate hmode hsource hscan hlines
    refine ⟨fun hsoon => ?_, fun hlate => ?_⟩
    · exact congrArg Host.Outcome.next ((if_pos hrouted).trans (onDev_congr (hsync.trans (if_pos hsoon))))
    · exact congrArg Host.Outcome.next ((if_pos hrouted).trans (onDev_congr (hsync.trans (if_neg (by rw [hlate]; decide)))))

end Sys2Proof.Machine
end

section
/-! The statement about the dictionary service: messages, writes of entries, events, and what ends with time. -/

namespace Sys2Proof.Machine

/-! ## Messages that only read (R425, R428, R431) -/

/-- What a message that writes no entry leaves of the state: the log and all that `served` is read from. -/
structure ServedAlike (s t : State) : Prop where
  arb : t.arb = s.arb
  regs : t.dev.regs = s.dev.regs
  boot : t.dev.boot = s.dev.boot

theorem ServedAlike.refl (s : State) : ServedAlike s s := ⟨rfl, rfl, rfl⟩

theorem ServedAlike.trans {s t u : State} (h : ServedAlike s t) (g : ServedAlike t u) : ServedAlike s u :=
  ⟨g.arb.trans h.arb, g.regs.trans h.regs, g.boot.trans h.boot⟩

theorem ServedAlike.served {s t : State} (h : ServedAlike s t) : t.dev.served = s.dev.served := by
  simp only [Dev.served, Dev.mode, get_of_regs h.regs, h.boot]

theorem servedAlike_ite {c : Prop} [Decidable c] {s : State} {x y : Nat × List Byte × State} (hx : ServedAlike s x.2.2)
    (hy : ServedAlike s y.2.2) : ServedAlike s (if c then x else y).2.2 := by
  split
  · exact hx
  · exact hy

/-- A read changes the service at most by the nonce of a challenge. -/
theorem servedAlike_readOne (tr : Transport) (cid k ty : Nat) (s : State) : ServedAlike s (readOne tr cid k ty s).2.2 := by
  unfold readOne
  extract_lets d n
  refine servedAlike_ite (.refl s) (servedAlike_ite (.refl s) (servedAlike_ite (.refl s) (servedAlike_ite (.refl s)
    (servedAlike_ite (servedAlike_ite (.refl s) (.refl s))
      (servedAlike_ite (servedAlike_ite (.refl s) ⟨rfl, rfl, rfl⟩) ?_)))))
  cases readEntry s k with
  | none => exact .refl s
  | some v => exact .refl s

theorem servedAlike_readList (tr : Transport) (cid : Nat) (l : List Item) (room : Nat) (s : State) :
    ServedAlike s (readList tr cid room l s).2 := by
  induction l generalizing room s with
  | nil => exact .refl s
  | cons i l ih => exact (servedAlike_readOne tr cid i.key i.ty s).trans (ih _ _)

theorem servedAlike_readBlock (tr : Transport) (cid : Nat) (i : Item) (off size room : Nat) (s : State) :
    ServedAlike s (readBlock tr cid i off size room s).2 := by
  have h := servedAlike_readOne tr cid i.key i.ty s
  unfold readBlock
  extract_lets r ty part val
  split
  · exact h
  · split <;> exact h

/-- The message asks for no write. -/
def Ask.onlyReads : Ask → Bool
  | .write _ => false
  | .writeBlock _ _ _ _ => false
  | _ => true

theorem handle_of_onlyReads {a : Ask} (h : a.onlyReads = true) (w : Writer) (r : SessionRef) (port : Nat) (m : TuradHead)
    (authed : Bool) (s : State) : ServedAlike s (handle w r port m authed a s).st ∧ (handle w r port m authed a s).proof = false := by
  cases a with
  | read l => exact ⟨servedAlike_readList .., rfl⟩
  | write l => exact absurd h Bool.false_ne_true
  | readBlock i off size => exact ⟨servedAlike_readBlock .., rfl⟩
  | writeBlock i total off data => exact absurd h Bool.false_ne_true
  | subscribe f l => exact ⟨⟨rfl, rfl, rfl⟩, rfl⟩
  | unsubscribe => exact ⟨⟨rfl, rfl, rfl⟩, rfl⟩

/-- The TYPE of the message that asks. -/
def Ask.type : Ask → Nat
  | .read _ => 1
  | .write _ => 2
  | .readBlock _ _ _ => 3
  | .writeBlock _ _ _ _ => 4
  | .subscribe _ _ => 5
  | .unsubscribe => 6

theorem type_of_askOf {m : TuradHead} {a : Ask} (h : askOf m = some a) : m.ty = a.type := by
  unfold askOf at h
  split at h
  case h_1 hty =>
    obtain ⟨l, -, hl⟩ := Option.bind_eq_some_iff.mp h
    split at hl
    · cases hl
      exact hty
    · cases hl
  case h_2 hty =>
    obtain ⟨l, -, rfl⟩ := Option.map_eq_some_iff.mp h
    exact hty
  case h_3 hty =>
    split at h
    · split at h
      · cases h
        exact hty
      · cases h
    · cases h
  case h_4 hty =>
    split at h
    · split at h
      · cases h
        exact hty
      · cases h
    · cases h
  case h_5 hty =>
    extract_lets n at h
    split at h
    · cases h
      exact hty
    · cases h
  case h_6 hty =>
    split at h
    · cases h
      exact hty
    · cases h
  case h_7 => cases h

theorem onlyReads_of_type {a : Ask} (h2 : a.type ≠ 2) (h4 : a.type ≠ 4) : a.onlyReads = true := by
  cases a with
  | write l => exact absurd rfl h2
  | writeBlock i total off data => exact absurd rfl h4
  | _ => rfl

/-! ## Messages of a session (R423, R429) -/

/-- The identity under which a message comes (R437). -/
def senderOf (m : TuradMsg) (client : Nat) : SessionRef :=
  { tr := m.tr, client := client, ip := if m.tr = .udp then m.ip else 0 }

section
variable {m : TuradMsg} {h : TuradHead} {a : Ask} {s : State} (htr : m.tr ≠ .twm)
  (hserved : s.dev.served = true) (hhead : turadHead m.data = some h)
  (hfault : headFault s.dev m.tr m.waiting m.data.length h = none) (hask : askOf h = some a)

section
include htr hhead hfault hask

omit htr hfault hask in
theorem type_of_turadHead : h.ty = rdLe m.data 1 1 := by
  unfold turadHead at hhead
  split at hhead
  · cases hhead
  · cases hhead
    rfl

/-- A message that is in order is taken by the command of its TYPE. -/
theorem turadTake_of_whole {ok : Nat → Bool} {b : List Byte} {t : State} (hok : ok h.ty = true)
    (hanswer : turad m.tr (senderOf m h.cid).ip m.port m.waiting m.data s = (some b, t)) :
    turadTake ok m s = turadSend m.tr (senderOf m h.cid).ip m.port b t := by
  have hty : rdLe m.data 1 1 = h.ty := (type_of_turadHead hhead).symm
  unfold turadTake
  extract_lets ty whole ip r
  have hwhole : whole = true := by
    simp only [whole, hhead, hfault, hask]
    rfl
  have hr : r = (some b, t) := hanswer
  have hgo : ¬(m.tr = .twm ∨ (whole && !(ok ty)) = true) := by
    rw [show ty = h.ty from hty, hok, hwhole]
    simp [htr]
  rw [if_neg (by simpa using hgo), hr]
  rfl

end

include htr hserved hhead hfault hask

theorem turad_of_open {x : Session} (hflags : h.flags = 0) (hauth : s.dev.authNeeded m.tr = false)
    (hsession : s.dev.session? (senderOf m h.cid) = some x) (hks : x.ks = none) :
    turad m.tr (senderOf m h.cid).ip m.port m.waiting m.data s =
      inSession (.client h.cid m.tr) (senderOf m h.cid) m.port h false a s := by
  have hnone : (s.dev.session? (senderOf m h.cid)).bind (fun z => z.ks) = none := by
    rw [hsession]
    exact hks
  unfold turad
  rw [if_neg (by rw [hserved]; decide), hhead]
  dsimp only
  rw [hfault, hask]
  dsimp only
  rw [if_neg htr, if_neg (by rw [hflags]; decide), hauth]
  exact if_neg (by rw [show (s.dev.session? { tr := m.tr, client := h.cid, ip := (senderOf m h.cid).ip }).bind (fun z => z.ks) = none from hnone]; decide)

/-- A message with a new SEQ is handled in its session. -/
theorem turad_of_session {x : Session} (hflags : h.flags = 0) (hauth : s.dev.authNeeded m.tr = false)
    (hsession : s.dev.session? (senderOf m h.cid) = some x) (hks : x.ks = none)
    (hnew : x.responses.find? (fun z => z.1 == h.seq) = none) (hseq : newer32 h.seq x.last = true) :
    turad m.tr (senderOf m h.cid).ip m.port m.waiting m.data s =
      answer (.client h.cid m.tr) (senderOf m h.cid) m.port h false true a
        (onDev (setSession (senderOf m h.cid) (fun z => { z with last := h.seq }))
          (onDev (fun d => setSession (senderOf m h.cid) (fun z => { z with raw := d.time.raw }) d) s)) := by
  rw [turad_of_open htr hserved hhead hfault hask hflags hauth hsession hks]
  unfold inSession
  rw [hsession]
  dsimp only
  rw [hnew, if_pos hseq]

theorem turad_of_exchange {l : List Item} (hl : a = .write l) (hflags : h.flags = 0) (hauth : s.dev.authNeeded m.tr = true)
    (hkeys : ∀ i, i ∈ l → i.key = Reg.auth_AUTH_RESPONSE) (hsession : s.dev.session? (senderOf m h.cid) = none) :
    turad m.tr (senderOf m h.cid).ip m.port m.waiting m.data s =
      answer (.client h.cid m.tr) (senderOf m h.cid) m.port h false false a s := by
  have hexchange : a.exchange = true := by
    rw [hl]
    exact List.all_eq_true.mpr fun i hi => by simpa using hkeys i hi
  unfold turad
  rw [if_neg (by rw [hserved]; decide), hhead]
  dsimp only
  rw [hfault, hask]
  dsimp only
  rw [if_neg htr, if_neg (by rw [hflags]; decide), hauth, if_pos (by rfl), if_pos hexchange]
  rw [show s.dev.session? { tr := m.tr, client := h.cid, ip := (senderOf m h.cid).ip } = none from hsession]
  rfl

end

theorem answer_of_handled {w : Writer} {r : SessionRef} {port : Nat} {h : TuradHead} {inside : Bool} {a : Ask} {s : State} {y : Reply} (hy : y = handle w r port h false a s)
    (hserved : y.st.dev.served = true) (hnext : s.arb.next ≤ y.st.arb.next) :
    answer w r port h false inside a s = (some (turadMsg h.ty r.client y.count h.seq true y.proof
      (if y.proof then (y.st.dev.session? r).bind (fun z => z.ks) else none) y.body),
      if inside || (y.proof && y.st.dev.justOpened r h.seq) then remember r h.seq (turadMsg h.ty r.client y.count h.seq true y.proof
      (if y.proof then (y.st.dev.session? r).bind (fun z => z.ks) else none) y.body) y.st else y.st) := by
  unfold answer
  extract_lets ks x ks' b
  have hx : x = y := hy.symm
  have hks : ks' = if y.proof then (y.st.dev.session? r).bind (fun z => z.ks) else none := by
    simp only [ks', ks, hx]
    cases y.proof <;> rfl
  have hgo : ¬(!x.st.dev.served || decide (x.st.arb.next < s.arb.next)) = true := by
    rw [hx, hserved, decide_eq_false (Nat.not_lt.mpr hnext)]
    decide
  rw [if_neg (by simpa using hgo), ← hks, ← hx]
  rfl

/-- What handling a message leaves: a message that writes is said to leave it, any other does. -/
theorem handled_kept {h : TuradHead} {a : Ask} {w : Writer} {r : SessionRef} {port : Nat} {s s1 : State} {y : Reply}
    (hask : askOf h = some a)
    (hs1 : s1 = onDev (setSession r (fun z => { z with last := h.seq }))
      (onDev (fun d => setSession r (fun z => { z with raw := d.time.raw }) d) s))
    (hy : y = handle w r port h false a s1) (hserved : s.dev.served = true)
    (hwrites : h.ty = 2 ∨ h.ty = 4 → y.st.dev.served = true ∧ s.arb.next ≤ y.st.arb.next ∧ y.proof = false) :
    y.st.dev.served = true ∧ s.arb.next ≤ y.st.arb.next ∧ y.proof = false := by
  by_cases hty : h.ty = 2 ∨ h.ty = 4
  · exact hwrites hty
  · rw [type_of_askOf hask, not_or] at hty
    obtain ⟨hkept, hproof⟩ := handle_of_onlyReads (onlyReads_of_type hty.1 hty.2) w r port h false s1
    have halike : ServedAlike s s1 := by
      rw [hs1]
      exact ⟨rfl, rfl, rfl⟩
    rw [← hy] at hkept hproof
    exact ⟨(halike.trans hkept).served.trans hserved, Nat.le_of_eq (congrArg Arbiter.next (halike.trans hkept).arb).symm, hproof⟩

theorem handleWrite_proof (w : Writer) (r : SessionRef) (port seq : Nat) (authed : Bool) (l : List Item) (s : State) :
    (handleWrite w r port seq authed l s).proof = l.any (fun i => i.key == Reg.auth_AUTH_RESPONSE) := by
  unfold handleWrite
  extract_lets x proof
  split <;> rfl

theorem any_authResponse {l : List Item} (hl : l ≠ []) (hkeys : ∀ i, i ∈ l → i.key = Reg.auth_AUTH_RESPONSE) :
    l.any (fun i => i.key == Reg.auth_AUTH_RESPONSE) = true := by
  obtain ⟨i, hi⟩ := List.exists_mem_of_ne_nil l hl
  exact List.any_eq_true.mpr ⟨i, hi, by simpa using hkeys i hi⟩

/-- A message without a whole header is answered with ERROR 0x0E (R423). -/
theorem turadTake_of_broken {m : TuradMsg} {s : State} {ok : Nat → Bool} (htr : m.tr ≠ .twm) (hserved : s.dev.served = true)
    (hhead : turadHead m.data = none) :
    turadTake ok m s = turadSend m.tr (if m.tr = .udp then m.ip else 0) m.port (turadError 0x0E 0 0 none) s := by
  have hanswer : turad m.tr (if m.tr = .udp then m.ip else 0) m.port m.waiting m.data s = (some (turadError 0x0E 0 0 none), s) := by
    unfold turad
    rw [if_neg (by rw [hserved]; decide), hhead]
  unfold turadTake
  extract_lets ty whole ip r
  have hwhole : whole = false := by simp only [whole, hhead]
  have hr : r = (some (turadError 0x0E 0 0 none), s) := hanswer
  rw [if_neg (by simp [htr, hwhole]), hr]

/-! ## Writes of entries (R419) -/

/-- The states of the controller buses brought up to date. -/
def twSyncAll (d : Dev) : Dev := (List.range 8).foldl (fun e n => twSync n e) d

theorem twSyncAll_val {j : Nat} (hj : ∀ n, n < 8 → j ≠ Reg.tw_TW_STATE n) (d : Dev) : (twSyncAll d).val j = d.val j := by
  have hl : ∀ (l : List Nat), (∀ n, n ∈ l → j ≠ Reg.tw_TW_STATE n) → ∀ e : Dev,
      (l.foldl (fun e n => twSync n e) e).val j = e.val j := by
    intro l
    induction l with
    | nil => exact fun _ _ => rfl
    | cons n l ih =>
      intro h e
      rw [List.foldl_cons, ih (fun i hi => h i (List.mem_cons_of_mem n hi)), twSync_val (h n List.mem_cons_self)]
  exact hl _ (fun n hn => hj n (List.mem_range.mp hn)) d

theorem twSyncAll_proj {β : Type} (g : Dev → β) (hg : ∀ n d, g (twSync n d) = g d) (d : Dev) : g (twSyncAll d) = g d :=
  foldl_proj g (fun d n => hg n d) _ d

theorem writeSettle_calm {s : State} (h : s.dev.calm = true) : writeSettle s = onDev twSyncAll s :=
  settleState_calm _ ((calm_congr (twSyncAll_proj Dev.followUps (fun _ _ => rfl) s.dev)).trans h)

section
variable {w : Writer} {s : State}

theorem exec_dictWrite {k : Nat} {v : Val} (hk : k ≠ Reg.auth_AUTH_RESPONSE) :
    exec (.dictWrite w k v) s = .next (writeSettle (finishWrite s (dictWriteAny w k v s))) := by
  cases w with
  | firmware => rfl
  | client id tr =>
    have h : ¬(k = Reg.auth_AUTH_RESPONSE ∧ tr ≠ .twm) := fun hand => hk hand.1
    exact congrArg (fun x => Host.Outcome.next (writeSettle (finishWrite s x))) (if_neg h)

theorem dictWriteAny_refused {k c : Nat} {v : Val} (hc : writeCheck s.dev w k v = some c) (hk : k ≠ Reg.fab_ARB_MODE) :
    dictWriteAny w k v s = .no c id := by
  unfold dictWriteAny
  rw [hc]
  exact if_neg fun h => hk h.1

theorem dictWriteAny_sessionTimeout {n : Nat} (hc : writeCheck s.dev w Reg.auth_SESSION_TIMEOUT_S (.num n) = none) :
    dictWriteAny w Reg.auth_SESSION_TIMEOUT_S (.num n) s = writePlain w Reg.auth_SESSION_TIMEOUT_S (.num n) s := by
  have hunits : (unitsOf Reg.auth_SESSION_TIMEOUT_S).isEmpty = true := by decide
  unfold dictWriteAny
  rw [hc]
  dsimp only
  unfold dictRoute
  extract_lets idx
  rw [if_pos hunits, if_pos (by decide)]
  unfold writeLow
  dsimp only
  rw [if_neg (by decide), if_neg (by decide), if_neg (by decide), if_neg (by decide), if_neg (by decide), if_neg (by decide)]

theorem sessionTimeout_ne_twState (n : Nat) (_ : n < 8) : Reg.auth_SESSION_TIMEOUT_S ≠ Reg.tw_TW_STATE n := by
  refine ne_of_record (by decide) ?_
  change 0x0110 ≠ 0x3810 + n
  omega

theorem exec_dictWrite_sessionTimeout {n : Nat} (hcalm : s.dev.calm = true)
    (hc : writeCheck s.dev w Reg.auth_SESSION_TIMEOUT_S (.num n) = none) :
    exec (.dictWrite w Reg.auth_SESSION_TIMEOUT_S (.num n)) s = .next (onDev twSyncAll
      (accepted w Reg.auth_SESSION_TIMEOUT_S (.num n) (fun _ => onDev (setV Reg.auth_SESSION_TIMEOUT_S (.num n))) s)) := by
  have hquiet : (accepted w Reg.auth_SESSION_TIMEOUT_S (.num n)
      (fun _ => onDev (setV Reg.auth_SESSION_TIMEOUT_S (.num n))) s).dev.calm = true :=
    (calm_congr (noted_followUps w Reg.auth_SESSION_TIMEOUT_S (.num n) s)).trans hcalm
  have hwrite : finishWrite s (writePlain w Reg.auth_SESSION_TIMEOUT_S (.num n) s) =
      accepted w Reg.auth_SESSION_TIMEOUT_S (.num n) (fun _ => onDev (setV Reg.auth_SESSION_TIMEOUT_S (.num n))) s :=
    finishWrite_ok w _ _ _ _ s hc rfl
  rw [exec_dictWrite (by decide), dictWriteAny_sessionTimeout hc, hwrite, writeSettle_calm hquiet]

theorem exec_dictWrite_refused {k c : Nat} {v : Val} (hcalm : s.dev.calm = true) (hc : writeCheck s.dev w k v = some c)
    (harb : k ≠ Reg.fab_ARB_MODE) (hauth : k ≠ Reg.auth_AUTH_RESPONSE) :
    exec (.dictWrite w k v) s = .next (onDev (fun d => twSyncAll { d with answer := c }) s) := by
  have hquiet : (finishWrite s (.no c id)).dev.calm = true := (calm_congr rfl).trans hcalm
  rw [exec_dictWrite hauth, dictWriteAny_refused hc harb, writeSettle_calm hquiet]
  rfl

end

/-! ## Events (R432) -/

/-- The EVENT message of a subscription, as many records as there is room for. -/
theorem eventSend_of_queued {n : SessionRef} {x : Session} {u : Subscription} {s : State} (hsession : s.dev.session? n = some x)
    (hsub : x.sub = some u) (hqueue : u.queue ≠ []) (htr : n.tr ≠ .mailbox) {room : Nat}
    (hroom : room = (s.dev.turadLimit n.tr - 24 - (if x.ks.isSome then 16 else 0)) / 32) :
    eventSend n s = turadSend n.tr n.ip x.port
      (turadMsg 7 n.client 0 (u.sent % 2 ^ 32) false x.ks.isSome x.ks (leBytes 4 (satU32 u.lost) ++
        leBytes 4 (u.queue.take room).length ++ ((u.queue.take room).map (fun r => r.bytes)).flatten))
      (onDev (setSession n (fun y => { y with
        sub := some { u with queue := u.queue.drop room, lost := 0, sent := u.sent + 1 } })) s) := by
  subst hroom
  have hgo : ¬(u.queue.isEmpty || (decide (n.tr = .mailbox) && (!s.dev.ep.mbxEnable || !s.dev.ep.responses.isEmpty || s.dev.ep.d3hot))) = true := by
    simp [hqueue, htr]
  unfold eventSend
  rw [hsession]
  dsimp only
  rw [hsub]
  exact if_neg hgo

/-! ## What ends with time (R428, R437) -/

section
variable {n : SessionRef} {d : Dev}

theorem setSession_congr {f g : Session → Session} (h : ∀ x, x ∈ d.srv.sessions → x.has n = true → f x = g x) :
    setSession n f d = setSession n g d := by
  refine congrArg (fun l => { d with srv := { d.srv with sessions := l } }) (List.map_congr_left fun x hx => ?_)
  split
  · next hn => exact h x hx hn
  · rfl

theorem closeSession_of_some {x : Session} (h : d.session? n = some x) (cause : Nat) : closeSession n cause d =
    post 0x0102 n.client 0 cause (setSrv (fun v => { v with sessions := v.sessions.filter (fun x => !(x.has n)) }) d) :=
  if_pos (by rw [h]; rfl)

theorem find_filter_not_has (l : List Session) : (l.filter (fun x => !(x.has n))).find? (fun x => x.has n) = none := by
  rw [List.find?_filter]
  simp

theorem find_filter_of_disjoint {r : SessionRef} (h : ∀ y : Session, y.has r = true → y.has n = false) (l : List Session) :
    (l.filter (fun x => !(x.has n))).find? (fun x => x.has r) = l.find? (fun x => x.has r) := by
  rw [List.find?_filter]
  refine congrArg (fun p => l.find? p) (funext fun y => ?_)
  cases hy : y.has r with
  | false => simp
  | true => simp [h y hy]

end

/-- A lockout that has lasted its time ends (R437). -/
def lockEnded (c : Nat) (d : Dev) (f : ProofFails) : ProofFails :=
  if f.client == c && (match f.lockedRaw with | some r => decide (secs 10 ≤ d.cyclesSince r) | none => false) then
    { f with lockedRaw := none } else f

theorem lockEnded_client (c : Nat) (d : Dev) (f : ProofFails) : (lockEnded c d f).client = f.client :=
  (apply_ite ProofFails.client _ _ _).trans (ite_self _)

theorem lockEnded_of_over {c r : Nat} {d : Dev} {f : ProofFails} (hc : f.client = c) (hlocked : f.lockedRaw = some r)
    (hover : secs 10 ≤ d.cyclesSince r) : lockEnded c d f = { f with lockedRaw := none } := by
  have hgo : (f.client == c && (match f.lockedRaw with | some r => decide (secs 10 ≤ d.cyclesSince r) | none => false)) = true := by
    rw [hlocked, hc]
    simpa using hover
  exact if_pos hgo

theorem lockEnded_of_other {c : Nat} {f : ProofFails} (hc : f.client ≠ c) (d : Dev) : lockEnded c d f = f := by
  refine if_neg ?_
  rw [beq_false_of_ne hc, Bool.false_and]
  decide

theorem locked_lockEnded {c : Nat} {d e : Dev} (hfails : e.srv.fails = d.srv.fails.map (lockEnded c d))
    (h : ∀ f, f ∈ d.srv.fails → f.client = c → ∃ r, f.lockedRaw = some r ∧ secs 10 ≤ d.cyclesSince r) : e.locked c = false := by
  rw [Dev.locked, hfails, List.any_map, List.any_eq_false]
  intro f hf
  by_cases hc : f.client = c
  · obtain ⟨r, hlocked, hover⟩ := h f hf hc
    rw [Function.comp_apply, lockEnded_of_over hc hlocked hover]
    simp
  · rw [Function.comp_apply, lockEnded_of_other hc]
    simp [hc]

theorem locked_of_other {c o : Nat} {d e : Dev} (hfails : e.srv.fails = d.srv.fails.map (lockEnded c d)) (ho : o ≠ c) :
    e.locked o = d.locked o := by
  have hsame : ∀ f : ProofFails, ((lockEnded c d f).client == o && (lockEnded c d f).lockedRaw.isSome) =
      (f.client == o && f.lockedRaw.isSome) := by
    intro f
    by_cases hc : f.client = c
    · rw [lockEnded_client, hc, beq_false_of_ne ho.symm, Bool.false_and, Bool.false_and]
    · rw [lockEnded_of_other hc]
  rw [Dev.locked, hfails, List.any_map]
  exact congrArg (fun p => d.srv.fails.any p) (funext hsame)

/-- Settles O52: a message is answered by `answer` in its session, whose response is kept; a message that writes nothing leaves
what the answer depends on. That the response of the request that opened a session is kept is deduced (entry 395). -/
theorem serviceAnswers : Obligations.ServiceAnswers := by
  refine ⟨?message, ?opening, ?broken, ?refused, ?timeout, ?event, ?block, ?session, ?lockout⟩
  case message =>
    intro m h a r x s s1 y b htr hserved hhead hfault hask hflags hauth hr hsession hks hnew hseq hs1 hy hwrites hb t ht
    have hr' : r = senderOf m h.cid := hr
    subst hr'
    obtain ⟨hserved', hnext, hproof⟩ := handled_kept hask hs1 hy hserved hwrites
    have hanswer : turad m.tr (senderOf m h.cid).ip m.port m.waiting m.data s = (some b, remember (senderOf m h.cid) h.seq b y.st) := by
      rw [turad_of_session htr hserved hhead hfault hask hflags hauth hsession hks hnew hseq, ← hs1,
        answer_of_handled hy hserved' (by rw [hs1]; exact hnext), hproof, hb]
      rfl
    have htake : ∀ ok : Nat → Bool, ok h.ty = true → turadTake ok m s = t := fun ok hok =>
      (turadTake_of_whole htr hhead hfault hask hok hanswer).trans ht.symm
    refine ⟨fun hty => ?_, fun hty => ?_, fun hty => ?_, fun hty => ?_, fun hty => ?_, fun hty => ?_, fun hty hnames => ?_⟩
    · exact congrArg Host.Outcome.next (htake (fun t => t == 1) (by rw [hty]; rfl))
    · exact congrArg Host.Outcome.next (htake (fun t => t == 2) (by rw [hty]; rfl))
    · exact congrArg Host.Outcome.next (htake (fun t => t == 3) (by rw [hty]; rfl))
    · exact congrArg Host.Outcome.next (htake (fun t => t == 4) (by rw [hty]; rfl))
    · exact congrArg Host.Outcome.next (htake (fun t => t == 5) (by rw [hty]; rfl))
    · exact congrArg Host.Outcome.next (htake (fun t => t == 6) (by rw [hty]; rfl))
    · exact congrArg Host.Outcome.next ((if_pos hnames).trans (htake (fun t => t == 1) (by rw [hty]; rfl)))
  case opening =>
    intro m h l r s y b htr hserved hhead hfault hask hflags hauth hr hl hkeys hsession hy hserved' hnext hb
    have hr' : r = senderOf m h.cid := hr
    subst hr'
    have hkey := any_authResponse hl hkeys
    have hproof : y.proof = true := by
      rw [hy]
      exact (handleWrite_proof ..).trans hkey
    have hnames : msgNames m Reg.auth_AUTH_RESPONSE = true := by
      unfold msgNames
      rw [hhead, Option.bind_some, hask]
      exact hkey
    have hanswer : turad m.tr (senderOf m h.cid).ip m.port m.waiting m.data s = (some b,
        if y.st.dev.justOpened (senderOf m h.cid) h.seq then remember (senderOf m h.cid) h.seq b y.st else y.st) := by
      rw [turad_of_exchange htr hserved hhead hfault hask rfl hflags hauth hkeys hsession, answer_of_handled hy hserved' hnext, hproof, hb]
      rfl
    exact congrArg Host.Outcome.next ((if_pos hnames).trans
      (turadTake_of_whole htr hhead hfault hask (by rw [type_of_askOf hask]; rfl) hanswer))
  case broken =>
    intro m s hserved htr hhead hty
    exact congrArg Host.Outcome.next (turadTake_of_broken htr hserved hhead)
  case refused =>
    intro w k c v s hcalm hc harb hauth
    refine ⟨_, exec_dictWrite_refused hcalm hc harb hauth, ?_⟩
    simp only [onDev_dev, onDev_arb, onDev_mem]
    exact ⟨twSyncAll_proj Dev.answer (fun _ _ => rfl) _, trivial, trivial, twSyncAll_proj Dev.sources (fun _ _ => rfl) _,
      fun j hj => twSyncAll_val hj _⟩
  case timeout =>
    intro w n s hcalm hc
    refine ⟨_, exec_dictWrite_sessionTimeout hcalm hc, ?_⟩
    simp only [onDev_dev, onDev_mem, onDev_poison]
    refine ⟨twSyncAll_proj Dev.answer (fun _ _ => rfl) _, ?_, accepted_mem .., accepted_poison .., fun j hj hdirty htw => ?_⟩
    · have hset : (twSyncAll (accepted w Reg.auth_SESSION_TIMEOUT_S (.num n)
          (fun _ => onDev (setV Reg.auth_SESSION_TIMEOUT_S (.num n))) s).dev).val Reg.auth_SESSION_TIMEOUT_S = .num n :=
        (twSyncAll_val sessionTimeout_ne_twState _).trans ((setV_val ..).trans (if_pos rfl))
      exact get_of_val hset
    · exact (twSyncAll_val htw _).trans ((setV_val ..).trans ((if_neg hj).trans (noted_val w _ _ s hdirty)))
  case event =>
    intro n x u room s hsession hsub hqueue htr hroom
    exact congrArg Host.Outcome.next (eventSend_of_queued hsession hsub hqueue htr hroom)
  case block =>
    intro n s hover
    refine congrArg Host.Outcome.next (onDev_congr (setSession_congr fun x hx hn => ?_))
    obtain ⟨b, hblock, hdue⟩ := hover x hx hn
    rw [hblock]
    exact if_pos hdue
  case session =>
    intro n x s hsession hdue
    have hclose : exec (.sessionTimeout n) s = .next (onDev (closeSession n 2) s) := by
      refine congrArg Host.Outcome.next (onDev_congr ?_)
      rw [hsession]
      exact if_pos hdue
    refine ⟨_, hclose, ?_⟩
    simp only [onDev_dev, onDev_arb]
    rw [closeSession_of_some hsession]
    exact ⟨find_filter_not_has _, rfl, rfl, trivial, fun r hr => find_filter_of_disjoint hr _⟩
  case lockout =>
    intro c s hover
    exact ⟨_, rfl, locked_lockEnded rfl hover, fun o ho => locked_of_other rfl ho, rfl, rfl, rfl⟩

end Sys2Proof.Machine
end
